-- ==== Sys2Proof/Word.lean ====
section
/-!
DEFINITION. The word types of the IZ9 model: bytes, 64-bit registers, 32-bit lanes, and byte strings (00 R4, R5).
-/
namespace Sys2Proof

/-- One byte of a packet, record or memory (R5). -/
abbrev Byte := BitVec 8

/-- A control register is 64 bits wide (R6). -/
abbrev Word := BitVec 64

/-- A vector-lane register (07 R176). -/
abbrev Lane := BitVec 32

/-- A byte string, lowest offset first (R5). -/
abbrev Bytes := List Byte

end Sys2Proof
end

