-- ==== Sys2Proof/Machine/Bits.lean ====
section
/-!
DEFINITION. Bit fields, little-endian byte strings and sparse maps: the helpers every unit uses (00 R4, R5).
-/
namespace Sys2Proof.Machine

/-- Field [hi:lo] of a number (R4). -/
def bitsOf (x hi lo : Nat) : Nat := (x >>> lo) % 2 ^ (hi + 1 - lo)

/-- Bit n of a number (R4). -/
def bitOf (x n : Nat) : Bool := x.testBit n

/-- 1 for true, 0 for false. -/
def b2n (b : Bool) : Nat := if b then 1 else 0

/-- Field [hi:lo] of a register. -/
def fld (w : Word) (hi lo : Nat) : Nat := bitsOf w.toNat hi lo

/-- The register with field [hi:lo] set to the low bits of v, all other bits as they were. -/
def setFld (w : Word) (hi lo v : Nat) : Word :=
  BitVec.ofNat 64 (w.toNat - fld w hi lo * 2 ^ lo + (v % 2 ^ (hi + 1 - lo)) * 2 ^ lo)

/-- A bit of a register. -/
def bitW (w : Word) (n : Nat) : Bool := w.toNat.testBit n

/-- Saturating addition for a counter field of the given width. -/
def satAdd (width x d : Nat) : Nat := min (2 ^ width - 1) (x + d)

/-- The number a little-endian byte string stands for (R5). -/
def leNat : Bytes → Nat
  | [] => 0
  | b :: bs => b.toNat + 256 * leNat bs

/-- The n bytes of a number, lowest offset first (R5). -/
def natLe : Nat → Nat → Bytes
  | 0, _ => []
  | n + 1, x => BitVec.ofNat 8 (x % 256) :: natLe n (x / 256)

/-- n bytes from an offset. -/
def sub (b : Bytes) (off n : Nat) : Bytes := (b.drop off).take n

/-- The little-endian field of n bytes at an offset; bytes beyond the end read as zero. -/
def uAt (b : Bytes) (off n : Nat) : Nat := leNat (sub b off n)

/-- n zero bytes. -/
def zeros (n : Nat) : Bytes := List.replicate n 0

/-- Whether every byte is zero. -/
def allZero (b : Bytes) : Bool := b.all (· == 0)

/-- Exactly n bytes: cut, or filled up with zeros. -/
def fit (n : Nat) (b : Bytes) : Bytes := b.take n ++ zeros (n - b.length)

/-- A big-endian number as n bytes, highest first. -/
def natBe (n x : Nat) : Bytes := (natLe n x).reverse

/-- The number a big-endian byte string stands for. -/
def beNat (b : Bytes) : Nat := leNat b.reverse

/-- Bitwise exclusive OR of two byte strings, as long as the shorter. -/
def xorBytes : Bytes → Bytes → Bytes
  | a :: as, b :: bs => (a ^^^ b) :: xorBytes as bs
  | _, _ => []

/-- The ASCII bytes of a literal whose character codes are given. -/
def ascii (cs : List Nat) : Bytes := cs.map (BitVec.ofNat 8)

/-- Integer ceiling division. -/
def cdiv (a b : Nat) : Nat := (a + b - 1) / b

/-- Replace element n of a list by f of it; the list is unchanged beyond its end. -/
def modNth {α : Type} (n : Nat) (f : α → α) : List α → List α
  | [] => []
  | x :: xs =>
    match n with
    | 0 => f x :: xs
    | k + 1 => x :: modNth k f xs

/-! ### Sorting -/

/-- Two lists in order merged; of equal elements those of the first stand first. The number bounds the steps. -/
def mergeBy {α : Type} (le : α → α → Bool) : Nat → List α → List α → List α
  | 0, xs, ys => xs ++ ys
  | _ + 1, [], ys => ys
  | _ + 1, xs, [] => xs
  | n + 1, x :: xs, y :: ys => if le x y then x :: mergeBy le n xs (y :: ys) else y :: mergeBy le n (x :: xs) ys

/-- Neighbouring lists merged two by two. -/
def mergePairs {α : Type} (le : α → α → Bool) : List (List α) → List (List α)
  | a :: b :: r => mergeBy le (a.length + b.length) a b :: mergePairs le r
  | l => l

/-- Lists in order merged round by round into one. -/
def mergeAll {α : Type} (le : α → α → Bool) : Nat → List (List α) → List α
  | 0, ls => ls.flatten
  | n + 1, ls => match ls with | [] => [] | [l] => l | _ => mergeAll le n (mergePairs le ls)

/-- A list sorted; equal elements keep their order. -/
def sortBy {α : Type} (le : α → α → Bool) (l : List α) : List α := mergeAll le l.length (l.map fun x => [x])

/-- Numbers in rising order. -/
def sortNat (l : List Nat) : List Nat := sortBy (fun a b => decide (a ≤ b)) l

/-! ### Sparse maps: strictly rising keys -/

/-- A sparse map from numbers: the canonical form has strictly rising keys (SMap.sorted). -/
abbrev SMap (α : Type) := List (Nat × α)

/-- The value at a key, or none. -/
def mapGet {α : Type} (m : SMap α) (k : Nat) : Option α :=
  match m with
  | [] => none
  | (i, v) :: r => if i = k then some v else mapGet r k

/-- The map with a value at a key. -/
def mapPut {α : Type} (m : SMap α) (k : Nat) (v : α) : SMap α :=
  match m with
  | [] => [(k, v)]
  | (i, w) :: r => if k < i then (k, v) :: (i, w) :: r else if k = i then (k, v) :: r else (i, w) :: mapPut r k v

/-- The map without a key. -/
def mapDel {α : Type} (m : SMap α) (k : Nat) : SMap α :=
  match m with
  | [] => []
  | (i, w) :: r => if i = k then r else (i, w) :: mapDel r k

/-- The value at a key, d where the map lists none. -/
def mapGetD {α : Type} (d : α) (m : SMap α) (k : Nat) : α := (mapGet m k).getD d

/-- Write a value; the default value d is written by removing the key, so that equal maps are equal lists. -/
def mapPutD {α : Type} [DecidableEq α] (d : α) (m : SMap α) (k : Nat) (v : α) : SMap α :=
  if v = d then mapDel m k else mapPut m k v

/-- The canonical form of a sparse map: keys strictly rise. -/
def mapSorted {α : Type} : SMap α → Bool
  | [] => true
  | [_] => true
  | (i, _) :: (j, w) :: r => decide (i < j) && mapSorted ((j, w) :: r)

/-- The canonical form over a default: keys strictly rise and no value is the default. -/
def mapCanon {α : Type} [DecidableEq α] (d : α) (m : SMap α) : Bool :=
  mapSorted m && m.all (fun p => decide (p.2 ≠ d))

/-- A set of numbers in one canonical form: strictly rising. -/
def setIns (x : Nat) : List Nat → List Nat
  | [] => [x]
  | y :: r => if x < y then x :: y :: r else if x = y then y :: r else y :: setIns x r

/-- A number taken out of a set. -/
def setDel (x : Nat) (s : List Nat) : List Nat := s.filter (· != x)

/-- Keep the last n elements of a list (oldest first). -/
def lastN {α : Type} (n : Nat) (l : List α) : List α := l.drop (l.length - n)

end Sys2Proof.Machine
end

