-- ==== Sys2Proof/Machine/Numeric.lean ====
section
/-!
DEFINITION. Exact values and the one rounding that every engine uses (04 R88 to R92, R98 to R101, 06 R143): a value is a signed dyadic number, an infinity or NaN, and a conversion rounds it once onto the destination's grid.
-/
namespace Sys2Proof.Machine

/-- An exact value: NaN, an infinity, or (-1)^neg · m · 2^e (m = 0 is the zero of that sign). -/
inductive XV where
  | nan
  | inf (neg : Bool)
  | fin (neg : Bool) (m : Nat) (e : Int)
  deriving DecidableEq, Repr

/-- ROUND of a format block (R84), and the rounding mode of a conversion (R98). -/
inductive Rnd where
  | rne | sr | rtz
  deriving DecidableEq, Repr

/-- The formats of R85. -/
inductive Fmt where
  | fp32 | bf16 | fp16 | e4m3 | e5m2 | p6 | p4 | p3 | p2 | fp64 | a40 | fp32x2
  deriving DecidableEq, Repr

/-- The format a code of R85 names; codes 0xC to 0xF are reserved. -/
def fmtOfCode : Nat → Option Fmt
  | 0 => some .fp32 | 1 => some .bf16 | 2 => some .fp16 | 3 => some .e4m3 | 4 => some .e5m2 | 5 => some .p6
  | 6 => some .p4 | 7 => some .p3 | 8 => some .p2 | 9 => some .fp64 | 10 => some .a40 | 11 => some .fp32x2
  | _ => none

/-- The code of a format (R85). -/
def Fmt.code : Fmt → Nat
  | .fp32 => 0 | .bf16 => 1 | .fp16 => 2 | .e4m3 => 3 | .e5m2 => 4 | .p6 => 5
  | .p4 => 6 | .p3 => 7 | .p2 => 8 | .fp64 => 9 | .a40 => 10 | .fp32x2 => 11

/-- Bits of one element in memory (R85; A40 in its 8-byte container, FP32X2 stored as FP32). -/
def Fmt.width : Fmt → Nat
  | .fp32 => 32 | .bf16 => 16 | .fp16 => 16 | .e4m3 => 8 | .e5m2 => 8 | .p6 => 6
  | .p4 => 4 | .p3 => 3 | .p2 => 2 | .fp64 => 64 | .a40 => 64 | .fp32x2 => 32

/-- Whether a format carries a UE8 scale per 32 elements (R85). -/
def Fmt.blockScaled : Fmt → Bool
  | .e4m3 | .e5m2 | .p6 | .p4 | .p3 | .p2 => true
  | _ => false

/-- Whether a format may carry outlier escapes (R85). -/
def Fmt.escapes : Fmt → Bool
  | .p4 | .p3 | .p2 => true
  | _ => false

/-- The narrow block formats of R92. -/
def Fmt.narrow : Fmt → Bool
  | .p6 | .p4 | .p3 | .p2 => true
  | _ => false

/-! ### Dyadic arithmetic -/

/-- floor(log2 (m · 2^e)) for m > 0. -/
def ilog2 (m : Nat) (e : Int) : Int := (Nat.log2 m : Int) + e

/-- m · 2^e as a natural number of units 2^q, rounded down, with whether anything was lost. -/
def unitsOf (m : Nat) (e q : Int) : Nat × Bool :=
  if q ≤ e then (m <<< (e - q).toNat, false)
  else
    let k := (q - e).toNat
    let n := m >>> k
    (n, decide (n <<< k ≠ m))

/-- Compare magnitudes m1 · 2^e1 and m2 · 2^e2. -/
def magCmp (m1 : Nat) (e1 : Int) (m2 : Nat) (e2 : Int) : Ordering :=
  let q := min e1 e2
  compare (m1 <<< (e1 - q).toNat) (m2 <<< (e2 - q).toNat)

/-- The exact sum; a zero sum is +0 unless both terms are -0 (R143). -/
def xAdd : XV → XV → XV
  | .nan, _ => .nan
  | _, .nan => .nan
  | .inf a, .inf b => if a = b then .inf a else .nan
  | .inf a, _ => .inf a
  | _, .inf b => .inf b
  | .fin sa ma ea, .fin sb mb eb =>
    let q := min ea eb
    let a : Int := (ma <<< (ea - q).toNat : Nat)
    let b : Int := (mb <<< (eb - q).toNat : Nat)
    let s := (if sa then -a else a) + (if sb then -b else b)
    if s = 0 then .fin (sa && sb && ma == 0 && mb == 0) 0 0
    else .fin (decide (s < 0)) s.natAbs q

/-- The negated value. -/
def xNeg : XV → XV
  | .nan => .nan
  | .inf a => .inf (!a)
  | .fin s m e => .fin (!s) m e

/-- The absolute value. -/
def xAbs : XV → XV
  | .nan => .nan
  | .inf _ => .inf false
  | .fin _ m e => .fin false m e

/-- The exact product. -/
def xMul : XV → XV → XV
  | .nan, _ => .nan
  | _, .nan => .nan
  | .inf a, .inf b => .inf (a != b)
  | .inf a, .fin s m _ => if m = 0 then .nan else .inf (a != s)
  | .fin s m _, .inf b => if m = 0 then .nan else .inf (s != b)
  | .fin sa ma ea, .fin sb mb eb => .fin (sa != sb) (ma * mb) (ea + eb)

/-- The value times 2^k, exactly. -/
def xScale (k : Int) : XV → XV
  | .fin s m e => .fin s m (e + k)
  | x => x

/-- Whether a value is NaN. -/
def xIsNan : XV → Bool
  | .nan => true
  | _ => false

/-- Whether a value is finite. -/
def xFinite : XV → Bool
  | .fin _ _ _ => true
  | _ => false

/-- Whether a value is a zero of either sign. -/
def xIsZero : XV → Bool
  | .fin _ m _ => m == 0
  | _ => false

/-- The sign bit of a value; NaN has none. -/
def xSign : XV → Bool
  | .nan => false
  | .inf s => s
  | .fin s _ _ => s

/-- a < b for values that are not NaN; +0 counts as larger than -0 when zeroSigned holds (R161, R186). -/
def xLt (zeroSigned : Bool) : XV → XV → Bool
  | .nan, _ => false
  | _, .nan => false
  | .inf a, .inf b => a && !b
  | .inf a, _ => a
  | _, .inf b => !b
  | .fin sa ma ea, .fin sb mb eb =>
    if ma = 0 ∧ mb = 0 then zeroSigned && sa && !sb
    else if ma = 0 then !sb
    else if mb = 0 then sa
    else if sa != sb then sa
    else
      match magCmp ma ea mb eb with
      | .lt => !sa
      | .gt => sa
      | .eq => false

/-- The larger value, NaN if either is; +0 is larger than -0 (R161, R186). -/
def xMax (a b : XV) : XV := if xIsNan a || xIsNan b then .nan else if xLt true a b then b else a

/-- The smaller value, NaN if either is; +0 is larger than -0 (R161, R186). -/
def xMin (a b : XV) : XV := if xIsNan a || xIsNan b then .nan else if xLt true b a then b else a

/-! ### Scalar layouts (R88, R89) -/

/-- Layout of a binary format: exponent bits, fraction bits, bias. -/
structure FloatLay where
  eb : Nat
  fb : Nat
  bias : Nat
  deriving DecidableEq, Repr

/-- The layouts of R88 and of P6 and P4 (R92); P3 and P2 have none. -/
def layOf : Fmt → FloatLay
  | .fp64 => ⟨11, 52, 1023⟩
  | .fp32 | .fp32x2 => ⟨8, 23, 127⟩
  | .bf16 => ⟨8, 7, 127⟩
  | .fp16 => ⟨5, 10, 15⟩
  | .e4m3 => ⟨4, 3, 7⟩
  | .e5m2 => ⟨5, 2, 15⟩
  | .a40 => ⟨9, 30, 255⟩
  | .p6 => ⟨2, 3, 1⟩
  | .p4 => ⟨2, 1, 1⟩
  | .p3 => ⟨2, 0, 1⟩
  | .p2 => ⟨0, 1, 0⟩

/-- The exact value of an element code (R88, R89, R90, R92). -/
def decodeElem (f : Fmt) (c : Nat) : XV :=
  match f with
  | .p2 =>
    match c % 4 with
    | 0 => .fin false 0 0
    | 1 => .fin false 1 0
    | 2 => .fin true 2 0
    | _ => .fin true 1 0
  | .p3 =>
    let s := c.testBit 2
    match c % 4 with
    | 0 => .fin s 0 0
    | 1 => .fin s 1 0
    | 2 => .fin s 1 1
    | _ => .fin s 1 2
  | f =>
    let l := layOf f
    let fr := c % 2 ^ l.fb
    let ex := (c >>> l.fb) % 2 ^ l.eb
    let s := c.testBit (l.fb + l.eb)
    let top := 2 ^ l.eb - 1
    let special := match f with
      | .p6 | .p4 => false
      | .e4m3 => ex == top && fr == 7
      | _ => ex == top
    if special then
      (if fr = 0 && f ≠ .e4m3 then .inf s else .nan)
    else if ex = 0 then
      (match f with
        | .a40 => .fin s 0 0
        | _ => .fin s fr (1 - (l.bias : Int) - l.fb))
    else .fin s (2 ^ l.fb + fr) ((ex : Int) - l.bias - l.fb)

/-- The canonical NaN of a scalar format (R89); 0 for a format without NaN. -/
def canonNan : Fmt → Nat
  | .fp64 => 0x7FF8000000000000
  | .fp32 | .fp32x2 => 0x7FC00000
  | .bf16 => 0x7FC0
  | .fp16 => 0x7E00
  | .e4m3 => 0x7F
  | .e5m2 => 0x7E
  | .a40 => 0x7FE0000000
  | _ => 0

/-- The largest finite magnitude of a format as m · 2^e (R89, R92); P2 depends on the sign: +1 or -2. -/
def maxFin (f : Fmt) (neg : Bool) : Nat × Int :=
  match f with
  | .fp64 => (2 ^ 53 - 1, 971)
  | .fp32 | .fp32x2 => (2 ^ 24 - 1, 104)
  | .bf16 => (2 ^ 8 - 1, 120)
  | .fp16 => (2 ^ 11 - 1, 5)
  | .e4m3 => (7, 6)
  | .e5m2 => (7, 13)
  | .a40 => (2 ^ 31 - 1, 225)
  | .p6 => (15, -1)
  | .p4 => (3, 1)
  | .p3 => (1, 2)
  | .p2 => if neg then (1, 1) else (1, 0)

/-- Exponent of the largest power of two a block format holds (E_f of R97). -/
def expAllow : Fmt → Int
  | .p2 => 0
  | .p3 | .p4 | .p6 => 2
  | .e4m3 => 8
  | .e5m2 => 15
  | _ => 0

/-! ### Rounding (R98, R99, R101) -/

/-- Choose between the lower neighbour and the upper one: whether to take the upper, from how x - lo compares with half the gap, whether x is lo, whether the upper code is even, the 16 bits of the draw, and t of R99. -/
def pickUp (mode : Rnd) (exact : Bool) (half : Ordering) (hiEven : Bool) (r t : Nat) : Bool :=
  if exact then false
  else
    match mode with
    | .rtz => false
    | .rne => match half with
      | .gt => true
      | .lt => false
      | .eq => hiEven
    | .sr => decide (2 ^ 16 ≤ t + r)

/-- Round m · 2^e onto multiples of 2^q; the answer is the number of units. -/
def roundUnits (mode : Rnd) (r m : Nat) (e q : Int) : Nat :=
  if q ≤ e then m <<< (e - q).toNat
  else
    let k := (q - e).toNat
    let lo := m >>> k
    let rem := m - (lo <<< k)
    let half := compare (2 * rem) (2 ^ k)
    let t := (rem <<< 16) >>> k
    if pickUp mode (rem == 0) half (lo % 2 == 1) (r % 2 ^ 16) t then lo + 1 else lo

/-- Round a magnitude onto P3's grid 0, 1, 2, 4, 8, … (R92, R101): the answer is the grid index. -/
def roundP3 (mode : Rnd) (r m : Nat) (e : Int) : Nat :=
  if m = 0 then 0
  else
    let l := ilog2 m e
    if l < 0 then
      roundUnits mode r m e 0
    else
      -- between index l+1 (value 2^l) and l+2 (value 2^(l+1)); the gap is 2^l
      let i := l.toNat + 1
      let q := min e l
      let unit := 1 <<< (l - q).toNat
      let rem := (m <<< (e - q).toNat) - unit
      let half := compare (2 * rem) unit
      let t := (rem * 2 ^ 16) / unit
      if pickUp mode (rem == 0) half (i % 2 == 1) (r % 2 ^ 16) t then i + 1 else i

/-- Value of a P3 grid index. -/
def p3Value (i : Nat) : Nat × Int := if i = 0 then (0, 0) else (1, (i : Int) - 1)

/-- A magnitude rounded onto a format's grid with unbounded exponent range (R101), as n · 2^q. -/
def roundMag (f : Fmt) (mode : Rnd) (r m : Nat) (e : Int) : Nat × Int :=
  if m = 0 then (0, 0)
  else
    match f with
    | .p2 => (roundUnits mode r m e 0, 0)
    | .p3 => p3Value (roundP3 mode r m e)
    | .a40 =>
      let q := ilog2 m e - 30
      (roundUnits mode r m e q, q)
    | f =>
      let l := layOf f
      let q := max (ilog2 m e) (1 - (l.bias : Int)) - l.fb
      (roundUnits mode r m e q, q)

/-- Encode a finite magnitude that lies on the format's grid and does not exceed its largest value. -/
def encodeFin (f : Fmt) (neg : Bool) (m : Nat) (e : Int) : Nat :=
  match f with
  | .p2 =>
    let v := (unitsOf m e 0).1
    if neg then (4 - v) % 4 else v
  | .p3 =>
    let i := if m = 0 then 0 else (ilog2 m e).toNat + 1
    b2n neg * 4 + i
  | f =>
    let l := layOf f
    let s := b2n neg * 2 ^ (l.fb + l.eb)
    if m = 0 then s
    else
      let lg := ilog2 m e
      let emin : Int := 1 - l.bias
      if lg < emin then
        match f with
        | .a40 => s
        | _ => s + (unitsOf m e (emin - l.fb)).1
      else
        let n := (unitsOf m e (lg - l.fb)).1
        s + (lg + l.bias).toNat * 2 ^ l.fb + (n - 2 ^ l.fb)

/-- The code of an infinity (R89). -/
def encodeInf (f : Fmt) (neg : Bool) : Nat :=
  let l := layOf f
  b2n neg * 2 ^ (l.fb + l.eb) + (2 ^ l.eb - 1) * 2 ^ l.fb

/-- Whether a format has infinities (R89). -/
def hasInf : Fmt → Bool
  | .fp64 | .fp32 | .bf16 | .fp16 | .e5m2 | .a40 | .fp32x2 => true
  | _ => false

/-- Whether a rounded magnitude exceeds the largest finite value of the format (R101). -/
def overflows (f : Fmt) (neg : Bool) (m : Nat) (e : Int) : Bool :=
  m != 0 && magCmp m e (maxFin f neg).1 (maxFin f neg).2 == .gt

/-- What an overflow gives (R101). -/
def overflowCode (f : Fmt) (mode : Rnd) (sat neg : Bool) : Nat :=
  let big := encodeFin f neg (maxFin f neg).1 (maxFin f neg).2
  match f with
  | .a40 => encodeInf f neg
  | .p6 | .p4 | .p3 | .p2 => big
  | .e4m3 => if sat || mode == .rtz then big else canonNan f
  | _ => if sat || mode == .rtz then big else encodeInf f neg

/-- One conversion into a scalar or element format (R98, R100, R101); r holds the 16 low bits of the draw under SR. A40 always rounds to nearest. -/
def convert (f : Fmt) (mode : Rnd) (sat : Bool) (r : Nat) (x : XV) : Nat :=
  let mode := if f = .a40 then .rne else mode
  match x with
  | .nan => canonNan f
  | .inf s =>
    if hasInf f then encodeInf f s
    else if f = .e4m3 then (if sat then encodeFin f s (maxFin f s).1 (maxFin f s).2 else canonNan f)
    else encodeFin f s (maxFin f s).1 (maxFin f s).2
  | .fin s m e =>
    let (n, q) := roundMag f mode r m e
    if overflows f s n q then overflowCode f mode sat s
    else encodeFin f s n q

/-- Whether a finite value overflows the format when rounded to nearest (SAT_COUNT, R107, R108). -/
def satRne (f : Fmt) : XV → Bool
  | .fin s m e => overflows f s (roundMag f .rne 0 m e).1 (roundMag f .rne 0 m e).2
  | _ => false

/-- Whether a finite non-zero value rounds to zero (FLUSH_COUNT, R107, R108). -/
def flushRne (f : Fmt) : XV → Bool
  | .fin s m e => m != 0 && xIsZero (decodeElem f (convert f .rne true 0 (.fin s m e)))
  | _ => false

/-! ### A40 arithmetic (R90, R143) -/

/-- Round an exact value into A40, as a value. -/
def toA40 (x : XV) : XV := decodeElem .a40 (convert .a40 .rne false 0 x)

/-- Whether rounding into A40 made zero of a non-zero value (R90). -/
def a40Flushed (x : XV) : Bool := !xIsZero x && xIsZero (toA40 x)

/-- One addition into an A40 accumulator (R143). -/
def a40Add (run addend : XV) : XV := toA40 (xAdd run addend)

/-- Round to the values of a format, as a value. -/
def roundTo (f : Fmt) (mode : Rnd) (sat : Bool) (r : Nat) (x : XV) : XV := decodeElem f (convert f mode sat r x)

end Sys2Proof.Machine
end

