-- ==== Sys2Proof/Payload.lean ====
section
/-!
DEFINITION. The data that commands carry from outside: who accesses a register, which hardware upset the environment brings, the frames and documents that arrive.
-/
namespace Sys2Proof.Machine

/-- Who makes a register access (02 R21, 23 R693): the management core, a Helm core, the pilot's host through a BAR, or the register path. -/
inductive Requester where
  | mgmt
  | helm (core : Fin 32)
  | host
  | regPath
  deriving DecidableEq, Repr

/-- A hardware upset that meets the command which names it (05 R129, 10 R265 to R280, 12 R339, R340; DESIGN CHOICE, assumption log 7). -/
inductive Upset where
  /-- A stored byte, by physical address, changes by an exclusive OR with the mask. -/
  | memFlip (addr mask : Nat)
  /-- The first read of the 4 KiB block at this physical address fails its hallmark; the second reads what is stored. -/
  | transient (block : Nat)
  /-- A corrected error in the 64-byte granule at this physical address, seen by its first read. -/
  | corrected (addr : Nat)
  /-- An uncorrected error in the granule at this physical address. -/
  | uncorrected (addr : Nat)
  /-- The duplicated datapaths of the engine disagree on this many tries in a row (R275). -/
  | mismatch (tries : Nat)
  /-- An accumulator of the array: row, column, exclusive OR mask of the sum's code (R271). -/
  | accFlip (row col mask : Nat)
  /-- The Vernier's own sum of a column (R272). -/
  | vernFlip (row col mask : Nat)
  /-- A banded checksum or block sum of the pass (R273). -/
  | blockSum (row : Nat)
  deriving DecidableEq, Repr

/-- A SUPERFRAME block as received (14 R398, 02 R25): the port and what the block says, with the four timestamps of the marker exchange in ps; sent marks the time the sender gives as its count, good whether the block verifies. -/
structure MarkerIn where
  port : Nat
  good : Bool
  rank : Nat
  sourceFid : Nat
  hops : Nat
  peerFid : Nat
  t1 : Nat
  t2 : Nat
  t3 : Nat
  t4 : Nat
  deriving DecidableEq, Repr

/-- What a row of a queued command acts on: the packet at the head of the intake, or one cursor unit of the running work of a stream's command (DESIGN CHOICE, assumption log 6). -/
inductive CmdArg where
  | intake
  | work (stream counter : Nat) (ups : List Upset)
  deriving DecidableEq, Repr

/-- A lookup's row on its way into a bag: its stored bytes and its scale bytes (R215). -/
structure RowData where
  lookup : Nat
  elems : Bytes
  scales : Bytes
  deriving DecidableEq, Repr

/-- A contribution as it travels (R219): the source lookup and row, the gradient row as stored, and the factors the owner multiplies it by. seq numbers the contributions of one source to one owner. -/
structure Contribution where
  source : Nat
  lookup : Nat
  row : Nat
  seq : Nat
  gradFmt : Nat
  grad : Bytes
  scales : Bytes
  alpha : Nat
  weight : Option Nat
  divisor : Nat
  deriving DecidableEq, Repr

/-- What answers an embedding frame (R215, R222): a row for a lookup, or an owner's word that it has applied the contribution of a lookup. -/
inductive EmbAnswer where
  | row (r : RowData)
  | applied (lookup : Nat)
  deriving DecidableEq, Repr

/-- A relay frame (R163): a piece of one hop. -/
structure RelayFrame where
  relayId : Nat
  seg : Nat
  copy : Bool
  fromPos : Nat
  offset : Nat
  digest : Nat
  data : Bytes
  deriving DecidableEq, Repr

/-- A verdict or vote (R287), worst last. -/
inductive Verdict where
  | clean | suspect | notClean
  deriving DecidableEq, Repr

/-- A vote frame (R289), with the lowest version so far of ports that admit the slice, 0 if none (14 R416). -/
structure Vote where
  step : Nat
  action : Nat
  beat : Nat
  worst : Verdict
  suspects : Nat
  fids : List Nat
  version : Nat
  deriving DecidableEq, Repr

/-- A decision (R289). -/
inductive DecisionKind where
  | commit | hold | abandon
  deriving DecidableEq, Repr

/-- A decision with the suspect count, fabric IDs and lowest version it carries, and the beat and chain of its COMMIT (R289, 14 R416, 16 R488); missing says that a vote was missing (R295). -/
structure Decision where
  step : Nat
  kind : DecisionKind
  beat : Nat
  chain : Nat
  suspects : Nat
  fids : List Nat
  version : Nat
  missing : Bool
  deriving DecidableEq, Repr

/-- A parity delta or, without data, the notice that a unit is STALE (17 R505, R506): the sender, its data unit and the offset of the block. -/
structure DeltaIn where
  fid : Nat
  unit : Nat
  offset : Nat
  data : Option Bytes
  deriving DecidableEq, Repr

/-- What a reading frame carries (17 R507 to R516): the block with its hallmark, or that the steps differ, the block cannot be read, the unit is STALE, the sender's rebuild has ended, a block to write in place of a minority's, or the sender's committed step with P_T and D_T of every stream. -/
inductive ReadingBody where
  | block (data : Bytes) (hallmark : Nat)
  | stepDiffers
  | unavailable
  | stale
  | rebuilt
  | rewrite (data : Bytes)
  | streams (step : Nat) (draws : List (Nat × Nat))
  deriving DecidableEq, Repr

/-- What a request for a reading asks for: a block, a block for a fold, or the step and draw counters (17 R506, R507, R510). -/
inductive ReadingAsk where
  | block | fold | streams
  deriving DecidableEq, Repr

/-- A ferry frame (R254, R255): a block by its index with its offset in the receive window, as ciphertext and tag, or the final frame with BYTES. -/
structure FerryFrame where
  port : Nat
  ferryId : Nat
  step : Nat
  index : Nat := 0
  offset : Nat := 0
  final : Option Nat := none
  ct : Bytes := []
  tag : Bytes := []
  deriving DecidableEq, Repr

/-- What a receiver is told in a TRAILER or ACK block (14 R398): ACK, the cumulative freed units of each class, NAK. -/
structure AckIn where
  ack : Nat
  credits : List Nat
  nak : Bool
  deriving DecidableEq, Repr

/-- A frame as received (14 R400, R403): whether every block came from a corrected codeword, its header, ciphertext and tag, and its TRAILER's acknowledgement. -/
structure FrameIn where
  good : Bool
  header : Bytes
  ct : Bytes
  tag : Bytes
  trailer : AckIn
  deriving DecidableEq, Repr

/-- An ALIGN block as received on the filter of a wavelength (14 R397, R398), with the rings, by kind and wavelength, that the check of 15 R440 finds outside their window should it name another wavelength (15 R443). -/
structure AlignIn where
  filter : Nat
  formed : Bool
  logical : Nat
  wavelength : Nat
  port : Nat
  marker : Nat
  outside : List (Nat × Nat)
  deriving DecidableEq, Repr

/-- A lane fault as the receiver finds it (14 R410): consecutive ALIGN blocks missing, uncorrectable codewords within one beat, corrected symbols in one marker interval, skew in ns, or lost light. -/
inductive LaneFault where
  | missing (n : Nat)
  | codewords (n : Nat)
  | symbols (n : Nat)
  | skew (ns : Nat)
  | light
  deriving DecidableEq, Repr

/-- A KX_HELLO (18 R543, R546): certificate chain, encapsulation key, nonce, signature, and the sender's report in the exchange for a ferry key. -/
structure HelloIn where
  chain : Bytes
  ek : Bytes
  nonce : Bytes
  sig : Bytes
  report : Bytes
  deriving DecidableEq, Repr

/-- What the module measures at the start of a beat: the wavelengths with light and a locked ring at each port (14 R413), the 72 Lantern readings in 0.01 dBm by fibre × 9 + line (15 R451), rings outside their window with the line they hold (15 R440), temperatures in °C of the seven logic dies CD0 to CD3, Arbor, RD0, RD1 and of the eight stacks, coolant in 0.1 °C (22 R675, R681), the offsets of both crystal inputs in ppm, none where absent (21 R634), the level of PILOT_SEL (22 R660), and whether the host-port function is in D3hot (21 R641). -/
structure BeatIn where
  lights : SMap Nat := []
  feeds : List Int := []
  rings : SMap Nat := []
  logic : List Int := []
  hbm : List Int := []
  inlet : Int := 0
  outlet : Int := 0
  xinA : Option Int := some 0
  xinB : Option Int := some 0
  pilotSel : Bool := false
  d3hot : Bool := false
  deriving DecidableEq, Repr

/-- A Lantern as it answers (15 R448): IDENT, REV, SERIAL, READY, LINE_STATUS by line. -/
structure LanternIn where
  ident : Nat
  rev : Nat
  serial : Nat
  ready : Bool
  status : List Nat
  deriving DecidableEq, Repr

/-- What a bring-up, warm restart or wake meets (20 R605, R611, 21 R647): whether the XIN_A loops lock, the level of PILOT_SEL, the revision and capability words of CD0 to CD3, RD0, RD1 and Arbor where they arrive, links that do not train, lanes (link, direction, group, lane) found faulty, stacks that do not train, the Lantern, rings whose sweep fails, and whether the firmware digest compared at wake is equal. -/
structure BringUp where
  xinA : Bool := true
  pilotSel : Bool := false
  words : List (Option (Nat × Nat)) := []
  links : List Nat := []
  lanes : List (Nat × Nat × Nat × Nat) := []
  hbm : List Nat := []
  lantern : Option LanternIn := none
  sweepFails : List Nat := []
  codeOk : Bool := true
  deriving DecidableEq, Repr

/-- An update order with its image (20 R610): SERIAL_DIGEST, image digest, whether a cold start is asked for, signature, image, and whether the write into the slot succeeds. -/
structure UpdateOrder where
  serial : Bytes
  digest : Bytes
  cold : Bool
  sig : Bytes
  image : Bytes
  written : Bool
  deriving DecidableEq, Repr

/-- An ANCHOR order (21 R641). -/
structure AnchorOrder where
  serial : Bytes
  orderId : Nat
  enterBeat : Nat
  wakeBeat : Nat
  sig : Bytes
  deriving DecidableEq, Repr

end Sys2Proof.Machine
end

