-- ==== Sys2Proof/Syntax.lean ====
section
/-!
DEFINITION. The commands of the IZ9 model: one constructor per row of the table of operations and events (spec/opcode_table.json), with what the row takes from outside as operands.
-/
namespace Sys2Proof

open Sys2Proof.Machine

/-- A command: an operation posted to the module, an access of its registers, a frame that reaches it, an event on a pin or a time limit of its own. -/
inductive Instr where
  /-- REGISTER_WRITE (R8): A host or firmware write to a register that has no row of its own sets RW fields, clears W1C bits, or is ignored and logged under the access rules. -/
  | registerWrite (req : Requester) (addr width : Nat) (value : Word)
  /-- MER_COUNT_READ (R21): A 32-bit read of MER_COUNT at +0 latches the upper half for the requester's next +4 read, and a +4 read consumes that latch. -/
  | merCountRead (req : Requester) (upper : Bool)
  /-- BEAT_START (R404): At the start of each beat every port sends its superframe marker and the per-beat checks, monitors and scheduled settings run. -/
  | beatStart (x : BeatIn)
  /-- SUPERFRAME_MARKER (R25): A received SUPERFRAME block is verified and timestamped, and the link delay, the offset from upstream and the upstream choice are updated. -/
  | superframeMarker (m : MarkerIn)
  /-- HOLDOVER_ENTRY (R27): With no upstream marker for 4 beats, a LOCKED module enters HOLDOVER. -/
  | holdoverEntry
  /-- ADRIFT_ENTRY (R27): After 64 beats of HOLDOVER, or 4 beats with the offset beyond ±20 ns, the module enters ADRIFT. -/
  | adriftEntry
  /-- DEPUTY_TAKEOVER (R23): A deputy that receives no marker from a higher rank for 16 beats starts sourcing markers in its own rank. -/
  | deputyTakeover
  /-- MER_PPS_EDGE (R22): At a rising edge of MER_PPS, the master compares its count with the next whole second after the epoch. -/
  | merPpsEdge (count : Nat)
  /-- REF_LOST (R22): The selected reference fails or returns, and REF_LOST is set or cleared with a logbook entry. -/
  | refLost (lost : Bool)
  /-- DOG_WATCH_OPEN (R32): A dog watch opens across the installation and runs deferred tests, sweeps, relocks, audits and calibration. -/
  | dogWatchOpen
  /-- DOG_WATCH_CLOSE (R34): A dog watch closes, and the commands it held fall due at the next beat. -/
  | dogWatchClose
  /-- COMMAND_SLOT_WRITE (R45): A host write into a command aperture slot is assembled, discarded or counted, and a packet of LENGTH bytes is taken and forwarded. -/
  | commandSlotWrite (offset : Nat) (data : Bytes)
  /-- SLOT_TIMEOUT (R44): 100 µs after the first write, a slot that holds fewer than LENGTH bytes is discarded with PACKET_INCOMPLETE, or counted. -/
  | slotTimeout (slot : Nat)
  /-- SLOT_QUIET_EXPIRY (R45): A slot discarded for its LENGTH is freed after 100 µs with no write to it. -/
  | slotQuietExpiry (slot : Nat)
  /-- NOP (R53): A NOP command is checked, accepted and queued, and does no work. -/
  | nop
  /-- FENCE_ONLY (R53): A FENCE_ONLY command is accepted and orders fences with an empty body. -/
  | fenceOnly
  /-- SET_STREAM (R55): SET_STREAM sets the stream's default timeout and wait limit for later commands. -/
  | setStream
  /-- ABORT (R65): ABORT settles against its target's progress in one atomic step and produces exactly one record. -/
  | abort
  /-- CLEAR_STREAM (R64): CLEAR_STREAM takes a HALTED stream through CLEARING back to OPEN once the earlier records are written. -/
  | clearStream
  /-- QUERY_STREAM (R75): QUERY_STREAM completes at once with the stream state and counters in a control record. -/
  | queryStream
  /-- COMMAND_START (R56): An accepted command starts once its predecessor has issued its work, its wait fence is met and its start beat has begun; the start checks run at this point. -/
  | commandStart (stream counter : Nat)
  /-- WAIT_TIMEOUT (R60): A command that has waited on its fence past WAIT_LIMIT_MS completes with WAIT_TIMEOUT. -/
  | waitTimeout (stream counter : Nat)
  /-- COMMAND_RETIRE (R57): A command whose work has ended, whose predecessor has retired and whose record has ring space makes its writes visible, signals its fence and writes its record. -/
  | commandRetire (stream counter : Nat) (placeHeld : Bool)
  /-- RING_FULL_WAIT (R73): A record waits for space in a full ring, and one logbook entry is written per beat of the wait. -/
  | ringFullWait (ring : Nat)
  /-- COMMAND_STOP (R63): A stopped command ends at its next cursor unit boundary and completes with its cursor. -/
  | commandStop (stream counter : Nat)
  /-- COMMAND_TIMEOUT (R68): The command timeout expires before retirement, so the command is stopped, completes with TIMEOUT and halts its stream. -/
  | commandTimeout (stream counter : Nat)
  /-- CMD_RING_CTRL_WRITE (R80): A write to CMD_RING_CTRL enables or disables a ring, resets HEAD and CONSUMED, or is refused for a bad SIZE. -/
  | cmdRingCtrlWrite (ring : Nat) (value : Word)
  /-- CMD_RING_CONSUMED_WRITE (R83): Software writes the count of consumed records, and a value out of order is refused and logged. -/
  | cmdRingConsumedWrite (ring : Nat) (value : Word)
  /-- COPY (R355): COPY moves bytes in destination-block units, with hallmarks rebased. -/
  | copy (a : CmdArg)
  /-- FILL (R355): FILL writes a repeating 8-byte pattern over the destination. -/
  | fill (a : CmdArg)
  /-- DATA_IN (R551): DATA_IN reads sealed records from host memory, decrypts them and writes the blocks with fresh hallmarks. -/
  | dataIn (a : CmdArg)
  /-- DATA_OUT (R551): DATA_OUT reads blocks, encrypts them into records and writes them and a trailer to host memory. -/
  | dataOut (a : CmdArg)
  /-- MATMUL (R133): A MATMUL descriptor is checked and accepted, and its tiles are dealt to arrays. -/
  | matmul
  /-- LOAD (R117): The array instruction LOAD moves one chunk from the weight queue into the back weight set, once the chunk is resident. -/
  | load (array : Nat) (ups : List Upset)
  /-- PASS (R117): The array instruction PASS streams 32 rows against the front weight set into an accumulator slot, once its operands are resident. -/
  | pass (array : Nat) (ups : List Upset)
  /-- TILE_HANDOFF (R148): A tile's last partial sum enters its slot, and the shadow set takes the tile or forwards it to the next KSPLIT member. -/
  | tileHandoff (stream counter tile : Nat) (third : Bool) (member : Nat)
  /-- TILE_DRAIN (R148): The shadow set converts and writes the tile's rows and its soundings record, with promotion decided first. -/
  | tileDrain (stream counter tile : Nat) (ups : List Upset)
  /-- VERNIER_VERDICT (R274): The Vernier gives a tile its verdict; a clean tile is released, and a disagreement holds it and taints its fenced group. -/
  | vernierVerdict (stream counter tile : Nat) (third : Bool)
  /-- THIRD_READING (R279): Arrays of the next die recompute the held tile as a third reading. -/
  | thirdReading (stream counter tile : Nat)
  /-- THIRD_READING_SETTLED (R280): The third reading's outcome fixes the tile kept, the strikes and the step's status, and the settled tile is written. -/
  | thirdReadingSettled (stream counter tile : Nat) (ups : List Upset)
  /-- LANE_PROGRAM (R192): A LANE_PROGRAM descriptor is checked and accepted, and its rows are dealt to vector engines. -/
  | laneProgram
  /-- LANE_NOP (R185): The lane instruction NOP does nothing for one cycle. -/
  | laneNop (engine : Nat) (ups : List Upset)
  /-- MOV (R185): The lane instruction MOV copies register A to register D. -/
  | mov (engine : Nat) (ups : List Upset)
  /-- LDC (R185): The lane instruction LDC loads a descriptor constant. -/
  | ldc (engine : Nat) (ups : List Upset)
  /-- LID (R185): The lane instruction LID loads the column index as FP32. -/
  | lid (engine : Nat) (ups : List Upset)
  /-- LD (R179): The lane instruction LD reads and decodes the element of an input stream. -/
  | ld (engine : Nat) (ups : List Upset)
  /-- ST (R180): The lane instruction ST converts a value and writes it to an output stream, with its soundings record. -/
  | st (engine : Nat) (ups : List Upset)
  /-- RED (R188): The lane instruction RED feeds a value into a reduction channel's lane accumulator. -/
  | red (engine : Nat) (ups : List Upset)
  /-- RDR (R185): The lane instruction RDR reads the row result of a channel. -/
  | rdr (engine : Nat) (ups : List Upset)
  /-- RND (R186): The lane instruction RND produces a uniform value from the element's draw. -/
  | rnd (engine : Nat) (ups : List Upset)
  /-- FADD (R186): The lane instruction FADD adds two values with one rounding. -/
  | fadd (engine : Nat) (ups : List Upset)
  /-- FSUB (R186): The lane instruction FSUB subtracts two values with one rounding. -/
  | fsub (engine : Nat) (ups : List Upset)
  /-- FMUL (R186): The lane instruction FMUL multiplies two values with one rounding. -/
  | fmul (engine : Nat) (ups : List Upset)
  /-- FMA (R186): The lane instruction FMA computes A × B + C with one rounding. -/
  | fma (engine : Nat) (ups : List Upset)
  /-- FMAX (R186): The lane instruction FMAX takes the larger of two values. -/
  | fmax (engine : Nat) (ups : List Upset)
  /-- FMIN (R186): The lane instruction FMIN takes the smaller of two values. -/
  | fmin (engine : Nat) (ups : List Upset)
  /-- FABS (R185): The lane instruction FABS takes the absolute value. -/
  | fabs (engine : Nat) (ups : List Upset)
  /-- FNEG (R185): The lane instruction FNEG negates a value. -/
  | fneg (engine : Nat) (ups : List Upset)
  /-- FSEL (R185): The lane instruction FSEL selects A or B by C. -/
  | fsel (engine : Nat) (ups : List Upset)
  /-- FCMP (R186): The lane instruction FCMP compares two values and gives 1.0 or +0. -/
  | fcmp (engine : Nat) (ups : List Upset)
  /-- FRND (R185): The lane instruction FRND rounds a value to the value set of a narrower format. -/
  | frnd (engine : Nat) (ups : List Upset)
  /-- FRCP (R186): The lane instruction FRCP computes a reciprocal. -/
  | frcp (engine : Nat) (ups : List Upset)
  /-- FRSQRT (R186): The lane instruction FRSQRT computes an inverse square root. -/
  | frsqrt (engine : Nat) (ups : List Upset)
  /-- FSQRT (R186): The lane instruction FSQRT computes a square root. -/
  | fsqrt (engine : Nat) (ups : List Upset)
  /-- FEXP2 (R186): The lane instruction FEXP2 computes 2^A. -/
  | fexp2 (engine : Nat) (ups : List Upset)
  /-- FLOG2 (R186): The lane instruction FLOG2 computes log2 A. -/
  | flog2 (engine : Nat) (ups : List Upset)
  /-- FSIGM (R186): The lane instruction FSIGM computes the sigmoid. -/
  | fsigm (engine : Nat) (ups : List Upset)
  /-- FTANH (R186): The lane instruction FTANH computes tanh. -/
  | ftanh (engine : Nat) (ups : List Upset)
  /-- FERF (R186): The lane instruction FERF computes erf. -/
  | ferf (engine : Nat) (ups : List Upset)
  /-- IADD (R185): The lane instruction IADD adds two registers modulo 2^32. -/
  | iadd (engine : Nat) (ups : List Upset)
  /-- IAND (R185): The lane instruction IAND takes the bitwise AND. -/
  | iand (engine : Nat) (ups : List Upset)
  /-- IOR (R185): The lane instruction IOR takes the bitwise OR. -/
  | ior (engine : Nat) (ups : List Upset)
  /-- IXOR (R185): The lane instruction IXOR takes the bitwise exclusive OR. -/
  | ixor (engine : Nat) (ups : List Upset)
  /-- ISHL (R185): The lane instruction ISHL shifts a register left. -/
  | ishl (engine : Nat) (ups : List Upset)
  /-- ISHR (R185): The lane instruction ISHR shifts a register right, logically. -/
  | ishr (engine : Nat) (ups : List Upset)
  /-- REDUCTION_ROW_RESULT (R188): After a row's last wave, the reduction unit combines its lane accumulators by the fixed tree into the row result. -/
  | reductionRowResult (engine channel : Nat) (ups : List Upset)
  /-- EMB_GATHER (R214): An EMB_GATHER is accepted, and the exchange that gathers and combines rows by bag begins. -/
  | embGather
  /-- EMB_SCATTER_ADD (R218): An EMB_SCATTER_ADD is accepted, and the exchange that sends gradient contributions to the row owners begins. -/
  | embScatterAdd
  /-- EMB_REQUEST (R208): A received embedding row request is served from the module's own shards. -/
  | embRequest (port xid source digest lookup row : Nat) (ups : List Upset)
  /-- EMB_RESPONSE (R215): A received remote row is combined into its bag in lookup order. -/
  | embResponse (xid source digest : Nat) (a : EmbAnswer) (ups : List Upset)
  /-- EMB_CONTRIBUTION (R220): A received contribution is applied in the owner's fixed order, or held or discarded by the applied count. -/
  | embContribution (port xid digest : Nat) (c : Contribution) (ups : List Upset)
  /-- EMB_END (R211): A received END marker brings the member's embedding command toward retirement. -/
  | embEnd (port xid source digest count : Nat)
  /-- EMB_STOP (R212): A received STOP marker ends the current bag and completes the command with EMB_PEER_STOPPED. -/
  | embStop (port xid source digest : Nat)
  /-- EMB_STALLED (R211): A member that waits past HOP_TIMEOUT_US for a response or an END completes with EMB_STALLED. -/
  | embStalled (stream counter pos : Nat)
  /-- RELAY (R167): A RELAY is accepted as one member's part of a collective along a chain. -/
  | relay (a : CmdArg)
  /-- RELAY_FRAME (R163): A received relay frame is checked, placed by segment and offset, and a complete hop is reduced or copied onward. -/
  | relayFrame (port : Nat) (f : RelayFrame) (ups : List Upset)
  /-- HELD_FRAME_EXPIRY (R164): A held frame whose RELAY_ID has not started within one watch is discarded and counted. -/
  | heldFrameExpiry (index : Nat)
  /-- HOP_TIMEOUT (R165): No frame of an awaited hop arrives within HOP_TIMEOUT_US, and the RELAY completes with RELAY_STALLED. -/
  | hopTimeout (stream counter : Nat)
  /-- UPDATE (R241): An UPDATE is accepted, and its blocks are dealt to update engines. -/
  | update
  /-- UPDATE_BLOCK (R237): An update engine computes the optimizer step over one 4 KiB block and writes the stage planes and soundings. -/
  | updateBlock (engine : Nat) (ups : List Upset)
  /-- SET_DRAW_COUNTER (R251): SET_DRAW_COUNTER writes P_T and D_T of a Tourbillon stream when its retirement begins. -/
  | setDrawCounter
  /-- FERRY_OUT (R254): FERRY_OUT reads, encrypts and sends committed blocks to the recipient slice. -/
  | ferryOut (a : CmdArg)
  /-- FERRY_BLOCK (R255): The recipient writes a received ferry block into its window, and marks the delivery complete once the final frame has arrived. -/
  | ferryBlock (f : FerryFrame)
  /-- FERRY_VOID (R255): The final frame has not arrived within one watch of the last block, and the delivery is voided. -/
  | ferryVoid (port ferryId : Nat)
  /-- COMMIT (R286): A COMMIT is checked, accepted and started for its ACTION. -/
  | commit
  /-- ESCAPEMENT_SEAL (R287): Once earlier commands have retired, the Escapement checks the bands, folds parity, forms the digest and sets its verdict. -/
  | escapementSeal (ups : List Upset)
  /-- VOTE_FRAME (R289): A received vote is merged with this module's verdict and passed on, or decided at the last position. -/
  | voteFrame (v : Vote)
  /-- DECISION_FRAME (R289): A received decision is kept, passed on, and acted on at COMMIT_BEAT or on receipt. -/
  | decisionFrame (d : Decision) (answer : Bool)
  /-- COMMIT_BEAT (R289): At COMMIT_BEAT the last position decides with any missing vote taken as NOT_CLEAN, and members act on a held decision. -/
  | commitBeat
  /-- RELEASE (R290): On a decision to commit, the step number and draw counters advance and the staged writes, rows and parity are released. -/
  | release
  /-- IN_DOUBT_ENTRY (R292): No decision is held 16 beats after COMMIT_BEAT, and the module enters IN_DOUBT. -/
  | inDoubtEntry
  /-- DECISION_REQUEST (R292): An IN_DOUBT module sends its per-beat or per-watch request for the decision to the next member in order. -/
  | decisionRequest
  /-- ESC_IN_DOUBT (R292): No decision has been learned after one watch, and the COMMIT completes with ESC_IN_DOUBT. -/
  | escInDoubt
  /-- CRC_GO (R309): Writing GO on an idle check-value unit checks its settings and starts a scan. -/
  | crcGo (unit : Nat) (value : Word)
  /-- CRC_STOP (R310): Writing STOP ends a running scan at the next 64-byte boundary. -/
  | crcStop (unit : Nat) (value : Word) (taken : Nat) (ups : List Upset)
  /-- CRC_CHECK (R312): Writing CHECK on an idle unit compares RESULT with EXPECT and flags a mismatch. -/
  | crcCheck (unit : Nat) (value : Word)
  /-- CRC_DATA (R313): A write to CRC_DATA feeds FEED_BYTES bytes into the unit's register. -/
  | crcData (unit width : Nat) (value : Word)
  /-- CRC_SCAN_END (R309): A scan ends or faults, DONE is set and the comparison and events follow. -/
  | crcScanEnd (unit : Nat) (stall : Option Nat) (ups : List Upset)
  /-- SCRUB_READ (R351): Patrol scrub reads the next granule of each stack and corrects, poisons or logs errors. -/
  | scrubRead (ups : List Upset)
  /-- HBM_RETIRE (R344): GO of HBM_RETIRE moves a frame's page to a donor frame, or unbacks it, and records the frame in flash. -/
  | hbmRetire (value : Word) (ups : List Upset)
  /-- HBM_DONATE (R346): GO of HBM_DONATE backs an unbacked page with a donor's frame, poisoned. -/
  | hbmDonate (value : Word)
  /-- HBM_GOV_WRITE (R350): A governor setting is checked and takes effect at the next beat, or is refused and logged. -/
  | hbmGovWrite (cls : Nat) (value : Word)
  /-- FLIT (R373): A received Arbor flit is checked, delivered in order, or discarded with NAK, and lane retries are attributed. -/
  | flit (link : Nat) (up : Bool) (group : Nat) (payload : Bytes) (control : Nat)
  /-- SPARE_REQ (R378): A SPARE_REQ asks the sender to move a failed lane onto a spare at the switch SEQ. -/
  | spareReq (link : Nat) (up : Bool) (group lane seq : Nat)
  /-- SPARE_ACK (R378): A SPARE_ACK confirms the lane switch, and both ends use the spare from the switch SEQ. -/
  | spareAck (link : Nat) (up : Bool) (group lane seq : Nat)
  /-- HALF_REQ (R380): A HALF_REQ asks the sender to put the direction into half-muster. -/
  | halfReq (link : Nat) (up : Bool) (seq : Nat)
  /-- HALF_ACK (R380): A HALF_ACK confirms half-muster from the switch SEQ. -/
  | halfAck (link : Nat) (up : Bool) (seq : Nat)
  /-- CREDIT_PROBE (R376): A received CREDIT_PROBE is answered with a CREDIT_REPORT. -/
  | creditProbe (link : Nat) (up : Bool)
  /-- CREDIT_REPORT (R376): A received CREDIT_REPORT resets the sender's credits. -/
  | creditReport (link : Nat) (up : Bool) (free : List Nat)
  /-- CREDIT_TIMEOUT (R376): A class has a flit ready and no credit for 1 µs, and a CREDIT_PROBE is sent. -/
  | creditTimeout (link : Nat) (up : Bool) (cls : Nat)
  /-- LINK_RETRAIN (R376): No credit report arrives within 1 µs, so the direction retrains and replays, and a third retrain in a watch fences the die. -/
  | linkRetrain (link : Nat) (up : Bool)
  /-- DAREND_FRAME (R403): A received Darend frame is checked, acknowledged, then delivered or forwarded, or dropped or NAKed. -/
  | darendFrame (port : Nat) (f : FrameIn)
  /-- ACK (R405): A received ACK control block frees replay-store frames and returns credits, or requests a replay by NAK. -/
  | ack (port : Nat) (a : AckIn)
  /-- ALIGN (R397): A received ALIGN block checks a lane's logical lane, wavelength and port, and counts clean blocks. -/
  | align (port : Nat) (a : AlignIn)
  /-- HELLO0 (R412): A received HELLO0 carries the first part of the peer's identity block. -/
  | hello0 (port : Nat) (b : Bytes)
  /-- HELLO1 (R414): A received HELLO1 completes the peer's identity block, which is checked against the chart and the versions. -/
  | hello1 (port : Nat) (b : Bytes)
  /-- HOLD (R409): A received HOLD block announces a pause, during which the replay, lane and loss timers stop. -/
  | hold (port beat durationUs reason : Nat)
  /-- LANE_CHANGE (R410): A received LANE_CHANGE requests or echoes taking a lane out or back at a given marker. -/
  | laneChange (port action logical wavelength atMarker : Nat)
  /-- LANE_RESTRIPE (R410): At AT_MARKER both ends restripe the direction over its new set of active lanes. -/
  | laneRestripe (port : Nat) (tx : Bool) (logical : Nat)
  /-- REPLAY_TIMEOUT (R407): The oldest unacknowledged frame has waited R + 2 µs, so every unacknowledged frame is resent, and after eight such replays the port retrains. -/
  | replayTimeout (port : Nat)
  /-- PORT_LOST_TIMEOUT (R408): A port has been out of UP and DEGRADED for more than 2 ms, and its unacknowledged frames are discarded. -/
  | portLostTimeout (port : Nat)
  /-- HOLD_RESUME_TIMEOUT (R409): Clean blocks have not resumed 100 µs after a hold's end, and the port goes to TRAINING. -/
  | holdResumeTimeout (port : Nat)
  /-- TRAINING_TIMEOUT (R413): Training phases 1 to 5 exceed 2 ms, and the port goes to DARK. -/
  | trainingTimeout (port : Nat)
  /-- IDENTITY_RESEND (R417): A port in MISCHARTED, DISCORDANT or QUARANTINED resends its identity block each millisecond. -/
  | identityResend (port : Nat)
  /-- KEY_ROTATION (R418): At the rotation beat, senders change to the new link key for new frames. -/
  | keyRotation
  /-- OLD_KEY_EXPIRY (R418): 256 watches after rotation the old key expires, and frames of that scope wait for a new key. -/
  | oldKeyExpiry
  /-- DRD_REPLAY_REGION_WRITE (R406): A write to DRD_REPLAY_REGION sets the replay region, or is refused and logged. -/
  | drdReplayRegionWrite (value : Word)
  /-- REDRAW (R435): At a scheduled beat the switch rings retune to a new draw, and ports hold for 40 µs. -/
  | redraw
  /-- REDRAW_SETTLED (R436): 40 µs after the redraw, ports whose peer changed train quickly from stored state or in full. -/
  | redrawSettled (changed : List Nat)
  /-- RING_SWEEP (R441): A resonance-count sweep of a ring ends, and the ring locks to its target line or fails. -/
  | ringSweep (ring : Nat) (peaks : List (Nat × Nat))
  /-- LANTERN_ALERT (R447): LNT_ALERT_N goes low, and the IZ9 reads and clears ALERT within 1 ms. -/
  | lanternAlert (alert : Nat) (status : List Nat)
  /-- LANTERN_BUS_TIMEOUT (R449): A Lantern bus transaction is not complete within 5 ms and is retried; after three retries LOST is set. -/
  | lanternBusTimeout
  /-- LASER_SPARE_IN (R453): At its beat a Lantern line is switched to its spare laser, make-before-break, under a 200 µs hold. -/
  | laserSpareIn (line : Nat)
  /-- CHART (R467): A received chart is verified and accepted for its effective beat, or refused. -/
  | chart (doc : Bytes)
  /-- CHART_AMENDMENT (R473): A received chart amendment is verified and accepted, held, or refused. -/
  | chartAmendment (doc : Bytes)
  /-- SLICE_ALLOCATION (R479): A received slice allocation is verified and accepted, or refused. -/
  | sliceAllocation (doc : Bytes)
  /-- SLICE_TABLE_SET (R481): A received slice table set is verified and accepted, or refused. -/
  | sliceTableSet (doc : Bytes)
  /-- CHART_EFFECT (R472): A new chart takes effect at its beat, sets the fabric ID and discards held amendments. -/
  | chartEffect
  /-- CHART_AMENDMENT_EFFECT (R472): An amendment takes effect at its beat, applying PORT, REASSIGN, WITHDRAW and ADD records. -/
  | chartAmendmentEffect
  /-- SLICE_ALLOCATION_EFFECT (R539): An allocation takes effect and makes a named module ALLOCATED, or releases a module it leaves out. -/
  | sliceAllocationEffect
  /-- SLICE_TABLE_SET_EFFECT (R482): A table set replaces the chains, routes and draws at its effective beat, with a redraw to INITIAL_DRAW. -/
  | sliceTableSetEffect
  /-- CHART_REQ (R476): A received CHART_REQ is answered with the missing amendments or the chart. -/
  | chartReq (port epoch : Nat)
  /-- CHART_CHUNK (R475): A received chunk of a chart or amendment is gathered, and a newly accepted document is sent on to the other ports. -/
  | chartChunk (port kind epoch index count : Nat) (data : Bytes)
  /-- PARITY_DELTA (R506): A parity holder XORs a received delta into its parity-stage page. -/
  | parityDelta (d : DeltaIn)
  /-- PARITY_DELTA_ACK (R505): A delta acknowledgement arrives, and the seal's parity fold ends when all are in. -/
  | parityDeltaAck (fid unit offset : Nat) (stale : Bool)
  /-- READING_REQUEST (R507): A member answers or holds a request for a reading, or answers STEP_DIFFERS. -/
  | readingRequest (fid stripe offset step : Nat) (ask : ReadingAsk) (ups : List Upset)
  /-- READING (R508): A received reading lets the requester rebuild a lost unit or block. -/
  | reading (fid stripe offset : Nat) (body : ReadingBody) (ups : List Upset)
  /-- SNAPSHOT_OUT (R519): SNAPSHOT_OUT encrypts data-extent blocks and a trailer to host memory through the pilot. -/
  | snapshotOut (a : CmdArg)
  /-- STAND_IN (R514): STAND_IN puts a spare in a suspect member's chain positions and rebuilds its data units. -/
  | standIn
  /-- ATTEST (R537): ATTEST writes a signed attestation report through the pilot. -/
  | attest
  /-- KEY_INSTALL (R549): KEY_INSTALL installs or revokes a command, data, snapshot or ferry key at its retirement. -/
  | keyInstall
  /-- SLICE_RELEASE (R553): SLICE_RELEASE stops the slice's work, destroys its keys, scrubs and verifies, and returns the module to UNBOUND. -/
  | sliceRelease (a : CmdArg)
  /-- SELF_TEST (R588): SELF_TEST runs a background test or defers a disruptive one to a dog watch. -/
  | selfTest (a : CmdArg)
  /-- CALIBRATE (R589): CALIBRATE runs a background trim or defers a disruptive calibration to a dog watch. -/
  | calibrate (a : CmdArg)
  /-- DEFERRED_FOLLOW_UP (R590): A deferred request ends or times out, and a tagged follow-up record is written. -/
  | deferredFollowUp (order : Nat) (fault : Option Nat)
  /-- DEFERRED_TIMEOUT (R589): No dog watch within the maximum deferral can hold the request, and it ends with DEFERRED_TIMEOUT. -/
  | deferredTimeout (order : Nat)
  /-- ATTESTATION_REQUEST (R537): A Bluvisen request with a nonce is answered with a report, or a busy reply beyond 10 per second. -/
  | attestationRequest (nonce : Bytes)
  /-- ENROLMENT (R534): A module that holds no authority key accepts a signed enrolment message with its key and collector address. -/
  | enrolment (key : Bytes) (installation : Nat) (collector sig : Bytes)
  /-- AUTHORITY_HANDOVER (R534): A handover signed by the current authority key installs a new key. -/
  | authorityHandover (key sig : Bytes)
  /-- DEBUG_UNLOCK (R530): A token signed by Omwethen unlocks debug on an UNBOUND module. -/
  | debugUnlock (sig : Bytes)
  /-- BIND_REQUEST (R540): An ALLOCATED module answers a bind request with a fresh ML-KEM bind offer. -/
  | bindRequest (nonce : Bytes)
  /-- BIND_OFFER_EXPIRY (R540): A bind offer expires after OFFER_WATCHES, and its decapsulation key is destroyed. -/
  | bindOfferExpiry
  /-- BIND_ACCEPTANCE (R542): A bind acceptance is checked, and its bundle installed, making the module BOUND at the next beat, or BIND_REFUSE is sent. -/
  | bindAcceptance (doc : Bytes)
  /-- KX_HELLO (R543): A received KX_HELLO is checked against the chain, the serial and the signature, and the lower end encapsulates. -/
  | kxHello (port : Nat) (ferry : Bool) (h : HelloIn)
  /-- KX_CT (R543): A received KX_CT yields the shared secret and the installation link keys. -/
  | kxCt (port : Nat) (ferry : Bool) (ct sig : Bytes)
  /-- KEY_SETUP_TIMEOUT (R543): Phase 6 has not ended within 5 ms, and the port goes to DARK. -/
  | keySetupTimeout (port : Nat)
  /-- SLICE_KEY_CONFIRMATION (R544): A received slice link key confirmation is verified, and the slice tag is then admitted on the port. -/
  | sliceKeyConfirmation (port : Nat) (mac : Bytes)
  /-- COLLECTOR_ACK (R574): The Bluvisen collector acknowledges entries, which frees them, and an OVERRUN entry is written when 64 slots are free. -/
  | collectorAck (seq : Nat)
  /-- LOG_RESEND_TIMEOUT (R575): An entry unacknowledged after 1 s is sent again. -/
  | logResendTimeout
  /-- HEARTBEAT (R578): Every 100 ms the management core sends a heartbeat and kicks the watchdog. -/
  | heartbeat
  /-- MGMT_WATCHDOG (R592): A missed kick or a differing code digest restarts the management core, and a second restart in a watch warm-restarts the module. -/
  | mgmtWatchdog (digestDiffers : Bool)
  /-- ENGINE_OPERATION_TIMEOUT (R581): An engine operation exceeds 10 ms, and the ladder retries, then resets, then fences the engine. -/
  | engineOperationTimeout (source : Nat)
  /-- COMPUTE_DIE_RESET (R582): A missed Helm heartbeat or a repeated fault resets a compute die, ending its streams' commands with DIE_RESET. -/
  | computeDieReset (die : Nat)
  /-- MODULE_WARM_RESTART (R583): Everything outside PD0 is reset, commands end with WARM_RESTART and staged writes are discarded. -/
  | moduleWarmRestart (x : BringUp)
  /-- COLD_START (R604): Power-up starts the bring-up stages, ending in READY. -/
  | coldStart (x : BringUp)
  /-- MOD_RESET (R604): MOD_RESET_N asserted for 10 µs or more counts as a loss of PD0 and begins a cold start on release. -/
  | modReset (lowUs : Nat)
  /-- RECOVERY_IMAGE_LENGTH (R609): A write of LENGTH to BAR2 closes a host-port image, which the recovery loader checks and writes. -/
  | recoveryImageLength (length : Nat) (image : Bytes) (written : Bool)
  /-- RECOVERY_CHUNK (R609): A RECOVERY_CHUNK message stages part of an image. -/
  | recoveryChunk (offset : Nat) (data : Bytes)
  /-- RECOVERY_DONE (R609): A RECOVERY_DONE message closes a management-port image, which is checked and written. -/
  | recoveryDone (length : Nat) (written : Bool)
  /-- FIRMWARE_UPDATE_ORDER (R610): A signed update order is checked, and its image written and verified, with an optional cold start. -/
  | firmwareUpdateOrder (o : UpdateOrder)
  /-- PILOT_SEL_CHANGE (R616): A settled change of PILOT_SEL brings the host-port link up or down and sets PILOT_MISMATCH. -/
  | pilotSelChange (asserted : Bool)
  /-- PCIE_RESET (R660): PCIE_PERST_N resets PD4 and the host-port function only. -/
  | pcieReset
  /-- ANCHOR_ORDER (R641): A signed ANCHOR order is checked and scheduled, or refused. -/
  | anchorOrder (o : AnchorOrder)
  /-- ANCHOR_ENTER_BEAT (R642): At ENTER_BEAT the module enters ENTERING and refuses packets with MODULE_ANCHORING. -/
  | anchorEnterBeat
  /-- ANCHOR_ENTRY (R644): Once entry conditions hold, the state is saved, domains are switched off and the module enters ANCHORED. -/
  | anchorEntry
  /-- ANCHOR_ENTRY_TIMEOUT (R643): Entry conditions do not hold within 64 beats, and the order is refused with reason 6. -/
  | anchorEntryTimeout
  /-- WAKE (R647): A WAKE order or WAKE_BEAT runs the wake sequence to AWAKE. -/
  | wake (order : Option (Bytes × Bytes)) (x : BringUp)
  /-- POWER_DOMAIN_FAIL (R631): A domain fails power-good, and the stack, die or port function concerned is failed or fenced. -/
  | powerDomainFail (domain : Nat)
  /-- XIN_A_LOST (R634): Loss of XIN_A moves the management loops to the fast oscillator. -/
  | xinALost (ppm : Option Int)
  /-- XIN_B_LOST (R634): Loss of XIN_B unlocks its loops and leads to a warm restart once it returns. -/
  | xinBLost (ppm : Option Int)
  /-- OSC_TRIM_MEASUREMENT (R636): A measurement of the fast oscillator ends, and its trim is adjusted. -/
  | oscTrimMeasurement (ppm : Int)
  /-- CLK_SET_WRITE (R638): A write to CLK_SET records a loop setting that takes effect at the next beat or wake, or is refused. -/
  | clkSetWrite (loop : Nat) (value : Word)
  /-- SUPPLY_FAULT (R668): Input outside its limits switches off every domain, PD0 included. -/
  | supplyFault (volt durationUs : Nat)
  /-- SUPPLY_RECOVERY (R668): Input back in range for 100 ms begins a cold start. -/
  | supplyRecovery (volt : Nat)
  /-- SINGLE_FEED (R668): One blade pair below 40 V caps the power at 1,450 W. -/
  | singleFeed (pairB : Bool)
  /-- POWER_CAP_SAMPLE (R670): Every 100 µs input power is measured, and idle cycles are inserted to hold the cap. -/
  | powerCapSample (watts current volt : Nat)
  /-- THERMAL_TRIP_RECOVERY (R675): After 10 s with every die 20 °C below its throttle point, a cold start begins. -/
  | thermalTripRecovery
  /-- I2C_BUS_TIMEOUT (R666): The baseboard I2C bus held low for more than 35 ms is released, and the target logic reset. -/
  | i2cBusTimeout
  /-- MGMT_LINK_SPEED (R665): The PHY reports a speed other than 1,000 Mb/s, and the management port is held down. -/
  | mgmtLinkSpeed (mbps : Nat)
  /-- REG_PATH_READ (R694): GO with WRITE clear starts a register-path read of a host-group module's register. -/
  | regPathRead (value : Word)
  /-- REG_PATH_WRITE (R694): GO with WRITE set starts a register-path write of a host-group module's register. -/
  | regPathWrite (value : Word)
  /-- REG_PATH_REQUEST (R694): A target module makes the requested 64-bit access and answers, or refuses a write while SCRUBBING. -/
  | regPathRequest (src : Nat) (write : Bool) (addr : Nat) (data : Word)
  /-- REG_PATH_ANSWER (R694): The pilot receives the answer and sets CMD_REG_DATA and RESULT. -/
  | regPathAnswer (src status : Nat) (data : Word)
  /-- REG_PATH_TIMEOUT (R694): No answer arrives within 1 ms, and RESULT becomes TIMEOUT. -/
  | regPathTimeout
  /-- REGISTER_READ (R7): A register read of the wrong width or alignment, at an unlisted offset, or of a unit the IZ9 holds returns zero and writes a REGISTER_ACCESS entry. -/
  | registerRead (req : Requester) (addr width : Nat)
  /-- PTP_MESSAGE (R22): An IEEE 1588-2019 message on the management port is timestamped, and a master or deputy under DISCIPLINE 2 steers its count to the PTP timescale. -/
  | ptpMessage (offsetPs : Int)
  /-- LANE_OUT (R410): A receiver finds a lane fault (missing ALIGN blocks, uncorrectable codewords, too many corrected symbols, excess skew or lost light) and sends LANE_CHANGE OUT, or the port goes to TRAINING or DARK. -/
  | laneOut (port logical : Nat) (fault : LaneFault)
  /-- HELLO_RESEND (R413): During training phase 4 a port resends HELLO0 and HELLO1 every 10 µs and counts its 100 µs tries. -/
  | helloResend (port : Nat)
  /-- DECISION_REQUEST_RECEIPT (R292): A member that receives an IN_DOUBT module's request for the decision of a step answers with the kept decision. -/
  | decisionRequestReceipt (fid step : Nat)
  /-- DIGEST_FETCH_REQUEST (R287): A module that holds a SEAL_ONLY stage digest for a STEP answers a CONFIRM member's fetch of it. -/
  | digestFetchRequest (fid step : Nat)
  /-- DIGEST_FETCH_ANSWER (R287): The fetched replay digest, or its failure, reaches a suspect member under CONFIRM, which sets CLEAN or NOT_CLEAN and votes. -/
  | digestFetchAnswer (step : Nat) (digest : Option Bytes)
  /-- RETIREMENT_END (R344): The flash write of a frame retirement ends, the retirement record holds the frame, and HBM_RETIRE RESULT becomes 0, or 5 on failure. -/
  | retirementEnd (ok : Bool)
  /-- DEBUG_ACCESS (R530): A debug access on the DEBUG class is served on an unlocked UNBOUND module, or refused and logged while the module is ALLOCATED, BOUND or SCRUBBING. -/
  | debugAccess (addr len : Nat) (write : Option Bytes)
  /-- UPDATE_RESTART_WAIT_EXPIRY (R610): 10 s after an update order that asks for a cold start, the module begins the cold start even if logbook entries remain unacknowledged. -/
  | updateRestartWaitExpiry
  /-- BLADE_PAIR_RESTORED (R668): A blade pair returns within range while the other is in range, FEED_A or FEED_B is set and SINGLE_FEED with its 1,450 W cap is left. -/
  | bladePairRestored (pairB : Bool)
  /-- EMB_LOOKUP (R227): An embedding engine issues one lookup of its dealt bag: it reads a local row or sends a request or contribution, combines into the bag, and sends END after its last. -/
  | embLookup (engine : Nat) (ups : List Upset)
  deriving DecidableEq, Repr

end Sys2Proof
end

