-- ==== Sys2Proof/Decode.lean ====
section
/-!
DEFINITION. Words of the table of operations: the table gives bits to no row, so no word spells a command (DEDUCED, assumption log 11).
-/
namespace Sys2Proof

/-- The command a word of the table's bits spells: none, for no row of the table has bits. -/
def decodeTableWord (_nbits _w : Nat) : Option Instr := none

end Sys2Proof
end

