-- ==== Sys2Proof/Machine/Crypto.lean ====
section
/-!
DEFINITION. The cryptographic functions the spec names by their public standards (03 R48, R70, 06 R163, 09 R244, R245, 14 R400, 18 R528): Keccak with SHAKE256, cSHAKE256 and KMAC256 (FIPS 202, SP 800-185), AES-256 (FIPS 197) and GCM (SP 800-38D). PRESUMED from those standards (PRESUMED, assumption log 8).
-/
namespace Sys2Proof.Machine

/-! ### Keccak -/

/-- Rotate a 64-bit lane left. -/
def rotl64 (x n : Nat) : Nat := ((x <<< n) % 2 ^ 64) ||| (x >>> (64 - n))

/-- The rotation offsets of step rho, by x + 5y. -/
def keccakRho : List Nat := [0, 1, 62, 28, 27, 36, 44, 6, 55, 20, 3, 10, 43, 25, 39, 41, 45, 15, 21, 8, 18, 2, 61, 56, 14]

/-- The round constants of step iota. -/
def keccakRc : List Nat := [0x1, 0x8082, 0x800000000000808a, 0x8000000080008000, 0x808b, 0x80000001, 0x8000000080008081, 0x8000000000008009, 0x8a, 0x88, 0x80008009, 0x8000000a] ++
  [0x8000808b, 0x800000000000008b, 0x8000000000008089, 0x8000000000008003, 0x8000000000008002, 0x8000000000000080, 0x800a, 0x800000008000000a, 0x8000000080008081, 0x8000000000008080, 0x80000001, 0x8000000080008008]

/-- One round of Keccak-f[1600] on 25 lanes, lane x + 5y. -/
def keccakRound (a : List Nat) (rc : Nat) : List Nat :=
  let g (l : List Nat) (i : Nat) := l.getD i 0
  let c := (List.range 5).map fun x => g a x ^^^ g a (x + 5) ^^^ g a (x + 10) ^^^ g a (x + 15) ^^^ g a (x + 20)
  let d := (List.range 5).map fun x => g c ((x + 4) % 5) ^^^ rotl64 (g c ((x + 1) % 5)) 1
  let t := (List.range 25).map fun i => g a i ^^^ g d (i % 5)
  -- b at (X, Y) takes the lane (x, y) with X = y and Y = 2x + 3y
  let b := (List.range 25).map fun j =>
    let y := j % 5
    let yy := j / 5
    let x := (3 * (yy + 10 - 3 * y % 5)) % 5
    rotl64 (g t (x + 5 * y)) (g keccakRho (x + 5 * y))
  let e := (List.range 25).map fun i =>
    let x := i % 5
    let y := i / 5
    g b i ^^^ ((2 ^ 64 - 1 - g b ((x + 1) % 5 + 5 * y)) &&& g b ((x + 2) % 5 + 5 * y))
  match e with
  | h :: r => (h ^^^ rc) :: r
  | [] => []

/-- Keccak-f[1600]. -/
def keccakF (a : List Nat) : List Nat := keccakRc.foldl keccakRound a

/-- Split a byte string into pieces of n bytes. -/
def chunksAux (fuel n : Nat) (b : Bytes) : List Bytes :=
  match fuel with
  | 0 => []
  | f + 1 => if b.isEmpty then [] else b.take n :: chunksAux f n (b.drop n)

/-- Split a byte string into pieces of n bytes, the last one perhaps shorter. -/
def chunks (n : Nat) (b : Bytes) : List Bytes := chunksAux (b.length + 1) n b

/-- XOR a block into the state's first lanes. -/
def keccakAbsorbBlock (st : List Nat) (blk : Bytes) : List Nat :=
  let lanes := (chunks 8 blk).map leNat
  keccakF ((List.range 25).map fun i => st.getD i 0 ^^^ lanes.getD i 0)

/-- The output of the sponge: n blocks of the rate. -/
def keccakSqueeze (n : Nat) (st : List Nat) : Bytes :=
  match n with
  | 0 => []
  | k + 1 => (st.map (natLe 8)).flatten.take 136 ++ keccakSqueeze k (keccakF st)

/-- The sponge with rate 136 bytes: domain byte dom ends the message. -/
def sponge256 (dom : Nat) (msg : Bytes) (len : Nat) : Bytes :=
  let pad := 136 - (msg.length % 136)
  let padded := if pad = 1 then msg ++ [BitVec.ofNat 8 (dom + 128)]
    else msg ++ [BitVec.ofNat 8 dom] ++ zeros (pad - 2) ++ [128]
  (keccakSqueeze (cdiv len 136) ((chunks 136 padded).foldl keccakAbsorbBlock (List.replicate 25 0))).take len

/-- SHAKE256 (FIPS 202). -/
def shake256 (msg : Bytes) (len : Nat) : Bytes := sponge256 0x1F msg len

/-- Bytes needed by a number, at least one. -/
def byteLen (x : Nat) : Nat := if x = 0 then 1 else Nat.log2 x / 8 + 1

/-- left_encode of SP 800-185. -/
def leftEncode (x : Nat) : Bytes := BitVec.ofNat 8 (byteLen x) :: natBe (byteLen x) x

/-- right_encode of SP 800-185. -/
def rightEncode (x : Nat) : Bytes := natBe (byteLen x) x ++ [BitVec.ofNat 8 (byteLen x)]

/-- encode_string of SP 800-185. -/
def encodeString (s : Bytes) : Bytes := leftEncode (8 * s.length) ++ s

/-- bytepad of SP 800-185. -/
def bytepad (w : Nat) (x : Bytes) : Bytes :=
  let z := leftEncode w ++ x
  z ++ zeros ((w - z.length % w) % w)

/-- KMAC256 (SP 800-185): key, input, output length in bytes, customisation string. -/
def kmac256 (key x : Bytes) (len : Nat) (s : Bytes) : Bytes :=
  let name := ascii [0x4B, 0x4D, 0x41, 0x43]
  let newX := bytepad 136 (encodeString key) ++ x ++ rightEncode (8 * len)
  sponge256 0x04 (bytepad 136 (encodeString name ++ encodeString s) ++ newX) len

/-! ### AES-256 and GCM -/

/-- The AES substitution box. -/
def aesSbox : List Nat :=
  [99, 124, 119, 123, 242, 107, 111, 197, 48, 1, 103, 43, 254, 215, 171, 118, 202, 130, 201, 125, 250, 89, 71, 240, 173, 212, 162, 175, 156, 164, 114, 192] ++
  [183, 253, 147, 38, 54, 63, 247, 204, 52, 165, 229, 241, 113, 216, 49, 21, 4, 199, 35, 195, 24, 150, 5, 154, 7, 18, 128, 226, 235, 39, 178, 117] ++
  [9, 131, 44, 26, 27, 110, 90, 160, 82, 59, 214, 179, 41, 227, 47, 132, 83, 209, 0, 237, 32, 252, 177, 91, 106, 203, 190, 57, 74, 76, 88, 207] ++
  [208, 239, 170, 251, 67, 77, 51, 133, 69, 249, 2, 127, 80, 60, 159, 168, 81, 163, 64, 143, 146, 157, 56, 245, 188, 182, 218, 33, 16, 255, 243, 210] ++
  [205, 12, 19, 236, 95, 151, 68, 23, 196, 167, 126, 61, 100, 93, 25, 115, 96, 129, 79, 220, 34, 42, 144, 136, 70, 238, 184, 20, 222, 94, 11, 219] ++
  [224, 50, 58, 10, 73, 6, 36, 92, 194, 211, 172, 98, 145, 149, 228, 121, 231, 200, 55, 109, 141, 213, 78, 169, 108, 86, 244, 234, 101, 122, 174, 8] ++
  [186, 120, 37, 46, 28, 166, 180, 198, 232, 221, 116, 31, 75, 189, 139, 138, 112, 62, 181, 102, 72, 3, 246, 14, 97, 53, 87, 185, 134, 193, 29, 158] ++
  [225, 248, 152, 17, 105, 217, 142, 148, 155, 30, 135, 233, 206, 85, 40, 223, 140, 161, 137, 13, 191, 230, 66, 104, 65, 153, 45, 15, 176, 84, 187, 22]

/-- The substitution of one byte. -/
def aesSub (x : Nat) : Nat := aesSbox.getD x 0

/-- Multiplication by x in AES's field. -/
def aesXtime (x : Nat) : Nat := if x < 128 then 2 * x else (2 * x) ^^^ 0x11B

/-- Word-wise XOR of two lists of numbers. -/
def xorNats (a b : List Nat) : List Nat := (a.zip b).map fun p => p.1 ^^^ p.2

/-- The key schedule: words of four bytes, newest first. -/
def aesExpand (n i rcon : Nat) (ws : List (List Nat)) : List (List Nat) :=
  match n with
  | 0 => ws
  | k + 1 =>
    let t := ws.getD 0 []
    let t := if i % 8 = 0 then
        xorNats ((t.drop 1 ++ t.take 1).map aesSub) [rcon, 0, 0, 0]
      else if i % 8 = 4 then t.map aesSub else t
    aesExpand k (i + 1) (if i % 8 = 0 then aesXtime rcon else rcon) (xorNats (ws.getD 7 []) t :: ws)

/-- The 15 round keys of AES-256, 16 bytes each. -/
def aesRoundKeys (key : Bytes) : List (List Nat) :=
  let ws := ((chunks 4 key).map (fun b => b.map BitVec.toNat)).reverse
  let all := (aesExpand 52 8 1 ws).reverse
  (List.range 15).map fun r => ((all.drop (4 * r)).take 4).flatten

/-- ShiftRows on the 16 bytes of a state held column by column. -/
def aesShift (s : List Nat) : List Nat := (List.range 16).map fun i => s.getD ((i + 4 * (i % 4)) % 16) 0

/-- MixColumns of one column. -/
def aesMixCol (c : List Nat) : List Nat :=
  let g (i : Nat) := c.getD (i % 4) 0
  (List.range 4).map fun i => aesXtime (g i) ^^^ (aesXtime (g (i + 1)) ^^^ g (i + 1)) ^^^ g (i + 2) ^^^ g (i + 3)

/-- MixColumns. -/
def aesMix (s : List Nat) : List Nat := ((List.range 4).map fun c => aesMixCol ((s.drop (4 * c)).take 4)).flatten

/-- The rounds of the cipher after the first key addition; the last one has no MixColumns. -/
def aesRounds (ks : List (List Nat)) (s : List Nat) : List Nat :=
  match ks with
  | [] => s
  | [k] => xorNats (aesShift (s.map aesSub)) k
  | k :: r => aesRounds r (xorNats (aesMix (aesShift (s.map aesSub))) k)

/-- AES-256 of one block of 16 bytes under expanded keys. -/
def aesBlock (ks : List (List Nat)) (b : Bytes) : Bytes :=
  (aesRounds (ks.drop 1) (xorNats (b.map BitVec.toNat) (ks.getD 0 []))).map (BitVec.ofNat 8)

/-- AES-256 of one block. -/
def aes256 (key b : Bytes) : Bytes := aesBlock (aesRoundKeys key) b

/-- Product in GCM's field GF(2^128), bit 0 the leftmost; n bits of y are left. -/
def gmulAux (n y v acc : Nat) : Nat :=
  match n with
  | 0 => acc
  | k + 1 =>
    let acc := if y.testBit k then acc ^^^ v else acc
    gmulAux k y (if v % 2 = 1 then (v >>> 1) ^^^ (0xE1 <<< 120) else v >>> 1) acc

/-- Product in GCM's field. -/
def gmul (x y : Nat) : Nat := gmulAux 128 y x 0

/-- GHASH over a byte string whose length is a multiple of 16. -/
def ghash (h : Nat) (b : Bytes) : Nat := (chunks 16 b).foldl (fun acc c => gmul (acc ^^^ beNat c) h) 0

/-- Fill up with zeros to a multiple of 16. -/
def pad16 (b : Bytes) : Bytes := b ++ zeros ((16 - b.length % 16) % 16)

/-- GCM's key stream: n blocks from the counter block iv || ctr. -/
def gcmStream (ks : List (List Nat)) (iv : Bytes) (n ctr : Nat) : Bytes :=
  match n with
  | 0 => []
  | k + 1 => aesBlock ks (iv ++ natBe 4 ctr) ++ gcmStream ks iv k (ctr + 1)

/-- The tag of AES-256-GCM over associated data and ciphertext. -/
def gcmTag (ks : List (List Nat)) (iv aad ct : Bytes) : Bytes :=
  let h := beNat (aesBlock ks (zeros 16))
  let y := ghash h (pad16 aad ++ pad16 ct ++ natBe 8 (8 * aad.length) ++ natBe 8 (8 * ct.length))
  xorBytes (natBe 16 y) (aesBlock ks (iv ++ natBe 4 1))

/-- AES-256-GCM encryption with a 12-byte IV: ciphertext and 16-byte tag. -/
def gcmSeal (key iv aad pt : Bytes) : Bytes × Bytes :=
  let ks := aesRoundKeys key
  let ct := xorBytes pt (gcmStream ks iv (cdiv pt.length 16) 2)
  (ct, gcmTag ks iv aad ct)

/-- AES-256-GCM decryption: none where the tag does not verify. -/
def gcmOpen (key iv aad ct tag : Bytes) : Option Bytes :=
  let ks := aesRoundKeys key
  if gcmTag ks iv aad ct = tag then some (xorBytes ct (gcmStream ks iv (cdiv ct.length 16) 2)) else none

end Sys2Proof.Machine
end

