-- ==== Sys2Proof/Config.lean ====
section
/-!
DEFINITION. What the manual leaves to an implementation or to chance, and the public-key algorithms it names by their standards: constants without a body, so that no statement can rest on a value (DESIGN CHOICE, assumption log 6 and 9).
-/
namespace Sys2Proof.Config

/-- A free value of n bits' worth: the k-th value the machine takes where the manual fixes none (DESIGN CHOICE, assumption log 6). -/
opaque freeNat : Nat → Nat

/-- A free byte string of the length asked for, for contents the manual leaves open. -/
opaque freeBytes : Nat → Nat → Bytes

/-- The security island's random source (18 R554): the k-th draw of n bytes. -/
opaque random : Nat → Nat → Bytes

/-- The seed the PUF gives (18 R532). -/
opaque pufSeed : Bytes

/-- ML-DSA-65 key generation: the public key of a seed (FIPS 204). -/
opaque dsaPublic : Bytes → Bytes

/-- ML-DSA-65 signing: seed, message, draw. -/
opaque dsaSign : Bytes → Bytes → Nat → Bytes

/-- ML-DSA-65 verification: public key, message, signature. -/
opaque dsaVerify : Bytes → Bytes → Bytes → Bool

/-- ML-KEM-1024 key generation from a draw: the encapsulation key (FIPS 203). -/
opaque kemPublic : Nat → Bytes

/-- ML-KEM-1024 encapsulation to a key with a draw: the ciphertext and the shared secret. -/
opaque kemEncap : Bytes → Nat → Bytes × Bytes

/-- ML-KEM-1024 decapsulation: the draw of the key, the ciphertext. -/
opaque kemDecap : Nat → Bytes → Option Bytes

/-- Whether a certificate chain leads to the Omwethen root (RFC 5280). -/
opaque chainValid : Bytes → Bool

/-- The device serial a chain's leaf names, and its public key (18 R533). -/
opaque chainSerial : Bytes → Bytes
opaque chainKey : Bytes → Bytes

/-- The ML-DSA-65 public key with which Omwethen signs debug tokens (18 R530). -/
opaque omwethenKey : Bytes

/-- The signer digest fused into the ROM (20 R607). -/
opaque signerDigest : Bytes

/-- This module's device serial (14 R412), identity EEPROM bytes 16 to 23 (22 R666), and the chain the factory wrote (20 R615). -/
opaque serial : Bytes
opaque eepromIds : Bytes
opaque factoryChain : Bytes

/-- The firmware image the factory wrote (20 R607). -/
opaque factoryImage : Bytes

/-- The anti-rollback fuses blown at the factory (20 R608). -/
opaque factoryFloor : Nat

/-- How far from its place, in GHz of heater-equivalent frequency, a peak of a sweep may lie (15 R441 gives no tolerance). -/
opaque sweepTolerance : Nat

end Sys2Proof.Config
end

