-- ==== Sys2Proof/Machine/RegTable.lean ====
section
/-!
DEFINITION. Every register of the index (23 R698): its address, its instances, its fields with their access codes (00 R8) and its reset value, as the field maps of the owning chapters give them.
-/
namespace Sys2Proof.Machine

/-- The access codes of R8. A field RSV has no row: it reads zero and ignores writes. -/
inductive Access where
  | ro | rw | wo | w1c | w1s
  deriving DecidableEq, Repr

/-- One field of a register: its bits and its access code. -/
structure RegField where
  hi : Nat
  lo : Nat
  acc : Access
  deriving DecidableEq, Repr

/-- One register of the index: the address of its first place, how often it repeats (over dies or blocks, n1 times s1 apart, and inside a block, n2 times s2 apart), its fields, and its reset values by inner place (the last one holds for the rest). -/
structure RegRow where
  base : Nat
  n1 : Nat
  s1 : Nat
  n2 : Nat
  s2 : Nat
  fields : List RegField
  resets : List Nat
  deriving DecidableEq, Repr

/-- Place of a field inside a register. -/
structure RF where
  hi : Nat
  lo : Nat
  deriving DecidableEq, Repr

/-! ### Register addresses -/
namespace R

/-- MER_COUNT (02 R37). -/
def MER_COUNT : Nat := 0x20000200000
/-- MER_STATUS (02 R38). -/
def MER_STATUS : Nat := 0x20000200008
/-- MER_OFFSET (02 R39). -/
def MER_OFFSET : Nat := 0x20000200010
/-- MER_DOGWATCH (02 R40). -/
def MER_DOGWATCH : Nat := 0x20000200018
/-- CMD_SLOT_BUSY (03 R76). -/
def CMD_SLOT_BUSY : Nat := 0x20000100000
/-- CMD_INTAKE_STATUS (03 R77). -/
def CMD_INTAKE_STATUS : Nat := 0x20000100008
/-- CMD_RING_BASE (03 R78). -/
def CMD_RING_BASE (j : Nat) : Nat := 0x20000100100 + j * 0x20
/-- CMD_RING_CTRL (03 R79). -/
def CMD_RING_CTRL (j : Nat) : Nat := 0x20000100108 + j * 0x20
/-- CMD_RING_HEAD (03 R81). -/
def CMD_RING_HEAD (j : Nat) : Nat := 0x20000100110 + j * 0x20
/-- CMD_RING_CONSUMED (03 R82). -/
def CMD_RING_CONSUMED (j : Nat) : Nat := 0x20000100118 + j * 0x20
/-- CDn_ARRAY_MAP (05 R137). -/
def CDn_ARRAY_MAP (n : Nat) (j : Nat) : Nat := 0x20000e01000 + n * 0x100000 + j * 0x8
/-- CDn_ARRAY_STATUS (05 R138). -/
def CDn_ARRAY_STATUS (n : Nat) : Nat := 0x20000e01100 + n * 0x100000
/-- CDn_MM_TILES (05 R139). -/
def CDn_MM_TILES (n : Nat) : Nat := 0x20000e01108 + n * 0x100000
/-- CDn_MM_STALL (05 R140). -/
def CDn_MM_STALL (n : Nat) : Nat := 0x20000e01110 + n * 0x100000
/-- REL_STATUS (06 R171). -/
def REL_STATUS : Nat := 0x20000d00000
/-- REL_HOPS (06 R172). -/
def REL_HOPS : Nat := 0x20000d00008
/-- REL_ERRORS (06 R173). -/
def REL_ERRORS : Nat := 0x20000d00010
/-- REL_HOLD (06 R174). -/
def REL_HOLD : Nat := 0x20000d00018
/-- CDn_KSPLIT_HOPS (06 R175). -/
def CDn_KSPLIT_HOPS (n : Nat) : Nat := 0x20000e01200 + n * 0x100000
/-- CDn_VEC_STATUS (07 R199). -/
def CDn_VEC_STATUS (n : Nat) : Nat := 0x20000e01300 + n * 0x100000
/-- CDn_VEC_WAVES (07 R200). -/
def CDn_VEC_WAVES (n : Nat) (j : Nat) : Nat := 0x20000e01310 + n * 0x100000 + j * 0x10
/-- CDn_VEC_STALL (07 R201). -/
def CDn_VEC_STALL (n : Nat) (j : Nat) : Nat := 0x20000e01318 + n * 0x100000 + j * 0x10
/-- EMB_STATUS (08 R228). -/
def EMB_STATUS : Nat := 0x20000c00000
/-- EMB_LOOKUPS (08 R229). -/
def EMB_LOOKUPS : Nat := 0x20000c00008
/-- EMB_SERVED (08 R230). -/
def EMB_SERVED : Nat := 0x20000c00010
/-- EMB_ERRORS (08 R231). -/
def EMB_ERRORS : Nat := 0x20000c00018
/-- EMB_STAGE (08 R232). -/
def EMB_STAGE : Nat := 0x20000c00020
/-- TRB_COUNTER (09 R257). -/
def TRB_COUNTER (j : Nat) : Nat := 0x20000104000 + j * 0x10
/-- TRB_PER_STEP (09 R258). -/
def TRB_PER_STEP (j : Nat) : Nat := 0x20000104008 + j * 0x10
/-- CMD_FERRY_BYTES (09 R259). -/
def CMD_FERRY_BYTES : Nat := 0x20000104400
/-- CDn_UPD_STATUS (09 R260). -/
def CDn_UPD_STATUS (n : Nat) : Nat := 0x20000e01400 + n * 0x100000
/-- CDn_UPD_BLOCKS (09 R261). -/
def CDn_UPD_BLOCKS (n : Nat) : Nat := 0x20000e01408 + n * 0x100000
/-- ARB_HM_COUNTS (10 R296). -/
def ARB_HM_COUNTS : Nat := 0x20000008000
/-- ARB_HM_LAST (10 R297). -/
def ARB_HM_LAST : Nat := 0x20000008008
/-- ARB_ESC_STATUS (10 R298). -/
def ARB_ESC_STATUS : Nat := 0x20000008100
/-- ARB_ESC_STEP (10 R299). -/
def ARB_ESC_STEP : Nat := 0x20000008108
/-- ARB_ESC_STAGE (10 R300). -/
def ARB_ESC_STAGE : Nat := 0x20000008110
/-- ARB_ESC_EVENTS (10 R301). -/
def ARB_ESC_EVENTS : Nat := 0x20000008118
/-- CDn_VRN_STATUS (10 R302). -/
def CDn_VRN_STATUS (n : Nat) : Nat := 0x20000e01500 + n * 0x100000
/-- CDn_VRN_COUNTS (10 R303). -/
def CDn_VRN_COUNTS (n : Nat) : Nat := 0x20000e01508 + n * 0x100000
/-- CDn_VRN_STRIKES (10 R304). -/
def CDn_VRN_STRIKES (n : Nat) (j : Nat) : Nat := 0x20000e01600 + n * 0x100000 + j * 0x8
/-- CRC_CFG (11 R317). -/
def CRC_CFG (j : Nat) : Nat := 0x20000a00000 + j * 0x80
/-- CRC_POLY (11 R318). -/
def CRC_POLY (j : Nat) : Nat := 0x20000a00008 + j * 0x80
/-- CRC_INIT (11 R319). -/
def CRC_INIT (j : Nat) : Nat := 0x20000a00010 + j * 0x80
/-- CRC_XOROUT (11 R320). -/
def CRC_XOROUT (j : Nat) : Nat := 0x20000a00018 + j * 0x80
/-- CRC_VALUE (11 R321). -/
def CRC_VALUE (j : Nat) : Nat := 0x20000a00020 + j * 0x80
/-- CRC_EXPECT (11 R322). -/
def CRC_EXPECT (j : Nat) : Nat := 0x20000a00028 + j * 0x80
/-- CRC_START (11 R323). -/
def CRC_START (j : Nat) : Nat := 0x20000a00030 + j * 0x80
/-- CRC_LENGTH (11 R324). -/
def CRC_LENGTH (j : Nat) : Nat := 0x20000a00038 + j * 0x80
/-- CRC_CTRL (11 R325). -/
def CRC_CTRL (j : Nat) : Nat := 0x20000a00040 + j * 0x80
/-- CRC_STATUS (11 R326). -/
def CRC_STATUS (j : Nat) : Nat := 0x20000a00048 + j * 0x80
/-- CRC_RESULT (11 R327). -/
def CRC_RESULT (j : Nat) : Nat := 0x20000a00050 + j * 0x80
/-- CRC_DATA (11 R328). -/
def CRC_DATA (j : Nat) : Nat := 0x20000a00058 + j * 0x80
/-- CRC_PROGRESS (11 R329). -/
def CRC_PROGRESS (j : Nat) : Nat := 0x20000a00060 + j * 0x80
/-- CRC_HELD (11 R330). -/
def CRC_HELD : Nat := 0x20000a00400
/-- CRC_EVENTS (11 R331). -/
def CRC_EVENTS : Nat := 0x20000a00408
/-- HBM_STACK_STATUS (12 R357). -/
def HBM_STACK_STATUS (j : Nat) : Nat := 0x20000600000 + j * 0x8
/-- HBM_CE (12 R358). -/
def HBM_CE (j : Nat) : Nat := 0x20000600040 + j * 0x8
/-- HBM_UE (12 R359). -/
def HBM_UE (j : Nat) : Nat := 0x20000600080 + j * 0x8
/-- HBM_RETIRE (12 R360). -/
def HBM_RETIRE : Nat := 0x20000600100
/-- HBM_DONATE (12 R361). -/
def HBM_DONATE : Nat := 0x20000600108
/-- HBM_ADVISE (12 R362). -/
def HBM_ADVISE : Nat := 0x20000600110
/-- HBM_MAP_SEL (12 R363). -/
def HBM_MAP_SEL : Nat := 0x20000600118
/-- HBM_MAP_ENTRY (12 R364). -/
def HBM_MAP_ENTRY : Nat := 0x20000600120
/-- HBM_GOV (12 R365). -/
def HBM_GOV (j : Nat) : Nat := 0x20000600200 + j * 0x8
/-- HBM_GOV_BYTES (12 R366). -/
def HBM_GOV_BYTES (j : Nat) : Nat := 0x20000600240 + j * 0x8
/-- HBM_SCRUB (12 R367). -/
def HBM_SCRUB : Nat := 0x20000600300
/-- HBM_SCRUB_POS (12 R368). -/
def HBM_SCRUB_POS : Nat := 0x20000600308
/-- ARB_LINK_STATUS (13 R388). -/
def ARB_LINK_STATUS (j : Nat) : Nat := 0x20000002000 + j * 0x10
/-- ARB_LINK_COUNTS (13 R389). -/
def ARB_LINK_COUNTS (j : Nat) : Nat := 0x20000002008 + j * 0x10
/-- ARB_LANE_SEL (13 R390). -/
def ARB_LANE_SEL : Nat := 0x20000002100
/-- ARB_LANE_GROUP (13 R391). -/
def ARB_LANE_GROUP : Nat := 0x20000002108
/-- ARB_LINK_EVENTS (13 R392). -/
def ARB_LINK_EVENTS : Nat := 0x20000002110
/-- ARB_LINK_POLICY (13 R393). -/
def ARB_LINK_POLICY : Nat := 0x20000002118
/-- DRD_PORT_STATUS (14 R420). -/
def DRD_PORT_STATUS (j : Nat) : Nat := 0x20000900000 + j * 0x40
/-- DRD_PORT_PEER (14 R421). -/
def DRD_PORT_PEER (j : Nat) : Nat := 0x20000900008 + j * 0x40
/-- DRD_PORT_PEER_INFO (14 R422). -/
def DRD_PORT_PEER_INFO (j : Nat) : Nat := 0x20000900010 + j * 0x40
/-- DRD_PORT_LANES (14 R423). -/
def DRD_PORT_LANES (j : Nat) : Nat := 0x20000900018 + j * 0x40
/-- DRD_PORT_FEC (14 R424). -/
def DRD_PORT_FEC (j : Nat) : Nat := 0x20000900020 + j * 0x40
/-- DRD_PORT_ERRORS (14 R425). -/
def DRD_PORT_ERRORS (j : Nat) : Nat := 0x20000900028 + j * 0x40
/-- DRD_PORT_REPLAY (14 R426). -/
def DRD_PORT_REPLAY (j : Nat) : Nat := 0x20000900030 + j * 0x40
/-- DRD_PORT_LOST (14 R427). -/
def DRD_PORT_LOST (j : Nat) : Nat := 0x20000900038 + j * 0x40
/-- DRD_STATUS (14 R428). -/
def DRD_STATUS : Nat := 0x20000901000
/-- DRD_EVENTS (14 R429). -/
def DRD_EVENTS : Nat := 0x20000901008
/-- DRD_REPLAY_REGION (14 R430). -/
def DRD_REPLAY_REGION : Nat := 0x20000901010
/-- RSEn_DRAW_STATUS (15 R456). -/
def RSEn_DRAW_STATUS (n : Nat) : Nat := 0x20000700000 + n * 0x100000
/-- RSEn_DRAW_BEAT (15 R457). -/
def RSEn_DRAW_BEAT (n : Nat) : Nat := 0x20000700008 + n * 0x100000
/-- RSEn_ROUTE_SEL (15 R458). -/
def RSEn_ROUTE_SEL (n : Nat) : Nat := 0x20000700010 + n * 0x100000
/-- RSEn_ROUTE (15 R459). -/
def RSEn_ROUTE (n : Nat) : Nat := 0x20000700018 + n * 0x100000
/-- RSEn_RING_SEL (15 R460). -/
def RSEn_RING_SEL (n : Nat) : Nat := 0x20000700020 + n * 0x100000
/-- RSEn_RING (15 R461). -/
def RSEn_RING (n : Nat) : Nat := 0x20000700028 + n * 0x100000
/-- RSEn_BEARING_COUNTS (15 R462). -/
def RSEn_BEARING_COUNTS (n : Nat) : Nat := 0x20000700030 + n * 0x100000
/-- RSEn_FEED (15 R463). -/
def RSEn_FEED (n : Nat) (j : Nat) : Nat := 0x20000700400 + n * 0x100000 + j * 0x8
/-- LNT_STATUS (15 R464). -/
def LNT_STATUS : Nat := 0x20000708000
/-- LNT_LINE (15 R465). -/
def LNT_LINE (j : Nat) : Nat := 0x20000708010 + j * 0x8
/-- DRD_CHART_EPOCH (16 R491). -/
def DRD_CHART_EPOCH : Nat := 0x20000901100
/-- DRD_CHART_STATUS (16 R492). -/
def DRD_CHART_STATUS : Nat := 0x20000901108
/-- DRD_TABLE_GEN (16 R493). -/
def DRD_TABLE_GEN : Nat := 0x20000901110
/-- DRD_TABLE_COUNTS (16 R494). -/
def DRD_TABLE_COUNTS : Nat := 0x20000901118
/-- DRD_ROUTE_SEL (16 R495). -/
def DRD_ROUTE_SEL : Nat := 0x20000901120
/-- DRD_ROUTE_ALT (16 R496). -/
def DRD_ROUTE_ALT (j : Nat) : Nat := 0x20000901128 + j * 0x8
/-- DRD_ADMIT (16 R497). -/
def DRD_ADMIT (j : Nat) : Nat := 0x20000901200 + j * 0x8
/-- DRD_ROUTE_EVENTS (16 R498). -/
def DRD_ROUTE_EVENTS : Nat := 0x20000901300
/-- REL_RECKON_STATUS (17 R522). -/
def REL_RECKON_STATUS : Nat := 0x20000d00100
/-- REL_RECKON_REBUILD (17 R523). -/
def REL_RECKON_REBUILD : Nat := 0x20000d00108
/-- REL_RECKON_COUNTS (17 R524). -/
def REL_RECKON_COUNTS : Nat := 0x20000d00110
/-- REL_RECKON_STALE (17 R525). -/
def REL_RECKON_STALE : Nat := 0x20000d00118
/-- REL_SNAP_BYTES (17 R526). -/
def REL_SNAP_BYTES : Nat := 0x20000d00120
/-- SEC_STATUS (18 R557). -/
def SEC_STATUS : Nat := 0x20000b00000
/-- SEC_BIND (18 R558). -/
def SEC_BIND : Nat := 0x20000b00008
/-- SEC_KEY_COUNTER (18 R559). -/
def SEC_KEY_COUNTER : Nat := 0x20000b00010
/-- SEC_KEYS (18 R560). -/
def SEC_KEYS : Nat := 0x20000b00018
/-- SEC_LINK_KEYS (18 R561). -/
def SEC_LINK_KEYS : Nat := 0x20000b00020
/-- SEC_ROTATION (18 R562). -/
def SEC_ROTATION : Nat := 0x20000b00028
/-- SEC_SCRUB (18 R563). -/
def SEC_SCRUB : Nat := 0x20000b00030
/-- SEC_SCRUB_FAILS (18 R564). -/
def SEC_SCRUB_FAILS : Nat := 0x20000b00038
/-- SEC_EVENTS (18 R565). -/
def SEC_EVENTS : Nat := 0x20000b00040
/-- SEC_COUNTS (18 R566). -/
def SEC_COUNTS : Nat := 0x20000b00048
/-- LOG_STATUS (19 R594). -/
def LOG_STATUS : Nat := 0x20000500000
/-- LOG_LOST_TOTAL (19 R595). -/
def LOG_LOST_TOTAL : Nat := 0x20000500008
/-- LOG_CTR_SEL (19 R596). -/
def LOG_CTR_SEL : Nat := 0x20000500010
/-- LOG_CTR (19 R597). -/
def LOG_CTR : Nat := 0x20000500018
/-- LOG_CTR_LOST (19 R598). -/
def LOG_CTR_LOST : Nat := 0x20000500020
/-- LOG_LADDER (19 R599). -/
def LOG_LADDER : Nat := 0x20000500028
/-- LOG_MGMT (19 R600). -/
def LOG_MGMT : Nat := 0x20000500030
/-- LOG_TESTS (19 R601). -/
def LOG_TESTS : Nat := 0x20000500038
/-- LOG_HOST_EVENTS (19 R602). -/
def LOG_HOST_EVENTS : Nat := 0x20000500040
/-- LOG_ENTRY (19 R603). -/
def LOG_ENTRY (j : Nat) : Nat := 0x20000510000 + j * 0x8
/-- ARB_BOOT_STATUS (20 R623). -/
def ARB_BOOT_STATUS : Nat := 0x20000001000
/-- ARB_FW_INFO (20 R624). -/
def ARB_FW_INFO : Nat := 0x20000001008
/-- ARB_DIE_REV (20 R625). -/
def ARB_DIE_REV (j : Nat) : Nat := 0x20000001040 + j * 0x10
/-- ARB_DIE_CAP (20 R626). -/
def ARB_DIE_CAP (j : Nat) : Nat := 0x20000001048 + j * 0x10
/-- ARB_WITHHELD (20 R627). -/
def ARB_WITHHELD : Nat := 0x200000010b0
/-- CMD_BOOT_STATUS (20 R628). -/
def CMD_BOOT_STATUS : Nat := 0x20000100010
/-- PWR_DOMAIN_STATE (21 R650). -/
def PWR_DOMAIN_STATE : Nat := 0x20000300000
/-- PWR_DOMAIN_FAULT (21 R651). -/
def PWR_DOMAIN_FAULT : Nat := 0x20000300008
/-- PWR_ANCHOR_STATUS (21 R652). -/
def PWR_ANCHOR_STATUS : Nat := 0x20000300100
/-- PWR_ANCHOR_ENTER (21 R653). -/
def PWR_ANCHOR_ENTER : Nat := 0x20000300108
/-- PWR_ANCHOR_WAKE (21 R654). -/
def PWR_ANCHOR_WAKE : Nat := 0x20000300110
/-- CLK_LOOP (21 R655). -/
def CLK_LOOP (j : Nat) : Nat := 0x20000400000 + j * 0x8
/-- CLK_SET (21 R656). -/
def CLK_SET (j : Nat) : Nat := 0x20000400080 + j * 0x8
/-- CLK_XIN_STATUS (21 R657). -/
def CLK_XIN_STATUS : Nat := 0x20000400100
/-- CLK_OSC (21 R658). -/
def CLK_OSC : Nat := 0x20000400108
/-- PWR_INPUT (22 R679). -/
def PWR_INPUT : Nat := 0x20000300200
/-- PWR_CAP (22 R680). -/
def PWR_CAP : Nat := 0x20000300208
/-- PWR_THERMAL (22 R681). -/
def PWR_THERMAL : Nat := 0x20000300210
/-- PWR_RATED_STATUS (22 R682). -/
def PWR_RATED_STATUS : Nat := 0x20000300218
/-- PWR_RATED_TIME (22 R683). -/
def PWR_RATED_TIME : Nat := 0x20000300220
/-- BLK_IDENT (23 R691). -/
def BLK_IDENT (n : Nat) : Nat := 0x200000fff00 + n * 0x100000
/-- BLK_STATUS (23 R692). -/
def BLK_STATUS (n : Nat) : Nat := 0x200000fff08 + n * 0x100000
/-- CMD_REG_TARGET (23 R695). -/
def CMD_REG_TARGET : Nat := 0x20000103000
/-- CMD_REG_DATA (23 R696). -/
def CMD_REG_DATA : Nat := 0x20000103008
/-- CMD_REG_CTRL (23 R697). -/
def CMD_REG_CTRL : Nat := 0x20000103010

end R

/-! ### Field places -/
namespace F

/-- MER_COUNT.COUNT (02 R37). -/
def MER_COUNT_COUNT : RF := ⟨63, 0⟩
/-- MER_STATUS.SOURCE_FID (02 R38). -/
def MER_STATUS_SOURCE_FID : RF := ⟨63, 48⟩
/-- MER_STATUS.UPSTREAM_PORT (02 R38). -/
def MER_STATUS_UPSTREAM_PORT : RF := ⟨47, 40⟩
/-- MER_STATUS.HOPS (02 R38). -/
def MER_STATUS_HOPS : RF := ⟨39, 32⟩
/-- MER_STATUS.ROLE (02 R38). -/
def MER_STATUS_ROLE : RF := ⟨23, 22⟩
/-- MER_STATUS.SOURCING (02 R38). -/
def MER_STATUS_SOURCING : RF := ⟨21, 21⟩
/-- MER_STATUS.OUT_OF_BUDGET (02 R38). -/
def MER_STATUS_OUT_OF_BUDGET : RF := ⟨20, 20⟩
/-- MER_STATUS.REF_LOST (02 R38). -/
def MER_STATUS_REF_LOST : RF := ⟨19, 19⟩
/-- MER_STATUS.IN_DOG_WATCH (02 R38). -/
def MER_STATUS_IN_DOG_WATCH : RF := ⟨18, 18⟩
/-- MER_STATUS.STEPPED (02 R38). -/
def MER_STATUS_STEPPED : RF := ⟨17, 17⟩
/-- MER_STATUS.STATE_CHANGED (02 R38). -/
def MER_STATUS_STATE_CHANGED : RF := ⟨16, 16⟩
/-- MER_STATUS.STATE (02 R38). -/
def MER_STATUS_STATE : RF := ⟨2, 0⟩
/-- MER_OFFSET.DELAY (02 R39). -/
def MER_OFFSET_DELAY : RF := ⟨63, 32⟩
/-- MER_OFFSET.OFFSET (02 R39). -/
def MER_OFFSET_OFFSET : RF := ⟨31, 0⟩
/-- MER_DOGWATCH.NEXT_OPEN (02 R40). -/
def MER_DOGWATCH_NEXT_OPEN : RF := ⟨63, 16⟩
/-- MER_DOGWATCH.LENGTH (02 R40). -/
def MER_DOGWATCH_LENGTH : RF := ⟨10, 0⟩
/-- CMD_SLOT_BUSY.BUSY (03 R76). -/
def CMD_SLOT_BUSY_BUSY : RF := ⟨63, 0⟩
/-- CMD_INTAKE_STATUS.DROPPED_WRITES (03 R77). -/
def CMD_INTAKE_STATUS_DROPPED_WRITES : RF := ⟨63, 32⟩
/-- CMD_INTAKE_STATUS.INCOMPLETE (03 R77). -/
def CMD_INTAKE_STATUS_INCOMPLETE : RF := ⟨31, 0⟩
/-- CMD_RING_BASE.BASE (03 R78). -/
def CMD_RING_BASE_BASE : RF := ⟨63, 12⟩
/-- CMD_RING_CTRL.SLICE_TAG (03 R79). -/
def CMD_RING_CTRL_SLICE_TAG : RF := ⟨27, 16⟩
/-- CMD_RING_CTRL.SIZE (03 R79). -/
def CMD_RING_CTRL_SIZE : RF := ⟨12, 8⟩
/-- CMD_RING_CTRL.ENABLE (03 R79). -/
def CMD_RING_CTRL_ENABLE : RF := ⟨0, 0⟩
/-- CMD_RING_HEAD.HEAD (03 R81). -/
def CMD_RING_HEAD_HEAD : RF := ⟨63, 0⟩
/-- CMD_RING_CONSUMED.CONSUMED (03 R82). -/
def CMD_RING_CONSUMED_CONSUMED : RF := ⟨63, 0⟩
/-- CDn_ARRAY_MAP.SLOT (05 R137). -/
def CDn_ARRAY_MAP_SLOT : RF := ⟨12, 8⟩
/-- CDn_ARRAY_MAP.STATE (05 R137). -/
def CDn_ARRAY_MAP_STATE : RF := ⟨2, 0⟩
/-- CDn_ARRAY_STATUS.FENCED (05 R138). -/
def CDn_ARRAY_STATUS_FENCED : RF := ⟨47, 24⟩
/-- CDn_ARRAY_STATUS.SPARE_SLOT (05 R138). -/
def CDn_ARRAY_STATUS_SPARE_SLOT : RF := ⟨23, 16⟩
/-- CDn_ARRAY_STATUS.SPARE_FENCED (05 R138). -/
def CDn_ARRAY_STATUS_SPARE_FENCED : RF := ⟨9, 9⟩
/-- CDn_ARRAY_STATUS.SPARE_IN_USE (05 R138). -/
def CDn_ARRAY_STATUS_SPARE_IN_USE : RF := ⟨8, 8⟩
/-- CDn_ARRAY_STATUS.ENABLED (05 R138). -/
def CDn_ARRAY_STATUS_ENABLED : RF := ⟨4, 0⟩
/-- CDn_MM_TILES.TILES (05 R139). -/
def CDn_MM_TILES_TILES : RF := ⟨63, 0⟩
/-- CDn_MM_STALL.CYCLES (05 R140). -/
def CDn_MM_STALL_CYCLES : RF := ⟨63, 0⟩
/-- REL_STATUS.CHAINS (06 R171). -/
def REL_STATUS_CHAINS : RF := ⟨42, 32⟩
/-- REL_STATUS.ACTIVE (06 R171). -/
def REL_STATUS_ACTIVE : RF := ⟨5, 0⟩
/-- REL_HOPS.HOPS (06 R172). -/
def REL_HOPS_HOPS : RF := ⟨63, 0⟩
/-- REL_ERRORS.MISMATCH (06 R173). -/
def REL_ERRORS_MISMATCH : RF := ⟨63, 48⟩
/-- REL_ERRORS.STALLED (06 R173). -/
def REL_ERRORS_STALLED : RF := ⟨47, 32⟩
/-- REL_ERRORS.DISCARDED (06 R173). -/
def REL_ERRORS_DISCARDED : RF := ⟨31, 16⟩
/-- REL_HOLD.LIMIT (06 R174). -/
def REL_HOLD_LIMIT : RF := ⟨63, 32⟩
/-- REL_HOLD.HELD (06 R174). -/
def REL_HOLD_HELD : RF := ⟨31, 0⟩
/-- CDn_KSPLIT_HOPS.HOPS (06 R175). -/
def CDn_KSPLIT_HOPS_HOPS : RF := ⟨63, 0⟩
/-- CDn_VEC_STATUS.BUSY (07 R199). -/
def CDn_VEC_STATUS_BUSY : RF := ⟨11, 8⟩
/-- CDn_VEC_STATUS.FENCED (07 R199). -/
def CDn_VEC_STATUS_FENCED : RF := ⟨3, 0⟩
/-- CDn_VEC_WAVES.WAVES (07 R200). -/
def CDn_VEC_WAVES_WAVES : RF := ⟨63, 0⟩
/-- CDn_VEC_STALL.CYCLES (07 R201). -/
def CDn_VEC_STALL_CYCLES : RF := ⟨63, 0⟩
/-- EMB_STATUS.FENCED (08 R228). -/
def EMB_STATUS_FENCED : RF := ⟨11, 8⟩
/-- EMB_STATUS.BUSY (08 R228). -/
def EMB_STATUS_BUSY : RF := ⟨7, 4⟩
/-- EMB_STATUS.ACTIVE (08 R228). -/
def EMB_STATUS_ACTIVE : RF := ⟨3, 0⟩
/-- EMB_LOOKUPS.LOOKUPS (08 R229). -/
def EMB_LOOKUPS_LOOKUPS : RF := ⟨63, 0⟩
/-- EMB_SERVED.ROWS (08 R230). -/
def EMB_SERVED_ROWS : RF := ⟨63, 0⟩
/-- EMB_ERRORS.MISMATCH (08 R231). -/
def EMB_ERRORS_MISMATCH : RF := ⟨63, 48⟩
/-- EMB_ERRORS.STALLED (08 R231). -/
def EMB_ERRORS_STALLED : RF := ⟨47, 32⟩
/-- EMB_ERRORS.KEY_RANGE (08 R231). -/
def EMB_ERRORS_KEY_RANGE : RF := ⟨31, 16⟩
/-- EMB_ERRORS.PEER_STOPPED (08 R231). -/
def EMB_ERRORS_PEER_STOPPED : RF := ⟨15, 0⟩
/-- EMB_STAGE.COUNTS (08 R232). -/
def EMB_STAGE_COUNTS : RF := ⟨16, 0⟩
/-- TRB_COUNTER.COUNTER (09 R257). -/
def TRB_COUNTER_COUNTER : RF := ⟨63, 0⟩
/-- TRB_PER_STEP.PER_STEP (09 R258). -/
def TRB_PER_STEP_PER_STEP : RF := ⟨44, 0⟩
/-- CMD_FERRY_BYTES.BYTES (09 R259). -/
def CMD_FERRY_BYTES_BYTES : RF := ⟨63, 0⟩
/-- CDn_UPD_STATUS.BUSY (09 R260). -/
def CDn_UPD_STATUS_BUSY : RF := ⟨15, 8⟩
/-- CDn_UPD_STATUS.FENCED (09 R260). -/
def CDn_UPD_STATUS_FENCED : RF := ⟨7, 0⟩
/-- CDn_UPD_BLOCKS.BLOCKS (09 R261). -/
def CDn_UPD_BLOCKS_BLOCKS : RF := ⟨63, 0⟩
/-- ARB_HM_COUNTS.RETRIED (10 R296). -/
def ARB_HM_COUNTS_RETRIED : RF := ⟨63, 32⟩
/-- ARB_HM_COUNTS.FAILED (10 R296). -/
def ARB_HM_COUNTS_FAILED : RF := ⟨31, 0⟩
/-- ARB_HM_LAST.KIND (10 R297). -/
def ARB_HM_LAST_KIND : RF := ⟨57, 56⟩
/-- ARB_HM_LAST.ADDR (10 R297). -/
def ARB_HM_LAST_ADDR : RF := ⟨47, 0⟩
/-- ARB_ESC_STATUS.LIST_USED (10 R298). -/
def ARB_ESC_STATUS_LIST_USED : RF := ⟨60, 48⟩
/-- ARB_ESC_STATUS.STAGE_ROWS (10 R298). -/
def ARB_ESC_STATUS_STAGE_ROWS : RF := ⟨47, 24⟩
/-- ARB_ESC_STATUS.IN_STEP (10 R298). -/
def ARB_ESC_STATUS_IN_STEP : RF := ⟨4, 4⟩
/-- ARB_ESC_STATUS.SUSPECT_HERE (10 R298). -/
def ARB_ESC_STATUS_SUSPECT_HERE : RF := ⟨3, 3⟩
/-- ARB_ESC_STATUS.STATE (10 R298). -/
def ARB_ESC_STATUS_STATE : RF := ⟨2, 0⟩
/-- ARB_ESC_STEP.STEP (10 R299). -/
def ARB_ESC_STEP_STEP : RF := ⟨63, 0⟩
/-- ARB_ESC_STAGE.PAGES (10 R300). -/
def ARB_ESC_STAGE_PAGES : RF := ⟨63, 45⟩
/-- ARB_ESC_STAGE.BASE (10 R300). -/
def ARB_ESC_STAGE_BASE : RF := ⟨26, 0⟩
/-- ARB_ESC_EVENTS.TAINTED (10 R301). -/
def ARB_ESC_EVENTS_TAINTED : RF := ⟨63, 32⟩
/-- ARB_ESC_EVENTS.SUSPECT (10 R301). -/
def ARB_ESC_EVENTS_SUSPECT : RF := ⟨31, 16⟩
/-- ARB_ESC_EVENTS.ABANDONED (10 R301). -/
def ARB_ESC_EVENTS_ABANDONED : RF := ⟨15, 0⟩
/-- CDn_VRN_STATUS.FENCED (10 R302). -/
def CDn_VRN_STATUS_FENCED : RF := ⟨47, 24⟩
/-- CDn_VRN_STATUS.BORROWING (10 R302). -/
def CDn_VRN_STATUS_BORROWING : RF := ⟨23, 0⟩
/-- CDn_VRN_COUNTS.DISAGREE (10 R303). -/
def CDn_VRN_COUNTS_DISAGREE : RF := ⟨63, 48⟩
/-- CDn_VRN_COUNTS.ARRAY_WRONG (10 R303). -/
def CDn_VRN_COUNTS_ARRAY_WRONG : RF := ⟨47, 32⟩
/-- CDn_VRN_COUNTS.VERNIER_WRONG (10 R303). -/
def CDn_VRN_COUNTS_VERNIER_WRONG : RF := ⟨31, 16⟩
/-- CDn_VRN_COUNTS.ALL_DIFFER (10 R303). -/
def CDn_VRN_COUNTS_ALL_DIFFER : RF := ⟨15, 0⟩
/-- CDn_VRN_STRIKES.ARRAY (10 R304). -/
def CDn_VRN_STRIKES_ARRAY : RF := ⟨59, 58⟩
/-- CDn_VRN_STRIKES.VERNIER (10 R304). -/
def CDn_VRN_STRIKES_VERNIER : RF := ⟨57, 56⟩
/-- CRC_CFG.REFOUT (11 R317). -/
def CRC_CFG_REFOUT : RF := ⟨9, 9⟩
/-- CRC_CFG.REFIN (11 R317). -/
def CRC_CFG_REFIN : RF := ⟨8, 8⟩
/-- CRC_CFG.WIDTH (11 R317). -/
def CRC_CFG_WIDTH : RF := ⟨6, 0⟩
/-- CRC_POLY.POLY (11 R318). -/
def CRC_POLY_POLY : RF := ⟨63, 0⟩
/-- CRC_INIT.INIT (11 R319). -/
def CRC_INIT_INIT : RF := ⟨63, 0⟩
/-- CRC_XOROUT.XOROUT (11 R320). -/
def CRC_XOROUT_XOROUT : RF := ⟨63, 0⟩
/-- CRC_VALUE.VALUE (11 R321). -/
def CRC_VALUE_VALUE : RF := ⟨63, 0⟩
/-- CRC_EXPECT.EXPECT (11 R322). -/
def CRC_EXPECT_EXPECT : RF := ⟨63, 0⟩
/-- CRC_START.ADDR (11 R323). -/
def CRC_START_ADDR : RF := ⟨47, 0⟩
/-- CRC_LENGTH.BYTES (11 R324). -/
def CRC_LENGTH_BYTES : RF := ⟨40, 0⟩
/-- CRC_CTRL.FEED_BYTES (11 R325). -/
def CRC_CTRL_FEED_BYTES : RF := ⟨11, 8⟩
/-- CRC_CTRL.IRQ_EN (11 R325). -/
def CRC_CTRL_IRQ_EN : RF := ⟨5, 5⟩
/-- CRC_CTRL.CMP_EN (11 R325). -/
def CRC_CTRL_CMP_EN : RF := ⟨4, 4⟩
/-- CRC_CTRL.CONTINUE (11 R325). -/
def CRC_CTRL_CONTINUE : RF := ⟨3, 3⟩
/-- CRC_CTRL.CHECK (11 R325). -/
def CRC_CTRL_CHECK : RF := ⟨2, 2⟩
/-- CRC_CTRL.STOP (11 R325). -/
def CRC_CTRL_STOP : RF := ⟨1, 1⟩
/-- CRC_CTRL.GO (11 R325). -/
def CRC_CTRL_GO : RF := ⟨0, 0⟩
/-- CRC_STATUS.FAULT (11 R326). -/
def CRC_STATUS_FAULT : RF := ⟨15, 12⟩
/-- CRC_STATUS.MISMATCH (11 R326). -/
def CRC_STATUS_MISMATCH : RF := ⟨2, 2⟩
/-- CRC_STATUS.DONE (11 R326). -/
def CRC_STATUS_DONE : RF := ⟨1, 1⟩
/-- CRC_STATUS.BUSY (11 R326). -/
def CRC_STATUS_BUSY : RF := ⟨0, 0⟩
/-- CRC_RESULT.RESULT (11 R327). -/
def CRC_RESULT_RESULT : RF := ⟨63, 0⟩
/-- CRC_DATA.DATA (11 R328). -/
def CRC_DATA_DATA : RF := ⟨63, 0⟩
/-- CRC_PROGRESS.BYTES (11 R329). -/
def CRC_PROGRESS_BYTES : RF := ⟨40, 0⟩
/-- CRC_HELD.IZ9 (11 R330). -/
def CRC_HELD_IZ9 : RF := ⟨7, 0⟩
/-- CRC_EVENTS.MISMATCH (11 R331). -/
def CRC_EVENTS_MISMATCH : RF := ⟨15, 8⟩
/-- CRC_EVENTS.DONE (11 R331). -/
def CRC_EVENTS_DONE : RF := ⟨7, 0⟩
/-- HBM_STACK_STATUS.TEMP (12 R357). -/
def HBM_STACK_STATUS_TEMP : RF := ⟨55, 48⟩
/-- HBM_STACK_STATUS.RETIRED (12 R357). -/
def HBM_STACK_STATUS_RETIRED : RF := ⟨38, 32⟩
/-- HBM_STACK_STATUS.STATE (12 R357). -/
def HBM_STACK_STATUS_STATE : RF := ⟨2, 0⟩
/-- HBM_CE.COUNT (12 R358). -/
def HBM_CE_COUNT : RF := ⟨47, 0⟩
/-- HBM_UE.COUNT (12 R359). -/
def HBM_UE_COUNT : RF := ⟨47, 0⟩
/-- HBM_RETIRE.GO (12 R360). -/
def HBM_RETIRE_GO : RF := ⟨63, 63⟩
/-- HBM_RETIRE.RESULT (12 R360). -/
def HBM_RETIRE_RESULT : RF := ⟨62, 60⟩
/-- HBM_RETIRE.STACK (12 R360). -/
def HBM_RETIRE_STACK : RF := ⟨50, 48⟩
/-- HBM_RETIRE.DONOR (12 R360). -/
def HBM_RETIRE_DONOR : RF := ⟨30, 16⟩
/-- HBM_RETIRE.FRAME (12 R360). -/
def HBM_RETIRE_FRAME : RF := ⟨14, 0⟩
/-- HBM_DONATE.GO (12 R361). -/
def HBM_DONATE_GO : RF := ⟨63, 63⟩
/-- HBM_DONATE.RESULT (12 R361). -/
def HBM_DONATE_RESULT : RF := ⟨62, 60⟩
/-- HBM_DONATE.STACK (12 R361). -/
def HBM_DONATE_STACK : RF := ⟨50, 48⟩
/-- HBM_DONATE.DONOR (12 R361). -/
def HBM_DONATE_DONOR : RF := ⟨30, 16⟩
/-- HBM_DONATE.TARGET (12 R361). -/
def HBM_DONATE_TARGET : RF := ⟨14, 0⟩
/-- HBM_ADVISE.PENDING (12 R362). -/
def HBM_ADVISE_PENDING : RF := ⟨63, 63⟩
/-- HBM_ADVISE.REASON (12 R362). -/
def HBM_ADVISE_REASON : RF := ⟨57, 56⟩
/-- HBM_ADVISE.STACK (12 R362). -/
def HBM_ADVISE_STACK : RF := ⟨50, 48⟩
/-- HBM_ADVISE.FRAME (12 R362). -/
def HBM_ADVISE_FRAME : RF := ⟨14, 0⟩
/-- HBM_MAP_SEL.STACK (12 R363). -/
def HBM_MAP_SEL_STACK : RF := ⟨50, 48⟩
/-- HBM_MAP_SEL.PAGE (12 R363). -/
def HBM_MAP_SEL_PAGE : RF := ⟨14, 0⟩
/-- HBM_MAP_ENTRY.BACKED (12 R364). -/
def HBM_MAP_ENTRY_BACKED : RF := ⟨16, 16⟩
/-- HBM_MAP_ENTRY.FRAME (12 R364). -/
def HBM_MAP_ENTRY_FRAME : RF := ⟨14, 0⟩
/-- HBM_GOV.CEILING (12 R365). -/
def HBM_GOV_CEILING : RF := ⟨14, 8⟩
/-- HBM_GOV.MIN (12 R365). -/
def HBM_GOV_MIN : RF := ⟨6, 0⟩
/-- HBM_GOV_BYTES.BYTES (12 R366). -/
def HBM_GOV_BYTES_BYTES : RF := ⟨63, 0⟩
/-- HBM_SCRUB.PERIOD (12 R367). -/
def HBM_SCRUB_PERIOD : RF := ⟨12, 8⟩
/-- HBM_SCRUB.ENABLE (12 R367). -/
def HBM_SCRUB_ENABLE : RF := ⟨0, 0⟩
/-- HBM_SCRUB_POS.PASSES (12 R368). -/
def HBM_SCRUB_POS_PASSES : RF := ⟨63, 32⟩
/-- HBM_SCRUB_POS.GRANULE (12 R368). -/
def HBM_SCRUB_POS_GRANULE : RF := ⟨29, 0⟩
/-- ARB_LINK_STATUS.SPARED_DN (13 R388). -/
def ARB_LINK_STATUS_SPARED_DN : RF := ⟨51, 42⟩
/-- ARB_LINK_STATUS.SPARED_UP (13 R388). -/
def ARB_LINK_STATUS_SPARED_UP : RF := ⟨41, 32⟩
/-- ARB_LINK_STATUS.RETRAINS_WATCH (13 R388). -/
def ARB_LINK_STATUS_RETRAINS_WATCH : RF := ⟨9, 8⟩
/-- ARB_LINK_STATUS.STATE_DN (13 R388). -/
def ARB_LINK_STATUS_STATE_DN : RF := ⟨7, 4⟩
/-- ARB_LINK_STATUS.STATE_UP (13 R388). -/
def ARB_LINK_STATUS_STATE_UP : RF := ⟨3, 0⟩
/-- ARB_LINK_COUNTS.RETRIES (13 R389). -/
def ARB_LINK_COUNTS_RETRIES : RF := ⟨63, 32⟩
/-- ARB_LINK_COUNTS.CREDIT_RESYNC (13 R389). -/
def ARB_LINK_COUNTS_CREDIT_RESYNC : RF := ⟨31, 16⟩
/-- ARB_LINK_COUNTS.RETRAINS (13 R389). -/
def ARB_LINK_COUNTS_RETRAINS : RF := ⟨15, 0⟩
/-- ARB_LANE_SEL.LINK (13 R390). -/
def ARB_LANE_SEL_LINK : RF := ⟨15, 13⟩
/-- ARB_LANE_SEL.DIR (13 R390). -/
def ARB_LANE_SEL_DIR : RF := ⟨12, 12⟩
/-- ARB_LANE_SEL.GROUP (13 R390). -/
def ARB_LANE_SEL_GROUP : RF := ⟨8, 0⟩
/-- ARB_LANE_GROUP.FAIL2 (13 R391). -/
def ARB_LANE_GROUP_FAIL2 : RF := ⟨54, 48⟩
/-- ARB_LANE_GROUP.FAIL1 (13 R391). -/
def ARB_LANE_GROUP_FAIL1 : RF := ⟨46, 40⟩
/-- ARB_LANE_GROUP.FAIL0 (13 R391). -/
def ARB_LANE_GROUP_FAIL0 : RF := ⟨38, 32⟩
/-- ARB_LANE_GROUP.WORST_LANE (13 R391). -/
def ARB_LANE_GROUP_WORST_LANE : RF := ⟨22, 16⟩
/-- ARB_LANE_GROUP.WORST_COUNT (13 R391). -/
def ARB_LANE_GROUP_WORST_COUNT : RF := ⟨15, 0⟩
/-- ARB_LINK_EVENTS.FENCED (13 R392). -/
def ARB_LINK_EVENTS_FENCED : RF := ⟨21, 16⟩
/-- ARB_LINK_EVENTS.HALF_MUSTER (13 R392). -/
def ARB_LINK_EVENTS_HALF_MUSTER : RF := ⟨13, 8⟩
/-- ARB_LINK_EVENTS.SPARED (13 R392). -/
def ARB_LINK_EVENTS_SPARED : RF := ⟨5, 0⟩
/-- ARB_LINK_POLICY.WITHDRAW (13 R393). -/
def ARB_LINK_POLICY_WITHDRAW : RF := ⟨0, 0⟩
/-- DRD_PORT_STATUS.PEER_FID (14 R420). -/
def DRD_PORT_STATUS_PEER_FID : RF := ⟨63, 48⟩
/-- DRD_PORT_STATUS.PEER_PORT (14 R420). -/
def DRD_PORT_STATUS_PEER_PORT : RF := ⟨47, 40⟩
/-- DRD_PORT_STATUS.VERSION (14 R420). -/
def DRD_PORT_STATUS_VERSION : RF := ⟨39, 32⟩
/-- DRD_PORT_STATUS.LANES_TX (14 R420). -/
def DRD_PORT_STATUS_LANES_TX : RF := ⟨27, 24⟩
/-- DRD_PORT_STATUS.LANES_RX (14 R420). -/
def DRD_PORT_STATUS_LANES_RX : RF := ⟨23, 20⟩
/-- DRD_PORT_STATUS.SPARE_TX (14 R420). -/
def DRD_PORT_STATUS_SPARE_TX : RF := ⟨19, 19⟩
/-- DRD_PORT_STATUS.SPARE_RX (14 R420). -/
def DRD_PORT_STATUS_SPARE_RX : RF := ⟨18, 18⟩
/-- DRD_PORT_STATUS.RESTRICTED (14 R420). -/
def DRD_PORT_STATUS_RESTRICTED : RF := ⟨17, 17⟩
/-- DRD_PORT_STATUS.KEY_PHASE (14 R420). -/
def DRD_PORT_STATUS_KEY_PHASE : RF := ⟨16, 16⟩
/-- DRD_PORT_STATUS.STATE (14 R420). -/
def DRD_PORT_STATUS_STATE : RF := ⟨3, 0⟩
/-- DRD_PORT_PEER.DIGEST (14 R421). -/
def DRD_PORT_PEER_DIGEST : RF := ⟨63, 0⟩
/-- DRD_PORT_PEER_INFO.VER_MAX (14 R422). -/
def DRD_PORT_PEER_INFO_VER_MAX : RF := ⟨63, 56⟩
/-- DRD_PORT_PEER_INFO.VER_MIN (14 R422). -/
def DRD_PORT_PEER_INFO_VER_MIN : RF := ⟨55, 48⟩
/-- DRD_PORT_PEER_INFO.BOOT (14 R422). -/
def DRD_PORT_PEER_INFO_BOOT : RF := ⟨47, 40⟩
/-- DRD_PORT_PEER_INFO.EPOCH_LO (14 R422). -/
def DRD_PORT_PEER_INFO_EPOCH_LO : RF := ⟨31, 0⟩
/-- DRD_PORT_LANES.RX_MAP (14 R423). -/
def DRD_PORT_LANES_RX_MAP : RF := ⟨63, 32⟩
/-- DRD_PORT_LANES.TX_MAP (14 R423). -/
def DRD_PORT_LANES_TX_MAP : RF := ⟨31, 0⟩
/-- DRD_PORT_FEC.CORRECTED (14 R424). -/
def DRD_PORT_FEC_CORRECTED : RF := ⟨63, 32⟩
/-- DRD_PORT_FEC.UNCORRECTABLE (14 R424). -/
def DRD_PORT_FEC_UNCORRECTABLE : RF := ⟨31, 0⟩
/-- DRD_PORT_ERRORS.TAG_FAIL (14 R425). -/
def DRD_PORT_ERRORS_TAG_FAIL : RF := ⟨63, 48⟩
/-- DRD_PORT_ERRORS.FOREIGN (14 R425). -/
def DRD_PORT_ERRORS_FOREIGN : RF := ⟨47, 32⟩
/-- DRD_PORT_ERRORS.MALFORMED (14 R425). -/
def DRD_PORT_ERRORS_MALFORMED : RF := ⟨31, 16⟩
/-- DRD_PORT_ERRORS.HOPS_EXPIRED (14 R425). -/
def DRD_PORT_ERRORS_HOPS_EXPIRED : RF := ⟨15, 0⟩
/-- DRD_PORT_REPLAY.REPLAYED (14 R426). -/
def DRD_PORT_REPLAY_REPLAYED : RF := ⟨63, 32⟩
/-- DRD_PORT_REPLAY.STORE_KIB (14 R426). -/
def DRD_PORT_REPLAY_STORE_KIB : RF := ⟨31, 16⟩
/-- DRD_PORT_REPLAY.RTT_NS (14 R426). -/
def DRD_PORT_REPLAY_RTT_NS : RF := ⟨15, 0⟩
/-- DRD_PORT_LOST.FRAMES (14 R427). -/
def DRD_PORT_LOST_FRAMES : RF := ⟨63, 32⟩
/-- DRD_PORT_LOST.TRAIN_WATCH (14 R427). -/
def DRD_PORT_LOST_TRAIN_WATCH : RF := ⟨19, 16⟩
/-- DRD_PORT_LOST.TRAININGS (14 R427). -/
def DRD_PORT_LOST_TRAININGS : RF := ⟨15, 0⟩
/-- DRD_STATUS.VER_MAX (14 R428). -/
def DRD_STATUS_VER_MAX : RF := ⟨63, 56⟩
/-- DRD_STATUS.VER_MIN (14 R428). -/
def DRD_STATUS_VER_MIN : RF := ⟨55, 48⟩
/-- DRD_STATUS.FLOOR (14 R428). -/
def DRD_STATUS_FLOOR : RF := ⟨47, 40⟩
/-- DRD_STATUS.SLICE_FLOOR (14 R428). -/
def DRD_STATUS_SLICE_FLOOR : RF := ⟨39, 32⟩
/-- DRD_STATUS.IN_SERVICE (14 R428). -/
def DRD_STATUS_IN_SERVICE : RF := ⟨31, 0⟩
/-- DRD_EVENTS.CHANGED (14 R429). -/
def DRD_EVENTS_CHANGED : RF := ⟨31, 0⟩
/-- DRD_REPLAY_REGION.SIZE (14 R430). -/
def DRD_REPLAY_REGION_SIZE : RF := ⟨54, 48⟩
/-- DRD_REPLAY_REGION.BASE (14 R430). -/
def DRD_REPLAY_REGION_BASE : RF := ⟨47, 20⟩
/-- RSEn_DRAW_STATUS.INSTALLED (15 R456). -/
def RSEn_DRAW_STATUS_INSTALLED : RF := ⟨63, 48⟩
/-- RSEn_DRAW_STATUS.NEXT_DRAW (15 R456). -/
def RSEn_DRAW_STATUS_NEXT_DRAW : RF := ⟨39, 36⟩
/-- RSEn_DRAW_STATUS.PENDING (15 R456). -/
def RSEn_DRAW_STATUS_PENDING : RF := ⟨35, 35⟩
/-- RSEn_DRAW_STATUS.CURRENT (15 R456). -/
def RSEn_DRAW_STATUS_CURRENT : RF := ⟨31, 28⟩
/-- RSEn_DRAW_STATUS.REDRAWS (15 R456). -/
def RSEn_DRAW_STATUS_REDRAWS : RF := ⟨15, 0⟩
/-- RSEn_DRAW_BEAT.BEAT (15 R457). -/
def RSEn_DRAW_BEAT_BEAT : RF := ⟨47, 0⟩
/-- RSEn_ROUTE_SEL.DRAW (15 R458). -/
def RSEn_ROUTE_SEL_DRAW : RF := ⟨7, 4⟩
/-- RSEn_ROUTE_SEL.PORT (15 R458). -/
def RSEn_ROUTE_SEL_PORT : RF := ⟨3, 0⟩
/-- RSEn_ROUTE.ENTRIES (15 R459). -/
def RSEn_ROUTE_ENTRIES : RF := ⟨44, 0⟩
/-- RSEn_RING_SEL.KIND (15 R460). -/
def RSEn_RING_SEL_KIND : RF := ⟨9, 8⟩
/-- RSEn_RING_SEL.PORT (15 R460). -/
def RSEn_RING_SEL_PORT : RF := ⟨7, 4⟩
/-- RSEn_RING_SEL.WAVELENGTH (15 R460). -/
def RSEn_RING_SEL_WAVELENGTH : RF := ⟨3, 0⟩
/-- RSEn_RING.HEATER (15 R461). -/
def RSEn_RING_HEATER : RF := ⟨63, 48⟩
/-- RSEn_RING.ORDER (15 R461). -/
def RSEn_RING_ORDER : RF := ⟨39, 36⟩
/-- RSEn_RING.LINE (15 R461). -/
def RSEn_RING_LINE : RF := ⟨35, 32⟩
/-- RSEn_RING.CLEAN_ALIGN (15 R461). -/
def RSEn_RING_CLEAN_ALIGN : RF := ⟨31, 16⟩
/-- RSEn_RING.MISBEARINGS (15 R461). -/
def RSEn_RING_MISBEARINGS : RF := ⟨15, 8⟩
/-- RSEn_RING.STATE (15 R461). -/
def RSEn_RING_STATE : RF := ⟨2, 0⟩
/-- RSEn_BEARING_COUNTS.SWEEPS (15 R462). -/
def RSEn_BEARING_COUNTS_SWEEPS : RF := ⟨63, 32⟩
/-- RSEn_BEARING_COUNTS.MISBEARINGS (15 R462). -/
def RSEn_BEARING_COUNTS_MISBEARINGS : RF := ⟨31, 16⟩
/-- RSEn_BEARING_COUNTS.SWEEP_FAILS (15 R462). -/
def RSEn_BEARING_COUNTS_SWEEP_FAILS : RF := ⟨15, 0⟩
/-- RSEn_FEED.COMMISSIONED (15 R463). -/
def RSEn_FEED_COMMISSIONED : RF := ⟨63, 48⟩
/-- RSEn_FEED.NOW (15 R463). -/
def RSEn_FEED_NOW : RF := ⟨47, 32⟩
/-- RSEn_FEED.FADE (15 R463). -/
def RSEn_FEED_FADE : RF := ⟨31, 16⟩
/-- RSEn_FEED.FEED_FAULT (15 R463). -/
def RSEn_FEED_FEED_FAULT : RF := ⟨1, 1⟩
/-- RSEn_FEED.LOW (15 R463). -/
def RSEn_FEED_LOW : RF := ⟨0, 0⟩
/-- LNT_STATUS.BUS_ERRORS (15 R464). -/
def LNT_STATUS_BUS_ERRORS : RF := ⟨63, 32⟩
/-- LNT_STATUS.ALERT (15 R464). -/
def LNT_STATUS_ALERT : RF := ⟨3, 3⟩
/-- LNT_STATUS.LOST (15 R464). -/
def LNT_STATUS_LOST : RF := ⟨2, 2⟩
/-- LNT_STATUS.ENABLED (15 R464). -/
def LNT_STATUS_ENABLED : RF := ⟨1, 1⟩
/-- LNT_STATUS.PRESENT (15 R464). -/
def LNT_STATUS_PRESENT : RF := ⟨0, 0⟩
/-- LNT_LINE.SCHED_BEAT (15 R465). -/
def LNT_LINE_SCHED_BEAT : RF := ⟨55, 8⟩
/-- LNT_LINE.FADE_STATE (15 R465). -/
def LNT_LINE_FADE_STATE : RF := ⟨7, 6⟩
/-- LNT_LINE.SPARE_STATE (15 R465). -/
def LNT_LINE_SPARE_STATE : RF := ⟨3, 1⟩
/-- LNT_LINE.ACTIVE (15 R465). -/
def LNT_LINE_ACTIVE : RF := ⟨0, 0⟩
/-- DRD_CHART_EPOCH.EPOCH (16 R491). -/
def DRD_CHART_EPOCH_EPOCH : RF := ⟨63, 0⟩
/-- DRD_CHART_STATUS.FID (16 R492). -/
def DRD_CHART_STATUS_FID : RF := ⟨63, 48⟩
/-- DRD_CHART_STATUS.HOST_GROUP (16 R492). -/
def DRD_CHART_STATUS_HOST_GROUP : RF := ⟨47, 40⟩
/-- DRD_CHART_STATUS.SLICE_TAG (16 R492). -/
def DRD_CHART_STATUS_SLICE_TAG : RF := ⟨39, 28⟩
/-- DRD_CHART_STATUS.PENDING (16 R492). -/
def DRD_CHART_STATUS_PENDING : RF := ⟨27, 20⟩
/-- DRD_CHART_STATUS.PILOT (16 R492). -/
def DRD_CHART_STATUS_PILOT : RF := ⟨16, 16⟩
/-- DRD_CHART_STATUS.LATE (16 R492). -/
def DRD_CHART_STATUS_LATE : RF := ⟨15, 8⟩
/-- DRD_CHART_STATUS.REFUSE_REASON (16 R492). -/
def DRD_CHART_STATUS_REFUSE_REASON : RF := ⟨7, 4⟩
/-- DRD_TABLE_GEN.GENERATION (16 R493). -/
def DRD_TABLE_GEN_GENERATION : RF := ⟨63, 0⟩
/-- DRD_TABLE_COUNTS.ROUTES (16 R494). -/
def DRD_TABLE_COUNTS_ROUTES : RF := ⟨63, 47⟩
/-- DRD_TABLE_COUNTS.FERRY_ROUTES (16 R494). -/
def DRD_TABLE_COUNTS_FERRY_ROUTES : RF := ⟨46, 38⟩
/-- DRD_TABLE_COUNTS.SCHED (16 R494). -/
def DRD_TABLE_COUNTS_SCHED : RF := ⟨37, 32⟩
/-- DRD_TABLE_COUNTS.CHAINS (16 R494). -/
def DRD_TABLE_COUNTS_CHAINS : RF := ⟨10, 0⟩
/-- DRD_ROUTE_SEL.DRAW (16 R495). -/
def DRD_ROUTE_SEL_DRAW : RF := ⟨19, 16⟩
/-- DRD_ROUTE_SEL.DEST_FID (16 R495). -/
def DRD_ROUTE_SEL_DEST_FID : RF := ⟨15, 0⟩
/-- DRD_ROUTE_ALT.ACTIVE (16 R496). -/
def DRD_ROUTE_ALT_ACTIVE : RF := ⟨48, 48⟩
/-- DRD_ROUTE_ALT.IN_SERVICE (16 R496). -/
def DRD_ROUTE_ALT_IN_SERVICE : RF := ⟨47, 40⟩
/-- DRD_ROUTE_ALT.HOPS (16 R496). -/
def DRD_ROUTE_ALT_HOPS : RF := ⟨39, 32⟩
/-- DRD_ROUTE_ALT.PORTS (16 R496). -/
def DRD_ROUTE_ALT_PORTS : RF := ⟨31, 0⟩
/-- DRD_ADMIT.FERRY_EN (16 R497). -/
def DRD_ADMIT_FERRY_EN : RF := ⟨44, 44⟩
/-- DRD_ADMIT.FERRY_TAG (16 R497). -/
def DRD_ADMIT_FERRY_TAG : RF := ⟨43, 32⟩
/-- DRD_ADMIT.HOME (16 R497). -/
def DRD_ADMIT_HOME : RF := ⟨13, 13⟩
/-- DRD_ADMIT.SLICE_EN (16 R497). -/
def DRD_ADMIT_SLICE_EN : RF := ⟨12, 12⟩
/-- DRD_ADMIT.SLICE_TAG (16 R497). -/
def DRD_ADMIT_SLICE_TAG : RF := ⟨11, 0⟩
/-- DRD_ROUTE_EVENTS.SWITCHES (16 R498). -/
def DRD_ROUTE_EVENTS_SWITCHES : RF := ⟨63, 32⟩
/-- DRD_ROUTE_EVENTS.NO_ROUTE_WAITS (16 R498). -/
def DRD_ROUTE_EVENTS_NO_ROUTE_WAITS : RF := ⟨31, 0⟩
/-- REL_RECKON_STATUS.GROUP (17 R522). -/
def REL_RECKON_STATUS_GROUP : RF := ⟨63, 48⟩
/-- REL_RECKON_STATUS.POSITION (17 R522). -/
def REL_RECKON_STATUS_POSITION : RF := ⟨47, 44⟩
/-- REL_RECKON_STATUS.KG (17 R522). -/
def REL_RECKON_STATUS_KG : RF := ⟨43, 40⟩
/-- REL_RECKON_STATUS.P (17 R522). -/
def REL_RECKON_STATUS_P : RF := ⟨39, 38⟩
/-- REL_RECKON_STATUS.REPLAY_DUE (17 R522). -/
def REL_RECKON_STATUS_REPLAY_DUE : RF := ⟨37, 37⟩
/-- REL_RECKON_STATUS.DIVERGENT (17 R522). -/
def REL_RECKON_STATUS_DIVERGENT : RF := ⟨36, 36⟩
/-- REL_RECKON_STATUS.NOT_INTACT (17 R522). -/
def REL_RECKON_STATUS_NOT_INTACT : RF := ⟨31, 16⟩
/-- REL_RECKON_STATUS.STATE (17 R522). -/
def REL_RECKON_STATUS_STATE : RF := ⟨2, 0⟩
/-- REL_RECKON_REBUILD.TOTAL (17 R523). -/
def REL_RECKON_REBUILD_TOTAL : RF := ⟨63, 32⟩
/-- REL_RECKON_REBUILD.DONE (17 R523). -/
def REL_RECKON_REBUILD_DONE : RF := ⟨31, 0⟩
/-- REL_RECKON_COUNTS.REPAIRED (17 R524). -/
def REL_RECKON_COUNTS_REPAIRED : RF := ⟨63, 32⟩
/-- REL_RECKON_COUNTS.LOST (17 R524). -/
def REL_RECKON_COUNTS_LOST : RF := ⟨31, 16⟩
/-- REL_RECKON_COUNTS.DIVERGENT (17 R524). -/
def REL_RECKON_COUNTS_DIVERGENT : RF := ⟨15, 0⟩
/-- REL_RECKON_STALE.AUDITED (17 R525). -/
def REL_RECKON_STALE_AUDITED : RF := ⟨63, 32⟩
/-- REL_RECKON_STALE.STALE (17 R525). -/
def REL_RECKON_STALE_STALE : RF := ⟨31, 0⟩
/-- REL_SNAP_BYTES.BYTES (17 R526). -/
def REL_SNAP_BYTES_BYTES : RF := ⟨63, 0⟩
/-- SEC_STATUS.SLICE_TAG (18 R557). -/
def SEC_STATUS_SLICE_TAG : RF := ⟨63, 52⟩
/-- SEC_STATUS.STREAMS_OPEN (18 R557). -/
def SEC_STATUS_STREAMS_OPEN : RF := ⟨40, 32⟩
/-- SEC_STATUS.REFUSE_REASON (18 R557). -/
def SEC_STATUS_REFUSE_REASON : RF := ⟨11, 8⟩
/-- SEC_STATUS.IDENTITY_FAULT (18 R557). -/
def SEC_STATUS_IDENTITY_FAULT : RF := ⟨7, 7⟩
/-- SEC_STATUS.DEBUG_UNLOCKED (18 R557). -/
def SEC_STATUS_DEBUG_UNLOCKED : RF := ⟨6, 6⟩
/-- SEC_STATUS.AUTHORITY_SET (18 R557). -/
def SEC_STATUS_AUTHORITY_SET : RF := ⟨5, 5⟩
/-- SEC_STATUS.STATE (18 R557). -/
def SEC_STATUS_STATE : RF := ⟨2, 0⟩
/-- SEC_BIND.BIND_ID (18 R558). -/
def SEC_BIND_BIND_ID : RF := ⟨63, 0⟩
/-- SEC_KEY_COUNTER.COUNTER (18 R559). -/
def SEC_KEY_COUNTER_COUNTER : RF := ⟨63, 0⟩
/-- SEC_KEYS.DATA_IN (18 R560). -/
def SEC_KEYS_DATA_IN : RF := ⟨63, 48⟩
/-- SEC_KEYS.DATA_OUT (18 R560). -/
def SEC_KEYS_DATA_OUT : RF := ⟨47, 32⟩
/-- SEC_KEYS.FERRY_AUTHS (18 R560). -/
def SEC_KEYS_FERRY_AUTHS : RF := ⟨24, 16⟩
/-- SEC_KEYS.SNAP_KEY (18 R560). -/
def SEC_KEYS_SNAP_KEY : RF := ⟨0, 0⟩
/-- SEC_LINK_KEYS.SLICE_CONFIRMED (18 R561). -/
def SEC_LINK_KEYS_SLICE_CONFIRMED : RF := ⟨63, 32⟩
/-- SEC_LINK_KEYS.KEYED (18 R561). -/
def SEC_LINK_KEYS_KEYED : RF := ⟨31, 0⟩
/-- SEC_ROTATION.NEXT_BEAT (18 R562). -/
def SEC_ROTATION_NEXT_BEAT : RF := ⟨47, 0⟩
/-- SEC_SCRUB.REASON (18 R563). -/
def SEC_SCRUB_REASON : RF := ⟨55, 52⟩
/-- SEC_SCRUB.RESULT (18 R563). -/
def SEC_SCRUB_RESULT : RF := ⟨51, 50⟩
/-- SEC_SCRUB.ATTEMPT (18 R563). -/
def SEC_SCRUB_ATTEMPT : RF := ⟨49, 48⟩
/-- SEC_SCRUB.BYTES (18 R563). -/
def SEC_SCRUB_BYTES : RF := ⟨39, 0⟩
/-- SEC_SCRUB_FAILS.FAILED_BLOCKS (18 R564). -/
def SEC_SCRUB_FAILS_FAILED_BLOCKS : RF := ⟨63, 32⟩
/-- SEC_SCRUB_FAILS.SAMPLED (18 R564). -/
def SEC_SCRUB_FAILS_SAMPLED : RF := ⟨31, 0⟩
/-- SEC_EVENTS.CONFIRM_FAIL (18 R565). -/
def SEC_EVENTS_CONFIRM_FAIL : RF := ⟨5, 5⟩
/-- SEC_EVENTS.BIND_REFUSED (18 R565). -/
def SEC_EVENTS_BIND_REFUSED : RF := ⟨4, 4⟩
/-- SEC_EVENTS.SCRUB_DONE (18 R565). -/
def SEC_EVENTS_SCRUB_DONE : RF := ⟨3, 3⟩
/-- SEC_EVENTS.RELEASED (18 R565). -/
def SEC_EVENTS_RELEASED : RF := ⟨2, 2⟩
/-- SEC_EVENTS.BOUND (18 R565). -/
def SEC_EVENTS_BOUND : RF := ⟨1, 1⟩
/-- SEC_EVENTS.ALLOCATED (18 R565). -/
def SEC_EVENTS_ALLOCATED : RF := ⟨0, 0⟩
/-- SEC_COUNTS.BIND_REFUSED (18 R566). -/
def SEC_COUNTS_BIND_REFUSED : RF := ⟨63, 48⟩
/-- SEC_COUNTS.UNWRAP_FAIL (18 R566). -/
def SEC_COUNTS_UNWRAP_FAIL : RF := ⟨47, 32⟩
/-- SEC_COUNTS.CONFIRM_FAIL (18 R566). -/
def SEC_COUNTS_CONFIRM_FAIL : RF := ⟨31, 16⟩
/-- SEC_COUNTS.DATA_TAG_FAIL (18 R566). -/
def SEC_COUNTS_DATA_TAG_FAIL : RF := ⟨15, 0⟩
/-- LOG_STATUS.NEWEST_SEQ (19 R594). -/
def LOG_STATUS_NEWEST_SEQ : RF := ⟨63, 32⟩
/-- LOG_STATUS.COLLECTOR_UP (19 R594). -/
def LOG_STATUS_COLLECTOR_UP : RF := ⟨18, 18⟩
/-- LOG_STATUS.OVERRUN_PENDING (19 R594). -/
def LOG_STATUS_OVERRUN_PENDING : RF := ⟨17, 17⟩
/-- LOG_STATUS.USED (19 R594). -/
def LOG_STATUS_USED : RF := ⟨12, 0⟩
/-- LOG_LOST_TOTAL.LOST (19 R595). -/
def LOG_LOST_TOTAL_LOST : RF := ⟨47, 0⟩
/-- LOG_CTR_SEL.SOURCE (19 R596). -/
def LOG_CTR_SEL_SOURCE : RF := ⟨15, 0⟩
/-- LOG_CTR.EVENTS (19 R597). -/
def LOG_CTR_EVENTS : RF := ⟨47, 0⟩
/-- LOG_CTR_LOST.LOST (19 R598). -/
def LOG_CTR_LOST_LOST : RF := ⟨47, 0⟩
/-- LOG_LADDER.RETRIES (19 R599). -/
def LOG_LADDER_RETRIES : RF := ⟨63, 48⟩
/-- LOG_LADDER.ENGINE_RESETS (19 R599). -/
def LOG_LADDER_ENGINE_RESETS : RF := ⟨47, 32⟩
/-- LOG_LADDER.DIE_RESETS (19 R599). -/
def LOG_LADDER_DIE_RESETS : RF := ⟨31, 16⟩
/-- LOG_LADDER.WARM_RESTARTS (19 R599). -/
def LOG_LADDER_WARM_RESTARTS : RF := ⟨15, 0⟩
/-- LOG_MGMT.HEARTBEATS (19 R600). -/
def LOG_MGMT_HEARTBEATS : RF := ⟨63, 32⟩
/-- LOG_MGMT.RESTARTS_WATCH (19 R600). -/
def LOG_MGMT_RESTARTS_WATCH : RF := ⟨17, 16⟩
/-- LOG_MGMT.RESTARTS (19 R600). -/
def LOG_MGMT_RESTARTS : RF := ⟨15, 0⟩
/-- LOG_TESTS.BACKGROUND (19 R601). -/
def LOG_TESTS_BACKGROUND : RF := ⟨15, 8⟩
/-- LOG_TESTS.DEFERRED (19 R601). -/
def LOG_TESTS_DEFERRED : RF := ⟨7, 0⟩
/-- LOG_HOST_EVENTS.CRC (19 R602). -/
def LOG_HOST_EVENTS_CRC : RF := ⟨1, 1⟩
/-- LOG_HOST_EVENTS.ENTRY (19 R602). -/
def LOG_HOST_EVENTS_ENTRY : RF := ⟨0, 0⟩
/-- LOG_ENTRY.WORD (19 R603). -/
def LOG_ENTRY_WORD : RF := ⟨63, 0⟩
/-- ARB_BOOT_STATUS.BOOT_COUNT (20 R623). -/
def ARB_BOOT_STATUS_BOOT_COUNT : RF := ⟨63, 32⟩
/-- ARB_BOOT_STATUS.DIAG_CAUSE (20 R623). -/
def ARB_BOOT_STATUS_DIAG_CAUSE : RF := ⟨19, 16⟩
/-- ARB_BOOT_STATUS.PILOT_MISMATCH (20 R623). -/
def ARB_BOOT_STATUS_PILOT_MISMATCH : RF := ⟨10, 10⟩
/-- ARB_BOOT_STATUS.PILOT_LIVE (20 R623). -/
def ARB_BOOT_STATUS_PILOT_LIVE : RF := ⟨9, 9⟩
/-- ARB_BOOT_STATUS.PILOT_SEL (20 R623). -/
def ARB_BOOT_STATUS_PILOT_SEL : RF := ⟨8, 8⟩
/-- ARB_BOOT_STATUS.OUTCOME (20 R623). -/
def ARB_BOOT_STATUS_OUTCOME : RF := ⟨5, 4⟩
/-- ARB_BOOT_STATUS.STATE (20 R623). -/
def ARB_BOOT_STATUS_STATE : RF := ⟨2, 0⟩
/-- ARB_FW_INFO.FLOOR (20 R624). -/
def ARB_FW_INFO_FLOOR : RF := ⟨63, 56⟩
/-- ARB_FW_INFO.SEC_VERSION (20 R624). -/
def ARB_FW_INFO_SEC_VERSION : RF := ⟨55, 48⟩
/-- ARB_FW_INFO.VER_MAX (20 R624). -/
def ARB_FW_INFO_VER_MAX : RF := ⟨47, 40⟩
/-- ARB_FW_INFO.VER_MIN (20 R624). -/
def ARB_FW_INFO_VER_MIN : RF := ⟨39, 32⟩
/-- ARB_FW_INFO.RELEASE (20 R624). -/
def ARB_FW_INFO_RELEASE : RF := ⟨31, 0⟩
/-- ARB_DIE_REV.REVISION (20 R625). -/
def ARB_DIE_REV_REVISION : RF := ⟨63, 0⟩
/-- ARB_DIE_CAP.CAPABILITY (20 R626). -/
def ARB_DIE_CAP_CAPABILITY : RF := ⟨63, 0⟩
/-- ARB_WITHHELD.ARBOR (20 R627). -/
def ARB_WITHHELD_ARBOR : RF := ⟨23, 16⟩
/-- ARB_WITHHELD.ROSE (20 R627). -/
def ARB_WITHHELD_ROSE : RF := ⟨15, 8⟩
/-- ARB_WITHHELD.COMPUTE (20 R627). -/
def ARB_WITHHELD_COMPUTE : RF := ⟨7, 0⟩
/-- CMD_BOOT_STATUS.PILOT_LIVE (20 R628). -/
def CMD_BOOT_STATUS_PILOT_LIVE : RF := ⟨9, 9⟩
/-- CMD_BOOT_STATUS.OUTCOME (20 R628). -/
def CMD_BOOT_STATUS_OUTCOME : RF := ⟨5, 4⟩
/-- CMD_BOOT_STATUS.STATE (20 R628). -/
def CMD_BOOT_STATUS_STATE : RF := ⟨2, 0⟩
/-- PWR_DOMAIN_STATE.STATE (21 R650). -/
def PWR_DOMAIN_STATE_STATE : RF := ⟨39, 0⟩
/-- PWR_DOMAIN_FAULT.FENCED_OFF (21 R651). -/
def PWR_DOMAIN_FAULT_FENCED_OFF : RF := ⟨51, 32⟩
/-- PWR_DOMAIN_FAULT.FAILED (21 R651). -/
def PWR_DOMAIN_FAULT_FAILED : RF := ⟨19, 0⟩
/-- PWR_ANCHOR_STATUS.LAST_WAKE_US (21 R652). -/
def PWR_ANCHOR_STATUS_LAST_WAKE_US : RF := ⟨63, 48⟩
/-- PWR_ANCHOR_STATUS.ENTRIES (21 R652). -/
def PWR_ANCHOR_STATUS_ENTRIES : RF := ⟨47, 32⟩
/-- PWR_ANCHOR_STATUS.REFUSALS (21 R652). -/
def PWR_ANCHOR_STATUS_REFUSALS : RF := ⟨31, 16⟩
/-- PWR_ANCHOR_STATUS.REFUSE_REASON (21 R652). -/
def PWR_ANCHOR_STATUS_REFUSE_REASON : RF := ⟨11, 8⟩
/-- PWR_ANCHOR_STATUS.STATE (21 R652). -/
def PWR_ANCHOR_STATUS_STATE : RF := ⟨2, 0⟩
/-- PWR_ANCHOR_ENTER.BEAT (21 R653). -/
def PWR_ANCHOR_ENTER_BEAT : RF := ⟨47, 0⟩
/-- PWR_ANCHOR_WAKE.BEAT (21 R654). -/
def PWR_ANCHOR_WAKE_BEAT : RF := ⟨47, 0⟩
/-- CLK_LOOP.UNLOCKS (21 R655). -/
def CLK_LOOP_UNLOCKS : RF := ⟨47, 32⟩
/-- CLK_LOOP.FREQ_MHZ (21 R655). -/
def CLK_LOOP_FREQ_MHZ : RF := ⟨31, 16⟩
/-- CLK_LOOP.PENDING (21 R655). -/
def CLK_LOOP_PENDING : RF := ⟨7, 7⟩
/-- CLK_LOOP.LOCKED (21 R655). -/
def CLK_LOOP_LOCKED : RF := ⟨6, 6⟩
/-- CLK_LOOP.REF (21 R655). -/
def CLK_LOOP_REF : RF := ⟨5, 4⟩
/-- CLK_SET.FREQ_MHZ (21 R656). -/
def CLK_SET_FREQ_MHZ : RF := ⟨15, 0⟩
/-- CLK_XIN_STATUS.XIN_B_PPM (21 R657). -/
def CLK_XIN_STATUS_XIN_B_PPM : RF := ⟨63, 48⟩
/-- CLK_XIN_STATUS.XIN_A_PPM (21 R657). -/
def CLK_XIN_STATUS_XIN_A_PPM : RF := ⟨47, 32⟩
/-- CLK_XIN_STATUS.XIN_B_LOST (21 R657). -/
def CLK_XIN_STATUS_XIN_B_LOST : RF := ⟨1, 1⟩
/-- CLK_XIN_STATUS.XIN_A_LOST (21 R657). -/
def CLK_XIN_STATUS_XIN_A_LOST : RF := ⟨0, 0⟩
/-- CLK_OSC.TRIMS (21 R658). -/
def CLK_OSC_TRIMS : RF := ⟨63, 32⟩
/-- CLK_OSC.ERROR_PPM (21 R658). -/
def CLK_OSC_ERROR_PPM : RF := ⟨31, 16⟩
/-- CLK_OSC.REF (21 R658). -/
def CLK_OSC_REF : RF := ⟨11, 10⟩
/-- CLK_OSC.TRIM (21 R658). -/
def CLK_OSC_TRIM : RF := ⟨9, 0⟩
/-- PWR_INPUT.POWER_W (22 R679). -/
def PWR_INPUT_POWER_W : RF := ⟨63, 48⟩
/-- PWR_INPUT.CURRENT (22 R679). -/
def PWR_INPUT_CURRENT : RF := ⟨47, 32⟩
/-- PWR_INPUT.VOLTAGE (22 R679). -/
def PWR_INPUT_VOLTAGE : RF := ⟨31, 16⟩
/-- PWR_INPUT.SINGLE_FEED (22 R679). -/
def PWR_INPUT_SINGLE_FEED : RF := ⟨3, 3⟩
/-- PWR_INPUT.SUPPLY_FAULT (22 R679). -/
def PWR_INPUT_SUPPLY_FAULT : RF := ⟨2, 2⟩
/-- PWR_INPUT.FEED_B (22 R679). -/
def PWR_INPUT_FEED_B : RF := ⟨1, 1⟩
/-- PWR_INPUT.FEED_A (22 R679). -/
def PWR_INPUT_FEED_A : RF := ⟨0, 0⟩
/-- PWR_CAP.THROTTLE_MS (22 R680). -/
def PWR_CAP_THROTTLE_MS : RF := ⟨63, 32⟩
/-- PWR_CAP.THROTTLED (22 R680). -/
def PWR_CAP_THROTTLED : RF := ⟨16, 16⟩
/-- PWR_CAP.LIMIT_W (22 R680). -/
def PWR_CAP_LIMIT_W : RF := ⟨11, 0⟩
/-- PWR_THERMAL.OUTLET (22 R681). -/
def PWR_THERMAL_OUTLET : RF := ⟨63, 48⟩
/-- PWR_THERMAL.INLET (22 R681). -/
def PWR_THERMAL_INLET : RF := ⟨47, 32⟩
/-- PWR_THERMAL.HOTTEST_HBM (22 R681). -/
def PWR_THERMAL_HOTTEST_HBM : RF := ⟨31, 24⟩
/-- PWR_THERMAL.HOTTEST_LOGIC (22 R681). -/
def PWR_THERMAL_HOTTEST_LOGIC : RF := ⟨23, 16⟩
/-- PWR_THERMAL.THERMAL_TRIP (22 R681). -/
def PWR_THERMAL_THERMAL_TRIP : RF := ⟨9, 9⟩
/-- PWR_THERMAL.HBM_THROTTLE (22 R681). -/
def PWR_THERMAL_HBM_THROTTLE : RF := ⟨8, 8⟩
/-- PWR_THERMAL.TRIPS (22 R681). -/
def PWR_THERMAL_TRIPS : RF := ⟨7, 0⟩
/-- PWR_RATED_STATUS.PORTS_NOT_RATED (22 R682). -/
def PWR_RATED_STATUS_PORTS_NOT_RATED : RF := ⟨63, 32⟩
/-- PWR_RATED_STATUS.ARRAYS (22 R682). -/
def PWR_RATED_STATUS_ARRAYS : RF := ⟨9, 3⟩
/-- PWR_RATED_STATUS.CLASS (22 R682). -/
def PWR_RATED_STATUS_CLASS : RF := ⟨2, 1⟩
/-- PWR_RATED_STATUS.IN_RATED_SERVICE (22 R682). -/
def PWR_RATED_STATUS_IN_RATED_SERVICE : RF := ⟨0, 0⟩
/-- PWR_RATED_TIME.EXCLUDED_S (22 R683). -/
def PWR_RATED_TIME_EXCLUDED_S : RF := ⟨63, 32⟩
/-- PWR_RATED_TIME.COUNTED_MS (22 R683). -/
def PWR_RATED_TIME_COUNTED_MS : RF := ⟨31, 0⟩
/-- BLK_IDENT.BLOCK (23 R691). -/
def BLK_IDENT_BLOCK : RF := ⟨31, 24⟩
/-- BLK_IDENT.DIE (23 R691). -/
def BLK_IDENT_DIE : RF := ⟨23, 16⟩
/-- BLK_IDENT.LAYOUT (23 R691). -/
def BLK_IDENT_LAYOUT : RF := ⟨15, 8⟩
/-- BLK_STATUS.FENCED (23 R692). -/
def BLK_STATUS_FENCED : RF := ⟨1, 1⟩
/-- BLK_STATUS.POWERED (23 R692). -/
def BLK_STATUS_POWERED : RF := ⟨0, 0⟩
/-- CMD_REG_TARGET.FID (23 R695). -/
def CMD_REG_TARGET_FID : RF := ⟨63, 48⟩
/-- CMD_REG_TARGET.ADDR (23 R695). -/
def CMD_REG_TARGET_ADDR : RF := ⟨47, 0⟩
/-- CMD_REG_DATA.DATA (23 R696). -/
def CMD_REG_DATA_DATA : RF := ⟨63, 0⟩
/-- CMD_REG_CTRL.RESULT (23 R697). -/
def CMD_REG_CTRL_RESULT : RF := ⟨10, 8⟩
/-- CMD_REG_CTRL.WRITE (23 R697). -/
def CMD_REG_CTRL_WRITE : RF := ⟨1, 1⟩
/-- CMD_REG_CTRL.GO (23 R697). -/
def CMD_REG_CTRL_GO : RF := ⟨0, 0⟩

end F

/-! ### The table -/

/-- The registers whose field maps chapter 02 owns. -/
def regRows02 : List RegRow := [
  ⟨0x20000200000, 1, 0x1000000, 1, 0x8, [⟨63, 0, .ro⟩], [0x0]⟩,
  ⟨0x20000200008, 1, 0x1000000, 1, 0x8, [⟨63, 48, .ro⟩, ⟨47, 40, .ro⟩, ⟨39, 32, .ro⟩, ⟨23, 22, .ro⟩, ⟨21, 21, .ro⟩, ⟨20, 20, .ro⟩, ⟨19, 19, .ro⟩, ⟨18, 18, .ro⟩, ⟨17, 17, .w1c⟩, ⟨16, 16, .w1c⟩, ⟨2, 0, .ro⟩], [0xffff00000000]⟩,
  ⟨0x20000200010, 1, 0x1000000, 1, 0x8, [⟨63, 32, .ro⟩, ⟨31, 0, .ro⟩], [0x0]⟩,
  ⟨0x20000200018, 1, 0x1000000, 1, 0x8, [⟨63, 16, .ro⟩, ⟨10, 0, .ro⟩], [0x40]⟩]

/-- The registers whose field maps chapter 03 owns. -/
def regRows03 : List RegRow := [
  ⟨0x20000100000, 1, 0x1000000, 1, 0x8, [⟨63, 0, .ro⟩], [0x0]⟩,
  ⟨0x20000100008, 1, 0x1000000, 1, 0x8, [⟨63, 32, .ro⟩, ⟨31, 0, .ro⟩], [0x0]⟩,
  ⟨0x20000100100, 1, 0x1000000, 16, 0x20, [⟨63, 12, .rw⟩], [0x0]⟩,
  ⟨0x20000100108, 1, 0x1000000, 16, 0x20, [⟨27, 16, .rw⟩, ⟨12, 8, .rw⟩, ⟨0, 0, .rw⟩], [0xc00]⟩,
  ⟨0x20000100110, 1, 0x1000000, 16, 0x20, [⟨63, 0, .ro⟩], [0x0]⟩,
  ⟨0x20000100118, 1, 0x1000000, 16, 0x20, [⟨63, 0, .rw⟩], [0x0]⟩]

/-- The registers whose field maps chapter 05 owns. -/
def regRows05 : List RegRow := [
  ⟨0x20000e01000, 4, 0x100000, 24, 0x8, [⟨12, 8, .ro⟩, ⟨2, 0, .ro⟩], [0x0, 0x100, 0x200, 0x300, 0x400, 0x500, 0x600, 0x700, 0x800, 0x900, 0xa00, 0xb00, 0xc00, 0xd00, 0xe00, 0xf00, 0x1000, 0x1100, 0x1200, 0x1300, 0x1400, 0x1500, 0x1600, 0x1700]⟩,
  ⟨0x20000e01100, 4, 0x100000, 1, 0x8, [⟨47, 24, .ro⟩, ⟨23, 16, .ro⟩, ⟨9, 9, .ro⟩, ⟨8, 8, .ro⟩, ⟨4, 0, .ro⟩], [0x180018]⟩,
  ⟨0x20000e01108, 4, 0x100000, 1, 0x8, [⟨63, 0, .ro⟩], [0x0]⟩,
  ⟨0x20000e01110, 4, 0x100000, 1, 0x8, [⟨63, 0, .ro⟩], [0x0]⟩]

/-- The registers whose field maps chapter 06 owns. -/
def regRows06 : List RegRow := [
  ⟨0x20000d00000, 1, 0x1000000, 1, 0x8, [⟨42, 32, .ro⟩, ⟨5, 0, .ro⟩], [0x0]⟩,
  ⟨0x20000d00008, 1, 0x1000000, 1, 0x8, [⟨63, 0, .ro⟩], [0x0]⟩,
  ⟨0x20000d00010, 1, 0x1000000, 1, 0x8, [⟨63, 48, .ro⟩, ⟨47, 32, .ro⟩, ⟨31, 16, .ro⟩], [0x0]⟩,
  ⟨0x20000d00018, 1, 0x1000000, 1, 0x8, [⟨63, 32, .rw⟩, ⟨31, 0, .ro⟩], [0x400000000000]⟩,
  ⟨0x20000e01200, 4, 0x100000, 1, 0x8, [⟨63, 0, .ro⟩], [0x0]⟩]

/-- The registers whose field maps chapter 07 owns. -/
def regRows07 : List RegRow := [
  ⟨0x20000e01300, 4, 0x100000, 1, 0x8, [⟨11, 8, .ro⟩, ⟨3, 0, .ro⟩], [0x0]⟩,
  ⟨0x20000e01310, 4, 0x100000, 4, 0x10, [⟨63, 0, .ro⟩], [0x0]⟩,
  ⟨0x20000e01318, 4, 0x100000, 4, 0x10, [⟨63, 0, .ro⟩], [0x0]⟩]

/-- The registers whose field maps chapter 08 owns. -/
def regRows08 : List RegRow := [
  ⟨0x20000c00000, 1, 0x1000000, 1, 0x8, [⟨11, 8, .ro⟩, ⟨7, 4, .ro⟩, ⟨3, 0, .ro⟩], [0x0]⟩,
  ⟨0x20000c00008, 1, 0x1000000, 1, 0x8, [⟨63, 0, .ro⟩], [0x0]⟩,
  ⟨0x20000c00010, 1, 0x1000000, 1, 0x8, [⟨63, 0, .ro⟩], [0x0]⟩,
  ⟨0x20000c00018, 1, 0x1000000, 1, 0x8, [⟨63, 48, .ro⟩, ⟨47, 32, .ro⟩, ⟨31, 16, .ro⟩, ⟨15, 0, .ro⟩], [0x0]⟩,
  ⟨0x20000c00020, 1, 0x1000000, 1, 0x8, [⟨16, 0, .ro⟩], [0x0]⟩]

/-- The registers whose field maps chapter 09 owns. -/
def regRows09 : List RegRow := [
  ⟨0x20000104000, 1, 0x1000000, 64, 0x10, [⟨63, 0, .ro⟩], [0x0]⟩,
  ⟨0x20000104008, 1, 0x1000000, 64, 0x10, [⟨44, 0, .ro⟩], [0x0]⟩,
  ⟨0x20000104400, 1, 0x1000000, 1, 0x8, [⟨63, 0, .ro⟩], [0x0]⟩,
  ⟨0x20000e01400, 4, 0x100000, 1, 0x8, [⟨15, 8, .ro⟩, ⟨7, 0, .ro⟩], [0x0]⟩,
  ⟨0x20000e01408, 4, 0x100000, 1, 0x8, [⟨63, 0, .ro⟩], [0x0]⟩]

/-- The registers whose field maps chapter 10 owns. -/
def regRows10 : List RegRow := [
  ⟨0x20000008000, 1, 0x1000000, 1, 0x8, [⟨63, 32, .ro⟩, ⟨31, 0, .ro⟩], [0x0]⟩,
  ⟨0x20000008008, 1, 0x1000000, 1, 0x8, [⟨57, 56, .ro⟩, ⟨47, 0, .ro⟩], [0x0]⟩,
  ⟨0x20000008100, 1, 0x1000000, 1, 0x8, [⟨60, 48, .ro⟩, ⟨47, 24, .ro⟩, ⟨4, 4, .ro⟩, ⟨3, 3, .ro⟩, ⟨2, 0, .ro⟩], [0x0]⟩,
  ⟨0x20000008108, 1, 0x1000000, 1, 0x8, [⟨63, 0, .ro⟩], [0x0]⟩,
  ⟨0x20000008110, 1, 0x1000000, 1, 0x8, [⟨63, 45, .rw⟩, ⟨26, 0, .rw⟩], [0x0]⟩,
  ⟨0x20000008118, 1, 0x1000000, 1, 0x8, [⟨63, 32, .ro⟩, ⟨31, 16, .ro⟩, ⟨15, 0, .ro⟩], [0x0]⟩,
  ⟨0x20000e01500, 4, 0x100000, 1, 0x8, [⟨47, 24, .ro⟩, ⟨23, 0, .ro⟩], [0x0]⟩,
  ⟨0x20000e01508, 4, 0x100000, 1, 0x8, [⟨63, 48, .ro⟩, ⟨47, 32, .ro⟩, ⟨31, 16, .ro⟩, ⟨15, 0, .ro⟩], [0x0]⟩,
  ⟨0x20000e01600, 4, 0x100000, 24, 0x8, [⟨59, 58, .ro⟩, ⟨57, 56, .ro⟩], [0x0]⟩]

/-- The registers whose field maps chapter 11 owns. -/
def regRows11 : List RegRow := [
  ⟨0x20000a00000, 1, 0x1000000, 8, 0x80, [⟨9, 9, .rw⟩, ⟨8, 8, .rw⟩, ⟨6, 0, .rw⟩], [0x40]⟩,
  ⟨0x20000a00008, 1, 0x1000000, 8, 0x80, [⟨63, 0, .rw⟩], [0x42f0e1eba9ea3693]⟩,
  ⟨0x20000a00010, 1, 0x1000000, 8, 0x80, [⟨63, 0, .rw⟩], [0x0]⟩,
  ⟨0x20000a00018, 1, 0x1000000, 8, 0x80, [⟨63, 0, .rw⟩], [0x0]⟩,
  ⟨0x20000a00020, 1, 0x1000000, 8, 0x80, [⟨63, 0, .rw⟩], [0x0]⟩,
  ⟨0x20000a00028, 1, 0x1000000, 8, 0x80, [⟨63, 0, .rw⟩], [0x0]⟩,
  ⟨0x20000a00030, 1, 0x1000000, 8, 0x80, [⟨47, 0, .rw⟩], [0x0]⟩,
  ⟨0x20000a00038, 1, 0x1000000, 8, 0x80, [⟨40, 0, .rw⟩], [0x0]⟩,
  ⟨0x20000a00040, 1, 0x1000000, 8, 0x80, [⟨11, 8, .rw⟩, ⟨5, 5, .rw⟩, ⟨4, 4, .rw⟩, ⟨3, 3, .rw⟩, ⟨2, 2, .w1s⟩, ⟨1, 1, .w1s⟩, ⟨0, 0, .w1s⟩], [0x800]⟩,
  ⟨0x20000a00048, 1, 0x1000000, 8, 0x80, [⟨15, 12, .ro⟩, ⟨2, 2, .w1c⟩, ⟨1, 1, .w1c⟩, ⟨0, 0, .ro⟩], [0x0]⟩,
  ⟨0x20000a00050, 1, 0x1000000, 8, 0x80, [⟨63, 0, .ro⟩], [0x0]⟩,
  ⟨0x20000a00058, 1, 0x1000000, 8, 0x80, [⟨63, 0, .wo⟩], [0x0]⟩,
  ⟨0x20000a00060, 1, 0x1000000, 8, 0x80, [⟨40, 0, .ro⟩], [0x0]⟩,
  ⟨0x20000a00400, 1, 0x1000000, 1, 0x8, [⟨7, 0, .ro⟩], [0x0]⟩,
  ⟨0x20000a00408, 1, 0x1000000, 1, 0x8, [⟨15, 8, .w1c⟩, ⟨7, 0, .w1c⟩], [0x0]⟩]

/-- The registers whose field maps chapter 12 owns. -/
def regRows12 : List RegRow := [
  ⟨0x20000600000, 1, 0x1000000, 8, 0x8, [⟨55, 48, .ro⟩, ⟨38, 32, .ro⟩, ⟨2, 0, .ro⟩], [0x0]⟩,
  ⟨0x20000600040, 1, 0x1000000, 8, 0x8, [⟨47, 0, .ro⟩], [0x0]⟩,
  ⟨0x20000600080, 1, 0x1000000, 8, 0x8, [⟨47, 0, .ro⟩], [0x0]⟩,
  ⟨0x20000600100, 1, 0x1000000, 1, 0x8, [⟨63, 63, .w1s⟩, ⟨62, 60, .ro⟩, ⟨50, 48, .rw⟩, ⟨30, 16, .rw⟩, ⟨14, 0, .rw⟩], [0x7fff0000]⟩,
  ⟨0x20000600108, 1, 0x1000000, 1, 0x8, [⟨63, 63, .w1s⟩, ⟨62, 60, .ro⟩, ⟨50, 48, .rw⟩, ⟨30, 16, .rw⟩, ⟨14, 0, .rw⟩], [0x0]⟩,
  ⟨0x20000600110, 1, 0x1000000, 1, 0x8, [⟨63, 63, .w1c⟩, ⟨57, 56, .ro⟩, ⟨50, 48, .ro⟩, ⟨14, 0, .ro⟩], [0x0]⟩,
  ⟨0x20000600118, 1, 0x1000000, 1, 0x8, [⟨50, 48, .rw⟩, ⟨14, 0, .rw⟩], [0x0]⟩,
  ⟨0x20000600120, 1, 0x1000000, 1, 0x8, [⟨16, 16, .ro⟩, ⟨14, 0, .ro⟩], [0x10000]⟩,
  ⟨0x20000600200, 1, 0x1000000, 6, 0x8, [⟨14, 8, .rw⟩, ⟨6, 0, .rw⟩], [0x4020, 0x4008, 0x4004, 0x4008, 0x401, 0x801]⟩,
  ⟨0x20000600240, 1, 0x1000000, 6, 0x8, [⟨63, 0, .ro⟩], [0x0]⟩,
  ⟨0x20000600300, 1, 0x1000000, 1, 0x8, [⟨12, 8, .rw⟩, ⟨0, 0, .rw⟩], [0x1001]⟩,
  ⟨0x20000600308, 1, 0x1000000, 1, 0x8, [⟨63, 32, .ro⟩, ⟨29, 0, .ro⟩], [0x0]⟩]

/-- The registers whose field maps chapter 13 owns. -/
def regRows13 : List RegRow := [
  ⟨0x20000002000, 1, 0x1000000, 6, 0x10, [⟨51, 42, .ro⟩, ⟨41, 32, .ro⟩, ⟨9, 8, .ro⟩, ⟨7, 4, .ro⟩, ⟨3, 0, .ro⟩], [0x0]⟩,
  ⟨0x20000002008, 1, 0x1000000, 6, 0x10, [⟨63, 32, .ro⟩, ⟨31, 16, .ro⟩, ⟨15, 0, .ro⟩], [0x0]⟩,
  ⟨0x20000002100, 1, 0x1000000, 1, 0x8, [⟨15, 13, .rw⟩, ⟨12, 12, .rw⟩, ⟨8, 0, .rw⟩], [0x0]⟩,
  ⟨0x20000002108, 1, 0x1000000, 1, 0x8, [⟨54, 48, .ro⟩, ⟨46, 40, .ro⟩, ⟨38, 32, .ro⟩, ⟨22, 16, .ro⟩, ⟨15, 0, .ro⟩], [0x7f7f7f00000000]⟩,
  ⟨0x20000002110, 1, 0x1000000, 1, 0x8, [⟨21, 16, .w1c⟩, ⟨13, 8, .w1c⟩, ⟨5, 0, .w1c⟩], [0x0]⟩,
  ⟨0x20000002118, 1, 0x1000000, 1, 0x8, [⟨0, 0, .ro⟩], [0x0]⟩]

/-- The registers whose field maps chapter 14 owns. -/
def regRows14 : List RegRow := [
  ⟨0x20000900000, 1, 0x1000000, 32, 0x40, [⟨63, 48, .ro⟩, ⟨47, 40, .ro⟩, ⟨39, 32, .ro⟩, ⟨27, 24, .ro⟩, ⟨23, 20, .ro⟩, ⟨19, 19, .ro⟩, ⟨18, 18, .ro⟩, ⟨17, 17, .ro⟩, ⟨16, 16, .ro⟩, ⟨3, 0, .ro⟩], [0xff0000000000]⟩,
  ⟨0x20000900008, 1, 0x1000000, 32, 0x40, [⟨63, 0, .ro⟩], [0x0]⟩,
  ⟨0x20000900010, 1, 0x1000000, 32, 0x40, [⟨63, 56, .ro⟩, ⟨55, 48, .ro⟩, ⟨47, 40, .ro⟩, ⟨31, 0, .ro⟩], [0x0]⟩,
  ⟨0x20000900018, 1, 0x1000000, 32, 0x40, [⟨63, 32, .ro⟩, ⟨31, 0, .ro⟩], [0x7654321076543210]⟩,
  ⟨0x20000900020, 1, 0x1000000, 32, 0x40, [⟨63, 32, .ro⟩, ⟨31, 0, .ro⟩], [0x0]⟩,
  ⟨0x20000900028, 1, 0x1000000, 32, 0x40, [⟨63, 48, .ro⟩, ⟨47, 32, .ro⟩, ⟨31, 16, .ro⟩, ⟨15, 0, .ro⟩], [0x0]⟩,
  ⟨0x20000900030, 1, 0x1000000, 32, 0x40, [⟨63, 32, .ro⟩, ⟨31, 16, .ro⟩, ⟨15, 0, .ro⟩], [0x1000000]⟩,
  ⟨0x20000900038, 1, 0x1000000, 32, 0x40, [⟨63, 32, .ro⟩, ⟨19, 16, .ro⟩, ⟨15, 0, .ro⟩], [0x0]⟩,
  ⟨0x20000901000, 1, 0x1000000, 1, 0x8, [⟨63, 56, .ro⟩, ⟨55, 48, .ro⟩, ⟨47, 40, .ro⟩, ⟨39, 32, .ro⟩, ⟨31, 0, .ro⟩], [0x302000000000000]⟩,
  ⟨0x20000901008, 1, 0x1000000, 1, 0x8, [⟨31, 0, .w1c⟩], [0x0]⟩,
  ⟨0x20000901010, 1, 0x1000000, 1, 0x8, [⟨54, 48, .rw⟩, ⟨47, 20, .rw⟩], [0x0]⟩]

/-- The registers whose field maps chapter 15 owns. -/
def regRows15 : List RegRow := [
  ⟨0x20000700000, 2, 0x100000, 1, 0x8, [⟨63, 48, .ro⟩, ⟨39, 36, .ro⟩, ⟨35, 35, .ro⟩, ⟨31, 28, .ro⟩, ⟨15, 0, .ro⟩], [0x1000000000000]⟩,
  ⟨0x20000700008, 2, 0x100000, 1, 0x8, [⟨47, 0, .ro⟩], [0x0]⟩,
  ⟨0x20000700010, 2, 0x100000, 1, 0x8, [⟨7, 4, .rw⟩, ⟨3, 0, .rw⟩], [0x0]⟩,
  ⟨0x20000700018, 2, 0x100000, 1, 0x8, [⟨44, 0, .ro⟩], [0x0]⟩,
  ⟨0x20000700020, 2, 0x100000, 1, 0x8, [⟨9, 8, .rw⟩, ⟨7, 4, .rw⟩, ⟨3, 0, .rw⟩], [0x0]⟩,
  ⟨0x20000700028, 2, 0x100000, 1, 0x8, [⟨63, 48, .ro⟩, ⟨39, 36, .ro⟩, ⟨35, 32, .ro⟩, ⟨31, 16, .ro⟩, ⟨15, 8, .ro⟩, ⟨2, 0, .ro⟩], [0xf00000000]⟩,
  ⟨0x20000700030, 2, 0x100000, 1, 0x8, [⟨63, 32, .ro⟩, ⟨31, 16, .ro⟩, ⟨15, 0, .ro⟩], [0x0]⟩,
  ⟨0x20000700400, 2, 0x100000, 36, 0x8, [⟨63, 48, .ro⟩, ⟨47, 32, .ro⟩, ⟨31, 16, .ro⟩, ⟨1, 1, .ro⟩, ⟨0, 0, .ro⟩], [0x0]⟩,
  ⟨0x20000708000, 1, 0x1000000, 1, 0x8, [⟨63, 32, .ro⟩, ⟨3, 3, .ro⟩, ⟨2, 2, .ro⟩, ⟨1, 1, .ro⟩, ⟨0, 0, .ro⟩], [0x0]⟩,
  ⟨0x20000708010, 1, 0x1000000, 9, 0x8, [⟨55, 8, .ro⟩, ⟨7, 6, .ro⟩, ⟨3, 1, .ro⟩, ⟨0, 0, .ro⟩], [0x0]⟩]

/-- The registers whose field maps chapter 16 owns. -/
def regRows16 : List RegRow := [
  ⟨0x20000901100, 1, 0x1000000, 1, 0x8, [⟨63, 0, .ro⟩], [0x0]⟩,
  ⟨0x20000901108, 1, 0x1000000, 1, 0x8, [⟨63, 48, .ro⟩, ⟨47, 40, .ro⟩, ⟨39, 28, .ro⟩, ⟨27, 20, .ro⟩, ⟨16, 16, .ro⟩, ⟨15, 8, .ro⟩, ⟨7, 4, .ro⟩], [0x0]⟩,
  ⟨0x20000901110, 1, 0x1000000, 1, 0x8, [⟨63, 0, .ro⟩], [0x0]⟩,
  ⟨0x20000901118, 1, 0x1000000, 1, 0x8, [⟨63, 47, .ro⟩, ⟨46, 38, .ro⟩, ⟨37, 32, .ro⟩, ⟨10, 0, .ro⟩], [0x0]⟩,
  ⟨0x20000901120, 1, 0x1000000, 1, 0x8, [⟨19, 16, .rw⟩, ⟨15, 0, .rw⟩], [0x0]⟩,
  ⟨0x20000901128, 1, 0x1000000, 4, 0x8, [⟨48, 48, .ro⟩, ⟨47, 40, .ro⟩, ⟨39, 32, .ro⟩, ⟨31, 0, .ro⟩], [0x0]⟩,
  ⟨0x20000901200, 1, 0x1000000, 32, 0x8, [⟨44, 44, .ro⟩, ⟨43, 32, .ro⟩, ⟨13, 13, .ro⟩, ⟨12, 12, .ro⟩, ⟨11, 0, .ro⟩], [0x0]⟩,
  ⟨0x20000901300, 1, 0x1000000, 1, 0x8, [⟨63, 32, .ro⟩, ⟨31, 0, .ro⟩], [0x0]⟩]

/-- The registers whose field maps chapter 17 owns. -/
def regRows17 : List RegRow := [
  ⟨0x20000d00100, 1, 0x1000000, 1, 0x8, [⟨63, 48, .ro⟩, ⟨47, 44, .ro⟩, ⟨43, 40, .ro⟩, ⟨39, 38, .ro⟩, ⟨37, 37, .ro⟩, ⟨36, 36, .ro⟩, ⟨31, 16, .ro⟩, ⟨2, 0, .ro⟩], [0x0]⟩,
  ⟨0x20000d00108, 1, 0x1000000, 1, 0x8, [⟨63, 32, .ro⟩, ⟨31, 0, .ro⟩], [0x0]⟩,
  ⟨0x20000d00110, 1, 0x1000000, 1, 0x8, [⟨63, 32, .ro⟩, ⟨31, 16, .ro⟩, ⟨15, 0, .ro⟩], [0x0]⟩,
  ⟨0x20000d00118, 1, 0x1000000, 1, 0x8, [⟨63, 32, .ro⟩, ⟨31, 0, .ro⟩], [0x0]⟩,
  ⟨0x20000d00120, 1, 0x1000000, 1, 0x8, [⟨63, 0, .ro⟩], [0x0]⟩]

/-- The registers whose field maps chapter 18 owns. -/
def regRows18 : List RegRow := [
  ⟨0x20000b00000, 1, 0x1000000, 1, 0x8, [⟨63, 52, .ro⟩, ⟨40, 32, .ro⟩, ⟨11, 8, .ro⟩, ⟨7, 7, .ro⟩, ⟨6, 6, .ro⟩, ⟨5, 5, .ro⟩, ⟨2, 0, .ro⟩], [0x0]⟩,
  ⟨0x20000b00008, 1, 0x1000000, 1, 0x8, [⟨63, 0, .ro⟩], [0x0]⟩,
  ⟨0x20000b00010, 1, 0x1000000, 1, 0x8, [⟨63, 0, .ro⟩], [0x0]⟩,
  ⟨0x20000b00018, 1, 0x1000000, 1, 0x8, [⟨63, 48, .ro⟩, ⟨47, 32, .ro⟩, ⟨24, 16, .ro⟩, ⟨0, 0, .ro⟩], [0x0]⟩,
  ⟨0x20000b00020, 1, 0x1000000, 1, 0x8, [⟨63, 32, .ro⟩, ⟨31, 0, .ro⟩], [0x0]⟩,
  ⟨0x20000b00028, 1, 0x1000000, 1, 0x8, [⟨47, 0, .ro⟩], [0x0]⟩,
  ⟨0x20000b00030, 1, 0x1000000, 1, 0x8, [⟨55, 52, .ro⟩, ⟨51, 50, .ro⟩, ⟨49, 48, .ro⟩, ⟨39, 0, .ro⟩], [0x0]⟩,
  ⟨0x20000b00038, 1, 0x1000000, 1, 0x8, [⟨63, 32, .ro⟩, ⟨31, 0, .ro⟩], [0x0]⟩,
  ⟨0x20000b00040, 1, 0x1000000, 1, 0x8, [⟨5, 5, .w1c⟩, ⟨4, 4, .w1c⟩, ⟨3, 3, .w1c⟩, ⟨2, 2, .w1c⟩, ⟨1, 1, .w1c⟩, ⟨0, 0, .w1c⟩], [0x0]⟩,
  ⟨0x20000b00048, 1, 0x1000000, 1, 0x8, [⟨63, 48, .ro⟩, ⟨47, 32, .ro⟩, ⟨31, 16, .ro⟩, ⟨15, 0, .ro⟩], [0x0]⟩]

/-- The registers whose field maps chapter 19 owns. -/
def regRows19 : List RegRow := [
  ⟨0x20000500000, 1, 0x1000000, 1, 0x8, [⟨63, 32, .ro⟩, ⟨18, 18, .ro⟩, ⟨17, 17, .ro⟩, ⟨12, 0, .ro⟩], [0x0]⟩,
  ⟨0x20000500008, 1, 0x1000000, 1, 0x8, [⟨47, 0, .ro⟩], [0x0]⟩,
  ⟨0x20000500010, 1, 0x1000000, 1, 0x8, [⟨15, 0, .rw⟩], [0x0]⟩,
  ⟨0x20000500018, 1, 0x1000000, 1, 0x8, [⟨47, 0, .ro⟩], [0x0]⟩,
  ⟨0x20000500020, 1, 0x1000000, 1, 0x8, [⟨47, 0, .ro⟩], [0x0]⟩,
  ⟨0x20000500028, 1, 0x1000000, 1, 0x8, [⟨63, 48, .ro⟩, ⟨47, 32, .ro⟩, ⟨31, 16, .ro⟩, ⟨15, 0, .ro⟩], [0x0]⟩,
  ⟨0x20000500030, 1, 0x1000000, 1, 0x8, [⟨63, 32, .ro⟩, ⟨17, 16, .ro⟩, ⟨15, 0, .ro⟩], [0x0]⟩,
  ⟨0x20000500038, 1, 0x1000000, 1, 0x8, [⟨15, 8, .ro⟩, ⟨7, 0, .ro⟩], [0x0]⟩,
  ⟨0x20000500040, 1, 0x1000000, 1, 0x8, [⟨1, 1, .w1c⟩, ⟨0, 0, .w1c⟩], [0x0]⟩,
  ⟨0x20000510000, 1, 0x1000000, 32768, 0x8, [⟨63, 0, .ro⟩], [0x0]⟩]

/-- The registers whose field maps chapter 20 owns. -/
def regRows20 : List RegRow := [
  ⟨0x20000001000, 1, 0x1000000, 1, 0x8, [⟨63, 32, .ro⟩, ⟨19, 16, .ro⟩, ⟨10, 10, .ro⟩, ⟨9, 9, .ro⟩, ⟨8, 8, .ro⟩, ⟨5, 4, .ro⟩, ⟨2, 0, .ro⟩], [0x0]⟩,
  ⟨0x20000001008, 1, 0x1000000, 1, 0x8, [⟨63, 56, .ro⟩, ⟨55, 48, .ro⟩, ⟨47, 40, .ro⟩, ⟨39, 32, .ro⟩, ⟨31, 0, .ro⟩], [0x0]⟩,
  ⟨0x20000001040, 1, 0x1000000, 7, 0x10, [⟨63, 0, .ro⟩], [0x0]⟩,
  ⟨0x20000001048, 1, 0x1000000, 7, 0x10, [⟨63, 0, .ro⟩], [0x0]⟩,
  ⟨0x200000010b0, 1, 0x1000000, 1, 0x8, [⟨23, 16, .ro⟩, ⟨15, 8, .ro⟩, ⟨7, 0, .ro⟩], [0x0]⟩,
  ⟨0x20000100010, 1, 0x1000000, 1, 0x8, [⟨9, 9, .ro⟩, ⟨5, 4, .ro⟩, ⟨2, 0, .ro⟩], [0x0]⟩]

/-- The registers whose field maps chapter 21 owns. -/
def regRows21 : List RegRow := [
  ⟨0x20000300000, 1, 0x1000000, 1, 0x8, [⟨39, 0, .ro⟩], [0x0]⟩,
  ⟨0x20000300008, 1, 0x1000000, 1, 0x8, [⟨51, 32, .ro⟩, ⟨19, 0, .w1c⟩], [0x0]⟩,
  ⟨0x20000300100, 1, 0x1000000, 1, 0x8, [⟨63, 48, .ro⟩, ⟨47, 32, .ro⟩, ⟨31, 16, .ro⟩, ⟨11, 8, .ro⟩, ⟨2, 0, .ro⟩], [0x0]⟩,
  ⟨0x20000300108, 1, 0x1000000, 1, 0x8, [⟨47, 0, .ro⟩], [0x0]⟩,
  ⟨0x20000300110, 1, 0x1000000, 1, 0x8, [⟨47, 0, .ro⟩], [0x0]⟩,
  ⟨0x20000400000, 1, 0x1000000, 12, 0x8, [⟨47, 32, .ro⟩, ⟨31, 16, .ro⟩, ⟨7, 7, .ro⟩, ⟨6, 6, .ro⟩, ⟨5, 4, .ro⟩], [0x0]⟩,
  ⟨0x20000400080, 1, 0x1000000, 7, 0x8, [⟨15, 0, .rw⟩], [0x76c, 0x76c, 0x76c, 0x76c, 0x4b0, 0x514, 0x514]⟩,
  ⟨0x20000400100, 1, 0x1000000, 1, 0x8, [⟨63, 48, .ro⟩, ⟨47, 32, .ro⟩, ⟨1, 1, .ro⟩, ⟨0, 0, .ro⟩], [0x0]⟩,
  ⟨0x20000400108, 1, 0x1000000, 1, 0x8, [⟨63, 32, .ro⟩, ⟨31, 16, .ro⟩, ⟨11, 10, .ro⟩, ⟨9, 0, .ro⟩], [0x0]⟩]

/-- The registers whose field maps chapter 22 owns. -/
def regRows22 : List RegRow := [
  ⟨0x20000300200, 1, 0x1000000, 1, 0x8, [⟨63, 48, .ro⟩, ⟨47, 32, .ro⟩, ⟨31, 16, .ro⟩, ⟨3, 3, .ro⟩, ⟨2, 2, .ro⟩, ⟨1, 1, .ro⟩, ⟨0, 0, .ro⟩], [0x0]⟩,
  ⟨0x20000300208, 1, 0x1000000, 1, 0x8, [⟨63, 32, .ro⟩, ⟨16, 16, .ro⟩, ⟨11, 0, .rw⟩], [0xa28]⟩,
  ⟨0x20000300210, 1, 0x1000000, 1, 0x8, [⟨63, 48, .ro⟩, ⟨47, 32, .ro⟩, ⟨31, 24, .ro⟩, ⟨23, 16, .ro⟩, ⟨9, 9, .ro⟩, ⟨8, 8, .ro⟩, ⟨7, 0, .ro⟩], [0x0]⟩,
  ⟨0x20000300218, 1, 0x1000000, 1, 0x8, [⟨63, 32, .ro⟩, ⟨9, 3, .ro⟩, ⟨2, 1, .ro⟩, ⟨0, 0, .ro⟩], [0x0]⟩,
  ⟨0x20000300220, 1, 0x1000000, 1, 0x8, [⟨63, 32, .ro⟩, ⟨31, 0, .ro⟩], [0x0]⟩]

/-- The registers whose field maps chapter 23 owns. -/
def regRows23 : List RegRow := [
  ⟨0x200000fff00, 1, 0x2000000, 18, 0x100000, [⟨31, 24, .ro⟩, ⟨23, 16, .ro⟩, ⟨15, 8, .ro⟩], [0x60100, 0x1060100, 0x2060100, 0x3060100, 0x4060100, 0x5060100, 0x6060100, 0x7040100, 0x8050100, 0x9060100, 0xa060100, 0xb060100, 0xc060100, 0xd060100, 0xe000100, 0xf010100, 0x10020100, 0x11030100]⟩,
  ⟨0x200000fff08, 1, 0x2000000, 18, 0x100000, [⟨1, 1, .ro⟩, ⟨0, 0, .ro⟩], [0x0]⟩,
  ⟨0x20000103000, 1, 0x1000000, 1, 0x8, [⟨63, 48, .rw⟩, ⟨47, 0, .rw⟩], [0x0]⟩,
  ⟨0x20000103008, 1, 0x1000000, 1, 0x8, [⟨63, 0, .rw⟩], [0x0]⟩,
  ⟨0x20000103010, 1, 0x1000000, 1, 0x8, [⟨10, 8, .ro⟩, ⟨1, 1, .rw⟩, ⟨0, 0, .w1s⟩], [0x0]⟩]

/-- Every register of the index (R698). -/
def regRows : List RegRow :=
  regRows02 ++ regRows03 ++ regRows05 ++ regRows06 ++ regRows07 ++ regRows08 ++ regRows09 ++ regRows10 ++ regRows11 ++ regRows12 ++ regRows13 ++ regRows14 ++ regRows15 ++ regRows16 ++ regRows17 ++ regRows18 ++ regRows19 ++ regRows20 ++ regRows21 ++ regRows22 ++ regRows23

/-- The inner place of an address inside a row, when the row has a register there. -/
def rowPlace (r : RegRow) (a : Nat) : Option Nat :=
  if a < r.base then none
  else
    let off := a - r.base
    let rem := off % r.s1
    if off / r.s1 < r.n1 && rem / r.s2 < r.n2 && rem % r.s2 == 0 then some (rem / r.s2) else none

/-- The row and inner place of the register at an address, searched in a list of rows. -/
def findRow (rows : List RegRow) (a : Nat) : Option (RegRow × Nat) :=
  match rows with
  | [] => none
  | r :: rest =>
    match rowPlace r a with
    | some j => some (r, j)
    | none => findRow rest a

/-- The register listed at an address (R687: none where the index lists none). -/
def regAt (a : Nat) : Option (RegRow × Nat) := findRow regRows a

/-- The reset value of a row at an inner place. -/
def rowReset (r : RegRow) (j : Nat) : Nat := r.resets.getD j (r.resets.getLastD 0)

/-- The reset value of the register at an address (R698); a field whose reset is given as undefined holds zero (assumption log 1). -/
def regReset (a : Nat) : Word :=
  match regAt a with
  | some (r, j) => BitVec.ofNat 64 (rowReset r j)
  | none => 0

end Sys2Proof.Machine
end

