-- ==== Sys2Proof/Machine/Transcend.lean ====
section
/-!
DEFINITION. The functions of the vector engines, correctly rounded (07 R186): square roots and reciprocals by integer arithmetic with a sticky bit, exponentials, logarithms and erf by fixed-point series of 400 fraction bits, far below the spacing any FP32 or BF16 result can resolve.
-/
namespace Sys2Proof.Machine

/-- Fraction bits of the fixed-point series. -/
def fxP : Nat := 400

/-- 1.0 in fixed point. -/
def fxOne : Int := 2 ^ 400

/-- Fixed-point product. -/
def fxMul (a b : Int) : Int := (a * b) / fxOne

/-- atanh of z (|z| at most 1/3) as a series: the sum of z^(2k+1)/(2k+1); term holds z^(2k+1). -/
def atanhSeries (fuel k : Nat) (term z2 acc : Int) : Int :=
  match fuel with
  | 0 => acc
  | n + 1 => if term = 0 then acc else atanhSeries n (k + 1) (fxMul term z2) z2 (acc + term / (2 * k + 1))

/-- ln y for y in [1, 2] in fixed point, as 2 atanh((y-1)/(y+1)). (DEDUCED, assumption log 115) -/
def fxLn (y : Int) : Int :=
  let z := ((y - fxOne) * fxOne) / (y + fxOne)
  2 * atanhSeries 300 0 z (fxMul z z) 0

/-- ln 2. -/
def fxLn2 : Int := fxLn (2 * fxOne)

/-- The sum of x^k/k!; term holds x^k/k!. -/
def expSeries (fuel k : Nat) (term x acc : Int) : Int :=
  match fuel with
  | 0 => acc
  | n + 1 => if term = 0 then acc else expSeries n (k + 1) (fxMul term x / (k + 1)) x (acc + term)

/-- e^x for x in [0, 1) in fixed point. (DEDUCED, assumption log 115) -/
def fxExp (x : Int) : Int := expSeries 200 0 fxOne x 0

/-- 2^y for a fixed-point y: the mantissa in [1, 2) in fixed point, and the exponent. -/
def fxExp2 (y : Int) : Int × Int :=
  let n := y / fxOne
  (fxExp (fxMul (y - n * fxOne) fxLn2), n)

/-- atan(1/n) by its alternating series; term holds 1/n^(2k+1). -/
def atanInv (fuel k : Nat) (term n2 acc : Int) : Int :=
  match fuel with
  | 0 => acc
  | m + 1 => if term = 0 then acc
    else atanInv m (k + 1) (term / n2) n2 (if k % 2 = 0 then acc + term / (2 * k + 1) else acc - term / (2 * k + 1))

/-- π by Machin's formula. -/
def fxPi : Int := 4 * (4 * atanInv 200 0 (fxOne / 5) 25 0 - atanInv 200 0 (fxOne / 239) (239 * 239) 0)

/-- The series of erf without its factor 2x/√π: the sum of (-x²)^k/(k!(2k+1)); term holds x^(2k)/k!. (DEDUCED, assumption log 115) -/
def erfSeries (fuel k : Nat) (term x2 acc : Int) : Int :=
  match fuel with
  | 0 => acc
  | m + 1 => if term = 0 then acc
    else erfSeries m (k + 1) (fxMul term x2 / (k + 1)) x2 (if k % 2 = 0 then acc + term / (2 * k + 1) else acc - term / (2 * k + 1))

/-- A value in fixed point, rounded toward minus infinity. -/
def toFx (neg : Bool) (m : Nat) (e : Int) : Int :=
  let v : Int := (m : Int)
  let w := if 0 ≤ e + 400 then v * 2 ^ (e + 400).toNat else v / 2 ^ (-(e + 400)).toNat
  if neg then -w else w

/-- A positive number known only approximately and never on a rounding boundary: its leading bits with a sticky bit below them. -/
def sticky (neg : Bool) (m : Nat) (e : Int) : XV := .fin neg (2 * m + 1) (e - 1)

/-- The quotient n/d · 2^e of positive numbers with a sticky bit where it is inexact. -/
def quot (neg : Bool) (n d : Nat) (e : Int) : XV :=
  let k := Nat.log2 d + 80
  let q := (n <<< k) / d
  if (n <<< k) % d = 0 then .fin neg q (e - k) else sticky neg q (e - k)

/-- 1/x (R186): ±0 gives ±Inf. -/
def xRcp : XV → XV
  | .nan => .nan
  | .inf s => .fin s 0 0
  | .fin s m e => if m = 0 then .inf s else quot s 1 m (-e)

/-- The integer square root by Newton's steps from above. -/
def isqrtAux (fuel n g : Nat) : Nat :=
  match fuel with
  | 0 => g
  | f + 1 => let h := (g + n / g) / 2; if h < g then isqrtAux f n h else g

/-- floor(√n). -/
def isqrt (n : Nat) : Nat := if n = 0 then 0 else isqrtAux (Nat.log2 n + 2) n (2 ^ (Nat.log2 n / 2 + 1))

/-- √x for a positive x, with a sticky bit where it is inexact. -/
def sqrtPos (m : Nat) (e : Int) : XV :=
  let (m1, e1) := if e % 2 = 0 then (m, e) else (2 * m, e - 1)
  let r := isqrt (m1 <<< 160)
  if r * r = m1 <<< 160 then .fin false r (e1 / 2 - 80) else sticky false r (e1 / 2 - 80)

/-- √x by IEEE 754-2019 (R186): -0 gives -0, a negative value NaN. -/
def xSqrt : XV → XV
  | .nan => .nan
  | .inf s => if s then .nan else .inf false
  | .fin s m e => if m = 0 then .fin s 0 0 else if s then .nan else sqrtPos m e

/-- 1/√x by IEEE 754-2019 rSqrt (R186): ±0 gives ±Inf, +Inf gives +0, a negative value NaN. -/
def xRsqrt : XV → XV
  | .nan => .nan
  | .inf s => if s then .nan else .fin false 0 0
  | .fin s m e =>
    if m = 0 then .inf s
    else if s then .nan
    else
      let (m1, e1) := if e % 2 = 0 then (m, e) else (2 * m, e - 1)
      -- 1/√(m1·2^e1): r = floor(√(2^(2k)/m1)), exact only when m1 is a perfect square that divides
      let k := 100 + Nat.log2 m1
      let r := isqrt ((1 <<< (2 * k)) / m1)
      if r * r * m1 = 1 <<< (2 * k) then .fin false r (-(e1 / 2) - k) else sticky false r (-(e1 / 2) - k)

/-- 2^x (R186). -/
def xExp2 : XV → XV
  | .nan => .nan
  | .inf s => if s then .fin false 0 0 else .inf false
  | .fin s m e =>
    if m = 0 then .fin false 1 0
    else if 12 ≤ ilog2 m e then (if s then .fin false 1 (-4000) else .fin false 1 4000)
    else if ilog2 m e < -390 then (if s then sticky false (2 ^ 100 - 1) (-100) else sticky false (2 ^ 100) (-100))
    else
      let y := toFx s m e
      let n := y / fxOne
      if y = n * fxOne ∧ 0 ≤ e + 400 then .fin false 1 n
      else
        let (a, n) := fxExp2 y
        sticky false a.toNat (n - 400)

/-- log2 x (R186): ±0 gives -Inf, a negative value NaN. -/
def xLog2 : XV → XV
  | .nan => .nan
  | .inf s => if s then .nan else .inf false
  | .fin s m e =>
    if m = 0 then .inf true
    else if s then .nan
    else
      let l := ilog2 m e
      let y := toFx false m (-(Nat.log2 m : Int))
      if y = fxOne then (if l = 0 then .fin false 0 0 else .fin (decide (l < 0)) l.natAbs 0)
      else
        let v := l * fxOne + (fxLn y * fxOne) / fxLn2
        if v < 0 then sticky true v.natAbs (-400) else sticky false v.natAbs (-400)

/-- 1/(1 + t) · 2^s-scaled quotient of fixed-point numbers: num/den with a sticky bit. -/
def fxRatio (neg : Bool) (num den : Int) : XV :=
  let k := 200 + Nat.log2 den.natAbs
  sticky neg ((num.natAbs <<< k) / den.natAbs) (-(k : Int))

/-- e^x as mantissa and exponent for a fixed-point x. -/
def fxExpE (x : Int) : Int × Int := fxExp2 ((x * fxOne) / fxLn2)

/-- The sigmoid 1/(1 + e^-x) (R186). -/
def xSigm : XV → XV
  | .nan => .nan
  | .inf s => if s then .fin false 0 0 else .fin false 1 0
  | .fin s m e =>
    if m = 0 then .fin false 1 (-1)
    else if 9 ≤ ilog2 m e then (if s then .fin false 1 (-4000) else sticky false (2 ^ 100 - 1) (-100))
    else
      let x := toFx s m e
      -- with n the exponent of e^-x: 1/(1 + a·2^n)
      let (a, n) := fxExpE (-x)
      if 0 ≤ n then fxRatio false fxOne (fxOne + a * 2 ^ n.toNat)
      else fxRatio false (fxOne * 2 ^ (-n).toNat) (fxOne * 2 ^ (-n).toNat + a)

/-- tanh x (R186): odd, ±1 at ±Inf, ±0 at ±0. -/
def xTanh : XV → XV
  | .nan => .nan
  | .inf s => .fin s 1 0
  | .fin s m e =>
    if m = 0 then .fin s 0 0
    else if 7 ≤ ilog2 m e then sticky s (2 ^ 100 - 1) (-100)
    else if ilog2 m e < -60 then sticky s (m * 2 ^ 200 - 1) (e - 200)
    else
      let x := toFx false m (e + 1)
      let (a, n) := fxExpE (-x)
      let u := a / 2 ^ (-n).toNat
      fxRatio s (fxOne - u) (fxOne + u)

/-- erf x (R186): odd, ±1 at ±Inf, ±0 at ±0. -/
def xErf : XV → XV
  | .nan => .nan
  | .inf s => .fin s 1 0
  | .fin s m e =>
    if m = 0 then .fin s 0 0
    else if 3 ≤ ilog2 m e then sticky s (2 ^ 100 - 1) (-100)
    else
      let x := toFx false m e
      let sum := erfSeries 900 0 fxOne (fxMul x x) 0
      let c := (2 * fxOne * fxOne) / (isqrt (fxPi.toNat * fxOne.toNat) : Int)
      sticky s ((m : Int) * fxMul sum c).natAbs (e - 400)

end Sys2Proof.Machine
end

