-- ==== Sys2Proof/Machine/Formats.lean ====
section
/-!
DEFINITION. Format blocks, block-scaled coding with escapes, and the soundings record (04 R84 to R87, R93 to R97, R102, R107, R108).
-/
namespace Sys2Proof.Machine

/-- A format block (R84). -/
structure FmtBlock where
  fmt : Fmt
  rnd : Rnd
  sat : Bool
  esc : Bool
  promote : Bool
  histBase : Int
  promoLimit : Nat
  tscale : Nat
  deriving DecidableEq, Repr

/-- The rounding a ROUND field names; 3 is reserved. -/
def rndOf : Nat → Option Rnd
  | 0 => some .rne | 1 => some .sr | 2 => some .rtz | _ => none

/-- A 16-bit field as a two's complement number. -/
def sgn16 (x : Nat) : Int := if x < 32768 then (x : Int) else (x : Int) - 65536

/-- A signed number as a two's complement field of the given width. -/
def twos (width : Nat) (x : Int) : Nat := (x % (2 ^ width : Int)).toNat

/-- Read the 16 bytes of a format block; none where a code or ROUND is reserved or a reserved bit or field is set, or PROMO_LIMIT is out of range (R86). -/
def parseFmt (b : Bytes) : Option FmtBlock :=
  let f := uAt b 0 1
  let mo := uAt b 1 1
  let hb := uAt b 2 2
  let pl := uAt b 4 2
  if f ≥ 16 || bitsOf mo 7 5 != 0 || uAt b 6 2 != 0 || uAt b 12 4 != 0 || pl > 32767 then none
  else
    match fmtOfCode f, rndOf (bitsOf mo 1 0) with
    | some fm, some r =>
      some { fmt := fm, rnd := r, sat := mo.testBit 2, esc := mo.testBit 3, promote := mo.testBit 4,
             histBase := if hb = 0x8000 then -16 else sgn16 hb, promoLimit := pl, tscale := uAt b 8 4 }
    | _, _ => none

/-- Whether an FP32 pattern is a normal number, the only TSCALE a destination may carry (R86). -/
def normalFp32 (c : Nat) : Bool := bitsOf c 30 23 != 0 && bitsOf c 30 23 != 255

/-- Every check of R86 on one format block: dest for a destination, extent the tensor's innermost extent; SR into FP64 or A40 is refused by R98. -/
def fmtOk (b : Bytes) (dest : Bool) (extent : Nat) : Bool :=
  match parseFmt b with
  | none => false
  | some k =>
    (!k.esc || k.fmt.escapes) && (!k.promote || k.fmt.narrow) && (!dest || normalFp32 k.tscale) &&
    (!k.fmt.blockScaled || extent % 32 == 0) &&
    (!dest || !(k.rnd == .sr && (k.fmt == .fp64 || k.fmt == .a40)))

/-- The TSCALE as an exact value. -/
def FmtBlock.scaleX (k : FmtBlock) : XV := decodeElem .fp32 k.tscale

/-! ### Blocks of 32 (R93 to R97) -/

/-- What decoding a block gives: the 32 exact values, and whether its escape entries conflict (R96). -/
structure DecodedBlock where
  vals : List XV
  conflict : Bool
  deriving DecidableEq, Repr

/-- The element codes of a packed block (R94). -/
def unpackBlock (w : Nat) (b : Bytes) : List Nat :=
  let x := leNat b
  (List.range 32).map fun i => (x >>> (w * i)) % 2 ^ w

/-- The bytes of a packed block (R94). -/
def packBlock (w : Nat) (codes : List Nat) : Bytes :=
  natLe (4 * w) ((codes.zip (List.range 32)).foldl (fun acc p => acc + (p.1 % 2 ^ w) <<< (w * p.2)) 0)

/-- Decode a block: scale 255 makes every element NaN and its escapes ignored (R93); a valid escape entry replaces its element, entry 0 before entry 1 (R96). -/
def decodeBlock (f : Fmt) (scale : Nat) (elems : Bytes) (esc : Option Bytes) : DecodedBlock :=
  if scale = 255 then ⟨List.replicate 32 .nan, false⟩
  else
    let x : Int := (scale : Int) - 127
    let base := (unpackBlock f.width elems).map (decodeElem f)
    match esc with
    | none => ⟨base.map (xScale x), false⟩
    | some e =>
      let i0 := uAt e 0 1
      let v0 := decodeElem .e4m3 (uAt e 1 1)
      let i1 := uAt e 2 1
      let v1 := decodeElem .e4m3 (uAt e 3 1)
      let b1 := if i1.testBit 7 then base.set (i1 % 32) v1 else base
      let b2 := if i0.testBit 7 then b1.set (i0 % 32) v0 else b1
      ⟨b2.map (xScale x), i0.testBit 7 && i1.testBit 7 && i0 % 32 == i1 % 32⟩

/-- The shared exponent of a set of values (R97 step 3). -/
def sharedExp (f : Fmt) (vs : List XV) : Int :=
  let top := vs.foldl (fun (acc : Option Int) v =>
    match v with
    | .fin _ m e => if m = 0 then acc else
        match acc with
        | none => some (ilog2 m e)
        | some a => some (max a (ilog2 m e))
    | _ => acc) none
  match top with
  | none => -127
  | some a => max (-127) (min 127 (a - expAllow f))

/-- Whether |a| > |b| for finite values. -/
def magGt (a b : XV) : Bool :=
  match a, b with
  | .fin _ ma ea, .fin _ mb eb => if ma = 0 then false else if mb = 0 then true else magCmp ma ea mb eb == .gt
  | _, _ => false

/-- Index of the finite candidate of largest magnitude, the lower index on a tie. -/
def largestIdx (cands : List (Nat × XV)) : Option (Nat × XV) :=
  cands.foldl (fun acc c =>
    match acc with
    | none => some c
    | some b => if magGt c.2 b.2 then some c else some b) none

/-- Choose up to n escapes (R97 step 2): the indices taken out, and the candidates that remain. -/
def chooseEscapes (f : Fmt) (n : Nat) (cands : List (Nat × XV)) : List Nat × List (Nat × XV) :=
  match n with
  | 0 => ([], cands)
  | k + 1 =>
    match largestIdx cands with
    | none => ([], cands)
    | some (i, _) =>
      let rest := cands.filter (fun c => c.1 != i)
      if sharedExp f (cands.map (·.2)) - sharedExp f (rest.map (·.2)) ≥ 2 then
        let (is, r) := chooseEscapes f k rest
        (i :: is, r)
      else ([], cands)

/-- A block as it is written: its scale byte, element codes, escape bytes, and the indices escaped. -/
structure EncodedBlock where
  scale : Nat
  codes : List Nat
  esc : Bytes
  escaped : List Nat
  deriving DecidableEq, Repr

/-- Write a block of 32 values by R97; draws holds the 16 low bits of each position's draw. -/
def encodeBlock (f : Fmt) (mode : Rnd) (sat esc : Bool) (draws : List Nat) (vs : List XV) : EncodedBlock :=
  if f.narrow && vs.any (fun v => !xFinite v) then ⟨255, List.replicate 32 0, zeros 4, []⟩
  else
    let cands := ((List.range 32).zip vs).filter (fun c => xFinite c.2)
    let (is, rest) := if esc then chooseEscapes f 2 cands else ([], cands)
    let x := sharedExp f (rest.map (·.2))
    let one (i : Nat) (v : XV) : Nat :=
      if is.contains i then 0 else convert f mode sat (draws.getD i 0) (xScale (-x) v)
    let entry (i : Nat) : Bytes :=
      [BitVec.ofNat 8 (128 + i),
       BitVec.ofNat 8 (convert .e4m3 mode true (draws.getD i 0) (xScale (-x) (vs.getD i (.fin false 0 0))))]
    let sorted := sortNat is
    ⟨(x + 127).toNat, ((List.range 32).zip vs).map (fun p => one p.1 p.2), fit 4 (sorted.map entry).flatten, sorted⟩

/-! ### Soundings (R107, R108) -/

/-- The running counts of a tile's soundings record. -/
structure Soundings where
  maxExp : Option Int := none
  minExp : Option Int := none
  zero : Nat := 0
  nan : Nat := 0
  inf : Nat := 0
  sat : Nat := 0
  flush : Nat := 0
  escs : Nat := 0
  hist : List Nat := List.replicate 16 0
  conflict : Nat := 0
  a40Flush : Nat := 0
  deriving DecidableEq, Repr

/-- The histogram bin of an exponent (R107). -/
def histBin (base e : Int) : Nat := (max 0 (min 15 ((e - base) / 2))).toNat

/-- Count one element value after the tensor scale: nanBlock for an element of a block written with scale 255; the last two say whether it overflows or flushes under RNE in the format its element is written in. -/
def soundOne (base : Int) (k : Soundings) (v : XV) (nanBlock satv flushv : Bool) : Soundings :=
  match v with
  | .nan => { k with nan := k.nan + 1 }
  | .inf _ => { k with inf := k.inf + 1 }
  | .fin _ m e =>
    if nanBlock then { k with nan := k.nan + 1 }
    else if m = 0 then { k with zero := k.zero + 1 }
    else
      let l := ilog2 m e
      { k with maxExp := some (match k.maxExp with | none => l | some a => max a l),
               minExp := some (match k.minExp with | none => l | some a => min a l),
               sat := k.sat + b2n satv, flush := k.flush + b2n flushv,
               hist := modNth (histBin base l) (· + 1) k.hist }

/-- Count a row of values bound for a scalar format. -/
def soundScalar (f : Fmt) (base : Int) (vs : List XV) (k : Soundings) : Soundings :=
  vs.foldl (fun k v => soundOne base k v false (satRne f v) (flushRne f v)) k

/-- Count one block of values bound for a block-scaled format, as for RNE (R108): padding holds the positions that are no element. -/
def soundBlock (f : Fmt) (esc : Bool) (base : Int) (vs : List XV) (pad : List Bool) (k : Soundings) : Soundings :=
  let b := encodeBlock f .rne true esc [] vs
  let x : Int := (b.scale : Int) - 127
  let k := { k with escs := k.escs + b.escaped.length }
  ((List.range 32).zip vs).foldl (fun k p =>
    if pad.getD p.1 false then k
    else
      let g := if b.escaped.contains p.1 then Fmt.e4m3 else f
      soundOne base k p.2 (b.scale == 255 && f.narrow) (satRne g (xScale (-x) p.2)) (flushRne g (xScale (-x) p.2))) k

/-- The 64 bytes of a soundings record (R107); the two-byte counts hold at most 65,535. -/
def soundBytes (tile : Nat) (f : Fmt) (promoted : Bool) (base : Int) (k : Soundings) : Bytes :=
  let c (n : Nat) : Bytes := natLe 2 (min 65535 n)
  let ex (e : Option Int) : Bytes := match e with | none => natLe 2 0x8000 | some v => natLe 2 (twos 16 v)
  natLe 4 tile ++ [BitVec.ofNat 8 f.code] ++
  [BitVec.ofNat 8 (b2n promoted + 2 * b2n (k.nan != 0) + 4 * b2n (k.inf != 0))] ++
  ex k.maxExp ++ ex k.minExp ++ c k.zero ++ c k.nan ++ c k.inf ++ c k.sat ++ c k.flush ++ c k.escs ++
  natLe 2 (twos 16 base) ++ (k.hist.map c).flatten ++ c k.conflict ++ c k.a40Flush ++ zeros 4

end Sys2Proof.Machine
end

