-- ==== Sys2Proof/Machine/State.lean ====
section
/-!
DEFINITION. The state of one IZ9 module: every register, memory, queue, counter, mode and pin the manual gives it, as plain data, and the queue of commands that wait. State.reset is the module at power-up (23 R698, 20 R604).
-/
namespace Sys2Proof.Machine

/-- The reasons a step could stop with a fault: none. Every command of the table has an effect that the manual gives, or no effect where its condition does not hold (DESIGN CHOICE, assumption log 4), so no meaning raises a fault. -/
inductive Fault where
  /-- Raised by no meaning: kept so that the type is not empty. Safe: a run never ends in it. -/
  | none
  deriving DecidableEq, Repr

/-- The reasons a command could be refused by the model. -/
inductive Refusal where
  /-- The command has no meaning in this model yet; raised by Dispatch alone. Safe: the run stops. -/
  | notModelled (mnemonic : String)
  deriving DecidableEq, Repr

/-- What kind of message the module has sent (DESIGN CHOICE, assumption log 5): the receiver, the values the calling rule names and the bytes are in OutMsg. -/
inductive OutKind where
  -- to the pilot, the host and the baseboard
  | record | hostWrite | msix | i2c
  -- Darend frames and control blocks
  | frame | command | superframe | ack | hello | hold | laneChange | align | broadcast
  | vote | decision | decisionRequest | decisionAnswer | digestRequest | digestAnswer
  | relay | embRequest | embResponse | embContribution | embContributionAck | embEnd | embStop
  | delta | deltaAck | readingRequest | reading | ferryBlock | ferryFinal
  | chartChunk | chartReq | kxHello | kxCt | sliceConfirm | regRequest | regAnswer | ringSpace
  -- Bluvisen
  | report | bluvisen | entries | alarm | snapshot | heartbeat | discovery | bindOffer | bindRefuse
  -- inside the module and on its pins
  | arborNak | arborAck | creditProbe | creditReport | sparing | halfMuster | arborFlit | readValue | flashWrite | lantern | pin | ptp
  deriving DecidableEq, Repr

/-- A message the module has sent. -/
structure OutMsg where
  kind : OutKind
  dest : Nat
  args : List Nat := []
  data : Bytes := []
  /-- For a frame or control block: the port it left by and its extended sequence number (0 for a control block). -/
  via : Option (Nat × Nat) := none
  deriving DecidableEq, Repr

/-- A frame on its way: its class, its length in units of 64 bytes (R401), its destination, the scope's tag (0 for installation scope), HOPS_LEFT, and its content; seq is the extended sequence number it was first sent with (R400, R405). -/
structure SentFrame where
  seq : Nat := 0
  cls : Nat
  units : Nat
  dest : Nat
  scope : Nat
  hops : Nat := 0
  /-- EPOCH of the table set that routes it, 0 for the one in effect (R482). -/
  gen : Nat := 0
  /-- The port whose credits wait until a forwarded frame goes on (16 R486). -/
  back : Option Nat := none
  msg : OutMsg
  deriving DecidableEq, Repr

/-! ### Commands, streams and records (03) -/

/-- The header of a command packet (R47). -/
structure Header where
  length : Nat
  version : Nat
  flags : Nat
  opcode : Nat
  destFid : Nat
  sliceTag : Nat
  stream : Nat
  ring : Nat
  timeoutMs : Nat
  counter : Nat
  startBeat : Nat
  waitFence : Nat
  signalFence : Nat
  waitValue : Nat
  signalValue : Nat
  deriving DecidableEq, Repr

/-- A completion record before it is placed in a ring (R70): PHASE, RING slot and TIME are filled in when it is written; key is the stream's command key, empty for an untagged record. -/
structure Rec where
  status : Nat
  detailStatus : Nat := 0
  opcode : Nat
  sliceTag : Nat
  stream : Nat
  ring : Nat
  cls : Nat := 0
  tainted : Bool := false
  control : Bool := false
  tagged : Bool := true
  cursorUnit : Nat := 0
  detail : Nat := 0
  counter : Nat
  cursor : Nat := 0
  detail2 : Nat := 0
  key : Bytes := []
  deriving DecidableEq, Repr

/-- Where a work command stands between acceptance and retirement (R56, R57). -/
inductive CmdPhase where
  | queued   -- accepted, not started
  | running  -- started, work not ended
  | ended    -- work ended, not retired
  deriving DecidableEq, Repr

/-- A stop asked of a command: the outcome it completes with at its next cursor unit boundary (R63, R65, R68). -/
structure Stop where
  status : Nat
  detail : Nat
  detail2 : Nat
  deriving DecidableEq, Repr

/-- An accepted work command that has not retired. -/
structure Cmd where
  /-- The queue it stands in: its stream, or 256 for the key counter's commands (18 R547). -/
  q : Nat
  hdr : Header
  pkt : Bytes
  key : Bytes
  phase : CmdPhase := .queued
  /-- Whether it has issued all of its engine work (R56). -/
  issued : Bool := false
  /-- Its timeout and wait limit, taken from the stream at acceptance (R55, R60, R68). -/
  timeoutMs : Nat
  waitMs : Nat
  /-- Order of acceptance over all streams of the module (R128, R178). -/
  order : Nat
  /-- The beat it was accepted in (R589). -/
  acceptBeat : Nat
  startedNs : Nat := 0
  /-- The beat to which a dog watch moved its start (R34). -/
  heldBeat : Option Nat := none
  /-- When its wait on a fence began to count (R60). -/
  waitNs : Option Nat := none
  cursor : Nat := 0
  status : Nat := 0
  detail : Nat := 0
  detail2 : Nat := 0
  stop : Option Stop := none
  /-- The control counter of an ABORT that came too late (R65). -/
  late : Option Nat := none
  /-- EPOCH of the table set in effect when it started (16 R482). -/
  gen : Nat := 0
  tainted : Bool := false
  /-- Set while a tainted command waits to run again (R276). -/
  rerun : Bool := false
  /-- The first draw of its window (R247). -/
  window : Nat := 0
  /-- Blocks whose first-touch check has run for this command (R266). -/
  touched : List Nat := []
  /-- Records to write directly after its own: none for a duplicate of it, a record for a duplicate of an ABORT that ended it (R52). -/
  after : List (Option Rec) := []
  deriving DecidableEq, Repr

/-- The states of a stream (R42). -/
inductive StreamState where
  | closed | opened | halted | clearing
  deriving DecidableEq, Repr

/-- A kept entry: one of the 64 most recently accepted commands of a counter (R51). -/
structure Kept where
  counter : Nat
  tag : Bytes
  record : Option Rec
  deriving DecidableEq, Repr

/-- A CLEAR_STREAM not yet completed (R64): the last work counter accepted before it, its own record. -/
structure Clearing where
  upTo : Nat
  record : Rec
  /-- Duplicates of it to answer once it has completed (R52). -/
  dups : Nat := 0
  deriving DecidableEq, Repr

/-- One stream (R41, R42). -/
structure Stream where
  state : StreamState := .closed
  key : Bytes := []
  lastWork : Nat := 0
  lastCtl : Nat := 0
  timeoutMs : Nat := 1000
  waitMs : Nat := 10000
  /-- Counters of the commands that failed in their own right and still halt later ones (R62). -/
  failed : List Nat := []
  /-- CLEAR_STREAMs in progress, oldest first. -/
  clears : List Clearing := []
  /-- The compute die that owned it and is fenced (13 R383). -/
  fenced : Option Nat := none
  keptWork : List Kept := []
  keptCtl : List Kept := []
  deriving DecidableEq, Repr

/-- One slot of the command aperture (R43 to R45): the bytes arrived, by offset. -/
structure Slot where
  data : List Host.Cell := []
  firstNs : Nat := 0
  lastNs : Nat := 0
  /-- Its content was discarded for its LENGTH; it stays busy until 100 µs pass without a write. -/
  quiet : Bool := false
  deriving DecidableEq, Repr

/-! ### Meridian time (02) -/

/-- What the last marker of a port said (R24, R25). -/
structure Marker where
  rank : Nat
  sourceFid : Nat
  hops : Nat
  peerFid : Nat
  /-- Link delay and own offset, in ps. -/
  delayPs : Nat
  offsetPs : Int
  beat : Nat
  deriving DecidableEq, Repr

/-- The time base (R19 to R27). The registers MER_STATUS, MER_OFFSET and MER_DOGWATCH are in State.regs. -/
structure Meridian where
  count : Word := 0
  /-- Nanoseconds the count is still held (R27). -/
  hold : Nat := 0
  /-- LOCKED has been reached since the last cold start (R20). -/
  firstLock : Bool := false
  /-- Latched upper halves (R21). -/
  latch : List (Requester × BitVec 32) := []
  /-- The last beat whose start has been run (R30, R404). -/
  beatSeen : Nat := 0
  markers : SMap Marker := []
  /-- Consecutive beats: offset within ±2 ns, offset beyond ±20 ns, without an upstream marker, in HOLDOVER, without a marker of higher rank. -/
  inBand : Nat := 0
  outBand : Nat := 0
  missed : Nat := 0
  holdover : Nat := 0
  rankMissed : Nat := 0
  /-- The beat of the dog watch now open, and its end (R32). -/
  dogEnd : Option Nat := none
  /-- Own offset last measured, in ps: from upstream, or from the reference while sourcing; and the part of a nanosecond slewed so far (R25, R27). -/
  offset : Option Int := none
  slewPs : Int := 0
  deriving DecidableEq, Repr

/-! ### Arrays, tiles and the Vernier (05, 06, 10) -/

/-- Work dealt to one unit and not finished: items next, next + stride, … below stop, and items dealt to it again from fenced units, in ascending order (R126, R178, R197, R217, R240). -/
structure Deal where
  unit : Nat
  next : Nat
  stride : Nat
  stop : Nat
  extra : List Nat := []
  deriving DecidableEq, Repr

/-- A stationary chunk in a weight set (R117): the tile (third for a third reading) and step it belongs to, its elements column by column in the compute format, and the Vernier's c_k and a_k as FP64 codes (R273). -/
structure Chunk where
  stream : Nat
  counter : Nat
  tile : Nat
  third : Bool
  step : Nat
  cols : List (List XV)
  sums : List (Nat × Nat)
  deriving DecidableEq, Repr

/-- One matrix array (R111, R117, R141): its two weight sets and the slot its next tile takes (R146). -/
structure ArrayState where
  front : Option Chunk := none
  back : Option Chunk := none
  nextSlot : Nat := 0
  deriving DecidableEq, Repr

/-- One member's share of a tile (R142, R152): accumulators as codes (A40, or FP64) by row × 128 + column, zero where unlisted, beside the Vernier's own (R272, R273). -/
structure Member where
  array : Nat
  slot : Nat
  /-- Chunk steps loaded and passes issued so far. -/
  loads : Nat := 0
  passes : Nat := 0
  acc : SMap Nat := []
  dup : SMap Nat := []
  /-- The banded checksums V_i and Q_i as FP64 codes by row. -/
  bandV : SMap Nat := []
  bandQ : SMap Nat := []
  /-- The exact checksum of R272 failed. -/
  bad : Bool := false
  /-- The running sum of the member before has been added (R153). -/
  joined : Bool := false
  /-- The shadow set has taken the tile (R148). -/
  shadow : Bool := false
  flushes : Nat := 0
  conflicts : Nat := 0
  deriving DecidableEq, Repr

/-- Where a tile stands after its hand-off (R148, R274, R280). -/
inductive TileStage where
  | computing
  | handed     -- the last member's shadow set holds the finished sums
  | drained    -- written to its place; its verdict is still out, or clean
  | held       -- disagreement: a third reading is due
  | released
  deriving DecidableEq, Repr

/-- One output tile of a MATMUL in work (R126); third marks a third reading of the tile (R279). -/
structure Tile where
  stream : Nat
  counter : Nat
  index : Nat
  die : Nat
  third : Bool
  /-- Promoted regions of X in its row of regions (R124). -/
  promo : List Nat := []
  members : List Member
  stage : TileStage := .computing
  clean : Option Bool := none
  drained : Bool := false
  deriving DecidableEq, Repr

/-- A MATMUL in work: the arrays its tiles are dealt to, and what has been released. -/
structure MatWork where
  stream : Nat
  counter : Nat
  /-- Groups of S arrays (die, logical arrays), in order (R126, R151). -/
  groups : List (Nat × List Nat)
  deal : List Deal
  done : List Nat := []
  deriving DecidableEq, Repr

/-- The two most recent strikes of a unit, by its source number (R281, R567). -/
structure Strikes where
  beats : List Nat
  deriving DecidableEq, Repr

/-! ### Vector engines (07) -/

/-- Which part of a row an engine runs (R182). -/
inductive VecPart where
  | reduce | prologue | apply
  deriving DecidableEq, Repr

/-- One vector engine (R176, R182): the row it runs, and its lanes' registers by lane × 32 + register, zero where unlisted. -/
structure VecEngine where
  stream : Nat := 0
  counter : Nat := 0
  /-- The row in work, none when idle. -/
  row : Option Nat := none
  part : VecPart := .reduce
  wave : Nat := 0
  pc : Nat := 0
  lanes : SMap Lane := []
  /-- The registers at the end of the prologue (R183). -/
  kept : SMap Lane := []
  /-- Lane accumulators of the four channels as A40 codes, by channel × 1,024 + lane, the channel's identity where unlisted (R188). -/
  red : SMap Nat := []
  /-- Row results as A40 codes (R189). -/
  result : SMap Nat := []
  /-- Soundings of the segment in work, per output (R180). -/
  sound0 : Soundings := {}
  sound1 : Soundings := {}
  /-- Operand blocks read with conflicting entries, by segment of the row (04 R107). -/
  conflicts : SMap Nat := []
  deriving DecidableEq, Repr

/-- A LANE_PROGRAM or UPDATE in work: the deal of rows or blocks; every item below low is finished, and those of done above it; of an UPDATE the soundings of tiles not yet written. -/
structure DealWork where
  stream : Nat
  counter : Nat
  deal : List Deal
  total : Nat
  low : Nat := 0
  done : List Nat := []
  sounds : SMap Soundings := []
  deriving DecidableEq, Repr
/-! ### Embedding exchanges (08) -/

/-- A bag in work on an embedding engine (R215, R217): the next lookup to issue, the rows that wait for their turn, the next lookup to combine, and the running values as codes (A40 for SUM and MEAN, FP64-free exact codes otherwise). -/
structure BagWork where
  engine : Nat
  bag : Nat
  issue : Nat
  /-- The lookup after its last. -/
  stop : Nat
  combine : Nat
  count : Nat := 0
  rows : List RowData := []
  sums : List Nat := []
  deriving DecidableEq, Repr

/-- One embedding command of an exchange (R209 to R212, R220 to R222). -/
structure Exchange where
  stream : Nat
  counter : Nat
  scatter : Bool
  xid : Nat
  digest : Nat
  pos : Nat
  members : List Nat
  /-- The table descriptor as read at the start (R205). -/
  table : Bytes
  hopUs : Nat
  deal : List Deal
  bags : List BagWork := []
  done : List Nat := []
  /-- Lookups whose contribution an owner has acknowledged (R222). -/
  acked : List Nat := []
  /-- Contributions sent to each position, and lookups sent. -/
  sent : SMap Nat := []
  endSent : Bool := false
  /-- END markers received: position and the number of contributions it sent here (R211). -/
  ends : SMap Nat := []
  /-- Contributions applied or discarded, by source position. -/
  taken : SMap Nat := []
  held : List Contribution := []
  waitNs : Nat := 0
  deriving DecidableEq, Repr

/-- One applied count (R221). -/
structure AppliedCount where
  table : Nat
  batch : Nat
  source : Nat
  count : Nat
  deriving DecidableEq, Repr

/-! ### Relay (06) -/

/-- An incoming hop, gathered by element offset (R163). -/
structure HopIn where
  seg : Nat
  copy : Bool
  pieces : SMap Bytes
  deriving DecidableEq, Repr

/-- One running RELAY (R159 to R166). -/
structure RelayWork where
  stream : Nat
  counter : Nat
  relayId : Nat
  digest : Nat
  pos : Nat
  /-- The chain's members in position order. -/
  members : List Nat
  hops : List HopIn := []
  /-- Hops finished, numbered H × k + phase (R166). -/
  done : List Nat := []
  waitNs : Nat := 0
  deriving DecidableEq, Repr

/-- A frame of the fabric held until its command starts (R164, R210). -/
inductive HeldBody where
  | relay (f : RelayFrame)
  | embRequest (xid source digest lookup row : Nat)
  | embContribution (xid digest : Nat) (c : Contribution)
  | embEnd (xid source digest count : Nat)
  | embStop (xid source digest : Nat)
  deriving DecidableEq, Repr

/-- A held frame with its arrival time and its size in bytes. -/
structure HeldFrame where
  body : HeldBody
  atNs : Nat
  bytes : Nat
  port : Nat
  deriving DecidableEq, Repr

/-! ### Training state and ferrying (09) -/

/-- A FERRY_OUT, DATA_IN, DATA_OUT or SNAPSHOT_OUT in work (R254, 18 R551, 17 R519): bytes sent so far, and the data key it started with. -/
structure FerryOut where
  stream : Nat
  counter : Nat
  sent : Nat := 0
  key : Bytes := []
  deriving DecidableEq, Repr

/-- A delivery being received (R255). -/
structure FerryIn where
  ferryId : Nat
  route : Nat
  sourceFid : Nat
  step : Nat
  blocks : List Nat := []
  /-- BYTES of the final frame, once it has come. -/
  final : Option Nat := none
  lastNs : Nat := 0
  complete : Bool := false
  deriving DecidableEq, Repr

/-! ### The Escapement (10) -/

/-- One entry of the release list: a staged plane and its committed place (R283). -/
structure StageEntry where
  dst : Nat
  src : Nat
  bytes : Nat
  deriving DecidableEq, Repr

/-- A staged row of a STATE table (R283). -/
structure StageRow where
  tableAddr : Nat
  localRow : Nat
  shard : Nat
  elemAddr : Nat
  elems : Bytes
  scaleAddr : Nat
  scales : Bytes
  /-- Space it takes in the stage row store. -/
  bytes : Nat
  deriving DecidableEq, Repr

/-- The COMMIT in work (R285, R287). -/
structure CommitWork where
  stream : Nat
  counter : Nat
  step : Nat
  action : Nat
  beat : Nat
  chain : Nat
  pos : Nat
  members : List Nat
  /-- Position in the Escapement's state before it started, for a stop (R67). -/
  before : Nat
  /-- Bands checked, rows folded and STALE units told (R287 steps 2 and 3): whether a band was crossed, and the loss bits. -/
  folding : Bool := false
  crossed : Bool := false
  loss : Nat := 0
  sealed : Bool := false
  verdict : Verdict := .clean
  voted : Bool := false
  /-- The record ESC_IN_DOUBT has been given (R292). -/
  doubtDone : Bool := false
  /-- Under CONFIRM on a module that voted SUSPECT: whether the digest fetched equals its own; none before it has come (R287). -/
  confirm : Option Bool := none
  /-- The decision to commit has been acted on; the release is running or due. -/
  acted : Bool := false
  /-- Entries of the release list at the decision: those behind them belong to the next step (R283). -/
  entries : Nat := 0
  /-- EPOCH of the table set it started under (16 R482). -/
  gen : Nat := 0
  deriving DecidableEq, Repr

/-- The requests of a module without a decision (R292): the step, its chain, its position, the beat it entered IN_DOUBT, how many requests it has sent, the beat of the last one, and whether it asks once per watch. -/
structure AskWork where
  step : Nat
  members : List Nat
  pos : Nat
  since : Nat
  sent : Nat := 0
  last : Option Nat := none
  slow : Bool := false
  deriving DecidableEq, Repr

/-- A digest kept for a CONFIRM to fetch (R287). -/
structure KeptDigest where
  step : Nat
  digest : Bytes
  untilNs : Nat
  deriving DecidableEq, Repr

/-- The Escapement beside its registers (R283 to R293). -/
structure Escapement where
  list : List StageEntry := []
  /-- Entries reserved by running UPDATEs: stream, counter, count (R283). -/
  reserved : List (Nat × Nat × Nat) := []
  rows : List StageRow := []
  applied : List AppliedCount := []
  /-- What the soundings records written by commands of the step say (R287): NAN_SEEN or INF_SEEN set in any, the largest MAX_EXP, the largest SAT_COUNT + FLUSH_COUNT. -/
  soundNan : Bool := false
  soundExp : Option Int := none
  soundClip : Nat := 0
  /-- The step has a hallmark failure (R270). -/
  notClean : Bool := false
  /-- A third reading of the step found all three differ (R280). -/
  suspect : Bool := false
  work : Option CommitWork := none
  /-- The vote received from the position before, also while no COMMIT runs (R289). -/
  vote : Option Vote := none
  /-- A decision to commit has been acted on and its release has not begun: the step number has yet to rise (R290). -/
  risen : Bool := true
  /-- The decision received and not yet acted on. -/
  pending : Option Decision := none
  /-- Decisions of the last four steps, newest first (R289). -/
  decisions : List Decision := []
  /-- A decision received for a STEP before this module's own COMMIT of it has sent a vote (R289). -/
  early : Option Decision := none
  digest : Bytes := []
  keptDigests : List KeptDigest := []
  /-- What an IN_DOUBT module asks (R292). -/
  ask : Option AskWork := none
  /-- The position was marked not intact by an ABANDON in IN_DOUBT (R292). -/
  doubtAbandon : Bool := false
  /-- Blocks lost in the running release (R290). -/
  lost : Nat := 0
  deriving DecidableEq, Repr
/-! ### HBM (12) -/

/-- HBM beside its registers and contents (R334, R343 to R347). -/
structure Hbm where
  /-- The page maps: frame of a page or none, by stack × 2^15 + page; a page not listed is backed by its own frame number (R336 with no retired frame). -/
  pages : SMap (Option Nat) := []
  /-- The retirement record: stack and frame (R347). -/
  retired : List (Nat × Nat) := []
  /-- Corrected errors of a frame in the current watch, by stack × 2^15 + frame (R343). -/
  ceWatch : SMap Nat := []
  ceWatchNo : Nat := 0
  /-- A retirement whose flash write runs (R344). -/
  flashWrite : Option (Nat × Nat) := none
  /-- A retirement or donation that waits for the end of a release (R344, R346). -/
  retireWait : Bool := false
  donateWait : Bool := false
  /-- Governor settings that take effect at the next beat (R350). -/
  govNext : SMap Word := []
  /-- Traffic class of the accesses the command in hand makes (R348; the model's own, 0 between commands). -/
  cls : Nat := 0
  deriving DecidableEq, Repr

/-! ### Arbor links (13) -/

/-- A lane switch agreed or asked for (R378, R380): half-muster or the lane spared, and the switch SEQ. -/
structure LaneSwitch where
  half : Bool
  lane : Nat
  seq : Nat
  deriving DecidableEq, Repr

/-- One group of one direction of an Arbor link (R371, R373, R377). -/
structure LaneGroup where
  failed : List Nat := []
  /-- SEQ the receiver expects, SEQ the sender gives next, last SEQ acknowledged. -/
  expect : Nat := 0
  sendSeq : Nat := 0
  acked : Nat := 4095
  /-- The first discarded flit's copy, while the receiver waits for it (R373). -/
  firstBad : Option Bytes := none
  replay : List (Nat × Bytes) := []
  /-- Attributed retries by lane in the window, flits of the window, and runs of consecutive flits (R377). -/
  counts : SMap Nat := []
  flits : Nat := 0
  runs : SMap Nat := []
  switch : Option LaneSwitch := none
  /-- Flits received in order that wait for their turn among the groups (R372). -/
  ready : List (Nat × Bytes) := []
  deriving DecidableEq, Repr

/-- One direction of an Arbor link (R369, R374 to R376): its groups, the sender's credits and the receiver's free entries of the five pools, and the probe in flight. -/
structure LinkDir where
  groups : SMap LaneGroup := []
  credits : List Nat := [1024, 1024, 64, 64, 16]
  free : List Nat := [1024, 1024, 64, 64, 16]
  probeNs : Option Nat := none
  /-- Flits dealt by the sender, and taken back by the receiver (R372). -/
  dealt : Nat := 0
  taken : Nat := 0
  deriving DecidableEq, Repr

/-! ### Darend ports (14) -/

/-- The keys of one rotation on a port: the phase bit that names them, the secret and the 72 bytes of R543 (key from the lower end, key from the higher end, two salts), the slice's and the ferry tag's 72 bytes where they are derived, and the ferry key (R418, R543 to R546). -/
structure KeyGen where
  phase : Nat
  rot : Nat
  lower : Bool
  secret : Bytes
  inst : Bytes
  slice : Bytes := []
  ferry : Bytes := []
  ferryKey : Bytes := []
  deriving DecidableEq, Repr

/-- A lane change under way (R410): tx for the lanes this end sends. -/
structure LaneChange where
  tx : Bool
  takeOut : Bool
  logical : Nat
  wavelength : Nat
  atMarker : Nat
  echoed : Bool
  deriving DecidableEq, Repr

/-- A hold announced on a port (R409): start and end, and the REASON code. -/
structure PortHold where
  startNs : Nat
  endNs : Nat
  reason : Nat
  deriving DecidableEq, Repr

/-- Stored link state of a peer (15 R436). -/
structure TrainingState where
  peerDigest : Bytes
  peerPort : Nat
  /-- Equaliser settings: a value the manual does not fix. -/
  equaliser : Nat
  keys : List KeyGen
  txNext : Nat
  rxNext : Nat
  deriving DecidableEq, Repr

/-- One Darend port beside its registers (R400 to R419). -/
structure Port where
  rxNext : Nat := 0
  txNext : Nat := 0
  store : List SentFrame := []
  /-- Frames accepted for sending that wait for credit, a key or a hold. -/
  queue : List SentFrame := []
  /-- Classes of the last 63 frames sent (R401). -/
  window : List Nat := []
  /-- Keys held, newest rotation first, and the watch in which the first frame under the newest arrived (R418). -/
  keys : List KeyGen := []
  newSeen : Option Nat := none
  /-- Replays of the oldest frame in a row, and when ACK last advanced (R407). -/
  replays : Nat := 0
  ackNs : Nat := 0
  /-- Cumulative units: freed by the peer as last told, sent by this end, and freed by this end (R401), by class. -/
  peerFreed : List Nat := [0, 0, 0]
  sentUnits : List Nat := [0, 0, 0]
  freed : List Nat := [0, 0, 0]
  /-- Extension of the replay store in KiB (R406). -/
  extension : Nat := 0
  hold : Option PortHold := none
  /-- When the port left UP or DEGRADED (R408), and the beat of it. -/
  leftNs : Option Nat := none
  /-- Training phase and its start (R413); tries of phase 4 in this training, starts from DARK in this watch. -/
  phase : Nat := 0
  phaseNs : Nat := 0
  trainNs : Nat := 0
  tries : Nat := 0
  helloNs : Nat := 0
  darkTries : Nat := 0
  /-- Light seen with rings locked, by wavelength (R413). -/
  lit : List Nat := []
  /-- Consecutive valid ALIGN blocks in training, and missing ones in service, by wavelength (R410, R413). -/
  aligns : SMap Nat := []
  missing : SMap Nat := []
  changes : List LaneChange := []
  /-- The peer's identity block: HELLO0 awaiting HELLO1, the block last received, whether it came twice the same. -/
  hello0 : Option Bytes := none
  peer : Option Bytes := none
  peerTwice : Bool := false
  /-- The identity block this end last sent (R412). -/
  ident : Bytes := []
  identNs : Nat := 0
  /-- Tag failures in frames with corrected codewords in this watch (R403). -/
  tagFails : Nat := 0
  stored : List TrainingState := []
  /-- It trains quickly from a stored state (15 R436). -/
  quick : Bool := false
  /-- Marker timestamps (R404): send and arrival times of the last markers. -/
  lastTx : Nat := 0
  lastRx : Nat := 0
  markerCount : Nat := 0
  deriving DecidableEq, Repr

/-- A frame delivered to this module (R403), for the row that consumes it. -/
structure Delivered where
  port : Nat
  src : Nat
  tag : Nat
  cls : Nat
  body : Bytes
  deriving DecidableEq, Repr
/-! ### Rose dies and Lantern (15) -/

/-- One ring (R440 to R446, R461): STATE as R461 codes it; fails counts relock sweeps failed in a row, due marks it for a sweep in the next dog watch, verify that its lane is out for the rotation of R445. -/
structure Ring where
  state : Nat := 0
  heater : Nat := 0
  order : Nat := 0
  line : Nat := 15
  clean : Nat := 0
  misbearings : Nat := 0
  fails : Nat := 0
  due : Bool := false
  verify : Bool := false
  deriving DecidableEq, Repr

/-- A spare-in asked for (R452 to R454): at once or in the next dog watch, when the spare began to warm, its beat once it is set, how long after it SWITCH_GO is due once the line is armed, and whether it has been given. -/
structure SpareIn where
  atOnce : Bool
  warmNs : Nat
  beat : Option Nat := none
  goNs : Option Nat := none
  gone : Bool := false
  deriving DecidableEq, Repr

/-- One Lantern line (R451, R452): the last fades, newest last, the sum and count of this watch, the thresholds that have acted and not recovered, the LINE_STATUS last read, and its spare-in. -/
structure LanternLine where
  recent : List Int := []
  sum : Int := 0
  count : Nat := 0
  acted : List Nat := []
  status : Nat := 0
  spare : Option SpareIn := none
  deriving DecidableEq, Repr

/-- The Rose dies and the Lantern beside their registers. Rings are numbered die × 1,024 + kind × 256 + local port × 16 + wavelength. -/
structure Rose where
  rings : SMap Ring := []
  lines : SMap LanternLine := []
  /-- Sums of the feed readings of this watch, by fibre × 9 + line, and their number. -/
  feedSum : List Int := []
  feedCount : Nat := 0
  /-- SERIAL of the Lantern found, and whether its readings wait for a dog watch (R450). -/
  serial : Nat := 0
  rerecord : Bool := false
  /-- Retries of the bus transaction in work, and the watch of the last try while LOST (R449). -/
  busTries : Nat := 0
  lostWatch : Nat := 0
  deriving DecidableEq, Repr

/-! ### Logbook, ladder and tests (19) -/

/-- One logbook entry (R571); CHECK is computed when the entry is read. -/
structure LogEntry where
  time : Nat
  lastTime : Nat
  seq : Nat
  count : Nat := 1
  source : Nat
  code : Nat
  cls : Nat
  opened : Bool := true
  alarmed : Bool := false
  slice : Nat
  a0 : Nat
  a1 : Nat
  a2 : Nat
  deriving DecidableEq, Repr

/-- The log unit and Bluvisen reporting beside their registers (R569 to R579). -/
structure Logbook where
  /-- Entries held, oldest first. -/
  entries : List LogEntry := []
  nextSeq : Nat := 0
  /-- Event and lost counters by source. -/
  events : SMap Nat := []
  lost : SMap Nat := []
  /-- Entries lost since the last OVERRUN entry: first and last beat, number, sources. -/
  lostFirst : Nat := 0
  lostLast : Nat := 0
  lostNow : Nat := 0
  lostSources : List Nat := []
  /-- CORRECTED entries written in this watch: watch, and source × 2^16 + code (R569). -/
  corrWatch : Nat := 0
  corrSeen : List Nat := []
  /-- Send time of the entries sent and not acknowledged, by SEQ (R575). -/
  sent : SMap Nat := []
  /-- Second in which entries, alarms were last sent, and how many (R575, R577). -/
  rateSecond : Nat := 0
  rateCount : Nat := 0
  alarmSecond : Nat := 0
  alarmCount : Nat := 0
  deriving DecidableEq, Repr

/-- A disruptive test or calibration accepted for a dog watch (R589, R590). -/
structure DeferredTest where
  record : Rec
  code : Nat
  target : Nat
  /-- The beat of acceptance. -/
  acceptBeat : Nat
  order : Nat
  /-- Its outcome, once it has run: STATUS, DETAIL, DETAIL2. -/
  outcome : Option (Nat × Nat × Nat) := none
  running : Bool := false
  deriving DecidableEq, Repr

/-- The escalation ladder and the management core beside their registers (R581 to R592). -/
structure Ladder where
  /-- The rung an engine's operation has reached, by source number (R581). -/
  rung : SMap Nat := []
  /-- Beats of die resets by die, uncorrected tile-memory errors in this watch by die. -/
  dieResets : SMap (List Nat) := []
  tileErrors : SMap Nat := []
  errorWatch : Nat := 0
  lastKickNs : Nat := 0
  restartWatch : Nat := 0
  mgmtDownUntil : Option Nat := none
  /-- A second restart of the management core in a watch has called for a module warm restart (R592). -/
  warmDue : Bool := false
  tests : List DeferredTest := []
  testsEnd : Nat := 0
  /-- Enrolments of one second of attestation requests (18 R537). -/
  attSecond : Nat := 0
  attCount : Nat := 0
  deriving DecidableEq, Repr

/-! ### Chart, slices and tables (16) -/

/-- A port record of the chart (R469). -/
structure PortRec where
  peerFid : Nat
  peerPort : Nat
  flags : Nat
  deriving DecidableEq, Repr

/-- A module entry of the chart (R469). -/
structure ModEntry where
  digest : Bytes
  fid : Nat
  hostGroup : Nat
  flags : Nat
  discipline : Nat
  ports : List PortRec
  deriving DecidableEq, Repr

/-- The chart as it stands, its amendments applied (R468). -/
structure Chart where
  epoch : Nat
  installation : Nat
  meridianEpoch : Nat
  period : Nat
  phase : Nat
  offset : Nat
  length : Nat
  deferral : Nat
  modules : List ModEntry
  /-- The document it came in. -/
  raw : Bytes
  deriving DecidableEq, Repr

/-- A slice allocation (R479, 17 R500, 18 R538). -/
structure Alloc where
  epoch : Nat
  tag : Nat
  working : List Nat
  spares : List Nat
  fenceAction : Nat
  k : Nat
  p : Nat
  dataUnits : Nat
  dataExt : List (Nat × Nat)
  parExt : List (Nat × Nat)
  pstage : List (Nat × Nat)
  groups : List (List Nat)
  tenantDigest : Bytes
  tenantId : Nat
  offerWatches : Nat
  raw : Bytes
  deriving DecidableEq, Repr

/-- A route record: up to four alternatives of ports and hops (R484). -/
structure RouteRec where
  dest : Nat
  draw : Nat
  alts : List (Nat × Nat)
  deriving DecidableEq, Repr

/-- A ferry route record (R490). -/
structure FerryRoute where
  route : Nat
  tag : Nat
  role : Nat
  port : Nat
  peerFid : Nat
  base : Nat
  bytes : Nat
  peerSlice : Nat
  deriving DecidableEq, Repr

/-- One draw of one Rose die: sixteen route words (R480). -/
structure DrawMap where
  rose : Nat
  draw : Nat
  words : List Nat
  deriving DecidableEq, Repr

/-- A slice table set for this module (R480). -/
structure TableSet where
  epoch : Nat
  tag : Nat
  target : Nat
  chains : SMap (List Nat)
  draws : List DrawMap
  drawCount : Nat
  initialDraw : Nat
  sched : List (Nat × Nat)
  routes : List RouteRec
  ferries : List FerryRoute
  raw : Bytes
  deriving DecidableEq, Repr

/-- An accepted document that waits for its beat. -/
structure Waiting where
  kind : Nat
  epoch : Nat
  beat : Nat
  slice : Nat
  raw : Bytes
  deriving DecidableEq, Repr

/-- A document gathered in chunks from the fabric (R475). -/
structure Gather where
  port : Nat
  kind : Nat
  epoch : Nat
  count : Nat
  chunks : SMap Bytes
  deriving DecidableEq, Repr

/-- Documents and what they set (R466 to R490). -/
structure Fabric where
  chart : Option Chart := none
  alloc : Option Alloc := none
  tables : Option TableSet := none
  /-- Table sets replaced while commands that started under them run (R482). -/
  oldTables : List TableSet := []
  waiting : List Waiting := []
  /-- The amendments last accepted, up to 64, oldest first (R476). -/
  recent : List Bytes := []
  gathers : List Gather := []
  /-- Last accepted generation of allocations and of table sets, by slice tag. -/
  lastAlloc : SMap Nat := []
  lastTable : SMap Nat := []
  /-- The measurement M_CHART (18 R536). -/
  mChart : Bytes := []
  /-- Redraw origin (R488) and the number of schedule entries acted on since. -/
  origin : Nat := 0
  schedDone : Nat := 0
  /-- A scheduled redraw due: beat and draw. -/
  redraw : Option (Nat × Nat) := none
  /-- When the last redraw began, until it has settled, and the ports whose local wavelengths it changed (15 R435, R436). -/
  settling : Option (Nat × List Nat) := none
  /-- A late document of R474 makes the current step NOT_CLEAN. -/
  lateHere : Bool := false
  /-- Frames that wait for a route (R486). -/
  noRoute : List SentFrame := []
  /-- The alternative last chosen, by destination (R498). -/
  chosen : SMap Nat := []
  deriving DecidableEq, Repr

/-! ### Reckoning (17) -/

/-- Why a reading is asked for (R506, R508, R509, R514, R516). -/
inductive ReadingFor where
  | repair | rebuild | fold | audit | standIn
  deriving DecidableEq, Repr

/-- A stripe's block under reconstruction: the readings that have come, by position (R508). -/
structure ReadWork where
  purpose : ReadingFor
  /-- Group, and the position whose unit is wanted. -/
  group : Nat
  pos : Nat
  stripe : Nat
  /-- Byte offset of the block in its unit. -/
  offset : Nat
  /-- Positions asked, the blocks that came, positions to ask again after a decision, and those asked once more for a failure in transit (R269, R507). -/
  asked : List Nat
  got : SMap Bytes
  again : List Nat := []
  retried : List Nat := []
  /-- Positions whose copy is lost. -/
  lost : List Nat
  deriving DecidableEq, Repr

/-- A request for a reading that this member holds (R507). -/
structure HeldReading where
  fid : Nat
  stripe : Nat
  offset : Nat
  step : Nat
  fold : Bool
  deriving DecidableEq, Repr

/-- A stripe whose parity this holder computes anew at the seal (R506): the offset in work, and the members and units that wait for it. -/
structure FoldWork where
  stripe : Nat
  offset : Nat
  waits : List (Nat × Nat)
  deriving DecidableEq, Repr

/-- A stand-in of a held step (R513, R514). -/
structure StandIn where
  suspect : Nat
  spare : Nat
  chain : Nat
  stream : Nat
  counter : Nat
  step : Nat
  done : Bool
  deriving DecidableEq, Repr

/-- The reckoning group beside its registers (R499 to R517). -/
structure Reckoning where
  /-- Data units that are kept; every other unit is STALE (R504). -/
  kept : List Nat := []
  /-- Parity units touched in this step (R506). -/
  touched : List Nat := []
  /-- Deltas sent and not acknowledged: block address, or unit address + 1 for a unit said to be STALE, and the holder's position (R505, R506). -/
  deltas : List (Nat × Nat) := []
  /-- STALE units of this module told to their holders at this seal and not written since (R504, R506). -/
  sealStale : List Nat := []
  /-- Staged rows already folded, where a seal has been stopped and runs again (R67). -/
  foldedRows : List StageRow := []
  /-- The fold failed on a block (R287). -/
  foldFailed : Bool := false
  /-- Stripes whose parity is computed anew (R506). -/
  folds : List FoldWork := []
  reads : List ReadWork := []
  heldReads : List HeldReading := []
  /-- Blocks this module has lost, stripes lost and divergent (R509, R511, R517). -/
  lostBlocks : List Nat := []
  lostStripes : List Nat := []
  divergent : List Nat := []
  /-- Units still to rebuild, in stripe order: 2 × unit for data, 2 × unit + 1 for parity; the offset reached in the first (R510, R514). -/
  rebuildList : List Nat := []
  rebuildOff : Nat := 0
  /-- Stripes left in the audit of this dog watch, the next stripe, and whether the one in work has been clean so far (R516). -/
  auditLeft : Nat := 0
  auditNext : Nat := 0
  auditOff : Nat := 0
  auditClean : Bool := true
  lastAudit : SMap Nat := []
  standIns : List StandIn := []
  /-- The recovery replay differed (R512): its STEP. -/
  replayBad : Option Nat := none
  /-- Last SNAP_ID used under the snapshot key (R518). -/
  lastSnap : Nat := 0
  deriving DecidableEq, Repr

/-! ### Security island (18) -/

/-- A data key slot (R549). -/
structure DataSlot where
  key : Bytes
  allowIn : Bool
  allowOut : Bool
  lastId : Nat
  deriving DecidableEq, Repr

/-- A bind offer outstanding (R540): the draw of its key, the offer's digest, its last beat. -/
structure Offer where
  draw : Nat
  digest : Bytes
  untilBeat : Nat
  deriving DecidableEq, Repr

/-- The keys of a bundle (R541). -/
structure Bundle where
  kCtl : Bytes := []
  kFab : Bytes := []
  seed : Bytes := []
  kSnap : Bytes := []
  epoch : Nat := 0
  bindId : Nat := 0
  offerDigest : Bytes := []
  deriving DecidableEq, Repr

/-- A release in progress (R553): REASON, tag, binding, start, and the SLICE_RELEASE that asked for it. -/
structure Releasing where
  reason : Nat
  tag : Nat
  bindId : Nat
  start : Nat
  attempt : Nat := 1
  cmd : Option (Nat × Nat) := none
  /-- It waits for the end of an Escapement release (step 2). -/
  waits : Bool := false
  deriving DecidableEq, Repr

/-- One key exchange on a port (R543): the draw of its own key, nonce, what was sent and received. -/
structure KeyExchange where
  draw : Nat
  nonce : Bytes
  hello : Bytes
  peerHello : Option Bytes := none
  /-- The peer's certificate chain. -/
  peerChain : Bytes := []
  ferry : Bool := false
  rotation : Bool := false
  startNs : Nat
  deriving DecidableEq, Repr

/-- The security island (R527 to R555). -/
structure Security where
  /-- Identity seed and public key, derived at power-up (R532). -/
  seed : Bytes := []
  pub : Bytes := []
  bound : Bundle := {}
  /-- TENSOR_EPOCH of the previous binding (R542). -/
  lastEpoch : Nat := 0
  /-- An accepted bundle that takes effect at the next beat (R542): the beat, the bundle, the report's nonce. -/
  pendingBind : Option (Nat × Bundle × Bytes) := none
  offer : Option Offer := none
  slots : SMap DataSlot := []
  /-- Authorised recipients by route (R549). -/
  ferryAuth : SMap Bytes := []
  releasing : Option Releasing := none
  exchanges : SMap KeyExchange := []
  /-- An allocation that waits for the end of a scrub (R539). -/
  allocAfterScrub : Bool := false
  deriving DecidableEq, Repr

/-! ### Module flash, boot and firmware (20) -/

/-- A flash record as two copies, each with its generation; a copy that fails its check value is none (R615). -/
structure FlashRec (α : Type) where
  a : Option (Nat × α)
  b : Option (Nat × α)
  deriving DecidableEq, Repr

/-- The authority record: key, installation, collector address; an empty key is an empty record (R615). -/
structure Authority where
  key : Bytes := []
  installation : Nat := 0
  collector : Bytes := []
  deriving DecidableEq, Repr

/-- The link repair record (13 R379): failed lanes as (link, direction, group, lane), and fenced dies. -/
structure LinkRepair where
  lanes : List (Nat × Nat × Nat × Nat) := []
  dies : List Nat := []
  deriving DecidableEq, Repr

/-- The unit fence record (05 R132, 10 R281): array map words by die × 24 + array, spare slots fenced, Vernier fences and engine fences by source number. -/
structure UnitFences where
  maps : SMap Nat := []
  units : List Nat := []
  deriving DecidableEq, Repr

/-- The feed record (15 R450): Lantern SERIAL and 72 readings. -/
structure FeedRecord where
  serial : Nat := 0
  readings : List Nat := []
  deriving DecidableEq, Repr

/-- The bind and scrub records (R615): BIND_ID and tag of a bind with no release after it, and the last scrub record. -/
structure BindScrub where
  bind : Option (Nat × Nat) := none
  scrub : Bytes := []
  deriving DecidableEq, Repr

/-- Module flash (R607, R608, R615) and what is saved there from manufacture. -/
structure Flash where
  image : Option Bytes := some Config.factoryImage
  /-- Fuses blown (R608). -/
  floor : Nat := Config.factoryFloor
  chain : FlashRec Bytes := ⟨some (0, Config.factoryChain), none⟩
  authority : FlashRec Authority := ⟨some (0, {}), none⟩
  charts : FlashRec (Bytes × List Bytes) := ⟨some (0, ([], [])), none⟩
  links : FlashRec LinkRepair := ⟨some (0, {}), none⟩
  fences : FlashRec UnitFences := ⟨some (0, {}), none⟩
  retired : FlashRec (List (Nat × Nat)) := ⟨some (0, []), none⟩
  feed : FlashRec FeedRecord := ⟨some (0, {}), none⟩
  bind : FlashRec BindScrub := ⟨some (0, {}), none⟩
  boots : FlashRec Nat := ⟨some (0, 0), none⟩
  /-- PWR_RATED_TIME and the count of thermal trips as last saved (22 R681, R683). -/
  counted : Nat := 0
  excluded : Nat := 0
  trips : Nat := 0
  deriving DecidableEq, Repr

/-- Bring-up, firmware and recovery (R604 to R621). -/
structure Boot where
  /-- Stage of R605 reached; 0 before power-up, 9 READY. -/
  stage : Nat := 0
  /-- The running image's digest, M_FIRMWARE and flags (R607). -/
  mFirmware : Bytes := []
  codeDigest : Bytes := []
  raiseFloor : Bool := false
  /-- The compatibility table of the running image, by entry (R612). -/
  compat : List Bytes := []
  /-- Measurements of the dies and of what is withheld (R611, R612). -/
  mDies : Bytes := []
  mSubset : Bytes := []
  /-- The image staged by RECOVERY_CHUNK messages, by offset (R609). -/
  mgmtImage : SMap Byte := []
  /-- An update order's cold start: its deadline (R610). -/
  restartBy : Option Nat := none
  /-- Strap samples (22 R660) and the last discovery report (R619). -/
  strap : Bool := false
  strapSeen : Bool := false
  /-- The host-port function is in D3hot (21 R641). -/
  d3hot : Bool := false
  lastDiscovery : Option Nat := none
  discoveryDue : Bool := false
  deriving DecidableEq, Repr

/-! ### Power, clocks and Anchor (21, 22) -/

/-- Power beside its registers. -/
structure Power where
  /-- A measurement of the fast oscillator runs: its reference (R636). -/
  oscRef : Option Nat := none
  /-- Since when XIN_B has been back within range (R634). -/
  xinBBack : Option Nat := none
  /-- The Anchor order held: ENTER_BEAT, WAKE_BEAT; the last ORDER_ID accepted (R641). -/
  order : Option (Nat × Nat) := none
  lastOrder : Nat := 0
  wakeAsked : Bool := false
  /-- Off since a supply fault (22 R668). -/
  supplyOff : Bool := false
  /-- The cap in force after thermal steps, in W (22 R675). -/
  thermalCap : Nat := 2600
  hotStacks : List Nat := []
  tripped : Bool := false
  coolSince : Option Nat := none
  /-- Input power samples of the last 100 ms, newest first (22 R670). -/
  samples : List Nat := []
  /-- The management port is held down (22 R665). -/
  mgmtDown : Bool := false
  /-- Rated-time accounting (22 R677): the time up to which it runs, what has not yet made a whole unit of PWR_RATED_TIME in counted and excluded time, whether the outage until READY is excluded, and whether the outage began in the dog watch now open. -/
  ratedNs : Nat := 0
  countedNs : Nat := 0
  excludedNs : Nat := 0
  outExcluded : Bool := false
  outDog : Bool := false
  /-- THROTTLED time not yet in THROTTLE_MS, in µs (22 R680). -/
  throttleUs : Nat := 0
  deriving DecidableEq, Repr


/-- Command intake, streams, fences and rings beside their registers (03). -/
structure CmdState where
  slots : SMap Slot := []
  /-- Packets in intake order at this module's Helm cores (R46). -/
  intake : List Bytes := []
  /-- Streams by number; a stream not listed is CLOSED with its reset values. Number 256 holds the key counter and its kept entries (18 R547). -/
  streams : SMap Stream := []
  /-- Accepted, unretired work commands in order of acceptance. -/
  cmds : List Cmd := []
  /-- Fence values by number, zero where unlisted, and the broken fences (R58, R59). -/
  fences : SMap Nat := []
  broken : List Nat := []
  /-- On the pilot: records of no command that wait for space, by ring, in order (R73). -/
  ringWait : List (Nat × Bytes) := []
  nextOrder : Nat := 0
  /-- Last raise of the ring vectors, and whether another is due (22 R664). -/
  msix : SMap (Nat × Bool) := []
  /-- The last beat of a RING_FULL_WAIT entry by ring (R73). -/
  fullBeat : SMap Nat := []
  /-- On the pilot: when the register access in flight was sent, and the module that is to answer (23 R694). -/
  regWait : Option (Nat × Nat) := none
  deriving DecidableEq, Repr

/-- Arrays, Verniers and vector engines (05, 06, 07, 10). -/
structure Compute where
  arrays : SMap ArrayState := []
  mats : List MatWork := []
  tiles : List Tile := []
  strikes : SMap Strikes := []
  engines : SMap VecEngine := []
  lanes : List DealWork := []
  updates : List DealWork := []
  deriving DecidableEq, Repr

/-- The relay engine, embedding engines and ferrying (06, 08, 09). -/
structure Fleet where
  relays : List RelayWork := []
  exchanges : List Exchange := []
  held : List HeldFrame := []
  ferryOut : List FerryOut := []
  ferryIn : List FerryIn := []
  /-- Last FERRY_ID used on a route, and the ferry key it was used under (R252). -/
  ferryIds : SMap (Nat × Bytes) := []
  deriving DecidableEq, Repr

/-- The state of one IZ9 module. -/
structure State where
  /-- Commands that wait, first in first out (the model's own; DESIGN CHOICE, assumption log 3). -/
  pending : List Instr := []
  /-- Upsets the command in hand still has to meet (the model's own; empty between commands; DESIGN CHOICE, assumption log 7). -/
  upsets : List Upset := []
  /-- Nanoseconds since power-up (the model's own; DESIGN CHOICE, assumption log 3). -/
  now : Nat := 0
  /-- Counter behind the free values (the model's own; DESIGN CHOICE, assumption log 6). -/
  free : Nat := 0
  /-- Control registers by address, reset value where unlisted (23 R698). -/
  regs : SMap Word := []
  /-- Memory by physical address: HBM by frame, tile memories, fabric buffer (12 R333, 23 R684). -/
  mem : List Host.Cell := []
  /-- Hallmarks of tile memory and fabric buffer by block address, zero where unlisted (10 R264). -/
  side : SMap Nat := []
  /-- Poisoned blocks by physical address (12 R341). -/
  poison : List Nat := []
  /-- Messages sent (the model's own; DESIGN CHOICE, assumption log 5). -/
  out : List OutMsg := []
  /-- The pilot's host memory, zero where unlisted (the model's own; DESIGN CHOICE, assumption log 5). -/
  hostMem : SMap Byte := []
  mer : Meridian := {}
  cmd : CmdState := {}
  comp : Compute := {}
  fleet : Fleet := {}
  esc : Escapement := {}
  hbm : Hbm := {}
  links : SMap LinkDir := []
  ports : SMap Port := []
  inbox : List Delivered := []
  log : Logbook := {}
  ladder : Ladder := {}
  rose : Rose := {}
  fab : Fabric := {}
  reck : Reckoning := {}
  sec : Security := {}
  flash : Flash := {}
  boot : Boot := {}
  pwr : Power := {}
  deriving DecidableEq, Repr

/-- The module right after reset: every register at the reset value of its field map (23 R698), memory and queues empty (DESIGN CHOICE, assumption log 1, 2, 13). -/
def State.reset : State := {}

end Sys2Proof.Machine
end

