-- ==== Sys2Proof/Machine/Ops.lean ====
section
/-!
DEFINITION. The named operations every unit shares: registers and their fields, the time, messages sent, free values, and the reply of a command.
-/
namespace Sys2Proof.Machine

/-- What a command answers: always a next state (DESIGN CHOICE, assumption log 4). -/
abbrev Reply := Host.Outcome State Fault Refusal

/-- The reply of a command whose effect is f. -/
def done (f : State) : Reply := .next f

/-- The effect of a command whose condition the manual gives: f where the condition holds, nothing where it does not (DESIGN CHOICE, assumption log 4). -/
def onlyIf (c : Bool) (s : State) (f : State → State) : State := if c then f s else s

/-! ### Control registers -/

/-- The value a register holds. -/
def rd (s : State) (a : Nat) : Word := mapGetD (regReset a) s.regs a

/-- A register given a value. -/
def wr (s : State) (a : Nat) (w : Word) : State := { s with regs := mapPutD (regReset a) s.regs a w }

/-- A register returned to its reset value. -/
def resetReg (s : State) (a : Nat) : State := { s with regs := mapDel s.regs a }

/-- A field of a register. -/
def getF (s : State) (a : Nat) (f : RF) : Nat := fld (rd s a) f.hi f.lo

/-- A one-bit field of a register. -/
def flagF (s : State) (a : Nat) (f : RF) : Bool := getF s a f != 0

/-- A field of a register given a value. -/
def setF (s : State) (a : Nat) (f : RF) (v : Nat) : State := wr s a (setFld (rd s a) f.hi f.lo v)

/-- A counting field raised by d; it saturates at its width. -/
def incF (s : State) (a : Nat) (f : RF) (d : Nat) : State := setF s a f (satAdd (f.hi + 1 - f.lo) (getF s a f) d)

/-- Bit n of a bit-vector field. -/
def bitF (s : State) (a : Nat) (f : RF) (n : Nat) : Bool := (getF s a f).testBit n

/-- Bit n of a bit-vector field given a value. -/
def setBitF (s : State) (a : Nat) (f : RF) (n : Nat) (v : Bool) : State :=
  let x := getF s a f
  setF s a f (if v then x ||| 2 ^ n else x - (if x.testBit n then 2 ^ n else 0))

/-! ### Time (02 R19) -/

/-- The beat of a count. -/
def beatOf (count : Nat) : Nat := count / 65536

/-- The watch of a beat. -/
def watchOf (beat : Nat) : Nat := beat / 16384

/-- The Meridian count. -/
def countNow (s : State) : Nat := s.mer.count.toNat

/-- The beat now running. -/
def beatNow (s : State) : Nat := beatOf (countNow s)

/-- The watch now running. -/
def watchNow (s : State) : Nat := watchOf (beatNow s)

/-! ### Free values and messages -/

/-- The next free value, and the state in which it has been taken (DESIGN CHOICE, assumption log 6). -/
def takeFree (s : State) : Nat × State := (Config.freeNat s.free, { s with free := s.free + 1 })

/-- A message sent. -/
def send (s : State) (kind : OutKind) (dest : Nat) (args : List Nat) (data : Bytes := []) : State :=
  { s with out := s.out ++ [{ kind := kind, dest := dest, args := args, data := data }] }

/-- A flash record written: the older copy takes the new value with the next generation (20 R615). -/
def flashPut {α : Type} (r : FlashRec α) (v : α) : FlashRec α :=
  match r.a, r.b with
  | some (g, _), some (h, _) => if g ≤ h then { r with a := some (h + 1, v) } else { r with b := some (g + 1, v) }
  | some (g, _), none => { r with b := some (g + 1, v) }
  | none, some (h, _) => { r with a := some (h + 1, v) }
  | none, none => { a := some (0, v), b := none }

/-- The value of a flash record: its newer copy (20 R615); none where both fail. -/
def flashGet {α : Type} (r : FlashRec α) : Option α :=
  match r.a, r.b with
  | some (g, x), some (h, y) => if g ≤ h then some y else some x
  | some (_, x), none => some x
  | none, some (_, y) => some y
  | none, none => none

/-- Fabric ID of this module under its chart; 0 if none (16 R469, 20 R618). -/
def myFid (s : State) : Nat := getF s R.DRD_CHART_STATUS F.DRD_CHART_STATUS_FID

/-- Whether this module keeps a host-port link as a pilot (20 R616). -/
def isPilot (s : State) : Bool := flagF s R.ARB_BOOT_STATUS F.ARB_BOOT_STATUS_PILOT_LIVE

/-- Whether the module is READY (20 R623: STATE 4). -/
def isReady (s : State) : Bool := getF s R.ARB_BOOT_STATUS F.ARB_BOOT_STATUS_STATE == 4

/-- The slice state code (18 R557). -/
def sliceState (s : State) : Nat := getF s R.SEC_STATUS F.SEC_STATUS_STATE

/-- The slice tag allocated or bound. -/
def mySlice (s : State) : Nat := getF s R.SEC_STATUS F.SEC_STATUS_SLICE_TAG

/-- The Anchor state code (21 R652). -/
def anchorState (s : State) : Nat := getF s R.PWR_ANCHOR_STATUS F.PWR_ANCHOR_STATUS_STATE

/-- Power state of domain d: 0 OFF, 1 RAMPING, 2 ON, 3 RETAINED (21 R650). -/
def pdState (s : State) (d : Nat) : Nat := bitsOf (rd s R.PWR_DOMAIN_STATE).toNat (2 * d + 1) (2 * d)

/-- Set the power state of a domain. -/
def setPd (s : State) (d v : Nat) : State := wr s R.PWR_DOMAIN_STATE (setFld (rd s R.PWR_DOMAIN_STATE) (2 * d + 1) (2 * d) v)

/-- Lock states of the Meridian time base (02). -/
def lockState (s : State) : Nat := getF s R.MER_STATUS F.MER_STATUS_STATE

/-- Scheduled events run in LOCKED and HOLDOVER only (02, lock states). -/
def locked (s : State) : Bool := lockState s == 2 || lockState s == 3

/-- Whether a die is fenced: 0 to 3 compute, 4 and 5 Rose (13 R382, 21 R632): its PD5+n or PD13+n is held off. The links of dies 0 to 5 are numbered as the dies. -/
def dieFenced (s : State) (d : Nat) : Bool := bitF s R.PWR_DOMAIN_FAULT F.PWR_DOMAIN_FAULT_FENCED_OFF (if d < 4 then 5 + d else 9 + d)

end Sys2Proof.Machine
end

