-- ==== Sys2Proof/Machine/Flags.lean ====
section
/-!
DEFINITION. Event flags, counters and the logbook: how every unit reports what it finds (19 R567 to R579).
-/
namespace Sys2Proof.Machine

/-- Source number of a unit (R567). -/
def srcOf (kind inst : Nat) : Nat := kind * 4096 + inst

/-- Whether a number names a source of R567. -/
def isSource (n : Nat) : Bool :=
  let inst := n % 4096
  match n / 4096 with
  | 0x0 => inst == 0
  | 0x1 => inst < 8
  | 0x2 => inst < 6
  | 0x3 => inst < 96
  | 0x4 => inst < 96
  | 0x5 => inst < 16
  | 0x6 => inst < 4
  | 0x7 => inst < 32
  | 0x8 => inst < 32
  | 0x9 => inst < 32
  | 0xA => inst < 9 || inst == 15
  | 0xB => inst == 0
  | 0xC => inst == 0
  | 0xD => inst == 0
  | 0xE => inst < 5
  | 0xF => inst == 0
  | _ => false

/-- Classes of R568. -/
def clsInfo : Nat := 0
def clsCorrected : Nat := 1
def clsRecovered : Nat := 2
def clsDegraded : Nat := 3
def clsLostWork : Nat := 4
def clsFenced : Nat := 5
def clsOut : Nat := 6

/-- The slice tag an entry carries: the slice bound, else 0 (R571). -/
def logSlice (s : State) : Nat := if sliceState s == 2 then mySlice s else 0

/-- LOG_STATUS as the logbook stands (R594). -/
def logStatus (s : State) : State :=
  let s := setF s R.LOG_STATUS F.LOG_STATUS_USED s.log.entries.length
  let s := setF s R.LOG_STATUS F.LOG_STATUS_NEWEST_SEQ (s.log.nextSeq - 1)
  setF s R.LOG_STATUS F.LOG_STATUS_OVERRUN_PENDING (b2n (s.log.lostNow != 0))

/-- MSI-X vector v raised on the pilot's host port (R579, 22 R664). -/
def msix (s : State) (v : Nat) : State := if isPilot s then send s .msix v [s.now] else s

/-- Whether the management core runs its image and Bluvisen is heard (20 R605, 19 R592, 22 R665). -/
def bluvisenOn (s : State) : Bool := s.boot.stage ≥ 3 && s.ladder.mgmtDownUntil.isNone && !s.pwr.mgmtDown

/-- A message through Bluvisen. -/
def bluvisen (s : State) (kind : OutKind) (args : List Nat) (data : Bytes := []) : State := if bluvisenOn s then send s kind 0 args data else s

/-- What a rule has the IZ9 report through Bluvisen, with the rule's number. -/
def tellBluvisen (s : State) (rule : Nat) (args : List Nat) : State := bluvisen s .bluvisen (rule :: args)

/-- An alarm for an entry of class FENCED or OUT_OF_SERVICE, at most ten in a second (R577): whether it is sent now, and the count kept. (DEDUCED, assumption log 96) -/
def alarmDue (s : State) (cls : Nat) : Bool × Logbook :=
  let sec := s.now / 1000000000
  let n := if s.log.alarmSecond == sec then s.log.alarmCount else 0
  if cls ≥ 5 && n < 10 && bluvisenOn s then (true, { s.log with alarmSecond := sec, alarmCount := n + 1 }) else (false, s.log)

/-- A new entry placed in the logbook (R570, R571), with the alarm and the host event its class calls for (R577, R579). -/
def placeEntry (s : State) (source code cls a0 a1 a2 : Nat) : State :=
  let (al, lg) := alarmDue s cls
  let e : LogEntry := { time := countNow s, lastTime := countNow s, seq := lg.nextSeq, source := source, code := code, cls := cls, alarmed := al,
                        slice := logSlice s, a0 := a0 % 2 ^ 64, a1 := a1 % 2 ^ 64, a2 := a2 % 2 ^ 64 }
  let s := { s with log := { lg with entries := lg.entries ++ [e], nextSeq := lg.nextSeq + 1 } }
  let s := if al then send s .alarm 0 [source, code, cls] else s
  let s := if cls ≥ 3 && isPilot s then msix (setF s R.LOG_HOST_EVENTS F.LOG_HOST_EVENTS_ENTRY 1) 0 else s
  logStatus s

/-- The OVERRUN entry, once 64 slots are free (R574). -/
def placeOverrun (s : State) : State :=
  if s.log.lostNow != 0 && s.log.entries.length + 64 ≤ 4096 then
    let lg := s.log
    let s := placeEntry s (srcOf 0 0) 0x00C0 clsInfo lg.lostFirst lg.lostLast ((lg.lostNow % 2 ^ 48) + (lg.lostSources.length % 65536) * 2 ^ 48)
    logStatus { s with log := { s.log with lostNow := 0, lostFirst := 0, lostLast := 0, lostSources := [] } }
  else s

/-- An entry lost for want of a slot (R574). -/
def loseEntry (s : State) (source : Nat) : State :=
  let lg := s.log
  let b := beatNow s
  let lg := { lg with lost := mapPut lg.lost source (min (2 ^ 48 - 1) (mapGetD 0 lg.lost source + 1)),
                      lostFirst := if lg.lostNow == 0 then b else lg.lostFirst, lostLast := b, lostNow := lg.lostNow + 1,
                      lostSources := setIns source lg.lostSources }
  logStatus (incF { s with log := lg } R.LOG_LOST_TOTAL F.LOG_LOST_TOTAL_LOST 1)

/-- Coalesce an occurrence into the open entry of the same source and code (R573). -/
def coalesce (t : Nat) (source code : Nat) : List LogEntry → List LogEntry
  | [] => []
  | e :: r =>
    if e.opened && e.source == source && e.code == code then { e with count := min (2 ^ 32 - 1) (e.count + 1), lastTime := t } :: r
    else e :: coalesce t source code r

/-- Whether an open entry of the source and code stands in the logbook. -/
def openEntry (lg : Logbook) (source code : Nat) : Bool := lg.entries.any fun e => e.opened && e.source == source && e.code == code

/-- An event of a source: its counter, and its entry by the rules of R569, R573 and R574. -/
def logEvent (s : State) (source code cls a0 a1 a2 : Nat) : State :=
  let s := { s with log := { s.log with events := mapPut s.log.events source (min (2 ^ 48 - 1) (mapGetD 0 s.log.events source + 1)) } }
  if openEntry s.log source code then { s with log := { s.log with entries := coalesce (countNow s) source code s.log.entries } }
  else
    let key := source * 65536 + code
    let seen := if s.log.corrWatch == watchNow s then s.log.corrSeen else []
    if cls == clsCorrected && seen.contains key then s
    else
      let s := if cls == clsCorrected then { s with log := { s.log with corrWatch := watchNow s, corrSeen := setIns key seen } } else s
      let s := placeOverrun s
      if s.log.lostNow != 0 || s.log.entries.length ≥ 4096 then loseEntry s source
      else placeEntry s source code cls a0 a1 a2

/-- A NOTE entry of a source's kind: code 0x0nFF with n the status range the event lies in (R572). -/
def note (s : State) (source range cls a0 a1 a2 : Nat) : State := logEvent s source (range * 256 + 0xFF) cls a0 a1 a2

/-- A NOTE entry for which the calling rule names no value: the instance of the source, then zeros (R572). -/
def noteAt (s : State) (source range cls : Nat) : State := note s source range cls (source % 4096) 0 0

/-- A REGISTER_ACCESS entry (R572): address, width, write or read, cause, value written. -/
def logAccess (s : State) (addr width : Nat) (write : Bool) (cause value fid : Nat) : State :=
  logEvent s (srcOf 0 0) 0x00C1 clsInfo addr (width % 256 + b2n write * 256 + cause * 512 + fid * 65536) (if write then value else 0)

/-- The entry of a register write that the register's own rule leaves unchanged (R572, cause 4). -/
def refuseWrite (s : State) (addr width value : Nat) : State := logAccess s addr width true 4 value 0

/-- How an access is made: its address, its width in bytes and the value written; a register's own row makes it whole, at the register's address. -/
abbrev How := Nat × Nat × Nat

/-- The entry of a write that the register's own rule leaves unchanged, as the access was made. -/
def refuseAs (s : State) (w : How) : State := refuseWrite s w.1 w.2.1 w.2.2

/-- The class of a completion entry: INFO for a success status of R12, else LOST_WORK (R572). -/
def completionClass (status : Nat) : Nat := if status == 0 || status == 0x30 || status == 0x421 then clsInfo else clsLostWork

end Sys2Proof.Machine
end

