-- ==== Sys2Proof/Machine/Chart.lean ====
section
/-!
DEFINITION. What the chart, the allocation and the table set say: entries, port records, host groups, paths, chains, routes and the dog-watch plan (02 R32, 16 R469 to R490).
-/
namespace Sys2Proof.Machine

/-- ASCII of "IZ9-" followed by the given codes: the customisation strings of this manual. -/
def izName (cs : List Nat) : Bytes := ascii ([73, 90, 57, 45] ++ cs)

/-! ### Entries and ports -/

/-- SERIAL_DIGEST of this module: the first 24 bytes of SHAKE256 over "IZ9-SER" and its serial (14 R412). -/
def ownDigest : Bytes := shake256 (izName [83, 69, 82] ++ Config.serial) 24

/-- Flags of a module entry (R469). -/
def ModEntry.pilot (e : ModEntry) : Bool := e.flags.testBit 0
def ModEntry.master (e : ModEntry) : Bool := e.flags.testBit 1
def ModEntry.deputy1 (e : ModEntry) : Bool := e.flags.testBit 2
def ModEntry.deputy2 (e : ModEntry) : Bool := e.flags.testBit 3
def ModEntry.withdrawn (e : ModEntry) : Bool := e.flags.testBit 4

/-- Flags of a port record (R469). -/
def PortRec.unused (r : PortRec) : Bool := r.flags.testBit 0
def PortRec.fenced (r : PortRec) : Bool := r.flags.testBit 1
def PortRec.home (r : PortRec) : Bool := r.flags.testBit 2

/-- A record that names nothing. -/
def noPort : PortRec := ⟨0, 0, 1⟩

/-- The entry of a fabric ID that is not withdrawn. -/
def entryOf (c : Chart) (fid : Nat) : Option ModEntry := c.modules.find? fun e => !e.withdrawn && e.fid == fid

/-- The entry of this module: the one with its serial digest, if it is not withdrawn (R477). -/
def ownEntryIn (c : Chart) : Option ModEntry := c.modules.find? fun e => !e.withdrawn && e.digest == ownDigest

/-- This module's entry under its chart. -/
def ownEntry (s : State) : Option ModEntry := s.fab.chart.bind ownEntryIn

/-- The chart's record of a port of this module. -/
def portRec (s : State) (p : Nat) : PortRec := match ownEntry s with | some e => e.ports.getD p noPort | none => noPort

/-- The charted peer of a port, 0 if none. (DEDUCED, assumption log 47) -/
def chartedPeer (s : State) (p : Nat) : Nat := if (portRec s p).unused then 0 else (portRec s p).peerFid

/-- State code of a port (14 R419). -/
def portState (s : State) (p : Nat) : Nat := getF s (R.DRD_PORT_STATUS p) F.DRD_PORT_STATUS_STATE

/-- Whether a port is UP or DEGRADED. -/
def inService (s : State) (p : Nat) : Bool := portState s p == 5 || portState s p == 6

/-- Whether a port has RESTRICTED set (14 R415). -/
def restricted (s : State) (p : Nat) : Bool := flagF s (R.DRD_PORT_STATUS p) F.DRD_PORT_STATUS_RESTRICTED

/-- The ports of a module. -/
def allPorts : List Nat := List.range 32

/-! ### Host group (R470, R477, R478) -/

/-- The modules of a host group. -/
def hostGroup (c : Chart) (g : Nat) : List ModEntry := c.modules.filter fun e => !e.withdrawn && e.hostGroup == g

/-- HOME peers of an entry: the port and the peer. -/
def homePeers (e : ModEntry) : List (Nat × Nat) := (e.ports.zipIdx.filter fun p => p.1.home && !p.1.unused).map fun p => (p.2, p.1.peerFid)

/-- One round of a breadth-first search over HOME ports: the modules reached so far with their distance. -/
def homeGrow (g : List ModEntry) (d : Nat) (seen : List (Nat × Nat)) : List (Nat × Nat) :=
  g.foldl (fun acc e =>
    if acc.any (fun p => p.1 == e.fid) then acc
    else if (homePeers e).any (fun q => seen.any fun p => p.1 == q.2 && p.2 == d) then acc ++ [(e.fid, d + 1)] else acc) seen

/-- Distances from a module of a group by HOME ports, leaving one module out. -/
def homeDist (g : List ModEntry) (from_ : Nat) (n d : Nat) (seen : List (Nat × Nat)) : List (Nat × Nat) :=
  match n with
  | 0 => seen
  | k + 1 => homeDist g from_ k (d + 1) (homeGrow g d seen)

/-- The least of a list of candidates by distance, then peer, then port. -/
def leastHop (l : List (Nat × Nat × Nat)) : Option (Nat × Nat × Nat) :=
  l.foldl (fun acc c =>
    match acc with
    | none => some c
    | some b => if c.1 < b.1 || (c.1 == b.1 && (c.2.1 < b.2.1 || (c.2.1 == b.2.1 && c.2.2 < b.2.2))) then some c else some b) none

/-- The port of the installation route to a module of this module's host group (R478). The states of this module's own ports count; the ports between other modules count as in service (DEDUCED, assumption log 17). -/
def homePort (s : State) (dest : Nat) (any : Bool) : Option Nat :=
  match s.fab.chart, ownEntry s with
  | some c, some e =>
    match entryOf c dest with
    | none => none
    | some d =>
      if d.hostGroup != e.hostGroup || d.fid == e.fid then none
      else
        let g := (hostGroup c e.hostGroup).filter fun x => x.fid != e.fid
        let dist := homeDist g dest g.length 0 [(dest, 0)]
        let cands := (homePeers e).filterMap fun pq =>
          if any || inService s pq.1 then (dist.find? fun x => x.1 == pq.2).map fun x => (x.2, pq.2, pq.1) else none
        (leastHop cands).map fun x => x.2.2
  | _, _ => none

/-- Why an installation-scope message cannot reach a module: none where it can; else the state code of the first hop, or 0xFFFF where the chart gives no route (03 R46, R478). -/
def unreachable (s : State) (dest : Nat) : Option Nat :=
  if (homePort s dest false).isSome then none
  else match homePort s dest true with | some p => some (portState s p) | none => some 0xFFFF

/-- The pilot of this module's host group. -/
def pilotFid (s : State) : Nat :=
  match s.fab.chart, ownEntry s with
  | some c, some e => match (hostGroup c e.hostGroup).find? ModEntry.pilot with | some x => x.fid | none => 0
  | _, _ => 0

/-- Whether this module can reach its pilot (18 R551). -/
def pilotReachable (s : State) : Bool := isPilot s || (homePort s (pilotFid s) false).isSome

/-! ### Slice, chains and routes -/

/-- Whether a module is a member of the slice allocated. -/
def isMember (s : State) (fid : Nat) : Bool := match s.fab.alloc with | some a => (a.working ++ a.spares).contains fid | none => false

/-- The table set of an EPOCH: the one in effect for 0, else one that started commands keep (R482). -/
def tablesOf (s : State) (gen : Nat) : Option TableSet :=
  if gen = 0 then s.fab.tables
  else match s.fab.tables with
    | some t => if t.epoch == gen then some t else s.fab.oldTables.find? fun o => o.epoch == gen
    | none => s.fab.oldTables.find? fun o => o.epoch == gen

/-- The members of a chain in position order (R480); during a stand-in every chain but its COMMIT_CHAIN has the spare at the suspect member's positions (17 R514). -/
def chainMembers (s : State) (ch : Nat) : Option (List Nat) :=
  (s.fab.tables.bind fun t => mapGet t.chains ch).map fun ms =>
    s.reck.standIns.foldl (fun (ms : List Nat) x => if x.chain == ch then ms else ms.map fun f => if f == x.suspect then x.spare else f) ms

/-- This module's position in a list of members. -/
def posIn (s : State) (ms : List Nat) : Option Nat := ms.idxOf? (myFid s)

/-- The draw in effect on the Rose dies (15 R434). -/
def currentDraw (s : State) : Nat := getF s (R.RSEn_DRAW_STATUS 0) F.RSEn_DRAW_STATUS_CURRENT

/-- The route record of a destination under a draw: the record of that draw before the one of every draw (R484). (DEDUCED, assumption log 110) -/
def routeOf (s : State) (gen dest draw : Nat) : Option RouteRec :=
  (tablesOf s gen).bind fun t =>
    match t.routes.find? (fun r => r.dest == dest && r.draw == draw) with
    | some r => some r
    | none => t.routes.find? fun r => r.dest == dest && r.draw == 0xFF

/-- Ports of a set that are in service and not RESTRICTED (R485). -/
def usable (s : State) (ports : Nat) : List Nat := allPorts.filter fun p => ports.testBit p && inService s p && !restricted s p

/-- The alternative in use for a route: the first with a port in service (R485), with its number. -/
def chosenAlt (s : State) (r : RouteRec) : Option (Nat × List Nat × Nat) :=
  (r.alts.zipIdx.find? fun a => a.1.2 != 0 && !(usable s a.1.1).isEmpty).map fun a => (a.2, usable s a.1.1, a.1.2)

/-- The ferry route of a number. -/
def ferryRoute (s : State) (n : Nat) : Option FerryRoute := s.fab.tables.bind fun t => t.ferries.find? fun r => r.route == n

/-! ### Dog-watch plan (02 R32) -/

/-- Whether the plan of a chart lies within its ranges. -/
def planOk (period phase offset length deferral : Nat) : Bool :=
  1 ≤ period && period ≤ 256 && phase < period && offset ≤ 16383 && 16 ≤ length && length ≤ 1024 && offset + length ≤ 16384 && 1 ≤ deferral && deferral ≤ 256

/-- The first beat from b on at which a dog watch opens. -/
def nextOpen (c : Chart) (b : Nat) : Nat :=
  let w := watchOf b
  let w0 := w + (c.phase + c.period - w % c.period) % c.period
  let b0 := w0 * 16384 + c.offset
  if b ≤ b0 then b0 else b0 + c.period * 16384

/-- Whether a dog watch opens at a beat. -/
def opensAt (c : Chart) (b : Nat) : Bool := nextOpen c b == b

/-- The period, length and deferral in force; the defaults without a chart (02 R32). -/
def dwPeriod (s : State) : Nat := match s.fab.chart with | some c => c.period | none => 8
def dwLength (s : State) : Nat := match s.fab.chart with | some c => c.length | none => 64
def dwDeferral (s : State) : Nat := match s.fab.chart with | some c => c.deferral | none => 16

/-- MER_DOGWATCH as the chart and the beat have it (02 R40). -/
def showDogWatch (s : State) (from_ : Nat) : State :=
  match s.fab.chart with
  | some c => setF (setF s R.MER_DOGWATCH F.MER_DOGWATCH_NEXT_OPEN (nextOpen c from_)) R.MER_DOGWATCH F.MER_DOGWATCH_LENGTH c.length
  | none => s

/-- Whether the module is in a step (02 R33). -/
def inStep (s : State) : Bool := flagF s R.ARB_ESC_STATUS F.ARB_ESC_STATUS_IN_STEP

end Sys2Proof.Machine
end

