-- ==== Sys2Proof/Machine/Links.lean ====
section
/-!
DEFINITION. Darend ports below every message: port states, admission, link keys, credits, the sending of frames and the choice of their port (14 R399 to R408, R418, R419, 16 R477 to R486, 18 R543, R544).
-/
namespace Sys2Proof.Machine

/-- A port by number. -/
def getPort (s : State) (p : Nat) : Port := mapGetD {} s.ports p

/-- A port given a new content. -/
def setPort (s : State) (p : Nat) (x : Port) : State := { s with ports := mapPutD {} s.ports p x }

/-- A port changed. -/
def modPort (s : State) (p : Nat) (f : Port → Port) : State := setPort s p (f (getPort s p))

/-- SOURCE number of a port (19 R567). -/
def portSource (p : Nat) : Nat := srcOf 9 p

/-! ### Keys (14 R418, 18 R543 to R546) -/

/-- Rotation index of the watch now running. -/
def rotNow (s : State) : Nat := watchNow s / 16384

/-- Whether a port's keys of a rotation have expired: 256 watches after the rotation that replaces them (R418). -/
def genExpired (s : State) (g : KeyGen) : Bool := watchNow s ≥ (g.rot + 1) * 16384 + 256

/-- The ferry tag of a port, if a ferry route names it (16 R483). -/
def ferryTagOf (s : State) (p : Nat) : Option Nat := s.fab.tables.bind fun t => (t.ferries.find? fun r => r.port == p).map FerryRoute.tag

/-- The 72 bytes of a scope in a generation of keys. -/
def scopeKeys (s : State) (g : KeyGen) (scope : Nat) : Bytes := if scope = 0 then g.inst else if scope == mySlice s then g.slice else g.ferry

/-- The key and salt of one direction: sent by this end, or received (R543 step 4). (DEDUCED, assumption log 62) -/
def dirKey (k : Bytes) (lower sent : Bool) : Bytes × Bytes := if lower == sent then (sub k 0 32, sub k 64 4) else (sub k 32 32, sub k 68 4)

/-- The generation of keys that seals a new frame of a scope: the newest whose rotation has come, that holds the scope and has not expired (R418). -/
def sendGen (s : State) (p scope : Nat) : Option KeyGen :=
  (getPort s p).keys.find? fun g => g.rot ≤ rotNow s && scopeKeys s g scope != [] && !genExpired s g

/-- The generation that opens a frame of a scope with a key phase. (DEDUCED, assumption log 46) -/
def recvGen (s : State) (p scope phase : Nat) : Option KeyGen :=
  (getPort s p).keys.find? fun g => g.phase == phase && scopeKeys s g scope != [] && !genExpired s g

/-- Whether the slice link key is confirmed on a port (R544). -/
def confirmed (s : State) (p : Nat) : Bool := bitF s R.SEC_LINK_KEYS F.SEC_LINK_KEYS_SLICE_CONFIRMED p

/-- The tags a port admits (16 R483, 18 R544). -/
def admits (s : State) (p scope : Nat) : Bool :=
  scope == 0 || (sliceState s == 2 && scope == mySlice s && isMember s (chartedPeer s p) && confirmed s p) || ferryTagOf s p == some scope

/-- DRD_ADMIT as R483 has it (16 R497). -/
def showAdmit (s : State) (p : Nat) : State :=
  let r := portRec s p
  let sl := sliceState s == 2 && isMember s (chartedPeer s p) && confirmed s p
  let w := b2n sl * 2 ^ 12 + (if sl then mySlice s else 0) + b2n (r.home && !r.unused) * 2 ^ 13 +
    (match ferryTagOf s p with | some t => 2 ^ 44 + t * 2 ^ 32 | none => 0)
  wr s (R.DRD_ADMIT p) (BitVec.ofNat 64 w)

/-- The lowest version on the ports that admit the bound slice, 0 if none (14 R416, R428). -/
def versionFloor (s : State) : Nat :=
  ((allPorts.filter fun p => sliceState s == 2 && inService s p && admits s p (mySlice s)).map fun p =>
    getF s (R.DRD_PORT_STATUS p) F.DRD_PORT_STATUS_VERSION).min?.getD 0

/-- DRD_STATUS.FLOOR and DRD_ADMIT of every port, shown after a change of the slice, its keys or a port. -/
def showPorts (s : State) : State := setF (allPorts.foldl showAdmit s) R.DRD_STATUS F.DRD_STATUS_FLOOR (versionFloor s)

/-! ### Sending (R400, R401, R405) -/

/-- Receive pool of a class in units of 64 bytes (R401). -/
def poolUnits (cls : Nat) : Nat := if cls = 0 then 512 else if cls = 1 then 4096 else 16384

/-- Credits of a class the sender holds (R401). -/
def creditOf (x : Port) (cls : Nat) : Nat := poolUnits cls - (x.sentUnits.getD cls 0 + 2 ^ 16 - x.peerFreed.getD cls 0) % 2 ^ 16

/-- Whether a hold is in force on a port now (R409). -/
def holding (s : State) (x : Port) : Bool := match x.hold with | some h => h.startNs ≤ s.now && s.now < h.endNs | none => false

/-- Units held in a replay store, and its size (R406). -/
def storeUsed (x : Port) : Nat := x.store.foldl (fun n f => n + f.units) 0
def storeUnits (x : Port) : Nat := (256 + x.extension) * 16

/-- Whether a frame may be sent now: the port is in service and not held, RESTRICTED passes management frames of installation scope alone, credit, store and key are there. -/
def frameReady (s : State) (p : Nat) (f : SentFrame) : Bool :=
  let x := getPort s p
  inService s p && !holding s x && (!restricted s p || (f.cls == 0 && f.scope == 0)) && f.units ≤ creditOf x f.cls &&
  storeUsed x + f.units ≤ storeUnits x && (sendGen s p f.scope).isSome && admits s p f.scope

/-- The first ready frame of a class. -/
def readyOf (s : State) (p cls : Nat) : Option SentFrame :=
  match (getPort s p).queue.find? fun f => f.cls == cls with
  | some f => if frameReady s p f then some f else none
  | none => none

/-- The frame the next slot goes to (R401): MANAGEMENT, MESSAGE, BULK, with at least 48 of 64 for BULK and at most 4 for MANAGEMENT while BULK is ready. -/
def nextFrame (s : State) (p : Nat) : Option SentFrame :=
  let w := (getPort s p).window
  let bulk := readyOf s p 2
  let others := (w.filter (· != 2)).length
  let room := bulk.isNone || others < 16
  match readyOf s p 0 with
  | some f => if room && (bulk.isNone || (w.filter (· == 0)).length < 4) then some f else
      match readyOf s p 1 with
      | some g => if room then some g else bulk
      | none => bulk
  | none =>
    match readyOf s p 1 with
    | some g => if room then some g else bulk
    | none => bulk

/-- The header of a frame with a given HOPS_LEFT (R400). -/
def frameHeader (fid : Nat) (f : SentFrame) (length phase hops : Nat) : Bytes :=
  natLe 2 f.dest ++ natLe 2 (f.cls * 4096 + f.scope) ++ natLe 2 fid ++ natLe 2 length ++ natLe 4 f.seq ++ natLe 1 hops ++ natLe 1 phase ++ natLe 2 0

/-- The IV of R402: the salt, then the extended sequence number. -/
def linkIv (salt : Bytes) (seq : Nat) : Bytes := salt ++ natLe 8 seq

/-- What goes out for a frame: a forwarded frame is sealed anew under this link's key (R402), any other message stands as its fields (DESIGN CHOICE, assumption log 10). The source of a forwarded frame stands first in its args. -/
def frameOut (s : State) (p : Nat) (f : SentFrame) : OutMsg :=
  let via := some (p, f.seq)
  if f.msg.kind == .frame then
    match sendGen s p f.scope with
    | some g =>
      let (k, salt) := dirKey (scopeKeys s g f.scope) g.lower true
      let len := f.msg.data.length + 16
      let src := f.msg.args.getD 0 0
      let (ct, tag) := gcmSeal k (linkIv salt f.seq) (frameHeader src f len g.phase 0) f.msg.data
      { f.msg with dest := f.dest, data := frameHeader src f len g.phase f.hops ++ ct ++ tag, via := via }
    | none => { f.msg with dest := f.dest, via := via }
  else { f.msg with dest := f.dest, via := via }

/-- A frame sent for the first time: its sequence number, its credits and, as it went out, its place in the replay store (R400 to R402, R406). -/
def sendFirst (s : State) (p : Nat) (f : SentFrame) : State :=
  let x := getPort s p
  let m := frameOut s p { f with seq := x.txNext }
  let f1 := { f with seq := x.txNext, msg := m }
  let su := modNth f.cls (fun n => (n + f.units) % 2 ^ 16) x.sentUnits
  let a := if x.store.isEmpty then s.now else x.ackNs
  let s := setPort s p { x with queue := x.queue.erase f, txNext := x.txNext + 1, store := x.store ++ [f1], ackNs := a, sentUnits := su, window := lastN 63 (x.window ++ [f.cls]) }
  { s with out := s.out ++ [m] }

/-- Frames sent from a port's queue while one is ready. -/
def pumpN (n : Nat) (s : State) (p : Nat) : State :=
  match n with
  | 0 => s
  | k + 1 => match nextFrame s p with | some f => pumpN k (sendFirst s p f) p | none => s

def pump (s : State) (p : Nat) : State := pumpN (getPort s p).queue.length s p

/-- A frame given to a port. -/
def giveFrame (s : State) (p : Nat) (f : SentFrame) : State := pump (modPort s p fun x => { x with queue := x.queue ++ [f] }) p

/-- LENGTH of a frame whose content has no layout in the manual: from 32 to 2,048 bytes, counted in units of 64 bytes (DESIGN CHOICE, assumption log 6). -/
def freeUnits (s : State) : Nat × State :=
  let (n, s) := takeFree s
  (n % 32 + 1, s)

/-- A control block sent on a port (R398). -/
def sendBlock (s : State) (p : Nat) (kind : OutKind) (args : List Nat) (data : Bytes := []) : State :=
  { s with out := s.out ++ [{ kind := kind, dest := p, args := args, data := data, via := some (p, 0) }] }

/-! ### Choice of the port (16 R477 to R486) -/

/-- The slice-scope alternative a destination uses now; a change of it is counted (R485, R498). -/
def pickPort (s : State) (gen dest cls : Nat) : Option (Nat × Nat) × State :=
  match (routeOf s gen dest (currentDraw s)).bind (chosenAlt s) with
  | none => (none, s)
  | some (a, ports, hops) =>
    let s := match mapGet s.fab.chosen dest with
      | some b => if a == b then s else incF s R.DRD_ROUTE_EVENTS F.DRD_ROUTE_EVENTS_SWITCHES 1
      | none => s
    let s := { s with fab := { s.fab with chosen := mapPut s.fab.chosen dest a } }
    if cls = 0 then (ports.head?.map fun p => (p, hops), s)
    else
      let (n, s) := takeFree s
      (ports[n % ports.length]?.map fun p => (p, hops), s)

/-- A frame whose destination has no port in service: it waits (R486). (DEDUCED, assumption log 50) -/
def holdFrame (s : State) (f : SentFrame) : State :=
  incF { s with fab := { s.fab with noRoute := s.fab.noRoute ++ [f] } } R.DRD_ROUTE_EVENTS F.DRD_ROUTE_EVENTS_NO_ROUTE_WAITS 1

/-- A frame routed: installation scope over HOME ports (R478), slice scope by the table set (R485). A forwarded frame keeps the HOPS_LEFT it has (14 R403). (DEDUCED, assumption log 50) -/
def routeFrame (s : State) (f : SentFrame) : State :=
  let fwd := f.msg.kind == .frame
  if f.scope = 0 then
    match homePort s f.dest false with
    | some p => giveFrame s p { f with hops := if fwd then f.hops else 16 }
    | none => { s with fab := { s.fab with noRoute := s.fab.noRoute ++ [f] } }
  else
    match pickPort s f.gen f.dest f.cls with
    | (some (p, hops), s) => giveFrame s p { f with hops := if fwd then f.hops else hops }
    | (none, s) => holdFrame s f

/-- Credits of a class given back by a port's receiver (R401). -/
def freeCredits (s : State) (p cls units : Nat) : State := modPort s p fun x => { x with freed := modNth cls (fun n => (n + units) % 2 ^ 16) x.freed }

/-- Frames that waited for a route, tried again (R486). (DEDUCED, assumption log 110) -/
def retryRoutes (s : State) : State :=
  let fs := s.fab.noRoute
  fs.foldl (fun s f =>
    let ok := if f.scope = 0 then (homePort s f.dest false).isSome else ((routeOf s f.gen f.dest (currentDraw s)).bind (chosenAlt s)).isSome
    if ok then
      let s := routeFrame { s with fab := { s.fab with noRoute := s.fab.noRoute.erase f } } { f with back := none }
      match f.back with | some p => freeCredits s p f.cls f.units | none => s
    else s) s

/-- A message of the slice to a member, routed by the table set of an EPOCH (0: the one in effect). -/
def sendSlice (s : State) (gen cls dest : Nat) (kind : OutKind) (args : List Nat) (data : Bytes := []) : State :=
  let (u, s) := freeUnits s
  routeFrame s { cls := cls, units := u, dest := dest, scope := mySlice s, gen := gen, msg := { kind := kind, dest := dest, args := args, data := data } }

/-- A message of installation scope to a module of the host group. -/
def sendInst (s : State) (cls dest : Nat) (kind : OutKind) (args : List Nat) (data : Bytes := []) : State :=
  let (u, s) := freeUnits s
  routeFrame s { cls := cls, units := u, dest := dest, scope := 0, msg := { kind := kind, dest := dest, args := args, data := data } }

/-- A message to the peer of a port. -/
def sendOnPort (s : State) (p cls scope : Nat) (kind : OutKind) (args : List Nat) (data : Bytes := []) : State :=
  let (u, s) := freeUnits s
  giveFrame s p { cls := cls, units := u, dest := chartedPeer s p, scope := scope, hops := 1, msg := { kind := kind, dest := chartedPeer s p, args := args, data := data } }

/-- A message to the pilot: from the pilot itself it needs no frame. -/
def toPilot (s : State) (cls : Nat) (kind : OutKind) (args : List Nat) (data : Bytes := []) : State :=
  if isPilot s then send s kind (myFid s) args data else sendInst s cls (pilotFid s) kind args data

end Sys2Proof.Machine
end

