-- ==== Sys2Proof/Machine/Operands.lean ====
section
/-!
DEFINITION. The forms of what software posts: the command header, the opcode table and the fields of packets (03 R47 to R54).
-/
namespace Sys2Proof.Machine

/-- Header flags (R47). -/
def Header.atBeat (h : Header) : Bool := h.flags.testBit 0
def Header.wait (h : Header) : Bool := h.flags.testBit 1
def Header.signal (h : Header) : Bool := h.flags.testBit 2

/-- The header of a packet (R47). -/
def parseHeader (p : Bytes) : Header :=
  { length := uAt p 0 2, version := uAt p 2 1, flags := uAt p 3 1, opcode := uAt p 4 2, destFid := uAt p 6 2, sliceTag := uAt p 8 2,
    stream := uAt p 10 1, ring := uAt p 11 1, timeoutMs := uAt p 12 4, counter := uAt p 16 8, startBeat := uAt p 24 8,
    waitFence := uAt p 32 2, signalFence := uAt p 34 2, waitValue := uAt p 40 8, signalValue := uAt p 48 8 }

/-- The byte offset of the first fault of check 1 of R49, if any: LENGTH, VERSION, FLAGS, DEST_FID, SLICE_TAG, COUNTER, fence numbers, reserved fields (R46, R47). -/
def headerFault (p : Bytes) : Option Nat :=
  let h := parseHeader p
  if h.length < 96 || h.length > 8192 || h.length % 16 != 0 || p.length != h.length then some 0
  else if h.version != 1 then some 2
  else if h.flags ≥ 8 then some 3
  else if h.destFid == 0 || h.destFid == 0xFFFF then some 6
  else if h.sliceTag ≥ 4096 then some 8
  else if h.counter == 0 then some 16
  else if h.wait && h.waitFence ≥ 4096 then some 32
  else if h.signal && h.signalFence ≥ 4096 then some 34
  else if !allZero (sub p 36 4) then some 36
  else if !allZero (sub p 56 8) then some 56
  else none

/-- Opcodes (R53). -/
def opNOP : Nat := 0x0000
def opFENCE_ONLY : Nat := 0x0001
def opSET_STREAM : Nat := 0x0002
def opABORT : Nat := 0x0080
def opCLEAR_STREAM : Nat := 0x0081
def opQUERY_STREAM : Nat := 0x0082
def opCOPY : Nat := 0x0101
def opFILL : Nat := 0x0102
def opDATA_IN : Nat := 0x0103
def opDATA_OUT : Nat := 0x0104
def opMATMUL : Nat := 0x0201
def opLANE_PROGRAM : Nat := 0x0202
def opEMB_GATHER : Nat := 0x0203
def opEMB_SCATTER_ADD : Nat := 0x0204
def opRELAY : Nat := 0x0301
def opUPDATE : Nat := 0x0401
def opSET_DRAW_COUNTER : Nat := 0x0402
def opCOMMIT : Nat := 0x0403
def opSNAPSHOT_OUT : Nat := 0x0404
def opFERRY_OUT : Nat := 0x0405
def opSTAND_IN : Nat := 0x0406
def opATTEST : Nat := 0x0601
def opKEY_INSTALL : Nat := 0x0602
def opSLICE_RELEASE : Nat := 0x0603
def opSELF_TEST : Nat := 0x0701
def opCALIBRATE : Nat := 0x0702

/-- One row of the opcode table: opcode, idempotency class (0 RESTARTABLE, 1 RESUMABLE, 2 ONCE), cursor unit code of R70. -/
structure OpRow where
  op : Nat
  cls : Nat
  unit : Nat
  deriving DecidableEq, Repr

/-- The opcode table (R53). -/
def opTable : List OpRow :=
  [⟨opNOP, 0, 0⟩, ⟨opFENCE_ONLY, 0, 0⟩, ⟨opSET_STREAM, 0, 0⟩, ⟨opABORT, 0, 0⟩, ⟨opCLEAR_STREAM, 0, 0⟩, ⟨opQUERY_STREAM, 0, 0⟩,
   ⟨opCOPY, 1, 1⟩, ⟨opFILL, 0, 1⟩, ⟨opDATA_IN, 1, 1⟩, ⟨opDATA_OUT, 2, 1⟩] ++
  [⟨opMATMUL, 0, 2⟩, ⟨opLANE_PROGRAM, 1, 3⟩, ⟨opEMB_GATHER, 0, 4⟩, ⟨opEMB_SCATTER_ADD, 1, 4⟩, ⟨opRELAY, 1, 5⟩, ⟨opUPDATE, 0, 6⟩,
   ⟨opSET_DRAW_COUNTER, 0, 0⟩, ⟨opCOMMIT, 2, 0⟩, ⟨opSNAPSHOT_OUT, 2, 1⟩, ⟨opFERRY_OUT, 2, 1⟩, ⟨opSTAND_IN, 0, 0⟩] ++
  [⟨opATTEST, 0, 0⟩, ⟨opKEY_INSTALL, 2, 0⟩, ⟨opSLICE_RELEASE, 0, 1⟩, ⟨opSELF_TEST, 0, 0⟩, ⟨opCALIBRATE, 0, 0⟩]

/-- The row of an opcode. -/
def opRow (op : Nat) : Option OpRow := opTable.find? fun r => r.op == op

/-- Whether an opcode is listed (check 2 of R49). -/
def opListed (op : Nat) : Bool := (opRow op).isSome

/-- Idempotency class and cursor unit; 0 for an opcode not listed (R53, R71). -/
def opClass (op : Nat) : Nat := match opRow op with | some r => r.cls | none => 0
def opUnit (op : Nat) : Nat := match opRow op with | some r => r.unit | none => 0

/-- Control opcodes (R53). -/
def isControl (op : Nat) : Bool := 0x80 ≤ op && op ≤ 0xFF

/-- Step commands: those that begin a step (02 R33). -/
def isStepOp (op : Nat) : Bool :=
  [opCOPY, opFILL, opDATA_IN, opMATMUL, opLANE_PROGRAM, opEMB_GATHER, opEMB_SCATTER_ADD, opRELAY, opUPDATE, opSET_DRAW_COUNTER].contains op

/-- The first offset of a list of checks whose condition fails: how a body's format checks name the field at fault (R49, check 7). (DEDUCED, assumption log 112) -/
def firstFault (l : List (Bool × Nat)) : Option Nat := (l.find? fun p => !p.1).map Prod.snd

/-- A reserved field of n bytes at an offset is zero. -/
def rsvOk (p : Bytes) (off n : Nat) : Bool × Nat := (allZero (sub p off n), off)

/-- A field is a multiple of m. -/
def alignOk (p : Bytes) (off n m : Nat) : Bool × Nat := (uAt p off n % m == 0, off)

/-- A field lies between two bounds. -/
def boundOk (p : Bytes) (off n lo hi : Nat) : Bool × Nat := (lo ≤ uAt p off n && uAt p off n ≤ hi, off)

/-- The tag of a packet: its last 32 bytes (R47). -/
def packetTag (p : Bytes) : Bytes := p.drop (p.length - 32)

/-- What a tag is computed over: bytes 0 to LENGTH − 33 (R48). -/
def taggedPart (p : Bytes) : Bytes := p.take (p.length - 32)

end Sys2Proof.Machine
end

