-- ==== Sys2Proof/Machine/Crc.lean ====
section
/-!
DEFINITION. The CRC model of the check-value units and the hallmark CRC (10 R262, 11 R307, R308).
-/
namespace Sys2Proof.Machine

/-- One step of polynomial division: the register takes a bit from the right of the input (R307). -/
def crcBit (width poly reg : Nat) (b : Bool) : Nat :=
  let top := reg.testBit (width - 1)
  let sh := (2 * reg) % 2 ^ width
  if top != b then sh ^^^ poly else sh

/-- The bits of a byte from bit 7 to bit 0, or from bit 0 under reflection (R307). -/
def byteBits (refl : Bool) (b : Byte) : List Bool :=
  if refl then (List.range 8).map fun i => b.toNat.testBit i else (List.range 8).map fun i => b.toNat.testBit (7 - i)

/-- The register after the bytes have entered (R307). -/
def crcReg (width poly : Nat) (refin : Bool) (init : Nat) (bs : Bytes) : Nat :=
  bs.foldl (fun r b => (byteBits refin b).foldl (crcBit width poly) r) init

/-- A width-bit number with its bits in reverse order. -/
def reflectBits (width x : Nat) : Nat := (List.range width).foldl (fun acc i => if x.testBit i then acc + 2 ^ (width - 1 - i) else acc) 0

/-- The finished value of a register (R308). -/
def crcFinish (width : Nat) (refout : Bool) (xorout reg : Nat) : Nat := ((if refout then reflectBits width reg else reg) ^^^ xorout) % 2 ^ width

/-- The generator of the hallmark (R262). -/
def hallmarkPoly : Nat := 0x42F0E1EBA9EA3693

/-- The CRC-64 remainder with a preset register: the hallmark of a block with IV as preset (R262). -/
def crc64 (iv : Nat) (bs : Bytes) : Nat := crcReg 64 hallmarkPoly false iv bs

/-- CRC-64/XZ, which ends a flash record (20 R615). -/
def crc64Xz (bs : Bytes) : Nat := crcFinish 64 true (2 ^ 64 - 1) (crcReg 64 hallmarkPoly true (2 ^ 64 - 1) bs)

/-- CRC-32C, which closes a control block (14 R398). -/
def crc32c (bs : Bytes) : Nat := crcFinish 32 true (2 ^ 32 - 1) (crcReg 32 0x1EDC6F41 true (2 ^ 32 - 1) bs)

/-- The initial value of a block's hallmark: address bits [47:12] and the tensor epoch (R263). -/
def ivOf (epoch addr : Nat) : Nat := bitsOf addr 47 12 * 2 ^ 28 + epoch % 2 ^ 28

/-- A hallmark moved from one IV to another: H XOR (((IV_A XOR IV_B) × x^32768) mod P) (R269). -/
def rebase (h ivA ivB : Nat) : Nat := h ^^^ crc64 (ivA ^^^ ivB) (zeros 4096)

/-- The hallmark after a partial write of new over old at offset o (R268). -/
def hallmarkPatch (h o : Nat) (old new : Bytes) : Nat := h ^^^ crc64 0 (xorBytes old new ++ zeros (4096 - o - new.length))

end Sys2Proof.Machine
end

