-- ==== Sys2Proof/Machine/Memory.lean ====
section
/-!
DEFINITION. Module memory: the address map, the page maps, bytes, hallmarks and poison, and every kind of read and write an engine makes (10 R262 to R270, 12 R333 to R343, 19 R585, 23 R684).
-/
namespace Sys2Proof.Machine

/-! ### Bytes by physical address -/

/-- The byte at a physical address: 0 where memory lists none (DESIGN CHOICE, assumption log 2). -/
def memByte (m : List Host.Cell) (a : Nat) : Byte := mapGetD 0 m a

/-- n bytes from an address, taken from the cells of its range in order. -/
def fillCells : Nat → Nat → List Host.Cell → Bytes
  | 0, _, _ => []
  | n + 1, a, [] => 0 :: fillCells n (a + 1) []
  | n + 1, a, (k, b) :: r => if k = a then b :: fillCells n (a + 1) r else 0 :: fillCells n (a + 1) ((k, b) :: r)

/-- n bytes from a physical address. -/
def memRead (m : List Host.Cell) (a n : Nat) : Bytes := fillCells n a (m.filter fun c => a ≤ c.1 && c.1 < a + n)

/-- The cells of a byte string at an address; zero bytes are not listed. -/
def cellsOf : Nat → Bytes → List Host.Cell
  | _, [] => []
  | a, b :: r => if b = 0 then cellsOf (a + 1) r else (a, b) :: cellsOf (a + 1) r

/-- A byte string stored from a physical address, in canonical form. -/
def memWrite (m : List Host.Cell) (a : Nat) (bs : Bytes) : List Host.Cell :=
  m.filter (fun c => c.1 < a) ++ cellsOf a bs ++ m.filter (fun c => a + bs.length ≤ c.1)

/-- Zeros over a physical range. -/
def memZero (m : List Host.Cell) (a n : Nat) : List Host.Cell := m.filter fun c => c.1 < a || a + n ≤ c.1

/-- The cells of a range moved to another place, whose own cells go. -/
def memMove (m : List Host.Cell) (src dst n : Nat) : List Host.Cell :=
  m.filter (fun c => c.1 < dst) ++ (m.filter fun c => src ≤ c.1 && c.1 < src + n).map (fun c => (c.1 - src + dst, c.2)) ++ m.filter fun c => dst + n ≤ c.1

/-- The canonical form of memory: addresses strictly rise, and no cell holds the byte that an unlisted address reads as. -/
def memWf (m : List Host.Cell) : Bool := mapCanon 0 m

/-! ### The address map (23 R684) -/

/-- Bytes of one HBM stack, of a page or frame, and of a tile memory and the fabric buffer. -/
def stackBytes : Nat := 2 ^ 36
def pageBytes : Nat := 2 ^ 21
def tileBase (n : Nat) : Nat := 0x10000000000 + n * 0x10000000
def tileBytes : Nat := 0xC000000
def fabricBase : Nat := 0x11000000000
def fabricBytes : Nat := 0x10000000

/-- The memory an address lies in. -/
inductive Region where
  | hbm (stack : Nat)
  | tile (die : Nat)
  | fabric
  | none
  deriving DecidableEq, Repr

/-- The memory behind a software address, hallmark planes and gaps being none (R684). -/
def regionOf (a : Nat) : Region :=
  if a < 8 * stackBytes then (if a % stackBytes < 32704 * pageBytes then .hbm (a / stackBytes) else .none)
  else if tileBase 0 ≤ a && a < tileBase 4 then (if (a - tileBase 0) % 0x10000000 < tileBytes then .tile ((a - tileBase 0) / 0x10000000) else .none)
  else if fabricBase ≤ a && a < fabricBase + fabricBytes then .fabric
  else .none

/-- The frame that backs a page of a stack, or none: the page map (12 R334); a page the map does not list is backed by the frame of its own number. -/
def frameOf (s : State) (stack page : Nat) : Option Nat := mapGetD (some page) s.hbm.pages (stack * 32768 + page)

/-- A page map entry set. -/
def setFrame (s : State) (stack page : Nat) (f : Option Nat) : State :=
  { s with hbm := { s.hbm with pages := mapPutD (some page) s.hbm.pages (stack * 32768 + page) f } }

/-- Whether a stack has failed: STATE 4 (20 R605, 21 R631). -/
def stackFailed (s : State) (k : Nat) : Bool := getF s (R.HBM_STACK_STATUS k) F.HBM_STACK_STATUS_STATE == 4

/-- Whether an address lies in the replay region (14 R406): SIZE MiB from BASE. -/
def inReplay (s : State) (a : Nat) : Bool :=
  let size := getF s R.DRD_REPLAY_REGION F.DRD_REPLAY_REGION_SIZE
  let base := getF s R.DRD_REPLAY_REGION F.DRD_REPLAY_REGION_BASE * 2 ^ 20
  size != 0 && base ≤ a && a < base + size * 2 ^ 20

/-- The physical address behind a software address, where it is software-addressable (12 R335, 23 R684). -/
def physOf (s : State) (a : Nat) : Option Nat :=
  match regionOf a with
  | .hbm k =>
    if stackFailed s k then none
    else (frameOf s k (a % stackBytes / pageBytes)).map fun f => k * stackBytes + f * pageBytes + a % pageBytes
  | .tile d => if dieFenced s d then none else some a
  | .fabric => if inReplay s a then none else some a
  | .none => none

/-- The fenced die behind an address of its tile-memory window: the address stays in the map, and an access stops its command (13 R383). (DEDUCED, assumption log 68) -/
def fencedTile (s : State) (a : Nat) : Option Nat := match regionOf a with | .tile d => if dieFenced s d then some d else none | _ => none

/-- Search for the first address from a below stop that is not software-addressable; regions change at 1 MiB boundaries only. -/
def firstBadAux (s : State) (stop : Nat) : Nat → Nat → Option Nat
  | 0, _ => none
  | fuel + 1, a => if stop ≤ a then none else if (physOf s a).isNone && (fencedTile s a).isNone then some a else firstBadAux s stop fuel ((a / 2 ^ 20 + 1) * 2 ^ 20)

/-- The first address of a range outside software-addressable memory, if any (05 R135). -/
def firstBad (s : State) (a n : Nat) : Option Nat := firstBadAux s (a + n) (n / 2 ^ 20 + 2) a

/-- Whether a range lies wholly in software-addressable memory. -/
def rangeOk (s : State) (a n : Nat) : Bool := (firstBad s a n).isNone

/-- Source number of the memory behind a physical address (19 R567). -/
def memSource (pa : Nat) : Nat :=
  if pa < 8 * stackBytes then srcOf 1 (pa / stackBytes)
  else if pa < fabricBase then srcOf 0xE ((pa - tileBase 0) / 0x10000000)
  else srcOf 0xE 4

/-! ### Hallmarks and poison -/

/-- Tensor epoch of the binding (R263). -/
def tensorEpoch (s : State) : Nat := s.sec.bound.epoch

/-- Where the hallmark of a physical HBM block lies in its stack's plane (R264). -/
def planeAddr (pb : Nat) : Nat := pb / stackBytes * stackBytes + 32704 * pageBytes + (pb % stackBytes / 4096) * 8

/-- The stored hallmark of a physical block (R264). -/
def hallmarkAt (s : State) (pb : Nat) : Nat :=
  if pb < 8 * stackBytes then leNat (memRead s.mem (planeAddr pb) 8) else mapGetD 0 s.side pb

/-- The side-store entry that fails every check: no CRC-64 has this value (19 R582). -/
def noHallmark : Nat := 2 ^ 64

/-- A stored hallmark. -/
def setHallmark (s : State) (pb h : Nat) : State :=
  if pb < 8 * stackBytes then { s with mem := memWrite s.mem (planeAddr pb) (natLe 8 h) }
  else { s with side := mapPutD 0 s.side pb (if h = noHallmark then h else h % 2 ^ 64) }

/-- Poison put on or taken off a physical block (12 R340, R341). -/
def poisonBlock (s : State) (pb : Nat) : State := { s with poison := setIns pb s.poison }
def unpoison (s : State) (pb : Nat) : State := { s with poison := setDel pb s.poison }

/-- A physical block written whole with a hallmark; poison goes (R268, R341). -/
def putBlockRaw (s : State) (pb : Nat) (bs : Bytes) (h : Nat) : State :=
  unpoison (setHallmark { s with mem := memWrite s.mem pb bs } pb h) pb

/-! ### Reads and writes of engines -/

/-- Why a memory access failed: the status, where it was found (R270) and the address. -/
structure MemErr where
  status : Nat
  detail : Nat
  addr : Nat
  deriving DecidableEq, Repr

/-- An operation on memory: it may fail, and the state it leaves stands either way. -/
abbrev MM := ExceptT MemErr (StateM State)

/-- Status codes of failing accesses: HALLMARK_FAIL, MEM_UNCORRECTED, MEM_POISONED, MEM_UNBACKED (R295, R356). -/
def stHallmark : Nat := 0x0120
def stUncorrected : Nat := 0x0110
def stPoisoned : Nat := 0x0111
def stUnbacked : Nat := 0x0112

/-- The error of an access that no memory answers: DIE_FENCED in a fenced die's window (13 R383, R386), else MEM_UNBACKED (12 R335). -/
def offMap (s : State) (a : Nat) : MemErr := match fencedTile s a with | some d => ⟨0x0240, d, a⟩ | none => ⟨stUnbacked, 0, a⟩

/-- Take an upset of the command in hand out of the list when it is met. -/
def dropUpset (s : State) (u : Upset) : State := { s with upsets := s.upsets.erase u }

/-- Retirement advice for a frame (R343). -/
def advise (s : State) (pa reason : Nat) : State :=
  let k := pa / stackBytes
  let f := pa % stackBytes / pageBytes
  let s := wr s R.HBM_ADVISE (BitVec.ofNat 64 (2 ^ 63 + reason * 2 ^ 56 + k * 2 ^ 48 + f))
  logEvent s (srcOf 1 k) 0x01C0 clsInfo k f reason

/-- A corrected error at a physical address: counted, and the frame advised at its eighth in a watch (R339, R343); in tile memory and the fabric buffer counted as CORRECTED (19 R585). -/
def correctedAt (s : State) (pa : Nat) : State :=
  if pa < 8 * stackBytes then
    let k := pa / stackBytes
    let s := incF s (R.HBM_CE k) F.HBM_CE_COUNT 1
    let w := watchNow s
    let seen := if s.hbm.ceWatchNo == w then s.hbm.ceWatch else []
    let key := k * 32768 + pa % stackBytes / pageBytes
    let n := mapGetD 0 seen key + 1
    let s := { s with hbm := { s.hbm with ceWatchNo := w, ceWatch := mapPut seen key n } }
    let s := noteAt s (srcOf 1 k) 0x01 clsCorrected
    if n == 8 then advise s pa 0 else s
  else noteAt s (memSource pa) 0x01 clsCorrected

/-- An uncorrected error at a physical data address: the block is poisoned and the error counted (R340); on a die's tile memory it counts toward rung 3 (19 R581, R585). -/
def uncorrectedAt (s : State) (pa : Nat) : State :=
  let pb := pa / 4096 * 4096
  if pa < 8 * stackBytes then
    let k := pa / stackBytes
    advise (incF (poisonBlock s pb) (R.HBM_UE k) F.HBM_UE_COUNT 1) pa 1
  else
    let s := poisonBlock s pb
    if pa < fabricBase then
      let d := (pa - tileBase 0) / 0x10000000
      let w := watchNow s
      let errs := if s.ladder.errorWatch == w then s.ladder.tileErrors else []
      { s with ladder := { s.ladder with errorWatch := w, tileErrors := mapPut errs d (mapGetD 0 errs d + 1) } }
    else s

/-- Meet the ECC upsets of the command in hand that lie in a physical range: corrected ones first, then whether an uncorrected one was met. (DEDUCED, assumption log 114) -/
def meetEcc (s : State) (pa n : Nat) : State × Bool :=
  s.upsets.foldl (fun acc u =>
    match u with
    | .corrected a => if pa ≤ a && a < pa + n then (dropUpset (correctedAt acc.1 a) u, acc.2) else acc
    | .uncorrected a => if pa ≤ a && a < pa + n then (dropUpset (uncorrectedAt acc.1 a) u, true) else acc
    | _ => acc) (s, false)

/-- Bytes moved in the class of the command in hand, counted for HBM (12 R366). -/
def moved (s : State) (pa n : Nat) : State := if pa < 8 * stackBytes then incF s (R.HBM_GOV_BYTES s.hbm.cls) F.HBM_GOV_BYTES_BYTES n else s

/-- The accesses of f made in a traffic class (12 R348). (DEDUCED, assumption log 54) -/
def inClass (c : Nat) (s : State) (f : State → State) : State :=
  let t := f { s with hbm := { s.hbm with cls := c } }
  { t with hbm := { t.hbm with cls := 0 } }

/-- Lasting changes of stored bytes that the command in hand brings (DESIGN CHOICE, assumption log 7). -/
def applyFlips (s : State) (ups : List Upset) : State :=
  ups.foldl (fun s u =>
    match u with
    | .memFlip a m => { s with mem := memWrite s.mem a [memByte s.mem a ^^^ BitVec.ofNat 8 m] }
    | _ => s) s

/-- The upsets of a command brought in before it acts, and taken away after it. -/
def withUpsets (ups : List Upset) (s : State) (f : State → State) : State :=
  { f { applyFlips s ups with upsets := ups } with upsets := [] }

/-- Check one block as a full-block read by R265: its bytes, or why the read failed. detail says where it was found (R270). (DEDUCED, assumption log 114) -/
def readFull (a detail : Nat) : MM Bytes := do
  let s ← get
  match physOf s a with
  | none => throw (offMap s a)
  | some pb =>
    let (s, ue) := meetEcc (moved s pb 4096) pb 4096
    set s
    if ue then throw ⟨stUncorrected, detail, a⟩
    else if s.poison.contains pb then throw ⟨stPoisoned, detail, a⟩
    else
      let bs := memRead s.mem pb 4096
      if crc64 (ivOf (tensorEpoch s) a) bs != hallmarkAt s pb then throw ⟨stHallmark, detail, a⟩
      else if s.upsets.contains (.transient pb) then
        set (incF (dropUpset s (.transient pb)) R.ARB_HM_COUNTS F.ARB_HM_COUNTS_RETRIED 1)
        pure bs
      else pure bs

/-- A full-block read by R265. (DEDUCED, assumption log 114) -/
def readBlock (a : Nat) : MM Bytes := readFull a 0

/-- Bytes behind a software range, block by block, without a check; an unbacked page fails. -/
def readRaw (a n : Nat) : MM Bytes := do
  let s ← get
  match physOf s a, physOf s (a + n - 1) with
  | some pa, some _ =>
    set (moved s pa n)
    if a % pageBytes + n ≤ pageBytes then pure (memRead s.mem pa n)
    else
      let k := pageBytes - a % pageBytes
      match physOf s (a + k) with
      | some pa2 => pure (memRead s.mem pa k ++ memRead s.mem pa2 (n - k))
      | none => throw (offMap s (a + k))
  | none, _ => throw (offMap s a)
  | _, none => throw (offMap s (a + n - 1))

/-- Whether a partial read by an engine of a die (none for Arbor) is covered by the hallmark of the block, or by ECC alone (R266, R267). -/
def touchNeeded (die : Option Nat) (a : Nat) : Bool :=
  match regionOf a, die with
  | .tile d, some e => d != e
  | .fabric, none => false
  | _, _ => true

/-- The first-touch check of a block for a command (R266): done at the first partial read, remembered in the command; a failure is kept until the command reaches its next boundary. -/
def firstTouch (stream counter blk : Nat) : MM Unit := do
  let s ← get
  let isC := fun (c : Cmd) => c.q == stream && c.hdr.counter == counter
  match s.cmd.cmds.find? isC with
  | none => let _ ← readFull blk 1; pure ()
  | some c =>
    if c.touched.contains blk then pure ()
    else
      let _ ← readFull blk 1
      modify fun s => { s with cmd := { s.cmd with cmds := s.cmd.cmds.map fun d => if isC d then { d with touched := setIns blk d.touched } else d } }

/-- The blocks a range touches. -/
def blocksOf (a n : Nat) : List Nat := if n = 0 then [] else (List.range ((a + n - 1) / 4096 - a / 4096 + 1)).map fun i => (a / 4096 + i) * 4096

/-- A partial read for a command by an engine of a die: each block's first-touch check or ECC, then the bytes (R266, R267). -/
def readPart (die : Option Nat) (stream counter a n : Nat) : MM Bytes := do
  if n = 0 then pure []
  else
    for b in blocksOf a n do
      if touchNeeded die b then firstTouch stream counter b
      else
        let s ← get
        match physOf s b with
        | none => throw (offMap s b)
        | some pb =>
          let (s, ue) := meetEcc s pb 4096
          set s
          if ue then throw ⟨stUncorrected, 1, b⟩
          else if s.poison.contains pb then throw ⟨stPoisoned, 1, b⟩
          else pure ()
    readRaw a n

/-- A whole block written with a fresh hallmark at a software address (R268). -/
def writeBlock (a : Nat) (bs : Bytes) : MM Unit := do
  let s ← get
  match physOf s a with
  | none => throw (offMap s a)
  | some pb => set (putBlockRaw (moved s pb 4096) pb (fit 4096 bs) (crc64 (ivOf (tensorEpoch s) a) (fit 4096 bs)))

/-- Part of one block written by R268: the old bytes are read, so poison and uncorrected errors fail it. -/
def writeInBlock (a : Nat) (bs : Bytes) : MM Unit := do
  let b := a / 4096 * 4096
  let s ← get
  match physOf s b with
  | none => throw (offMap s a)
  | some pb =>
    let (s, ue) := meetEcc (moved s pb bs.length) (pb + a % 4096) bs.length
    set s
    if ue then throw ⟨stUncorrected, 1, b⟩
    else if s.poison.contains pb then throw ⟨stPoisoned, 1, b⟩
    else
      let pa := pb + a % 4096
      let old := memRead s.mem pa bs.length
      let h := if hallmarkAt s pb = noHallmark then noHallmark else hallmarkPatch (hallmarkAt s pb) (a % 4096) old bs
      set (setHallmark { s with mem := memWrite s.mem pa bs } pb h)

/-- The pieces of a write, cut at block boundaries. -/
def cutBlocks (fuel a : Nat) (bs : Bytes) : List (Nat × Bytes) :=
  match fuel with
  | 0 => []
  | k + 1 => if bs = [] then [] else (a, bs.take (4096 - a % 4096)) :: cutBlocks k (a + (4096 - a % 4096)) (bs.drop (4096 - a % 4096))

/-- Bytes written at a software address: whole blocks with fresh hallmarks, parts of blocks by R268. -/
def writeBytes (a : Nat) (bs : Bytes) : MM Unit := do
  for p in cutBlocks (bs.length / 4096 + 2) a bs do
    if p.1 % 4096 = 0 ∧ p.2.length = 4096 then writeBlock p.1 p.2 else writeInBlock p.1 p.2

/-- Run a memory operation: the state it leaves, with its result. -/
def runMM {α : Type} (m : MM α) (s : State) : Except MemErr α × State := Id.run (StateT.run (ExceptT.run m) s)

/-- Whether an error is one of R270 and R340, which mark the step and are written to the logbook; an unbacked page is not (R335). -/
def isBlockErr (e : MemErr) : Bool := e.status == stHallmark || e.status == stUncorrected || e.status == stPoisoned

/-- The record of a failed block (R270, R572): the logbook entry, the counters, and the step marked NOT_CLEAN while the module is in one. -/
def noteBlockErr (s : State) (e : MemErr) (counter : Nat) : State :=
  if isBlockErr e then
    let src := if e.detail == 2 then srcOf 0xB 0 else match physOf s e.addr with | some pa => memSource pa | none => srcOf 1 0
    let s := logEvent s src e.status clsLostWork e.detail e.addr counter
    let s := if e.status == stHallmark then
        setF (setF (incF s R.ARB_HM_COUNTS F.ARB_HM_COUNTS_FAILED 1) R.ARB_HM_LAST F.ARB_HM_LAST_KIND e.detail) R.ARB_HM_LAST F.ARB_HM_LAST_ADDR e.addr
      else s
    if e.detail != 3 && flagF s R.ARB_ESC_STATUS F.ARB_ESC_STATUS_IN_STEP then { s with esc := { s.esc with notClean := true } } else s
  else s

end Sys2Proof.Machine
end

