-- ==== Sys2Proof/Machine/Reckon.lean ====
section
/-!
DEFINITION. The geometry of reckoning groups, stripes and parity, and the repair of a lost block (17 R499 to R509).
-/
namespace Sys2Proof.Machine

/-! ### Units, stripes and positions (R501, R502) -/

/-- Bytes of a unit. -/
def unitBytes : Nat := 2 ^ 21

/-- The unit number and the offset in it of an address, units numbered across the extents in list order (R501). -/
def unitAt (exts : List (Nat × Nat)) (a : Nat) : Option (Nat × Nat) :=
  match exts with
  | [] => none
  | (base, bytes) :: r =>
    if base ≤ a && a < base + bytes then some ((a - base) / unitBytes, (a - base) % unitBytes)
    else (unitAt r a).map fun p => (p.1 + bytes / unitBytes, p.2)

/-- The address of a unit. -/
def unitAddr (exts : List (Nat × Nat)) (u : Nat) : Option Nat :=
  match exts with
  | [] => none
  | (base, bytes) :: r => if u < bytes / unitBytes then some (base + u * unitBytes) else unitAddr r (u - bytes / unitBytes)

/-- The stripe of data unit u of position q (R502). -/
def stripeOfData (kg n q u : Nat) : Nat := u / kg * n + (q + n - u % kg) % n

/-- The stripe of parity unit v of position q (R502). -/
def stripeOfParity (kg p n q v : Nat) : Nat := v / p * n + (q + 2 * n - kg - v % p) % n

/-- What position q holds of stripe s: data position j below K_g, or K_g + i for parity i (R502). -/
def roleOf (n s q : Nat) : Nat := (q + n - s % n) % n

/-- The position that holds role t of stripe s. -/
def posOf (n s t : Nat) : Nat := (s % n + t) % n

/-- The unit index that role t of stripe s has at its holder: a data unit below K_g, else a parity unit. -/
def unitOfRole (kg p n s t : Nat) : Nat := if t < kg then s / n * kg + t else s / n * p + (t - kg)

/-! ### Arithmetic of R503 -/

/-- Product in GF(2^8) under 0x11D. -/
def gfMul (x y : Nat) : Nat :=
  (List.range 8).foldl (fun acc i => if y.testBit i then acc ^^^ ((List.range i).foldl (fun v _ => if v ≥ 128 then (2 * v) ^^^ 0x11D else 2 * v) x) else acc) 0

/-- g^j with g = 0x02. -/
def gfPow (j : Nat) : Nat := (List.range j).foldl (fun v _ => gfMul v 2) 1

/-- The inverse in GF(2^8): x^254. -/
def gfInv (x : Nat) : Nat := (List.range 253).foldl (fun v _ => gfMul v x) x

/-- A block multiplied by a constant. -/
def gfScale (c : Nat) (b : Bytes) : Bytes := if c = 1 then b else b.map fun x => BitVec.ofNat 8 (gfMul x.toNat c)

/-- XOR of blocks of 4 KiB. -/
def xorAll (bs : List Bytes) : Bytes := bs.foldl xorBytes (zeros 4096)

/-- Parity i of the data blocks in position order (R503). -/
def parityOf (i : Nat) (data : List Bytes) : Bytes :=
  if i = 0 then xorAll data else xorAll (data.zipIdx.map fun p => gfScale (gfPow p.2) p.1)

/-! ### This module's place in its group -/

def rkGroup (s : State) : Nat := getF s R.REL_RECKON_STATUS F.REL_RECKON_STATUS_GROUP
def rkPos (s : State) : Nat := getF s R.REL_RECKON_STATUS F.REL_RECKON_STATUS_POSITION
def rkKg (s : State) : Nat := getF s R.REL_RECKON_STATUS F.REL_RECKON_STATUS_KG
def rkP (s : State) : Nat := getF s R.REL_RECKON_STATUS F.REL_RECKON_STATUS_P
def rkN (s : State) : Nat := rkKg s + rkP s
def rkState (s : State) : Nat := getF s R.REL_RECKON_STATUS F.REL_RECKON_STATUS_STATE

/-- Whether this module holds a position of a group (STATE other than UNBOUND). -/
def rkHeld (s : State) : Bool := rkState s != 0 && rkKg s != 0

/-- Extents of the allocation in effect. -/
def dataExts (s : State) : List (Nat × Nat) := match s.fab.alloc with | some a => a.dataExt | none => []
def parExts (s : State) : List (Nat × Nat) := match s.fab.alloc with | some a => a.parExt | none => []
def stageExts (s : State) : List (Nat × Nat) := match s.fab.alloc with | some a => a.pstage | none => []
def dataUnits (s : State) : Nat := match s.fab.alloc with | some a => a.dataUnits | none => 0

/-- The members of this module's group, in position order. -/
def groupFids (s : State) : List Nat := match s.fab.alloc with | some a => a.groups.getD (rkGroup s) [] | none => []

/-- Positions not intact (R511). -/
def notIntact (s : State) (q : Nat) : Bool := bitF s R.REL_RECKON_STATUS F.REL_RECKON_STATUS_NOT_INTACT q

/-- Whether a data unit of this module is STALE (R504). -/
def isStale (s : State) (u : Nat) : Bool := !s.reck.kept.contains u

/-- The STALE count shown (R525), while the module holds a position. -/
def showStale (s : State) : State := setF s R.REL_RECKON_STALE F.REL_RECKON_STALE_STALE (if rkHeld s then dataUnits s - s.reck.kept.length else 0)

/-- Mark a data unit STALE (R504). A divergent stripe it lies in is settled by the restore that does so (R517). (DEDUCED, assumption log 27) -/
def markStale (s : State) (u : Nat) : State :=
  let st := stripeOfData (rkKg s) (rkN s) (rkPos s) u
  let s := { s with reck := { s.reck with kept := setDel u s.reck.kept, sealStale := setDel u s.reck.sealStale, divergent := s.reck.divergent.filter (· != st) } }
  showStale (setF s R.REL_RECKON_STATUS F.REL_RECKON_STATUS_DIVERGENT (b2n (!s.reck.divergent.isEmpty)))

/-- Mark the units a written range touches STALE (R504). (DEDUCED, assumption log 27) -/
def staleRange (s : State) (a n : Nat) : State :=
  if rkHeld s && n != 0 then
    (List.range ((a + n - 1) / unitBytes - a / unitBytes + 1)).foldl (fun s i =>
      match unitAt (dataExts s) (max a ((a / unitBytes + i) * unitBytes)) with
      | some (u, _) => markStale s u
      | none => s) s
  else s

/-- Whether two ranges share a byte. -/
def overlaps (a n b m : Nat) : Bool := n != 0 && m != 0 && a < b + m && b < a + n

/-- The first address of a range that lies in a parity or parity-stage extent (R504). (DEDUCED, assumption log 79) -/
def parityHit (s : State) (a n : Nat) : Option Nat :=
  ((parExts s ++ stageExts s).filterMap fun e => if overlaps a n e.1 e.2 then some (max a e.1) else none).min?

/-- Whether the group is degraded, with the reason of R511: 1 position not intact, 2 block lost, 3 stripe divergent, 4 stripe lost. -/
def degradedWhy (s : State) : Nat :=
  if getF s R.REL_RECKON_STATUS F.REL_RECKON_STATUS_NOT_INTACT != 0 then 1
  else if !s.reck.lostBlocks.isEmpty then 2
  else if !s.reck.divergent.isEmpty then 3
  else if !s.reck.lostStripes.isEmpty then 4
  else 0

/-- REL_RECKON_STATUS.STATE as the group stands (R522). -/
def showReckon (s : State) : State :=
  if rkHeld s then
    let v := if !s.reck.lostStripes.isEmpty then 4 else if !s.reck.rebuildList.isEmpty then 3 else if degradedWhy s != 0 then 2 else 1
    setF s R.REL_RECKON_STATUS F.REL_RECKON_STATUS_STATE v
  else s

/-! ### Readings (R507 to R509) -/

/-- Members of a group, and its K_g and P. -/
def grpFids (s : State) (g : Nat) : List Nat := match s.fab.alloc with | some a => a.groups.getD g [] | none => []
def grpP (s : State) : Nat := match s.fab.alloc with | some a => a.p | none => 0
def grpKg (s : State) (g : Nat) : Nat := (grpFids s g).length - grpP s

/-- Ask a position for a block of a stripe. -/
def askReading (s : State) (g pos stripe off : Nat) (fold : Bool) : State :=
  match (grpFids s g)[pos]? with
  | some fid => sendSlice s 0 1 fid .readingRequest [stripe, off, (rd s R.ARB_ESC_STEP).toNat, b2n fold]
  | none => s

/-- Start to gather a block of a stripe from the positions named; a data unit that does not exist counts as zeros (R502, R508). -/
def startRead (s : State) (why : ReadingFor) (g pos stripe off : Nat) (from_ lost : List Nat) : State :=
  let n := (grpFids s g).length
  let kg := grpKg s g
  let absent := from_.filter fun q => let t := roleOf n stripe q; t < kg && unitOfRole kg (grpP s) n stripe t ≥ dataUnits s
  let asked := from_.filter fun q => !absent.contains q
  let got : SMap Bytes := absent.foldl (fun m q => mapPut m q (zeros 4096)) []
  let w : ReadWork := { purpose := why, group := g, pos := pos, stripe := stripe, offset := off, asked := asked, got := got, lost := lost }
  let s := { s with reck := { s.reck with reads := s.reck.reads ++ [w] } }
  asked.foldl (fun s q => askReading s g q stripe off (why == .fold)) s

/-- Count a block that cannot be rebuilt (R509). -/
def loseBlock (s : State) (a : Nat) : State :=
  let s := incF s R.REL_RECKON_COUNTS F.REL_RECKON_COUNTS_LOST 1
  showReckon { s with reck := { s.reck with lostBlocks := setIns a s.reck.lostBlocks } }

/-- Where a block of an extent lies in its stripe: the stripe and its offset in the unit; none outside the extents. The flag is whether a data unit there is STALE. -/
def stripeOfBlock (s : State) (a : Nat) : Option (Nat × Nat × Bool) :=
  match unitAt (dataExts s) a with
  | some (u, o) => some (stripeOfData (rkKg s) (rkN s) (rkPos s) u, o, isStale s u)
  | none =>
    match unitAt (parExts s) a with
    | some (v, o) => some (stripeOfParity (rkKg s) (rkP s) (rkN s) (rkPos s) v, o, false)
    | none => none

/-- Positions of this module's group that are lost for a rebuild here: its own and those not intact (R508). -/
def lostPositions (s : State) : List Nat := setIns (rkPos s) ((List.range (rkN s)).filter (notIntact s))

/-- Repair of a failed block of an extent (R509): readings are asked at once, or the block counts as lost when its unit is STALE or its stripe has lost too much. -/
def repairBlock (s : State) (a : Nat) : State :=
  if rkHeld s then
    match stripeOfBlock s a with
    | none => s
    | some (stripe, o, stale) =>
      let lost := lostPositions s
      if stale || lost.length > rkP s then loseBlock s a
      else startRead s .repair (rkGroup s) (rkPos s) stripe (o / 4096 * 4096) ((List.range (rkN s)).filter fun q => !lost.contains q) lost
  else s

/-- A failed block in all its consequences: the entry and counters of R270 and the repair of R509. -/
def blockFailed (s : State) (e : MemErr) (counter : Nat) : State :=
  let s := noteBlockErr s e counter
  if isBlockErr e && e.detail != 2 then repairBlock s (e.addr / 4096 * 4096) else s

end Sys2Proof.Machine
end

