-- ==== Sys2Proof/Machine/Streams.lean ====
section
/-!
DEFINITION. Streams, completion records and rings, intake checks, and how a command is accepted, stopped and ended (03 R41 to R83).
-/
namespace Sys2Proof.Machine

/-! ### Streams and commands -/

/-- The queue number of the key counter's commands (18 R547). -/
def keyQueue : Nat := 256

/-- A stream by number. -/
def getStream (s : State) (n : Nat) : Stream := mapGetD {} s.cmd.streams n

/-- SEC_STATUS.STREAMS_OPEN: streams that are not CLOSED (18 R557). -/
def showStreams (s : State) : State :=
  setF s R.SEC_STATUS F.SEC_STATUS_STREAMS_OPEN (s.cmd.streams.filter fun p => p.1 < keyQueue && p.2.state != .closed).length

/-- A stream given a new content. -/
def setStream (s : State) (n : Nat) (st : Stream) : State :=
  let s := { s with cmd := { s.cmd with streams := mapPutD {} s.cmd.streams n st } }
  let s := if n = keyQueue then wr s R.SEC_KEY_COUNTER (BitVec.ofNat 64 st.lastWork) else s
  showStreams s

/-- Code of a stream state (R42). -/
def streamCode : StreamState → Nat
  | .closed => 0
  | .opened => 1
  | .halted => 2
  | .clearing => 3

/-- Whether a command is the one of a queue and counter. -/
def isCmd (q c : Nat) (x : Cmd) : Bool := x.q == q && x.hdr.counter == c

/-- An accepted, unretired command. -/
def findCmd (s : State) (q c : Nat) : Option Cmd := s.cmd.cmds.find? (isCmd q c)

/-- A command changed in place. -/
def modCmd (s : State) (q c : Nat) (f : Cmd → Cmd) : State :=
  { s with cmd := { s.cmd with cmds := s.cmd.cmds.map fun x => if isCmd q c x then f x else x } }

/-- A command taken out of its queue. -/
def dropCmd (s : State) (q c : Nat) : State := { s with cmd := { s.cmd with cmds := s.cmd.cmds.filter fun x => !isCmd q c x } }

/-- The commands of a queue before a counter. -/
def earlier (s : State) (q c : Nat) : List Cmd := s.cmd.cmds.filter fun x => x.q == q && x.hdr.counter < c

/-- Whether the predecessor has retired (R56). -/
def predRetired (s : State) (q c : Nat) : Bool := (earlier s q c).isEmpty

/-- Whether the predecessor has issued all of its engine work (R56); a tainted command that is to run again has not (10 R276). -/
def predIssued (s : State) (q c : Nat) : Bool := (earlier s q c).all fun x => (x.issued || x.phase == .ended) && !x.rerun

/-- The command a halt of the stream charges to counter c: the nearest one before it that failed in its own right and is not cleared (R62, R64). -/
def haltOf (st : Stream) (c : Nat) : Option Nat :=
  (st.failed.filter fun f => f < c && !(st.clears.any fun k => f ≤ k.upTo && k.upTo < c)).max?

/-- Whether a stop can no longer reach a command: a COMMIT whose vote has been sent, or that has ended past it (R67), a SLICE_RELEASE that runs (18 R553). -/
def beyondStop (s : State) (x : Cmd) : Bool :=
  (x.hdr.opcode == opCOMMIT && ((x.phase == .ended && x.startedNs != 0 && x.stop.isNone)
    || match s.esc.work with | some w => w.stream == x.q && w.counter == x.hdr.counter && w.voted | none => false))
  || (x.hdr.opcode == opSLICE_RELEASE && x.phase != .queued)

/-- Ask a running command to stop with an outcome, unless a stop is asked already (R63, R65, R68). (DEDUCED, assumption log 82) -/
def askStop (s : State) (q c status detail detail2 : Nat) : State :=
  modCmd s q c fun x => if x.stop.isSome then x else { x with stop := some ⟨status, detail, detail2⟩ }

/-- The stream enters HALTED for a command that failed in its own right; the started commands after it are stopped (R62, R63). The key counter's commands halt nothing (18 R547). -/
def haltAt (s : State) (q c : Nat) : State :=
  if q = keyQueue then s
  else
    let st := getStream s q
    if st.failed.contains c then s
    else
      let st := { st with failed := setIns c st.failed, state := if st.state == .clearing then .clearing else .halted }
      let s := setStream s q st
      (s.cmd.cmds.filter fun x => x.q == q && c < x.hdr.counter && x.phase == .running && x.stop.isNone && !beyondStop s x).foldl
        (fun s x => match haltOf st x.hdr.counter with | some f => askStop s q x.hdr.counter 0x0001 1 f | none => s) s

/-- A command whose work has ended, with its status and cursor. -/
def endCmd (s : State) (q c status cursor detail detail2 : Nat) : State :=
  modCmd s q c fun x => { x with phase := .ended, issued := true, status := status, cursor := cursor, detail := detail, detail2 := detail2 }

/-- A command that fails before it starts: it ends with CURSOR 0 and halts its stream (R49, R62). (DEDUCED, assumption log 82) -/
def failStart (s : State) (q c status detail detail2 : Nat) : State := haltAt (endCmd s q c status 0 detail detail2) q c

/-- A running command fails: it stops at its next cursor unit boundary with this status (R270, R335). -/
def failRun (s : State) (q c status detail detail2 : Nat) : State := askStop s q c status detail detail2

/-- A memory error met by a running command: its entry, counters and repair, and the stop of the command (R270, R335, R340). -/
def failMem (s : State) (q c : Nat) (e : MemErr) : State :=
  failRun (blockFailed s e c) q c e.status e.detail (if isBlockErr e then e.addr / 4096 * 4096 else e.addr)

/-- Whether a command is running and has not been asked to stop. -/
def isRunning (s : State) (q c op : Nat) : Bool :=
  match findCmd s q c with
  | some x => x.phase == .running && x.stop.isNone && x.hdr.opcode == op
  | none => false

/-! ### Records and rings -/

/-- The 64 bytes of a record (R70), with PHASE as given; the tag is over bytes 0 to 47 with PHASE and RING zero. -/
def recordBytes (fid time : Nat) (r : Rec) (phase : Nat) : Bytes :=
  let flags (ph : Nat) := r.cls * 16 + b2n r.tainted * 8 + b2n r.control * 4 + b2n r.tagged * 2 + ph
  let head (ph ring : Nat) :=
    natLe 2 r.status ++ natLe 2 r.detailStatus ++ natLe 2 r.opcode ++ natLe 2 fid ++ natLe 2 r.sliceTag ++ natLe 1 r.stream ++ natLe 1 (flags ph) ++
    natLe 1 r.cursorUnit ++ natLe 1 ring ++ natLe 2 r.detail ++ natLe 8 r.counter ++ natLe 8 r.cursor ++ natLe 8 r.detail2 ++ natLe 8 time
  head phase r.ring ++ (if r.tagged then kmac256 r.key (head 0 0) 16 (izName [67, 80, 76]) else zeros 16)

/-- The ring registers. -/
def ringOn (s : State) (n : Nat) : Bool := n < 16 && flagF s (R.CMD_RING_CTRL n) F.CMD_RING_CTRL_ENABLE
def ringSize (s : State) (n : Nat) : Nat := 2 ^ getF s (R.CMD_RING_CTRL n) F.CMD_RING_CTRL_SIZE
def ringHead (s : State) (n : Nat) : Nat := (rd s (R.CMD_RING_HEAD n)).toNat
def ringTag (s : State) (n : Nat) : Nat := getF s (R.CMD_RING_CTRL n) F.CMD_RING_CTRL_SLICE_TAG

/-- A ring is full when HEAD − CONSUMED equals its size (R73). -/
def ringFull (s : State) (n : Nat) : Bool := (ringHead s n + 2 ^ 64 - (rd s (R.CMD_RING_CONSUMED n)).toNat) % 2 ^ 64 ≥ ringSize s n

/-- Bytes written into the pilot's host memory. -/
def hostWrite (s : State) (a : Nat) (bs : Bytes) : State := { s with hostMem := memWrite s.hostMem a bs }

/-- MSI-X vector 2 + n for ring n, at most once per 2 µs (22 R664). -/
def ringMsix (s : State) (n : Nat) : State :=
  match mapGet s.cmd.msix n with
  | some (t, _) =>
    if s.now < t + 2000 then { s with cmd := { s.cmd with msix := mapPut s.cmd.msix n (t, true) } }
    else msix { s with cmd := { s.cmd with msix := mapPut s.cmd.msix n (s.now, false) } } (2 + n)
  | none => msix { s with cmd := { s.cmd with msix := mapPut s.cmd.msix n (s.now, false) } } (2 + n)

/-- A record's bytes with PHASE and RING as the pilot sets them (R72). -/
def withPhase (bs : Bytes) (ring phase : Nat) : Bytes :=
  bs.take 11 ++ natLe 1 (uAt bs 11 1 / 2 * 2 + phase) ++ natLe 1 (uAt bs 12 1) ++ natLe 1 ring ++ bs.drop 14

/-- The pilot writes a record into an enabled ring with space (R72). -/
def ringWrite (s : State) (n : Nat) (bs : Bytes) : State :=
  let head := ringHead s n
  let size := ringSize s n
  let phase := if head / size % 2 = 0 then 1 else 0
  let base := getF s (R.CMD_RING_BASE n) F.CMD_RING_BASE_BASE * 4096
  let s := hostWrite s (base + head % size * 64) (withPhase bs n phase)
  ringMsix (wr s (R.CMD_RING_HEAD n) (BitVec.ofNat 64 (head + 1))) n

/-- The pilot takes a record for a ring: written, discarded, or kept waiting behind a full ring (R73). -/
def ringTake (s : State) (n : Nat) (bs : Bytes) : State :=
  let counter := uAt bs 16 8
  if !ringOn s n then logEvent s (srcOf 0 0) 0x00C3 clsInfo n 1 counter
  else if uAt bs 8 2 % 4096 != ringTag s n then logEvent s (srcOf 0 0) 0x00C3 clsInfo n 0 counter
  else if ringFull s n || s.cmd.ringWait.any (fun w => w.1 == n) then { s with cmd := { s.cmd with ringWait := s.cmd.ringWait ++ [(n, bs)] } }
  else ringWrite s n bs

/-- Records that wait for ring n are written while it has space (R73). -/
def drainRing (s : State) (n : Nat) : State :=
  s.cmd.ringWait.foldl (fun s w =>
    if w.1 == n && !ringFull s n && (s.cmd.ringWait.find? fun v => v.1 == n) == some w then
      ringWrite { s with cmd := { s.cmd with ringWait := s.cmd.ringWait.erase w } } n w.2
    else s) s

/-- A record made now: into the ring on the pilot, to the pilot from any other module. -/
def emitRecord (s : State) (r : Rec) : State :=
  let bs := recordBytes (myFid s) (countNow s) r 0
  if isPilot s then ringTake s r.ring bs else toPilot s 1 .record [r.ring] bs

/-- Whether the pilot holds a place for a record of a command in a ring (R57, R73): on the pilot it is read from the ring, on any other module the pilot's answer is given. A record that will be discarded needs no place. -/
def hasPlace (s : State) (n tag : Nat) (held : Bool) : Bool :=
  if isPilot s then !ringOn s n || ringTag s n != tag || !(ringFull s n || s.cmd.ringWait.any fun w => w.1 == n) else held

/-- The record of a packet or command, from its header. -/
def mkRec (h : Header) (key : Bytes) (tagged : Bool) (status cursor detail detail2 : Nat) : Rec :=
  { status := status, opcode := h.opcode, sliceTag := h.sliceTag % 4096, stream := h.stream, ring := h.ring, cls := opClass h.opcode,
    control := isControl h.opcode, tagged := tagged, cursorUnit := opUnit h.opcode, detail := detail % 65536, counter := h.counter,
    cursor := cursor % 2 ^ 64, detail2 := detail2 % 2 ^ 64, key := if tagged then key else [] }

/-- A refusal: one record with the status, CURSOR 0 (R49, R71). -/
def refuse (s : State) (h : Header) (key : Bytes) (tagged : Bool) (status detail detail2 : Nat) : State :=
  emitRecord s (mkRec h key tagged status 0 detail detail2)

/-! ### Intake (R46 to R52) -/

/-- The key that tags the KEY_INSTALL packets and their records: K_TAG (18 R547). -/
def keyTag (s : State) : Bytes := kmac256 s.sec.bound.kCtl [] 32 (izName [75, 84, 71])

/-- The key that wraps installed keys: K_WRAP (18 R547). -/
def keyWrap (s : State) : Bytes := kmac256 s.sec.bound.kCtl [] 32 (izName [75, 87, 82])

/-- Queue and key of a packet: its stream, or the module's key counter for KEY_INSTALL. -/
def queueOf (h : Header) : Nat := if h.opcode = opKEY_INSTALL then keyQueue else h.stream
def packetKey (s : State) (h : Header) : Bytes := if h.opcode = opKEY_INSTALL then keyTag s else (getStream s h.stream).key

/-- Check 3 of R49: the slice is bound here and is not being released, and the stream is not CLOSED (18 R547, R553). -/
def authorised (s : State) (h : Header) : Bool :=
  sliceState s == 2 && s.sec.releasing.isNone && h.sliceTag == mySlice s && (h.opcode == opKEY_INSTALL || (getStream s h.stream).state != .closed)

/-- The kept entries of the counter an opcode uses, and its last accepted value (R51). -/
def keptOf (st : Stream) (ctl : Bool) : List Kept := if ctl then st.keptCtl else st.keptWork
def lastOf (st : Stream) (ctl : Bool) : Nat := if ctl then st.lastCtl else st.lastWork

/-- A counter advanced over an accepted packet, with its kept entry; 64 are kept (R51). -/
def advance (st : Stream) (ctl : Bool) (c : Nat) (tag : Bytes) (r : Option Rec) : Stream :=
  let k : Kept := ⟨c, tag, r⟩
  if ctl then { st with lastCtl := c, keptCtl := lastN 64 (st.keptCtl ++ [k]) } else { st with lastWork := c, keptWork := lastN 64 (st.keptWork ++ [k]) }

/-- The record of a kept entry filled in (R51). -/
def keepRec (s : State) (q : Nat) (ctl : Bool) (c : Nat) (r : Rec) : State :=
  let st := getStream s q
  let f := fun (k : Kept) => if k.counter == c then { k with record := some r } else k
  setStream s q (if ctl then { st with keptCtl := st.keptCtl.map f } else { st with keptWork := st.keptWork.map f })

/-- The copy a duplicate gets (R52). -/
def dupOf (r : Rec) (ring : Nat) : Rec := { r with status := 0x0004, detailStatus := r.status, ring := ring }

/-- A duplicate: a copy of the original's record, now or directly after that record (R52). -/
def answerDuplicate (s : State) (q : Nat) (h : Header) (k : Kept) : State :=
  match k.record with
  | some r =>
    if r.opcode == opABORT && r.detail == 1 && (findCmd s q r.detail2).isSome then
      modCmd s q r.detail2 fun x => { x with after := x.after ++ [some (dupOf r h.ring)] }
    else emitRecord s (dupOf r h.ring)
  | none =>
    if isControl h.opcode then
      let st := getStream s q
      setStream s q { st with clears := st.clears.map fun k => if k.record.counter == h.counter then { k with dups := k.dups + 1 } else k }
    else modCmd s q h.counter fun x => { x with after := x.after ++ [none] }

/-- The packet at the head of the intake, for the row of an opcode: that opcode, or one that is in no row (check 2 of R49). -/
def headPacket (s : State) (op : Nat) : Option Bytes :=
  match s.cmd.intake with
  | [] => none
  | p :: _ => if (parseHeader p).opcode == op || !opListed (parseHeader p).opcode then some p else none

/-- Work commands of a queue that are accepted and not retired (check 6 of R49). -/
def unretired (s : State) (q : Nat) : Nat := (s.cmd.cmds.filter fun x => x.q == q).length

/-- The checks of R49 in their order on the packet at the head of the intake, then the action of an accepted packet. bodyFault gives the offset of check 7's first fault. -/
def takePacket (s : State) (op : Nat) (bodyFault : Bytes → Option Nat) (act : State → Header → Bytes → Bytes → State) : State :=
  match headPacket s op with
  | none => s
  | some p =>
    let h := parseHeader p
    let s := { s with cmd := { s.cmd with intake := s.cmd.intake.drop 1 } }
    if anchorState s == 2 || anchorState s == 3 then refuse s h [] false 0x0730 0 (getF s R.PWR_ANCHOR_ENTER F.PWR_ANCHOR_ENTER_BEAT)
    else
      match headerFault p with
      | some off => refuse s h [] false 0x0013 off 0
      | none =>
        if !opListed h.opcode then refuse s h [] false 0x0016 0 0
        else if !authorised s h then refuse s h [] false 0x0012 0 0
        else
          let q := queueOf h
          let key := packetKey s h
          let st := getStream s q
          let ctl := isControl h.opcode
          let last := lastOf st ctl
          if packetTag p != kmac256 key (taggedPart p) 32 (izName [67, 77, 68]) then refuse s h key true 0x0010 0 0
          else if last == 2 ^ 64 - 1 then refuse s h key true 0x0011 0 0
          else if h.counter > last + 1 then refuse s h key true 0x0011 0 (last + 1)
          else if h.counter ≤ last then
            match (keptOf st ctl).find? (fun k => k.counter == h.counter && k.tag == packetTag p) with
            | some k => answerDuplicate s q h k
            | none => refuse s h key true 0x0011 (b2n ((keptOf st ctl).all fun k => h.counter < k.counter)) (last + 1)
          else if !ctl && q != keyQueue && unretired s q ≥ 512 then refuse s h key true 0x0022 0 0
          else
            match bodyFault p with
            | some off => refuse s h key true 0x0013 off 0
            | none => act s h p key

/-- The end of the dog watch that is open, if one is (02 R34). -/
def dogEndNow (s : State) : Option Nat := if flagF s R.MER_STATUS F.MER_STATUS_IN_DOG_WATCH then s.mer.dogEnd else none

/-- A work command accepted: its counter and kept entry, the stream's limits as they stand, and the checks of its start beat (R29, R34, R55). -/
def acceptWork (s : State) (h : Header) (p key : Bytes) : State :=
  let q := queueOf h
  let st := getStream s q
  let s := setStream s q (advance st false h.counter (packetTag p) none)
  let held := match dogEndNow s with
    | some e => if !h.atBeat || (beatNow s ≤ h.startBeat && h.startBeat < e) then some e else none
    | none => none
  let c : Cmd := { q := q, hdr := h, pkt := p, key := key, timeoutMs := if h.timeoutMs == 0 then st.timeoutMs else h.timeoutMs, waitMs := st.waitMs,
                   order := s.cmd.nextOrder, acceptBeat := beatNow s, heldBeat := held }
  let s := { s with cmd := { s.cmd with cmds := s.cmd.cmds ++ [c], nextOrder := s.cmd.nextOrder + 1 } }
  if (haltOf st h.counter).isSome || !h.atBeat then s
  else if h.startBeat * 65536 ≤ countNow s then failStart s q h.counter 0x0040 0 (beatNow s)
  else if beatNow s + 2 ^ 20 < h.startBeat then failStart s q h.counter 0x0041 0 (beatNow s)
  else s

/-- Intake of a work opcode whose body has the given checks. -/
def intakeWork (s : State) (op : Nat) (bodyFault : Bytes → Option Nat) : State := takePacket s op bodyFault acceptWork

/-- Checks of a body of fixed length: LENGTH first, then the fields (check 7 of R49). -/
def bodyChecks (len : Nat) (checks : Bytes → List (Bool × Nat)) (p : Bytes) : Option Nat :=
  if p.length != len then some 0 else firstFault (checks p)

end Sys2Proof.Machine
end

