-- ==== Sys2Proof/Machine/Hbm.lean ====
section
/-!
DEFINITION. HBM3E commands: COPY and FILL, patrol scrub, retirement, donation and governors (12 R335 to R368).
-/
namespace Sys2Proof.Machine

/-! ### COPY and FILL (R352 to R355) -/

/-- Format checks of COPY (R352, R354). -/
def copyChecks (p : Bytes) : List (Bool × Nat) :=
  [alignOk p 64 8 64, (uAt p 64 8 < uAt p 72 8, 64), alignOk p 72 8 64, boundOk p 72 8 64 (2 ^ 40), alignOk p 80 8 64, alignOk p 88 8 64]

/-- Format checks of FILL (R353, R354). -/
def fillChecks (p : Bytes) : List (Bool × Nat) :=
  [alignOk p 64 8 64, boundOk p 64 8 64 (2 ^ 40), alignOk p 72 8 64, rsvOk p 88 8]

/-- Length of the unit at position x of a destination: up to the end of its block (R355). -/
def unitLen (dst x bytes : Nat) : Nat := min (4096 - (dst + x) % 4096) (bytes - x)

/-- One unit of COPY: the source is read by R265 or R266, a whole block is written by R269, a part by R268. A whole block that does not come from one block carries no hallmark and is written with a fresh one. -/
def copyUnit (q c src dst x n : Nat) : MM Unit := do
  if n = 4096 ∧ (src + x) % 4096 = 0 then
    let bs ← readBlock (src + x)
    let s ← get
    match physOf s (src + x), physOf s (dst + x) with
    | some pa, some pb =>
      let e := tensorEpoch s
      set (putBlockRaw (moved s pb 4096) pb bs (rebase (hallmarkAt s pa) (ivOf e (src + x)) (ivOf e (dst + x))))
    | _, none => throw (offMap s (dst + x))
    | none, _ => throw (offMap s (src + x))
  else
    let bs ← readPart none q c (src + x) n
    writeBytes (dst + x) bs

/-- The n bytes of a repeating pattern from destination position x. -/
def patternBytes (pat : Bytes) (x n : Nat) : Bytes := (List.range n).map fun i => pat.getD ((x + i) % 8) 0

/-- A unit of a running command done: its cursor moves on, and at the end the command has ended with OK. -/
def unitDone (s : State) (q c cursor : Nat) (last : Bool) : State :=
  if last then endCmd s q c 0 cursor 0 0 else modCmd s q c fun x => { x with cursor := cursor }

/-- The next unit of a running COPY. -/
def copyWork (s : State) (q c : Nat) : State :=
  match findCmd s q c with
  | none => s
  | some x =>
    let p := x.pkt
    let bytes := uAt p 72 8
    let dst := uAt p 88 8
    let n := unitLen dst x.cursor bytes
    match runMM (copyUnit q c (uAt p 80 8) dst x.cursor n) s with
    | (.ok _, s) => unitDone (staleRange s (dst + x.cursor) n) q c (x.cursor + n) (x.cursor + n == bytes)
    | (.error e, s) => failMem s q c e

/-- The next unit of a running FILL. -/
def fillWork (s : State) (q c : Nat) : State :=
  match findCmd s q c with
  | none => s
  | some x =>
    let p := x.pkt
    let bytes := uAt p 64 8
    let dst := uAt p 72 8
    let n := unitLen dst x.cursor bytes
    match runMM (writeBytes (dst + x.cursor) (patternBytes (sub p 80 8) x.cursor n)) s with
    | (.ok _, s) => unitDone (staleRange s (dst + x.cursor) n) q c (x.cursor + n) (x.cursor + n == bytes)
    | (.error e, s) => failMem s q c e

/-- COPY: its packet at intake, or the next unit of a running COPY (R352 to R355). -/
def execCopy (a : CmdArg) (s : State) : Reply :=
  done (match a with
    | .intake => intakeWork s opCOPY (bodyChecks 128 copyChecks)
    | .work q c ups => onlyIf (isRunning s q c opCOPY) s fun s => inClass 2 s fun s => withUpsets ups s fun s => copyWork s q c)

/-- FILL: its packet at intake, or the next unit of a running FILL (R353 to R355). -/
def execFill (a : CmdArg) (s : State) : Reply :=
  done (match a with
    | .intake => intakeWork s opFILL (bodyChecks 128 fillChecks)
    | .work q c ups => onlyIf (isRunning s q c opFILL) s fun s => inClass 2 s fun s => withUpsets ups s fun s => fillWork s q c)

/-- The start check of a range: the descriptor offset and the first address outside software-addressable memory (R354). -/
def rangeFault (s : State) (off a n : Nat) : Option (Nat × Nat) := (firstBad s a n).map fun x => (off, x)

/-- The start checks of COPY and FILL: the ranges, then the overlap (R354). -/
def copyStart (s : State) (p : Bytes) : Option (Nat × Nat) :=
  let n := uAt p 72 8
  let src := uAt p 80 8
  let dst := uAt p 88 8
  match rangeFault s 80 src n with
  | some f => some f
  | none =>
    match rangeFault s 88 dst n with
    | some f => some f
    | none => if overlaps src n dst n then some (88, max src dst) else none

def fillStart (s : State) (p : Bytes) : Option (Nat × Nat) := rangeFault s 72 (uAt p 72 8) (uAt p 64 8)

/-! ### Frames (R334, R344 to R347) -/

/-- The page a frame backs. -/
def pageOf (s : State) (k f : Nat) : Option Nat :=
  if f < 32704 && frameOf s k f == some f then some f
  else (s.hbm.pages.find? fun e => e.1 / 32768 == k && e.2 == some f).map fun e => e.1 % 32768

/-- The software address of a physical block, if a page is backed by its frame. -/
def softAddr (s : State) (pb : Nat) : Option Nat :=
  if pb < 8 * stackBytes then (pageOf s (pb / stackBytes) (pb % stackBytes / pageBytes)).map fun p => pb / stackBytes * stackBytes + p * pageBytes + pb % pageBytes
  else some pb

/-- The blocks of a frame, by physical address. -/
def frameBlocks (k f : Nat) : List Nat := (List.range 512).map fun i => k * stackBytes + f * pageBytes + i * 4096

/-- Retired frames of a stack. -/
def retiredOf (s : State) (k : Nat) : List (Nat × Nat) := s.hbm.retired.filter fun r => r.1 == k

/-- The contents of a frame moved to another with the hallmark entries unchanged; blocks that cannot be read are poisoned there (R344). -/
def moveFrame (s : State) (k f g : Nat) : State :=
  let src := k * stackBytes + f * pageBytes
  let dst := k * stackBytes + g * pageBytes
  let bad := (frameBlocks k f).filter fun b => s.poison.contains b
  let s := { s with mem := memMove (memMove s.mem src dst pageBytes) (planeAddr src) (planeAddr dst) 4096 }
  let s := moved s src (2 * pageBytes)
  let s := (frameBlocks k g).foldl unpoison s
  bad.foldl (fun s b => poisonBlock s (b - src + dst)) s

/-- ECC upsets of the command in hand in a frame, met by its reads. -/
def meetFrame (s : State) (k f : Nat) : State := (meetEcc s (k * stackBytes + f * pageBytes) pageBytes).1

/-- Why a retirement is refused (R345): 0 if it is not. -/
def retireRefusal (s : State) (k f d : Nat) : Nat :=
  if s.hbm.retired.contains (k, f) then 2
  else if (retiredOf s k).length ≥ 64 then 3
  else if f ≥ 32704 || (d != 0x7FFF && (d ≥ 32704 || (frameOf s k d).isNone || pageOf s k f == some d)) then 4
  else 0

/-- The move of a retirement and its start in flash (R344 steps 2 to 6). -/
def retireMove (s : State) (k f d : Nat) : State :=
  let s :=
    match pageOf s k f with
    | none => s
    | some p =>
      match (if d == 0x7FFF then none else frameOf s k d) with
      | none => setFrame s k p none
      | some g => setFrame (setFrame (moveFrame (meetFrame s k f) k f g) k p (some g)) k d none
  { s with hbm := { s.hbm with flashWrite := some (k, f) } }

/-- Whether an Escapement release is in progress (10 R293). -/
def releasing (s : State) : Bool := getF s R.ARB_ESC_STATUS F.ARB_ESC_STATUS_STATE == 3

/-- Retirement fields of HBM_RETIRE. -/
def retireArgs (s : State) : Nat × Nat × Nat := (getF s R.HBM_RETIRE F.HBM_RETIRE_STACK, getF s R.HBM_RETIRE F.HBM_RETIRE_FRAME, getF s R.HBM_RETIRE F.HBM_RETIRE_DONOR)

/-- A write of HBM_RETIRE (R344, R345, R360): the fields are taken, and GO starts a retirement; while one runs the write changes nothing. -/
def writeRetire (s : State) (v : Word) : State :=
  if flagF s R.HBM_RETIRE F.HBM_RETIRE_GO then s
  else
    let s := setF (setF (setF s R.HBM_RETIRE F.HBM_RETIRE_STACK (fld v 50 48)) R.HBM_RETIRE F.HBM_RETIRE_DONOR (fld v 30 16)) R.HBM_RETIRE F.HBM_RETIRE_FRAME (fld v 14 0)
    if !bitW v 63 then s
    else
      let (k, f, d) := retireArgs s
      let why := retireRefusal s k f d
      if why != 0 then setF s R.HBM_RETIRE F.HBM_RETIRE_RESULT why
      else
        let s := setF (setF s R.HBM_RETIRE F.HBM_RETIRE_GO 1) R.HBM_RETIRE F.HBM_RETIRE_RESULT 1
        if releasing s then { s with hbm := { s.hbm with retireWait := true } } else retireMove s k f d

/-- HBM_RETIRE (R344): a write of the register, with the errors its reads meet. -/
def execHbmRetire (value : Word) (ups : List Upset) (s : State) : Reply :=
  done (inClass 4 s fun s => withUpsets ups s fun s => writeRetire s value)

/-- HBM_STACK_STATUS.RETIRED of a stack. -/
def showRetired (s : State) (k : Nat) : State := setF s (R.HBM_STACK_STATUS k) F.HBM_STACK_STATUS_RETIRED (retiredOf s k).length

/-- RETIREMENT_END (R344, R345): the flash write has ended; the record holds the frame, or RESULT is 5 and a NOTE entry is written. -/
def execRetirementEnd (ok : Bool) (s : State) : Reply :=
  done (match s.hbm.flashWrite with
    | none => s
    | some (k, f) =>
      let s := setF { s with hbm := { s.hbm with flashWrite := none } } R.HBM_RETIRE F.HBM_RETIRE_GO 0
      if ok then
        let rs := s.hbm.retired ++ [(k, f)]
        let s := { s with hbm := { s.hbm with retired := rs }, flash := { s.flash with retired := flashPut s.flash.retired rs } }
        showRetired (setF s R.HBM_RETIRE F.HBM_RETIRE_RESULT 0) k
      else note (setF s R.HBM_RETIRE F.HBM_RETIRE_RESULT 5) (srcOf 1 k) 0x01 clsInfo k 0 0)

/-- The donation of HBM_DONATE (R346): the target takes the donor's frame with every block poisoned. -/
def donate (s : State) : State :=
  let k := getF s R.HBM_DONATE F.HBM_DONATE_STACK
  let t := getF s R.HBM_DONATE F.HBM_DONATE_TARGET
  let d := getF s R.HBM_DONATE F.HBM_DONATE_DONOR
  match frameOf s k d with
  | none => setF s R.HBM_DONATE F.HBM_DONATE_RESULT 4
  | some g =>
    let s := (frameBlocks k g).foldl poisonBlock (setFrame (setFrame s k t (some g)) k d none)
    setF (setF s R.HBM_DONATE F.HBM_DONATE_RESULT 0) R.HBM_DONATE F.HBM_DONATE_GO 0

/-- A write of HBM_DONATE (R346, R361). -/
def writeDonate (s : State) (v : Word) : State :=
  if flagF s R.HBM_DONATE F.HBM_DONATE_GO then s
  else
    let s := setF (setF (setF s R.HBM_DONATE F.HBM_DONATE_STACK (fld v 50 48)) R.HBM_DONATE F.HBM_DONATE_DONOR (fld v 30 16)) R.HBM_DONATE F.HBM_DONATE_TARGET (fld v 14 0)
    if !bitW v 63 then s
    else
      let k := fld v 50 48
      if fld v 14 0 ≥ 32704 || fld v 30 16 ≥ 32704 || (frameOf s k (fld v 14 0)).isSome || (frameOf s k (fld v 30 16)).isNone then setF s R.HBM_DONATE F.HBM_DONATE_RESULT 4
      else if releasing s then
        setF (setF { s with hbm := { s.hbm with donateWait := true } } R.HBM_DONATE F.HBM_DONATE_GO 1) R.HBM_DONATE F.HBM_DONATE_RESULT 1
      else donate s

/-- HBM_DONATE (R346). -/
def execHbmDonate (value : Word) (s : State) : Reply := done (writeDonate s value)

/-- Retirement and donation that waited for a release to end (R344, R346). -/
def afterRelease (s : State) : State :=
  let s := if s.hbm.retireWait then
      let (k, f, d) := retireArgs s
      retireMove { s with hbm := { s.hbm with retireWait := false } } k f d
    else s
  if s.hbm.donateWait then donate { s with hbm := { s.hbm with donateWait := false } } else s

/-! ### Governors (R350) -/

/-- A class's setting as it stands with the writes that wait for the next beat. -/
def govAhead (s : State) (c : Nat) : Word := (mapGet s.hbm.govNext c).getD (rd s (R.HBM_GOV c))

/-- The least MIN of a class (R350). -/
def govLeast (c : Nat) : Nat := if c = 3 then 4 else if c ≥ 4 then 1 else 0

/-- Whether six settings keep R350. -/
def govOk (ws : List Word) : Bool :=
  (ws.map fun w => fld w 6 0).sum ≤ 64 && ws.all (fun w => fld w 6 0 ≤ fld w 14 8 && fld w 14 8 ≤ 64) && ws.zipIdx.all fun p => govLeast p.2 ≤ fld p.1 6 0

/-- A write of HBM_GOV(c) (R350). (DEDUCED, assumption log 54) -/
def writeGov (s : State) (c : Nat) (v : Word) (how : How := (R.HBM_GOV c, 8, v.toNat)) : State :=
  let v := BitVec.ofNat 64 (fld v 14 8 * 256 + fld v 6 0)
  let ws := (List.range 6).map fun i => if i = c then v else govAhead s i
  if govOk ws then { s with hbm := { s.hbm with govNext := mapPut s.hbm.govNext c v } } else refuseAs s how

/-- HBM_GOV_WRITE (R350): it takes effect at the next beat, or is refused and logged. -/
def execHbmGovWrite (cls : Nat) (value : Word) (s : State) : Reply := done (onlyIf (cls < 6) s fun s => writeGov s cls value)

/-- Settings whose beat has come. (DEDUCED, assumption log 54) -/
def govBeat (s : State) : State :=
  s.hbm.govNext.foldl (fun s e => wr s (R.HBM_GOV e.1) e.2) { s with hbm := { s.hbm with govNext := [] } }

/-! ### Patrol scrub (R351) -/

/-- An uncorrected error met by the scrub: in the hallmark plane the eight data blocks of the granule are poisoned (R342), elsewhere the block (R340). -/
def scrubUe (s : State) (pa : Nat) : State :=
  let k := pa / stackBytes
  let o := pa % stackBytes
  if o ≥ 32704 * pageBytes then
    let first := k * stackBytes + (o - 32704 * pageBytes) / 64 * 8 * 4096
    let s := (List.range 8).foldl (fun s i => poisonBlock s (first + i * 4096)) s
    advise (incF s (R.HBM_UE k) F.HBM_UE_COUNT 1) pa 1
  else
    let s := uncorrectedAt s pa
    match softAddr s (pa / 4096 * 4096) with
    | some a => blockFailed s ⟨stUncorrected, 0, a⟩ 0
    | none => s

/-- The scrub of one stack's granule. -/
def scrubStack (s : State) (k : Nat) : State :=
  if getF s (R.HBM_STACK_STATUS k) F.HBM_STACK_STATUS_STATE != 2 then s
  else
    let pa := k * stackBytes + getF s R.HBM_SCRUB_POS F.HBM_SCRUB_POS_GRANULE * 64
    (moved s pa 64).upsets.foldl (fun s u =>
      match u with
      | .corrected a => if pa ≤ a && a < pa + 64 then dropUpset (correctedAt s a) u else s
      | .uncorrected a => if pa ≤ a && a < pa + 64 then dropUpset (scrubUe s a) u else s
      | _ => s) (moved s pa 64)

/-- SCRUB_READ (R351): the next granule of each active stack, and the position moved on. -/
def execScrubRead (ups : List Upset) (s : State) : Reply :=
  done (onlyIf (flagF s R.HBM_SCRUB F.HBM_SCRUB_ENABLE && anchorState s != 3) s fun s =>
    let s := inClass 4 s fun s => withUpsets ups s fun s => (List.range 8).foldl scrubStack s
    let g := getF s R.HBM_SCRUB_POS F.HBM_SCRUB_POS_GRANULE + 1
    if g = 2 ^ 30 then incF (setF s R.HBM_SCRUB_POS F.HBM_SCRUB_POS_GRANULE 0) R.HBM_SCRUB_POS F.HBM_SCRUB_POS_PASSES 1
    else setF s R.HBM_SCRUB_POS F.HBM_SCRUB_POS_GRANULE g)

end Sys2Proof.Machine
end

