-- ==== Sys2Proof/Machine/CrcUnits.lean ====
section
/-!
DEFINITION. The eight check-value units (11 R305 to R331).
-/
namespace Sys2Proof.Machine

/-- Whether the IZ9 holds a unit (R306, R330). -/
def unitHeld (s : State) (u : Nat) : Bool := bitF s R.CRC_HELD F.CRC_HELD_IZ9 u

/-- Whether a unit runs a scan. -/
def unitBusy (s : State) (u : Nat) : Bool := flagF s (R.CRC_STATUS u) F.CRC_STATUS_BUSY

/-- WIDTH of a unit. -/
def unitWidth (s : State) (u : Nat) : Nat := getF s (R.CRC_CFG u) F.CRC_CFG_WIDTH

/-- A value cut to a unit's WIDTH (R308). -/
def unitCut (s : State) (u x : Nat) : Nat := x % 2 ^ min 64 (unitWidth s u)

/-- A register of a unit whose bits at or above WIDTH read as zero (R308). -/
def unitReg (s : State) (u a : Nat) : Nat := unitCut s u (rd s a).toNat

/-- RESULT: the finished value of the current register (R308). -/
def unitResult (s : State) (u : Nat) : Nat :=
  unitCut s u (crcFinish (unitWidth s u) (flagF s (R.CRC_CFG u) F.CRC_CFG_REFOUT) (unitReg s u (R.CRC_XOROUT u)) (unitReg s u (R.CRC_VALUE u)))

/-- Bytes taken into a unit's register (R307). -/
def unitFeed (s : State) (u : Nat) (bs : Bytes) : State :=
  wr s (R.CRC_VALUE u) (BitVec.ofNat 64 (crcReg (unitWidth s u) (unitReg s u (R.CRC_POLY u)) (flagF s (R.CRC_CFG u) F.CRC_CFG_REFIN) (unitReg s u (R.CRC_VALUE u)) bs))

/-- The signal of a unit's event to its holder, if IRQ_EN is 1: to the management core for a unit the IZ9 holds, else to the host of the pilot (R312, 19 R579). -/
def unitSignal (s : State) (u : Nat) : State :=
  if flagF s (R.CRC_CTRL u) F.CRC_CTRL_IRQ_EN && !unitHeld s u && isPilot s then msix (setF s R.LOG_HOST_EVENTS F.LOG_HOST_EVENTS_CRC 1) 1 else s

/-- The comparison of RESULT with EXPECT (R312). -/
def unitCompare (s : State) (u : Nat) : State :=
  let r := unitResult s u
  let e := unitReg s u (R.CRC_EXPECT u)
  if r == e then s
  else
    let s := setBitF (setF s (R.CRC_STATUS u) F.CRC_STATUS_MISMATCH 1) R.CRC_EVENTS F.CRC_EVENTS_MISMATCH u true
    unitSignal (note s (srcOf 0 0) 0x00 clsInfo u r e) u

/-- FAULT codes (R310, R326). -/
def faultConfig : Nat := 1
def faultRange : Nat := 2
def faultHallmark : Nat := 3
def faultEcc : Nat := 4
def faultTimeout : Nat := 5
def faultStopped : Nat := 6
def faultPreempted : Nat := 7

/-- The end of a scan (R309, R312). -/
def unitEnd (s : State) (u fault : Nat) : State :=
  let a := R.CRC_STATUS u
  let s := setF (setF (setF s a F.CRC_STATUS_BUSY 0) a F.CRC_STATUS_DONE 1) a F.CRC_STATUS_FAULT fault
  let s := unitSignal (setBitF s R.CRC_EVENTS F.CRC_EVENTS_DONE u true) u
  if fault == 0 && flagF s (R.CRC_CTRL u) F.CRC_CTRL_CMP_EN then unitCompare s u else s

/-- START and LENGTH of a unit. -/
def unitStart (s : State) (u : Nat) : Nat := getF s (R.CRC_START u) F.CRC_START_ADDR
def unitLength (s : State) (u : Nat) : Nat := getF s (R.CRC_LENGTH u) F.CRC_LENGTH_BYTES

/-- The memory an address lies in, as far as R309 bounds a scan by it. -/
def sameMemory (a b : Nat) : Bool := regionOf a != .none && regionOf a == regionOf b

/-- Why a scan does not start: CONFIG or RANGE (R309); 0 if it does. -/
def scanRefusal (s : State) (u : Nat) : Nat :=
  let st := unitStart s u
  let n := unitLength s u
  if !(1 ≤ unitWidth s u && unitWidth s u ≤ 64) || n > 2 ^ 40 then faultConfig
  else if !sameMemory st (st + (n - 1)) || !rangeOk s st (max n 1) then faultRange
  else 0

/-- GO on an idle unit (R309). -/
def unitGo (s : State) (u : Nat) : State :=
  let why := scanRefusal s u
  let a := R.CRC_STATUS u
  if why != 0 then setF (setF s a F.CRC_STATUS_FAULT why) a F.CRC_STATUS_DONE 1
  else
    let s := setF (setF (setF s a F.CRC_STATUS_BUSY 1) a F.CRC_STATUS_FAULT 0) (R.CRC_PROGRESS u) F.CRC_PROGRESS_BYTES 0
    let s := if flagF s (R.CRC_CTRL u) F.CRC_CTRL_CONTINUE then s else wr s (R.CRC_VALUE u) (BitVec.ofNat 64 (unitReg s u (R.CRC_INIT u)))
    if unitLength s u = 0 then unitEnd s u 0 else s

/-- The bytes of a block that a scan takes, from position a and at most n. -/
def scanBlock (a n : Nat) : MM Bytes := do
  let bs ← readBlock (a / 4096 * 4096)
  pure (sub bs (a % 4096) (min n (4096 - a % 4096)))

/-- Blocks taken up to a number of bytes; 0, or the fault that ended the scan (R310). (DESIGN CHOICE, assumption log 106) -/
def scanTo (fuel : Nat) (s : State) (u stop : Nat) : State × Nat :=
  match fuel with
  | 0 => (s, 0)
  | k + 1 =>
    let done := getF s (R.CRC_PROGRESS u) F.CRC_PROGRESS_BYTES
    if stop ≤ done then (s, 0)
    else
      match runMM (scanBlock (unitStart s u + done) (stop - done)) s with
      | (.ok bs, s) => scanTo k (setF (unitFeed s u bs) (R.CRC_PROGRESS u) F.CRC_PROGRESS_BYTES (done + bs.length)) u stop
      | (.error e, s) => (blockFailed s e 0, if e.status == stHallmark then faultHallmark else faultEcc)

/-- A running scan taken to a number of bytes, then ended with a fault code (0: it went to its end). -/
def scanEnd (s : State) (u stop fault : Nat) : State :=
  match scanTo (stop / 4096 + 2) s u stop with
  | (s, 0) => unitEnd s u fault
  | (s, f) => unitEnd s u f

/-- A write of CRC_CTRL (R309 to R314, R325): on a busy unit only STOP acts; on an idle one the settings are taken, then GO and CHECK act. The scan has taken `taken` bytes when it stops. -/
def writeCrcCtrl (s : State) (u : Nat) (v : Word) (taken : Nat) (how : How := (R.CRC_CTRL u, 8, v.toNat)) (fw : Bool := false) : State :=
  let a := R.CRC_CTRL u
  if unitHeld s u && !fw then logAccess s how.1 how.2.1 true 2 how.2.2 0
  else if unitBusy s u then
    if bitW v 1 then scanEnd s u (min (unitLength s u) (max (getF s (R.CRC_PROGRESS u) F.CRC_PROGRESS_BYTES) (taken / 64 * 64))) faultStopped
    else if bitW v 2 && !bitW v 0 then s
    else refuseAs s how
  else
    let s := wr s a (BitVec.ofNat 64 (fld v 11 8 * 2 ^ 8 + fld v 5 3 * 2 ^ 3))
    let s := if bitW v 0 then unitGo s u else s
    if bitW v 2 && !unitBusy s u then unitCompare s u else s

/-- CRC_GO (R309): a write of CRC_CTRL with GO. -/
def execCrcGo (unit : Nat) (value : Word) (s : State) : Reply := done (onlyIf (unit < 8 && bitW value 0 && !bitW value 1) s fun s => writeCrcCtrl s unit value 0)

/-- CRC_STOP (R310): a write of CRC_CTRL with STOP, on a scan that has taken the bytes given. (DESIGN CHOICE, assumption log 106) -/
def execCrcStop (unit : Nat) (value : Word) (taken : Nat) (ups : List Upset) (s : State) : Reply :=
  done (onlyIf (unit < 8 && bitW value 1) s fun s => inClass 4 s fun s => withUpsets ups s fun s => writeCrcCtrl s unit value taken)

/-- CRC_CHECK (R312): a write of CRC_CTRL with CHECK and neither GO nor STOP. -/
def execCrcCheck (unit : Nat) (value : Word) (s : State) : Reply :=
  done (onlyIf (unit < 8 && bitW value 2 && !bitW value 0 && !bitW value 1) s fun s => writeCrcCtrl s unit value 0)

/-- A write of CRC_DATA (R313). -/
def writeCrcData (s : State) (u width : Nat) (v : Word) (how : How := (R.CRC_DATA u, width, v.toNat)) (fw : Bool := false) : State :=
  let n := getF s (R.CRC_CTRL u) F.CRC_CTRL_FEED_BYTES
  if unitHeld s u && !fw then logAccess s how.1 how.2.1 true 2 how.2.2 0
  else if unitBusy s u || n < 1 || n > 8 || width != 8 then refuseAs s how
  else unitFeed s u (natLe n v.toNat)

/-- CRC_DATA (R313). -/
def execCrcData (unit width : Nat) (value : Word) (s : State) : Reply := done (onlyIf (unit < 8) s fun s => writeCrcData s unit width value)

/-- CRC_SCAN_END (R309, R310): the scan goes to its end, or to the block whose read exceeds the engine timeout. -/
def execCrcScanEnd (unit : Nat) (stall : Option Nat) (ups : List Upset) (s : State) : Reply :=
  done (onlyIf (unit < 8 && unitBusy s unit) s fun s => inClass 4 s fun s => withUpsets ups s fun s =>
    match stall with
    | none => scanEnd s unit (unitLength s unit) 0
    | some n => scanEnd s unit (min (unitLength s unit) n) faultTimeout)

/-- The registers of a unit at their reset values (R305, R306). -/
def unitReset (s : State) (u : Nat) : State :=
  [R.CRC_CFG u, R.CRC_POLY u, R.CRC_INIT u, R.CRC_XOROUT u, R.CRC_VALUE u, R.CRC_EXPECT u, R.CRC_START u, R.CRC_LENGTH u,
   R.CRC_CTRL u, R.CRC_STATUS u, R.CRC_RESULT u, R.CRC_DATA u, R.CRC_PROGRESS u].foldl resetReg s

/-- All units taken by the IZ9 at a bind, or given back at a release: scans stop as PREEMPTED and every register is reset (R306). (DESIGN CHOICE, assumption log 106) -/
def unitsTake (s : State) (hold : Bool) : State :=
  let s := (List.range 8).foldl (fun s u => unitReset (if unitBusy s u then unitEnd s u faultPreempted else s) u) s
  setF s R.CRC_HELD F.CRC_HELD_IZ9 (if hold then 255 else 0)

end Sys2Proof.Machine
end

