-- ==== Sys2Proof/Machine/Tourbillon.lean ====
section
/-!
DEFINITION. Tourbillon streams: keys, draws, windows and their checks (09 R244 to R250).
-/
namespace Sys2Proof.Machine

/-- K_T of a stream (R244). -/
def trbKey (s : State) (t : Nat) : Bytes := kmac256 s.sec.bound.seed (natLe 1 t) 32 (izName [84, 82, 66])

/-- Draw number d under a key (R245). -/
def drawOf (key : Bytes) (d : Nat) : Nat := uAt (aes256 key (natLe 8 (d / 4) ++ zeros 8)) (4 * (d % 4)) 4

/-- STREAM and SITE of an RNG field (R246). -/
def rngStream (rng : Nat) : Nat := bitsOf rng 31 26
def rngSite (rng : Nat) : Nat := bitsOf rng 25 0

/-- D_T and P_T of a stream (R244, R257, R258). -/
def trbCounter (s : State) (t : Nat) : Nat := (rd s (R.TRB_COUNTER t)).toNat
def trbPer (s : State) (t : Nat) : Nat := getF s (R.TRB_PER_STEP t) F.TRB_PER_STEP_PER_STEP

/-- The committed step number (10 R299). -/
def committedStep (s : State) : Nat := (rd s R.ARB_ESC_STEP).toNat

/-- The first draw of a command's window (R247). -/
def windowOf (s : State) (rng : Nat) : Nat := (trbCounter s (rngStream rng) + rngSite rng * 2 ^ 18) % 2 ^ 64

/-- The draw for position q of a window that starts at w (R247). -/
def drawAt (key : Bytes) (w q : Nat) : Nat := drawOf key ((w + q) % 2 ^ 64)

/-- The checks of R250 on a window of n draws; wide says that a scatter-add's positions exceed 2^32. The answer is the status, DETAIL and DETAIL2 of the first that fails. -/
def drawFault (s : State) (rng n : Nat) (wide : Bool) : Option (Nat × Nat × Nat) :=
  if n = 0 then none
  else
    let t := rngStream rng
    let p := trbPer s t
    let d := trbCounter s t
    let want := p * committedStep s % 2 ^ 64
    let reach := rngSite rng * 2 ^ 18 + n
    if p = 0 then some (0x0414, t, 0)
    else if d != want then some (0x0410, t, want)
    else if reach > p then some (0x0412, 1, reach)
    else if d + p > 2 ^ 64 - 1 then some (0x0412, 2, reach)
    else if wide then some (0x0412, 3, reach)
    else none

/-- The Helm core that owns a stream, as its source number (03 R41, 19 R567). -/
def helmSource (stream : Nat) : Nat := srcOf 8 (stream % 32 / 8 * 8 + stream % 8)

/-- The entry of a skew (R250). -/
def noteSkew (s : State) (stream rng : Nat) : State :=
  let t := rngStream rng
  note s (helmSource stream) 0x04 clsLostWork t (trbPer s t * committedStep s % 2 ^ 64) (trbCounter s t)

/-- Every draw counter advanced by its per-step count (R249). -/
def advanceDraws (s : State) : State :=
  (List.range 64).foldl (fun s t => if trbPer s t = 0 then s else wr s (R.TRB_COUNTER t) (BitVec.ofNat 64 (trbCounter s t + trbPer s t))) s

end Sys2Proof.Machine
end

