-- ==== Sys2Proof/Machine/Report.lean ====
section
/-!
DEFINITION. Device identity, the installation authority's key, attestation reports and debug access (18 R530 to R537).
-/
namespace Sys2Proof.Machine

/-- SOURCE of the security island (19 R567). -/
def srcSec : Nat := srcOf 0xD 0

/-- IDENTITY_FAULT, DEBUG_UNLOCKED (R530, R532). -/
def identityFault (s : State) : Bool := flagF s R.SEC_STATUS F.SEC_STATUS_IDENTITY_FAULT
def debugUnlocked (s : State) : Bool := flagF s R.SEC_STATUS F.SEC_STATUS_DEBUG_UNLOCKED

/-- The revision outcome (20 R612). -/
def bootOutcome (s : State) : Nat := getF s R.ARB_BOOT_STATUS F.ARB_BOOT_STATUS_OUTCOME

/-- DIAGNOSTIC (20 R614). -/
def diagnostic (s : State) : Bool := getF s R.ARB_BOOT_STATUS F.ARB_BOOT_STATUS_STATE == 3

/-- The installation authority's key, empty where none is held, and INSTALLATION_ID (R534). -/
def authRecord (s : State) : Authority := (flashGet s.flash.authority).getD {}
def authKey (s : State) : Bytes := (authRecord s).key

/-- Whether a message is signed under the authority's key. -/
def underAuthority (s : State) (msg sig : Bytes) : Bool := authKey s != [] && Config.dsaVerify (authKey s) msg sig

/-- A signature under the identity key, 3,309 bytes; zeros with IDENTITY_FAULT, which signs nothing (R532). (DEDUCED, assumption log 31) -/
def signWith (s : State) (msg : Bytes) : Bytes × State :=
  if identityFault s then (zeros 3309, s) else (fit 3309 (Config.dsaSign s.sec.seed msg s.free), { s with free := s.free + 1 })

/-- n bytes of the security island's random source (R554). -/
def takeRandom (s : State) (n : Nat) : Bytes × State := (fit n (Config.random s.free n), { s with free := s.free + 1 })

/-! ### Reports (R535, R536) -/

/-- First 32 bytes of SHAKE256. -/
def digest32 (b : Bytes) : Bytes := shake256 b 32

/-- M_ALLOC, M_TABLES and M_BIND as they stand (R536). -/
def mAlloc (s : State) : Bytes := match s.fab.alloc with | some a => digest32 a.raw | none => zeros 32
def mTables (s : State) : Bytes := match s.fab.tables with | some t => digest32 t.raw | none => zeros 32
def tenantDigest (s : State) : Bytes := match s.fab.alloc with | some a => fit 32 a.tenantDigest | none => zeros 32
def mBind (s : State) : Bytes := if sliceState s == 2 then digest32 (tenantDigest s ++ natLe 8 s.sec.bound.bindId ++ s.sec.bound.offerDigest) else zeros 32

/-- EPOCH of the allocation in effect, 0 if none. -/
def allocGen (s : State) : Nat := match s.fab.alloc with | some a => a.epoch | none => 0

/-- The last scrub record (R555). -/
def lastScrub (s : State) : Bytes := match flashGet s.flash.bind with | some b => fit 128 b.scrub | none => zeros 128

/-- Bytes 0 to 511 of a report (R535). (DEDUCED, assumption log 31) -/
def reportBody (s : State) (nonce mb : Bytes) : Bytes :=
  natLe 4 1 ++ natLe 4 3821 ++ ownDigest ++ natLe 2 (myFid s) ++ natLe 2 (mySlice s) ++ natLe 1 (sliceState s) ++ natLe 1 (bootOutcome s) ++
  natLe 1 (b2n (debugUnlocked s)) ++ zeros 1 ++ natLe 8 (countNow s) ++ natLe 8 (rd s R.DRD_CHART_EPOCH).toNat ++ natLe 8 (allocGen s) ++ fit 32 nonce ++
  fit 32 s.boot.mFirmware ++ fit 32 s.fab.mChart ++ fit 32 s.boot.mDies ++ fit 32 s.boot.mSubset ++ mAlloc s ++ mTables s ++ fit 32 mb ++
  natLe 8 (getF s R.ARB_FW_INFO F.ARB_FW_INFO_SEC_VERSION) ++ natLe 8 (if sliceState s == 2 then committedStep s else 0) ++ tenantDigest s ++
  (if authKey s == [] then zeros 16 else shake256 (authKey s) 16) ++ lastScrub s

/-- A report over a nonce, with the given M_BIND. (DEDUCED, assumption log 31) -/
def makeReport (s : State) (nonce mb : Bytes) : Bytes × State :=
  let b := reportBody s nonce mb
  let (sig, s) := signWith s b
  (b ++ sig, s)

/-- A report sent through Bluvisen (R537, R542, 20 R621). -/
def sendReport (s : State) (nonce : Bytes) : State :=
  let (r, s) := makeReport s nonce (mBind s)
  bluvisen s .report [] r

/-- The report of a READY module (20 R621). -/
def bootReport (s : State) : State := sendReport s (digest32 (izName [66, 79, 79, 84] ++ natLe 8 ((flashGet s.flash.boots).getD 0)))

/-- Bytes written through the pilot into its host's memory: from the pilot itself at once, from any other module in a message (R528, R537). -/
def hostOut (s : State) (cls a : Nat) (bs : Bytes) : State := if isPilot s then hostWrite s a bs else toPilot s cls .hostWrite [a] bs

/-- ATTEST at intake (R537). (DEDUCED, assumption log 32) -/
def execAttest (s : State) : Reply := done (intakeWork s opATTEST (bodyChecks 160 fun p => [alignOk p 96 8 64, rsvOk p 104 24]))

/-- A started ATTEST: the report is written and the command's work ends (R537). (DEDUCED, assumption log 32) -/
def attestRun (s : State) (q c : Nat) (p : Bytes) : State :=
  let m := countNow s
  let (r, s) := makeReport s (sub p 64 32) (mBind s)
  endCmd (hostOut s 1 (uAt p 96 8) r) q c 0 0 0 m

/-- ATTESTATION_REQUEST (R537): at most ten reports in a second, a busy reply to any further request. -/
def execAttestationRequest (nonce : Bytes) (s : State) : Reply :=
  done (onlyIf (bluvisenOn s) s fun s =>
    let sec := s.now / 1000000000
    let n := if s.ladder.attSecond == sec then s.ladder.attCount else 0
    if n < 10 then sendReport { s with ladder := { s.ladder with attSecond := sec, attCount := n + 1 } } nonce else tellBluvisen s 537 [])

/-! ### The authority's key and debug (R530, R534) -/

/-- The authority record written (R534, 20 R615). -/
def setAuthority (s : State) (a : Authority) : State :=
  setF { s with flash := { s.flash with authority := flashPut s.flash.authority a } } R.SEC_STATUS F.SEC_STATUS_AUTHORITY_SET (b2n (a.key != []))

/-- What an enrolment message is signed over: its fields in order (DESIGN CHOICE, assumption log 10). -/
def enrolBytes (key : Bytes) (installation : Nat) (collector : Bytes) : Bytes := key ++ natLe 8 installation ++ collector

/-- ENROLMENT (R534, 20 R618): the first one signed under the key it carries. -/
def execEnrolment (key : Bytes) (installation : Nat) (collector sig : Bytes) (s : State) : Reply :=
  done (onlyIf (bluvisenOn s && (flashGet s.flash.authority).isSome && authKey s == [] && key != [] && Config.dsaVerify key (enrolBytes key installation collector) sig) s fun s =>
    setAuthority s { key := key, installation := installation, collector := collector })

/-- AUTHORITY_HANDOVER (R534): the new key, signed by the current one. -/
def execAuthorityHandover (key sig : Bytes) (s : State) : Reply :=
  done (onlyIf (bluvisenOn s && key != [] && underAuthority s key sig) s fun s => setAuthority s { authRecord s with key := key })

/-- DEBUG_UNLOCK (R530): a token signed for this serial unlocks debug on an UNBOUND module. -/
def execDebugUnlock (sig : Bytes) (s : State) : Reply :=
  done (onlyIf (sliceState s == 0 && Config.dsaVerify Config.omwethenKey Config.serial sig) s fun s => setF s R.SEC_STATUS F.SEC_STATUS_DEBUG_UNLOCKED 1)

/-- DEBUG_ACCESS (R530): served on an unlocked UNBOUND module, else refused and logged. (DESIGN CHOICE, assumption log 33) -/
def execDebugAccess (addr len : Nat) (write : Option Bytes) (s : State) : Reply :=
  done (if debugUnlocked s && sliceState s == 0 then
      match write with
      | some bs => (runMM (writeBytes addr bs) s).2
      | none =>
        match runMM (readRaw addr len) s with
        | (.ok bs, s) => send s .arborFlit 3 [addr] bs
        | (.error _, s) => s
    else noteAt s srcSec 0x06 clsInfo)

end Sys2Proof.Machine
end

