-- ==== Sys2Proof/Machine/Ports.lean ====
section
/-!
DEFINITION. Ports as a whole: local wavelengths and lanes, identity blocks, discovery reports and the states of R419 (14 R397, R410 to R419, 15 R431, R432, 20 R619).
-/
namespace Sys2Proof.Machine

/-! ### Draws and lanes (15 R431, R432, 14 R396) -/

/-- The Rose die of a port, and its index there (15 R431). -/
def roseOf (p : Nat) : Nat := p / 16
def localOf (p : Nat) : Nat := p % 16

/-- The route word of a local input port in a draw of a Rose die: all LOCAL where no table set gives the draw (15 R432, R434, R459). -/
def drawWord (s : State) (die draw i : Nat) : Nat :=
  match s.fab.tables.bind fun t => t.draws.find? fun d => d.rose == die && d.draw == draw with
  | some d => d.words.getD i 0
  | none => 0

/-- The entry of a wavelength in a route word: none for LOCAL, the output port for PASS (15 R459). -/
def entryAt (w k : Nat) : Option Nat :=
  let e := bitsOf w (5 * k + 4) (5 * k)
  if e / 16 == 1 then some (e % 16) else none

/-- Local receive wavelengths of a local port, from the sixteen words of a draw: those whose entries are LOCAL (15 R432). -/
def localRxOf (ws : List Nat) (i : Nat) : List Nat := (List.range 9).filter fun k => (entryAt (ws.getD i 0) k).isNone

/-- Local transmit wavelengths: those that no entry passes to the port (15 R432). -/
def localTxOf (ws : List Nat) (i : Nat) : List Nat := (List.range 9).filter fun k => (List.range 16).all fun j => entryAt (ws.getD j 0) k != some i

/-- The sixteen words of a draw of a Rose die. -/
def drawWords (s : State) (die draw : Nat) : List Nat := (List.range 16).map fun i => drawWord s die draw i

/-- Local wavelengths of a port under a draw, of the direction it sends or receives. -/
def localWaves (s : State) (draw p : Nat) (tx : Bool) : List Nat :=
  let ws := drawWords s (roseOf p) draw
  if tx then localTxOf ws (localOf p) else localRxOf ws (localOf p)

/-- Whether a port passes every lane through under a draw (15 R432, R419). -/
def passesAll (s : State) (draw p : Nat) : Bool := localWaves s draw p true == [] && localWaves s draw p false == []

/-- A direction's logical lanes: the wavelength of each, 15 where dropped (R423). -/
def lanesOf (s : State) (p : Nat) (tx : Bool) : List Nat :=
  let m := getF s (R.DRD_PORT_LANES p) (if tx then F.DRD_PORT_LANES_TX_MAP else F.DRD_PORT_LANES_RX_MAP)
  (List.range 8).map fun i => bitsOf m (4 * i + 3) (4 * i)

/-- The lanes of a direction set, with the counts and the spare flag that DRD_PORT_STATUS shows (R420, R423). -/
def setLaneMap (s : State) (p : Nat) (tx : Bool) (m : List Nat) : State :=
  let v := (m.zipIdx.map fun e => e.1 * 16 ^ e.2).sum
  let n := (m.filter (· != 15)).length
  let s := setF s (R.DRD_PORT_LANES p) (if tx then F.DRD_PORT_LANES_TX_MAP else F.DRD_PORT_LANES_RX_MAP) v
  let s := setF s (R.DRD_PORT_STATUS p) (if tx then F.DRD_PORT_STATUS_LANES_TX else F.DRD_PORT_STATUS_LANES_RX) n
  setF s (R.DRD_PORT_STATUS p) (if tx then F.DRD_PORT_STATUS_SPARE_TX else F.DRD_PORT_STATUS_SPARE_RX) (b2n (m.contains 8))

/-- Active logical lanes, sent and received. -/
def lanesTx (s : State) (p : Nat) : Nat := getF s (R.DRD_PORT_STATUS p) F.DRD_PORT_STATUS_LANES_TX
def lanesRx (s : State) (p : Nat) : Nat := getF s (R.DRD_PORT_STATUS p) F.DRD_PORT_STATUS_LANES_RX

/-- The state of a port in service by its lanes: UP with eight each way, else DEGRADED; TRAINING below four (R410, R419). -/
def laneState (s : State) (p : Nat) : Nat :=
  let l := min (lanesTx s p) (lanesRx s p)
  if l ≥ 8 then 5 else if l ≥ 4 then 6 else 1

/-- The lanes that the local wavelengths give where the given ones among them are out: each logical lane takes its wavelength in ascending order, and the spare, where there is one and it is not out, takes the lowest logical lane whose own is out (15 R432, R410). -/
def lanesWithout (locs out : List Nat) : List Nat :=
  let m := (List.range 8).map fun i => match locs[i]? with | some k => if out.contains k then 15 else k | none => 15
  if locs.length == 9 && !out.contains 8 then
    match m.idxOf? 15 with
    | some i => modNth i (fun _ => 8) m
    | none => m
  else m

/-! ### Identity (R412) -/

/-- Highest version this module gives: 2 while Darend version 3 is withheld (R412, 20 R613). -/
def verMax (s : State) : Nat := if (getF s R.ARB_WITHHELD F.ARB_WITHHELD_ROSE).testBit 0 then 2 else getF s R.DRD_STATUS F.DRD_STATUS_VER_MAX

/-- The identity block of a port, 62 bytes (R412). -/
def identityBlock (s : State) (p : Nat) : Bytes :=
  let x := getPort s p
  ownDigest ++ natLe 2 (myFid s) ++ natLe 1 p ++ natLe 1 (getF s R.DRD_STATUS F.DRD_STATUS_VER_MIN) ++ natLe 1 (verMax s) ++ natLe 1 (bootOutcome s) ++
  natLe 8 (rd s R.DRD_CHART_EPOCH).toNat ++ natLe 8 x.rxNext ++ natLe 8 x.txNext ++
  natLe 1 (b2n x.peer.isSome + 2 * b2n (match ownEntry s with | some e => e.pilot | none => false)) ++ zeros 7

/-- Fields of an identity block. -/
def idDigest (b : Bytes) : Bytes := sub b 0 24
def idFid (b : Bytes) : Nat := uAt b 24 2
def idPort (b : Bytes) : Nat := uAt b 26 1
def idVerMin (b : Bytes) : Nat := uAt b 27 1
def idVerMax (b : Bytes) : Nat := uAt b 28 1
def idBoot (b : Bytes) : Nat := uAt b 29 1
def idEpoch (b : Bytes) : Nat := uAt b 30 8
def idRxNext (b : Bytes) : Nat := uAt b 38 8
def idTxNext (b : Bytes) : Nat := uAt b 46 8
def idSeen (b : Bytes) : Bool := (uAt b 54 1).testBit 0

/-- HELLO0 and HELLO1 sent on a port (R412). (DEDUCED, assumption log 45) -/
def sendHello (s : State) (p : Nat) : State :=
  let b := identityBlock s p
  let s := modPort s p fun x => { x with ident := b, identNs := s.now }
  sendBlock (sendBlock s p .hello [0] (sub b 0 31)) p .hello [1] (sub b 31 31)

/-- The peer's identity block as DRD_PORT_STATUS, DRD_PORT_PEER and DRD_PORT_PEER_INFO show it (R420 to R422). (DEDUCED, assumption log 45) -/
def showPeer (s : State) (p : Nat) (b : Bytes) : State :=
  let s := setF (setF s (R.DRD_PORT_STATUS p) F.DRD_PORT_STATUS_PEER_FID (idFid b)) (R.DRD_PORT_STATUS p) F.DRD_PORT_STATUS_PEER_PORT (idPort b)
  let s := wr s (R.DRD_PORT_PEER p) (BitVec.ofNat 64 (uAt b 0 8))
  let s := setF (setF s (R.DRD_PORT_PEER_INFO p) F.DRD_PORT_PEER_INFO_VER_MAX (idVerMax b)) (R.DRD_PORT_PEER_INFO p) F.DRD_PORT_PEER_INFO_VER_MIN (idVerMin b)
  setF (setF s (R.DRD_PORT_PEER_INFO p) F.DRD_PORT_PEER_INFO_BOOT (idBoot b)) (R.DRD_PORT_PEER_INFO p) F.DRD_PORT_PEER_INFO_EPOCH_LO (idEpoch b)

/-! ### Discovery (20 R619) -/

/-- What a discovery report gives for each port: its state, then bytes 0 to 37 of the peer's identity block. -/
def discoveryBody (s : State) : Bytes := (allPorts.map fun p => natLe 1 (portState s p) ++ fit 38 ((getPort s p).peer.getD [])).flatten

/-- A signed discovery report, at most one in a second; one that comes too soon waits (20 R619). (DEDUCED, assumption log 51) -/
def discover (s : State) : State :=
  if (match s.boot.lastDiscovery with | some t => decide (t + 1000000000 ≤ s.now) | none => true) then
    let b := discoveryBody s
    let (sig, s) := signWith s b
    bluvisen { s with boot := { s.boot with lastDiscovery := some s.now, discoveryDue := false } } .discovery [] (b ++ sig)
  else { s with boot := { s.boot with discoveryDue := true } }

/-- A discovery report that has waited for its second. (DEDUCED, assumption log 51) -/
def discoverLate (s : State) : State := if s.boot.discoveryDue then discover s else s

/-- After a change of a port's state: a report while the fabric ID is 0 or any port is MISCHARTED, DISCORDANT or QUARANTINED (20 R619). (DEDUCED, assumption log 51) -/
def discoverChange (s : State) : State :=
  if isReady s && (myFid s == 0 || allPorts.any fun p => portState s p == 2 || portState s p == 3 || portState s p == 4) then discover s else s

/-! ### Port states (R408, R419) -/

/-- Whether a queued message goes to the peer of its port alone, and so never by another port. -/
def staysOnPort (f : SentFrame) : Bool :=
  match f.msg.kind with
  | .chartChunk | .chartReq | .kxHello | .kxCt | .sliceConfirm | .ferryBlock | .ferryFinal | .broadcast => true
  | _ => f.dest == 0xFFFF

/-- Frames queued at a port that has left service go by the choice of R485 anew; those for the peer itself wait. (DEDUCED, assumption log 50) -/
def requeue (s : State) (p : Nat) : State :=
  let q := (getPort s p).queue
  (q.filter fun f => !staysOnPort f).foldl (fun s f => routeFrame s f) (modPort s p fun x => { x with queue := x.queue.filter staysOnPort })

/-- What begins a training: its phase by the light there is, its counts, and nothing received yet (R413). (DEDUCED, assumption log 43) -/
def beginTraining (now : Nat) (x : Port) : Port :=
  { x with phase := if x.lit.length ≥ 4 then 2 else 1, phaseNs := now, trainNs := now, tries := 0, aligns := [], missing := [], changes := [], hello0 := none, peer := none, peerTwice := false, quick := false, hold := none }

/-- A port put into a state: DRD_EVENTS, DRD_STATUS.IN_SERVICE and the moment it left service; an entry to TRAINING is counted, and the eighth from service in a watch fences the port (R419, R427). -/
def setPortState (s : State) (p v : Nat) : State :=
  let old := portState s p
  if old == v then s
  else
    let was := old == 5 || old == 6
    let fromUp := was && v == 1
    let n := getF s (R.DRD_PORT_LOST p) F.DRD_PORT_LOST_TRAIN_WATCH + b2n fromUp
    let s := if fromUp then setF s (R.DRD_PORT_LOST p) F.DRD_PORT_LOST_TRAIN_WATCH n else s
    let s := if v == 1 then incF s (R.DRD_PORT_LOST p) F.DRD_PORT_LOST_TRAININGS 1 else s
    let v := if fromUp && n ≥ 8 then 8 else v
    let s := setF s (R.DRD_PORT_STATUS p) F.DRD_PORT_STATUS_STATE v
    let s := setBitF s R.DRD_EVENTS F.DRD_EVENTS_CHANGED p true
    let now := v == 5 || v == 6
    let s := setBitF s R.DRD_STATUS F.DRD_STATUS_IN_SERVICE p now
    let s := modPort s p fun x =>
      let x := { x with leftNs := if now then none else if was then some s.now else x.leftNs, phaseNs := s.now }
      if v == 1 then beginTraining s.now x else if now then { x with phase := 7 } else { x with phase := 0 }
    let s := showPorts s
    let s := if was && !now then requeue s p else s
    let s := if now then retryRoutes (pump s p) else s
    discoverChange s

/-- TRAINING from the start, also for a port that already trains (R413). -/
def retrain (s : State) (p : Nat) : State := if portState s p == 1 then modPort s p (beginTraining s.now) else setPortState s p 1

/-- A port in service after its lanes have changed: UP, DEGRADED, or TRAINING below four lanes (R410, R419). -/
def lanesChanged (s : State) (p : Nat) : State := if inService s p then setPortState s p (laneState s p) else s

/-! ### Holds and the timers they stop (R409) -/

/-- The part of the time from t to now that a hold covers. -/
def heldTime (h : Option PortHold) (t now : Nat) : Nat := match h with | some h => min now h.endNs - max t h.startNs | none => 0

/-- The time since t that counts on a port (R409). -/
def counted (s : State) (p t : Nat) : Nat := s.now - t - heldTime (getPort s p).hold t s.now

/-- The hold of a port taken away, its time taken out of the timers that ran beside it. -/
def dropHold (s : State) (p : Nat) : State :=
  modPort s p fun x => { x with hold := none, ackNs := x.ackNs + heldTime x.hold x.ackNs s.now, leftNs := x.leftNs.map fun t => t + heldTime x.hold t s.now }

/-- The first clean block after the end of a hold ends it (R409). -/
def cleanBlock (s : State) (p : Nat) : State := match (getPort s p).hold with | some h => if h.endNs ≤ s.now then dropHold s p else s | none => s

/-- Time on this module at which a beat begins, in ns since power-up; now for a beat already begun. -/
def beatNs (s : State) (b : Nat) : Nat := s.now + (b * 65536 - countNow s)

/-- A hold put on a port: its start beat, its duration and its reason, which also stop the stall timers of the relays and exchanges for as long (R409, 06 R165). -/
def putHold (s : State) (p beat us reason : Nat) : State :=
  let st := beatNs s beat - min (beatNs s beat) (countNow s - beat * 65536)
  let s := dropHold s p
  let apart := allPorts.all fun q => match (getPort s q).hold with | some h => h.endNs ≤ st || st + us * 1000 ≤ h.startNs | none => true
  let s := modPort s p fun x => { x with hold := some ⟨st, st + us * 1000, reason⟩ }
  if apart then
    { s with fleet := { s.fleet with relays := s.fleet.relays.map fun (w : RelayWork) => { w with waitNs := w.waitNs + us * 1000 },
                                     exchanges := s.fleet.exchanges.map fun (w : Exchange) => { w with waitNs := w.waitNs + us * 1000 } } }
  else s

/-- A HOLD block sent, and kept here too (R409). -/
def sendHold (s : State) (p beat us reason : Nat) : State := putHold (sendBlock s p .hold [beat, us, reason]) p beat us reason

end Sys2Proof.Machine
end

