-- ==== Sys2Proof/Machine/Bearing.lean ====
section
/-!
DEFINITION. Rings and their bearing locks, and the lanes they carry (15 R440 to R446, 14 R410, R411).
-/
namespace Sys2Proof.Machine

/-- The number of a ring: Rose die, kind (0 modulator, 1 drop filter, 2 switch ring), local port, wavelength (15 R460). -/
def ringNo (p kind k : Nat) : Nat := roseOf p * 1024 + kind * 256 + localOf p * 16 + k

/-- The port, kind and wavelength of a ring. -/
def ringPort (n : Nat) : Nat := n / 1024 * 16 + n % 256 / 16
def ringKind (n : Nat) : Nat := n % 1024 / 256
def ringWave (n : Nat) : Nat := n % 16

/-- Whether a number names a ring. -/
def isRing (n : Nat) : Bool := n < 2048 && ringKind n < 3 && ringWave n < 9

/-- A ring, and a ring changed. -/
def getRing (s : State) (n : Nat) : Ring := mapGetD {} s.rose.rings n
def modRing (s : State) (n : Nat) (f : Ring → Ring) : State := { s with rose := { s.rose with rings := mapPutD {} s.rose.rings n (f (getRing s n)) } }

/-- Every ring of a Rose die. -/
def ringsOf (die : Nat) : List Nat := (List.range 1024).filterMap fun i => if isRing (die * 1024 + i) then some (die * 1024 + i) else none

/-- SOURCE of a feed line (19 R567). -/
def lineSource (k : Nat) : Nat := srcOf 0xA k

/-- A ring found outside its window: MISBEARING, counted, and due for a sweep (15 R443, R444). -/
def misbear (s : State) (n : Nat) : State :=
  if (getRing s n).state == 3 || (getRing s n).state == 5 then s
  else
    let s := modRing s n fun r => { r with state := 3, misbearings := min 255 (r.misbearings + 1), clean := 0, due := true, fails := 0 }
    incF s (R.RSEn_BEARING_COUNTS (n / 1024)) F.RSEn_BEARING_COUNTS_MISBEARINGS 1

/-! ### Lanes out and back (14 R410, R411) -/

/-- Whether the spare wavelength of a direction is free to take a lane: there is one, it carries none, and its filter ring is in order. -/
def spareFree (s : State) (p : Nat) (tx : Bool) : Bool :=
  let m := lanesOf s p tx
  (localWaves s (currentDraw s) p tx).length == 9 && !m.contains 8 && (getPort s p).lit.contains 8 &&
  (getRing s (ringNo p (if tx then 0 else 1) 8)).state != 3 && (getRing s (ringNo p (if tx then 0 else 1) 8)).state != 5 &&
  !((getPort s p).changes.any fun c => c.tx == tx && c.takeOut && c.wavelength == 8)

/-- A lane change asked of the peer for a lane this end receives: its block, and its record until the marker (R410). (DEDUCED, assumption log 42) -/
def askChange (s : State) (p : Nat) (takeOut : Bool) (i w : Nat) : State :=
  let at_ := (getPort s p).markerCount + 2
  let s := sendBlock s p .laneChange [b2n (!takeOut), i, w, at_]
  modPort s p fun x => { x with changes := x.changes.filter (fun c => c.tx || c.logical != i) ++ [⟨false, takeOut, i, w, at_, false⟩] }

/-- A received lane taken out: the spare takes it where it is free; where fewer than four lanes would be left the port trains (R410). (DEDUCED, assumption log 42) -/
def takeLaneOut (s : State) (p i : Nat) : State :=
  let m := lanesOf s p false
  if m.getD i 15 == 15 || (getPort s p).changes.any (fun c => !c.tx && c.takeOut && c.logical == i) then s
  else if spareFree s p false && m.getD i 15 != 8 then askChange s p true i 8
  else
    let going := ((getPort s p).changes.filter fun c => !c.tx && c.takeOut && c.wavelength == 15).length
    if lanesRx s p < 5 + going then retrain s p else askChange s p true i 15

/-- A wavelength whose ring is in order again returns: to the lowest dropped logical lane, or in place of the spare (R411). -/
def bringBack (s : State) (p w : Nat) : State :=
  let m := lanesOf s p false
  if m.contains w || (getPort s p).changes.any (fun c => !c.tx && !c.takeOut && c.wavelength == w) then s
  else
    match m.idxOf? 15 with
    | some i => askChange s p false i w
    | none => match m.idxOf? 8 with | some i => if w == 8 then s else askChange s p false i w | none => s

/-- A wavelength found out of order takes the logical lane it carries out of its link (15 R444); one that carries none has nothing to take out. (DEDUCED, assumption log 42) -/
def takeWaveOut (s : State) (p w : Nat) : State := match (lanesOf s p false).idxOf? w with | some i => takeLaneOut s p i | none => s

/-- The check of 15 R440 after an ALIGN mismatch, on the rings of both wavelengths: those outside their window misbear; where none is, all of them wait for a sweep (15 R443). -/
def checkWaves (s : State) (p a b : Nat) (outside : List (Nat × Nat)) : State :=
  let rings := ((if a == b then [a] else [a, b]).map fun k => [ringNo p 0 k, ringNo p 1 k, ringNo p 2 k]).flatten.filter isRing
  let bad := rings.filter fun n => outside.contains (ringKind n, ringWave n)
  if bad == [] then rings.foldl (fun s n => modRing s n fun r => { r with due := true }) s else bad.foldl misbear s

/-- ALIGN (14 R397, R410, R413, 15 R443, R444): in training valid blocks are counted by filter; in service a block is compared with the lane, wavelength and port expected, and clean blocks on a wavelength that is out bring it back after 2^20 of them. -/
def alignBlock (s : State) (p : Nat) (a : AlignIn) : State :=
  let x := getPort s p
  let st := portState s p
  if st == 1 then
    let good := a.formed && a.wavelength == a.filter
    modPort s p fun x => { x with markerCount := if a.formed then a.marker else x.markerCount, aligns := if good then mapPut x.aligns a.filter (mapGetD 0 x.aligns a.filter + 1) else mapDel x.aligns a.filter }
  else if !inService s p || holding s x then s
  else
    let m := lanesOf s p false
    let lane := m.idxOf? a.filter
    let n := ringNo p 1 a.filter
    let s := modPort s p fun x => { x with markerCount := if a.formed then a.marker else x.markerCount }
    if !a.formed then
      let k := mapGetD 0 x.missing a.filter + 1
      let s := modRing (modPort s p fun x => { x with missing := mapPut x.missing a.filter k }) n fun r => { r with clean := 0 }
      if k ≥ 2 then match lane with | some i => takeLaneOut s p i | none => s else s
    else
      let s := modPort s p fun x => { x with missing := mapDel x.missing a.filter }
      let portOk := a.port == getF s (R.DRD_PORT_STATUS p) F.DRD_PORT_STATUS_PEER_PORT
      let laneOk := match lane with | some i => a.logical == i | none => true
      if a.wavelength != a.filter then
        let s := modRing s n fun r => { r with clean := 0 }
        checkWaves (match lane with | some i => takeLaneOut s p i | none => s) p a.filter a.wavelength a.outside
      else if !portOk || !laneOk then
        let s := modRing s n fun r => { r with clean := 0 }
        match lane with | some i => takeLaneOut s p i | none => s
      else
        let out := lane.isNone && (localWaves s (currentDraw s) p false).contains a.filter && (a.filter != 8 || m.contains 15)
        if out && (getRing s n).state == 2 && !(getRing s n).verify then
          let s := modRing s n fun r => { r with clean := r.clean + 1 }
          if (getRing s n).clean ≥ 2 ^ 20 then bringBack s p a.filter else s
        else s

/-- LANE_CHANGE (R410, R411): the peer's request concerns the lanes this end sends, and is echoed; in training it holds at once. An echo answers a request of this end. -/
def execLaneChange (port action logical wavelength atMarker : Nat) (s : State) : Reply :=
  done (onlyIf (port < 32 && logical < 8 && (wavelength ≤ 8 || wavelength == 15) && (portState s port == 1 || inService s port)) s fun s =>
    if action < 2 then
      let s := sendBlock s port .laneChange [action + 2, logical, wavelength, atMarker]
      if portState s port == 1 then setLaneMap s port true (modNth logical (fun _ => wavelength) (lanesOf s port true))
      else modPort s port fun x => { x with changes := x.changes.filter (fun c => !c.tx || c.logical != logical) ++ [⟨true, action == 0, logical, wavelength, atMarker, true⟩] }
    else if action < 4 then
      modPort s port fun x => { x with changes := x.changes.map fun (c : LaneChange) => if !c.tx && c.logical == logical && c.wavelength == wavelength && c.atMarker == atMarker && c.takeOut == (action == 2) then { c with echoed := true } else c }
    else s)

/-- LANE_RESTRIPE (R410): at AT_MARKER the direction is striped over its new lanes; a request without its echo is sent again with a later marker. -/
def execLaneRestripe (port : Nat) (tx : Bool) (logical : Nat) (s : State) : Reply :=
  done (match (getPort s port).changes.find? fun c => c.tx == tx && c.logical == logical with
    | none => s
    | some c =>
      if !c.echoed then askChange (modPort s port fun x => { x with markerCount := max x.markerCount c.atMarker }) port c.takeOut c.logical c.wavelength
      else
        let s := modPort s port fun x => { x with changes := x.changes.erase c }
        let s := setLaneMap s port tx (modNth logical (fun _ => c.wavelength) (lanesOf s port tx))
        let s := if tx || c.takeOut then s else modRing s (ringNo port 1 c.wavelength) fun r => { r with clean := 0 }
        lanesChanged s port)

/-- LANE_OUT (R410): a lane fault as the receiver finds it; FEC counts rise whether or not the lane goes out (R424). -/
def execLaneOut (port logical : Nat) (fault : LaneFault) (s : State) : Reply :=
  done (onlyIf (port < 32 && logical < 8 && inService s port && !holding s (getPort s port)) s fun s =>
    match fault with
    | .missing n => if n ≥ 2 then takeLaneOut s port logical else s
    | .codewords n =>
      let s := incF s (R.DRD_PORT_FEC port) F.DRD_PORT_FEC_UNCORRECTABLE n
      if n ≥ 4 then takeLaneOut s port logical else s
    | .symbols n =>
      let s := incF s (R.DRD_PORT_FEC port) F.DRD_PORT_FEC_CORRECTED n
      if n > 2048 then takeLaneOut s port logical else s
    | .skew ns => if ns > 64 then takeLaneOut s port logical else s
    | .light =>
      let s := modPort s port fun x => { x with lit := x.lit.filter (· != (lanesOf s port false).getD logical 15) }
      if (getPort s port).lit == [] then setPortState s port 0 else takeLaneOut s port logical)

end Sys2Proof.Machine
end

