-- ==== Sys2Proof/Machine/Keys.lean ====
section
/-!
DEFINITION. Link, slice and ferry keys: the exchange of a port, what is derived from it, rotation and expiry (18 R543 to R546, 14 R418).
-/
namespace Sys2Proof.Machine

/-- Customisation strings of the derivations (18 R543, R544, R546). -/
def nmLik : Bytes := izName [76, 73, 75]
def nmSlk : Bytes := izName [83, 76, 75]
def nmSlc : Bytes := izName [83, 76, 67]
def nmFry : Bytes := izName [70, 82, 89]
def nmFlk : Bytes := izName [70, 76, 75]

/-- The record of an exchange on a port: its link key exchange, or that of its ferry key. -/
def kxKey (p : Nat) (ferry : Bool) : Nat := p * 2 + b2n ferry

/-- An exchange put down or dropped. -/
def putKx (s : State) (p : Nat) (ferry : Bool) (k : KeyExchange) : State := { s with sec := { s.sec with exchanges := mapPut s.sec.exchanges (kxKey p ferry) k } }
def dropKx (s : State) (p : Nat) (ferry : Bool) : State := { s with sec := { s.sec with exchanges := mapDel s.sec.exchanges (kxKey p ferry) } }
def getKx (s : State) (p : Nat) (ferry : Bool) : Option KeyExchange := mapGet s.sec.exchanges (kxKey p ferry)

/-- KEY_PHASE, KEYED and DRD_ADMIT as the keys of a port have them (14 R420, 18 R561). -/
def showKeys (s : State) (p : Nat) : State :=
  let s := match sendGen s p 0 with
    | some g => setBitF (setF s (R.DRD_PORT_STATUS p) F.DRD_PORT_STATUS_KEY_PHASE g.phase) R.SEC_LINK_KEYS F.SEC_LINK_KEYS_KEYED p true
    | none => setBitF s R.SEC_LINK_KEYS F.SEC_LINK_KEYS_KEYED p false
  showPorts s

/-- Whether this end is the lower of the two (18 R543 step 3). -/
def lowerThan (a b : Bytes) : Bool := beNat a < beNat b

/-- Bytes of a KX_HELLO without its signature: chain, encapsulation key, nonce (18 R543 step 1). (DEDUCED, assumption log 45) -/
def helloFields (chain ek nonce : Bytes) : Bytes := chain ++ ek ++ nonce

/-- A message of key setup: outside the sequence numbers in phase 6, where only the setup key is there, and otherwise a management frame of installation scope (18 R543, R545). (DEDUCED, assumption log 34) -/
def sendSetup (s : State) (p : Nat) (kind : OutKind) (ferry : Bool) (data : Bytes) : State :=
  if portState s p == 1 then sendBlock s p kind [b2n ferry] data else sendOnPort s p 0 0 kind [b2n ferry] data

/-- An exchange begun: a fresh encapsulation key and nonce, signed with the identity block, and for a ferry key the report (18 R543 step 1, R546). (DEDUCED, assumption log 34) -/
def startKx (s : State) (p : Nat) (ferry rotation : Bool) : State :=
  let (nonce, s) := takeRandom s 32
  let draw := s.free
  let s := { s with free := s.free + 1 }
  let body := helloFields ((flashGet s.flash.chain).getD []) (fit 1568 (Config.kemPublic draw)) nonce
  let (sig, s) := signWith s (body ++ (getPort s p).ident)
  let (rep, s) := if ferry then makeReport s nonce (mBind s) else ([], s)
  let hello := body ++ sig ++ rep
  let s := putKx s p ferry { draw := draw, nonce := nonce, hello := hello, ferry := ferry, rotation := rotation, startNs := s.now }
  sendSetup s p .kxHello ferry hello

/-- A failed signature or chain check: the port goes to QUARANTINED (18 R543, R545). -/
def kxFail (s : State) (p : Nat) (ferry : Bool) : State := setPortState (dropKx s p ferry) p 4

/-- The slice link key material of a generation, where the module is BOUND and the charted peer a member (18 R544). -/
def sliceMaterial (s : State) (p : Nat) (g : KeyGen) : Bytes :=
  if sliceState s == 2 && isMember s (chartedPeer s p) then kmac256 s.sec.bound.kFab (g.secret ++ natLe 2 (mySlice s) ++ natLe 8 g.rot) 72 nmSlk else []

/-- The confirmation of this end under the newest slice material (18 R544). (DEDUCED, assumption log 36) -/
def sendConfirm (s : State) (p : Nat) : State :=
  match (getPort s p).keys.find? fun g => g.slice != [] with
  | some g => sendOnPort s p 0 0 .sliceConfirm [p] (kmac256 g.slice ownDigest 32 nmSlc)
  | none => s

/-- Slice material derived for every generation of a port's keys, and the confirmation sent (18 R544). (DEDUCED, assumption log 36) -/
def deriveSlice (s : State) (p : Nat) : State :=
  let s := modPort s p fun x => { x with keys := x.keys.map fun (g : KeyGen) => { g with slice := sliceMaterial s p g } }
  if (getPort s p).keys.any fun g => g.slice != [] then showKeys (sendConfirm s p) p else showKeys s p

/-- The shared secret of an exchange put to use: the installation keys, with the slice and ferry keys of a rotation; or the ferry keys (18 R543 step 4, R545, R546). (DEDUCED, assumption log 37) -/
def installKeys (s : State) (p : Nat) (ferry : Bool) (k : KeyExchange) (ss transcript : Bytes) : State :=
  let x := digest32 transcript
  let low := lowerThan ownDigest (idDigest ((getPort s p).peer.getD []))
  let s := dropKx s p ferry
  if ferry then
    let s := modPort s p fun q =>
      { q with keys := match q.keys with | g :: r => { g with ferry := kmac256 ss x 72 nmFlk, ferryKey := kmac256 ss x 72 nmFry } :: r | [] => [] }
    pump (showKeys s p) p
  else
    let rot := if k.rotation then (watchNow s + 16) / 16384 else rotNow s
    let had := match (getPort s p).keys with | g :: _ => g.ferryKey != [] | [] => false
    let g : KeyGen := { phase := rot % 2, rot := rot, lower := low, secret := ss, inst := kmac256 ss x 72 nmLik,
                        ferry := if k.rotation && had then kmac256 ss x 72 nmFlk else [], ferryKey := if k.rotation && had then kmac256 ss x 72 nmFry else [] }
    let s := modPort s p fun q => { q with keys := g :: q.keys, newSeen := none }
    if k.rotation then
      let s := modPort s p fun q => { q with keys := q.keys.map fun (h : KeyGen) => if h == g then { h with slice := sliceMaterial s p h } else h }
      pump (showKeys s p) p
    else
      let s := modPort (setBitF s R.SEC_LINK_KEYS F.SEC_LINK_KEYS_SLICE_CONFIRMED p false) p fun q => { q with phase := 7, phaseNs := s.now }
      deriveSlice s p

/-- Whether the report that comes with a ferry hello lets this end accept the other (18 R546): on the sender the authorised recipient, on the recipient the slice of its route. -/
def ferryPeerOk (s : State) (p : Nat) (report : Bytes) (chain : Bytes) : Bool :=
  match s.fab.tables.bind fun t => t.ferries.find? fun r => r.port == p with
  | none => false
  | some r =>
    let body := sub report 0 512
    Config.dsaVerify (Config.chainKey chain) body (report.drop 512) && uAt body 36 1 == 2 && uAt body 34 2 == r.peerSlice &&
    (r.role == 1 || (uAt body 37 1 != 2 && uAt body 38 1 == 0 && mapGet s.sec.ferryAuth r.route == some (sub body 336 32)))

/-- KX_HELLO (18 R543 steps 1 to 3, R545, R546): checked against the chain, the serial and the signature; the lower end encapsulates. A rotation or ferry hello that comes before this end's own begins the exchange here. (DEDUCED, assumption log 37) -/
def execKxHello (port : Nat) (ferry : Bool) (h : HelloIn) (s : State) : Reply :=
  let training := portState s port == 1 && (getPort s port).phase == 6
  done (onlyIf (port < 32 && (if ferry then inService s port && (ferryTagOf s port).isSome else training || (inService s port && (sendGen s port 0).isSome))) s fun s =>
    let s := if (getKx s port ferry).isSome then s else startKx s port ferry (!training && !ferry)
    match getKx s port ferry, (getPort s port).peer with
    | some k, some peer =>
      let body := helloFields h.chain h.ek h.nonce
      if !(Config.chainValid h.chain && shake256 (izName [83, 69, 82] ++ Config.chainSerial h.chain) 24 == idDigest peer && Config.dsaVerify (Config.chainKey h.chain) (body ++ peer) h.sig) then kxFail s port ferry
      else if ferry && !ferryPeerOk s port h.report h.chain then dropKx s port ferry
      else
        let theirs := body ++ h.sig ++ h.report
        let k := { k with peerHello := some theirs, peerChain := h.chain }
        let s := putKx s port ferry k
        if lowerThan ownDigest (idDigest peer) then
          let (ct, ss) := Config.kemEncap h.ek s.free
          let s := { s with free := s.free + 1 }
          let tr := k.hello ++ theirs ++ ct
          let (sig, s) := signWith s tr
          installKeys (sendSetup s port .kxCt ferry (ct ++ sig)) port ferry k ss tr
        else s
    | _, _ => s)

/-- KX_CT (18 R543 steps 3 and 4): the ciphertext, signed over the whole transcript, gives the higher end the secret. (DEDUCED, assumption log 37) -/
def execKxCt (port : Nat) (ferry : Bool) (ct sig : Bytes) (s : State) : Reply :=
  done (match getKx s port ferry, (getPort s port).peer with
    | some k, some peer =>
      match k.peerHello with
      | none => s
      | some theirs =>
        onlyIf (!lowerThan ownDigest (idDigest peer)) s fun s =>
          let tr := theirs ++ k.hello ++ ct
          if !Config.dsaVerify (Config.chainKey k.peerChain) tr sig then kxFail s port ferry
          else match Config.kemDecap k.draw ct with
            | some ss => installKeys s port ferry k ss tr
            | none => kxFail s port ferry
    | _, _ => s)

/-- KEY_SETUP_TIMEOUT (18 R543, R545): 5 ms have passed; in phase 6 the port goes to DARK, an exchange for a rotation or a ferry key is dropped and the old keys stay. -/
def execKeySetupTimeout (port : Nat) (s : State) : Reply :=
  done (onlyIf (port < 32) s fun s =>
    let late := fun (f : Bool) => match getKx s port f with | some k => decide (k.startNs + 5000000 ≤ s.now) | none => false
    let s1 := if late true then dropKx s port true else s
    if late false then
      let s2 := dropKx s1 port false
      if portState s port == 1 && (getPort s port).phase == 6 then setPortState s2 port 0 else s2
    else s1)

/-- SLICE_KEY_CONFIRMATION (18 R544): the peer's confirmation is verified under the newest material; the tag is then admitted, and this end's confirmation goes out once more for a peer that was bound later. (DEDUCED, assumption log 36) -/
def execSliceKeyConfirmation (port : Nat) (mac : Bytes) (s : State) : Reply :=
  done (onlyIf (port < 32 && inService s port) s fun s =>
    match (getPort s port).keys.find? fun g => g.slice != [], (getPort s port).peer with
    | some g, some peer =>
      if kmac256 g.slice (idDigest peer) 32 nmSlc == mac then
        if confirmed s port then s
        else
          let s := setBitF s R.SEC_LINK_KEYS F.SEC_LINK_KEYS_SLICE_CONFIRMED port true
          retryRoutes (pump (sendConfirm (showKeys s port) port) port)
      else
        let s := incF s R.SEC_COUNTS F.SEC_COUNTS_CONFIRM_FAIL 1
        let s := setF s R.SEC_EVENTS F.SEC_EVENTS_CONFIRM_FAIL 1
        tellBluvisen (noteAt s (portSource port) 0x06 clsInfo) 544 [port]
    | _, _ => s)

/-! ### Rotation and expiry (14 R418, 18 R545) -/

/-- The beat of the next rotation, as SEC_ROTATION shows it (18 R562). -/
def showRotation (s : State) : State := setF s R.SEC_ROTATION F.SEC_ROTATION_NEXT_BEAT ((rotNow s + 1) * 2 ^ 28)

/-- At the first beat of a watch within 16 of a rotation and after it, a port that does not hold its keys begins the exchange, again in each watch until it succeeds (18 R545). -/
def rotationWatch (s : State) : State :=
  let r := (watchNow s + 16) / 16384
  allPorts.foldl (fun s p =>
    match (getPort s p).keys with
    | g :: _ => if inService s p && g.rot < r then startKx (dropKx s p false) p false true else s
    | [] => s) s

/-- Scopes in use on a port that the keys of a rotation do not hold. -/
def lacking (s : State) (p r : Nat) : Bool :=
  match (getPort s p).keys with
  | g :: _ => g.rot < r
  | [] => false

/-- KEY_ROTATION (14 R418): at the first beat of a watch that is a multiple of 2^14 senders take the new key; a port without one goes on with the old key and is logged. -/
def execKeyRotation (s : State) : Reply :=
  done (onlyIf (watchNow s % 16384 == 0 && beatNow s % 16384 == 0) s fun s =>
    let s := allPorts.foldl (fun s p => if inService s p && lacking s p (rotNow s) then noteAt s (portSource p) 0x03 clsInfo else s) s
    showRotation (allPorts.foldl (fun s p => if (getPort s p).keys == [] then s else showKeys s p) s))

/-- Keys that have expired are dropped, with the stored link states that rest on them (14 R418, 15 R436). -/
def expireKeys (s : State) (p : Nat) : State :=
  let s := modPort s p fun x =>
    { x with keys := x.keys.filter fun g => !genExpired s g, stored := x.stored.filter fun t => t.keys.any fun g => !genExpired s g }
  showKeys s p

/-- OLD_KEY_EXPIRY (14 R418): 256 watches after a rotation the keys before it expire. -/
def execOldKeyExpiry (s : State) : Reply :=
  done (onlyIf (allPorts.any fun p => (getPort s p).keys.any (genExpired s ·) || (getPort s p).stored.any fun t => t.keys.all (genExpired s ·)) s fun s =>
    allPorts.foldl (fun s p => if (getPort s p).keys == [] && (getPort s p).stored == [] then s else expireKeys s p) s)

/-- One watch after the first frame under the newest keys of a port a receiver lets the older ones go (14 R418). -/
def retireKeys (s : State) (p : Nat) : State :=
  match (getPort s p).newSeen with
  | some w => if watchNow s > w then modPort s p fun x => { x with keys := x.keys.take 1, newSeen := none } else s
  | none => s

end Sys2Proof.Machine
end

