-- ==== Sys2Proof/Machine/Fp32.lean ====
section
/-!
DEFINITION. The floating-point operations of the vector and update engines on codes of FP32 or BF16, each rounded once to nearest (07 R186, 09 R237).
-/
namespace Sys2Proof.Machine

/-- The exact quotient, rounded later (IEEE 754-2019 division). -/
def xDiv : XV → XV → XV
  | .nan, _ => .nan
  | _, .nan => .nan
  | .inf _, .inf _ => .nan
  | .inf a, .fin s _ _ => .inf (a != s)
  | .fin s _ _, .inf b => .fin (s != b) 0 0
  | .fin sa ma ea, .fin sb mb eb =>
    if mb = 0 then (if ma = 0 then .nan else .inf (sa != sb))
    else if ma = 0 then .fin (sa != sb) 0 0
    else quot (sa != sb) ma mb (ea - eb)

/-- A result rounded once under RNE into a format, an overflow giving an infinity (R186). -/
def fRound (f : Fmt) (x : XV) : Nat := convert f .rne false 0 x

/-- Operations on codes of a format. -/
def fAdd (f : Fmt) (a b : Nat) : Nat := fRound f (xAdd (decodeElem f a) (decodeElem f b))
def fSub (f : Fmt) (a b : Nat) : Nat := fRound f (xAdd (decodeElem f a) (xNeg (decodeElem f b)))
def fMul (f : Fmt) (a b : Nat) : Nat := fRound f (xMul (decodeElem f a) (decodeElem f b))
def fFma (f : Fmt) (a b c : Nat) : Nat := fRound f (xAdd (xMul (decodeElem f a) (decodeElem f b)) (decodeElem f c))
def fDiv (f : Fmt) (a b : Nat) : Nat := fRound f (xDiv (decodeElem f a) (decodeElem f b))
def fNeg (f : Fmt) (a : Nat) : Nat := fRound f (xNeg (decodeElem f a))
def fSqrt (f : Fmt) (a : Nat) : Nat := fRound f (xSqrt (decodeElem f a))

end Sys2Proof.Machine
end

