-- ==== Sys2Proof/Machine/Units.lean ====
section
/-!
DEFINITION. What every engine shares: the deal of work over engines and its redeal, the finished items, strikes, the rungs of the ladder an engine climbs, fences, and the soundings of a step (07 R178, R197, 09 R240, 10 R275, R281, 19 R581).
-/
namespace Sys2Proof.Machine

/-! ### Dealing (R126, R178, R197, R217, R240) -/

/-- The next item of a deal. -/
def Deal.front (d : Deal) : Option Nat :=
  let a := if d.next < d.stop then some d.next else none
  match a, d.extra.head? with
  | some x, some y => some (min x y)
  | some x, none => some x
  | none, y => y

/-- A deal without an item. -/
def Deal.drop (d : Deal) (x : Nat) : Deal := if d.next == x && x < d.stop then { d with next := x + d.stride } else { d with extra := d.extra.erase x }

/-- All items of a deal, in ascending order. -/
def Deal.left (d : Deal) : List Nat :=
  sortNat (((List.range (cdiv (d.stop - d.next) d.stride)).map fun k => d.next + k * d.stride) ++ d.extra)

/-- Items from start below total dealt to units in order: item q to the unit at position q mod E. -/
def newDeal (units : List Nat) (start total : Nat) : List Deal :=
  let e := units.length
  units.zipIdx.map fun u => { unit := u.1, next := start + (u.2 + e - start % e) % e, stride := e, stop := total }

/-- The next item dealt to a unit. -/
def dealFor (ds : List Deal) (u : Nat) : Option Nat := (ds.find? fun d => d.unit == u).bind Deal.front

/-- A deal after an item of a unit has been finished. -/
def dealDrop (ds : List Deal) (u x : Nat) : List Deal := ds.map fun d => if d.unit == u then d.drop x else d

/-- What a fenced unit has not finished, dealt again in ascending order and in turn to the others (R197). -/
def redeal (ds : List Deal) (u : Nat) : List Deal :=
  let left := ((ds.filter fun d => d.unit == u).map Deal.left).flatten
  let rest := ds.filter fun d => d.unit != u
  rest.zipIdx.map fun d => { d.1 with extra := sortNat (d.1.extra ++ (left.zipIdx.filter fun x => x.2 % rest.length == d.2).map Prod.fst) }

/-- Finished items counted up: the first item not finished, and the finished ones above it. -/
def settleDone (fuel low : Nat) (done : List Nat) : Nat × List Nat :=
  match fuel with
  | 0 => (low, done)
  | k + 1 => if done.contains low then settleDone k (low + 1) (done.erase low) else (low, done)

/-- An item of a work finished. -/
def DealWork.finish (w : DealWork) (u x : Nat) : DealWork :=
  let (low, done) := settleDone (w.done.length + 1) w.low (setIns x w.done)
  { w with deal := dealDrop w.deal u x, low := low, done := done }

/-! ### Engines that can be fenced: vector (5), embedding (6), update (7) -/

/-- The die of an engine. -/
def engineDie (kind inst : Nat) : Nat := if kind = 5 then inst / 4 else if kind = 6 then inst else inst / 8

/-- FENCED of an engine: register, field and bit. -/
def fenceBit (kind inst : Nat) : Nat × RF × Nat :=
  if kind = 5 then (R.CDn_VEC_STATUS (inst / 4), F.CDn_VEC_STATUS_FENCED, inst % 4)
  else if kind = 6 then (R.EMB_STATUS, F.EMB_STATUS_FENCED, inst)
  else (R.CDn_UPD_STATUS (inst / 8), F.CDn_UPD_STATUS_FENCED, inst % 8)

/-- Whether an engine is enabled: neither it nor its die is fenced. -/
def engineOn (s : State) (kind inst : Nat) : Bool :=
  let (a, f, n) := fenceBit kind inst
  !bitF s a f n && !dieFenced s (engineDie kind inst)

/-- The enabled engines a mask names, in ascending order. -/
def enginesOf (s : State) (kind mask : Nat) : List Nat := (List.range 32).filter fun i => mask.testBit i && i < (if kind = 5 then 16 else if kind = 6 then 4 else 32) && engineOn s kind i

/-! ### Strikes (R281) -/

/-- Strikes held against a unit. -/
def strikesOf (s : State) (src : Nat) : List Nat := (mapGetD ⟨[]⟩ s.comp.strikes src).beats

/-- CDn_VRN_STRIKES of an array or Vernier. (DEDUCED, assumption log 28) -/
def showStrikes (s : State) (src : Nat) : State :=
  let inst := src % 4096
  let n := (strikesOf s src).length
  if src / 4096 == 3 then setF s (R.CDn_VRN_STRIKES (inst / 24) (inst % 24)) F.CDn_VRN_STRIKES_ARRAY n
  else if src / 4096 == 4 then setF s (R.CDn_VRN_STRIKES (inst / 24) (inst % 24)) F.CDn_VRN_STRIKES_VERNIER n
  else s

/-- Whether a strike now would fence a unit: less than 2^14 beats after the older of the two it holds. (DEDUCED, assumption log 28) -/
def strikeFences (s : State) (src : Nat) : Bool :=
  match strikesOf s src with
  | [a, _] => beatNow s < a + 16384
  | _ => false

/-- A strike recorded with its finding (R281, R572). (DEDUCED, assumption log 28) -/
def strike (s : State) (src finding : Nat) : State :=
  let kept := lastN 2 (strikesOf s src ++ [beatNow s])
  let s := showStrikes { s with comp := { s.comp with strikes := mapPut s.comp.strikes src ⟨kept⟩ } } src
  logEvent s src 0x02C0 clsRecovered finding kept.length (beatNow s)

/-! ### The ladder's first rungs and fences (R581) -/

/-- A rung entered for a unit: LOG_LADDER and the LADDER entry; the manual gives the trigger no code (DESIGN CHOICE, assumption log 18). -/
def ladderRung (s : State) (rung src : Nat) : State :=
  let f := if rung = 1 then F.LOG_LADDER_RETRIES else if rung = 2 then F.LOG_LADDER_ENGINE_RESETS else if rung = 3 then F.LOG_LADDER_DIE_RESETS else F.LOG_LADDER_WARM_RESTARTS
  let (t, s) := takeFree (incF s R.LOG_LADDER f 1)
  logEvent s src 0x07C1 (if rung ≤ 2 then clsRecovered else clsDegraded) rung src t

/-- The field fence record in module flash with a unit added (20 R615). -/
def recordFence (s : State) (src : Nat) : State :=
  let old := (flashGet s.flash.fences).getD {}
  { s with flash := { s.flash with fences := flashPut s.flash.fences { old with units := setIns src old.units } } }

/-- A command that used a fenced unit with none left: ENGINE_FENCED with its cursor (R69, R197). (DEDUCED, assumption log 23) -/
def fencedOut (s : State) (src q c : Nat) : State := failRun s q c 0x0021 src 0

/-- An exchange after an embedding engine has been fenced: its bags and its share dealt again from their starts (R217). -/
def fenceExch (inst : Nat) (x : Exchange) : Exchange :=
  let back := (x.bags.filter fun (b : BagWork) => b.engine == inst).map BagWork.bag
  let deal := x.deal.map fun (d : Deal) => if d.unit == inst then { d with extra := sortNat (d.extra ++ back) } else d
  { x with deal := redeal deal inst, bags := x.bags.filter fun (b : BagWork) => b.engine != inst }

/-- Work of an engine that has been fenced, dealt again (R197, R217, R240). (DEDUCED, assumption log 23) -/
def redealWork (s : State) (kind inst : Nat) : State :=
  let src := srcOf kind inst
  if kind = 5 then
    let s := { s with comp := { s.comp with engines := mapDel s.comp.engines inst, lanes := s.comp.lanes.map fun (w : DealWork) => { w with deal := redeal w.deal inst } } }
    let s := setBitF s (R.CDn_VEC_STATUS (inst / 4)) F.CDn_VEC_STATUS_BUSY (inst % 4) false
    s.comp.lanes.foldl (fun s (w : DealWork) => if w.deal.isEmpty then fencedOut s src w.stream w.counter else s) s
  else if kind = 7 then
    let s := { s with comp := { s.comp with updates := s.comp.updates.map fun (w : DealWork) => { w with deal := redeal w.deal inst } } }
    s.comp.updates.foldl (fun s (w : DealWork) => if w.deal.isEmpty then fencedOut s src w.stream w.counter else s) s
  else
    let s := setBitF { s with fleet := { s.fleet with exchanges := s.fleet.exchanges.map (fenceExch inst) } } R.EMB_STATUS F.EMB_STATUS_BUSY inst false
    s.fleet.exchanges.foldl (fun s (x : Exchange) => if x.deal.isEmpty then fencedOut s src x.stream x.counter else s) s

/-- An engine fenced for good: its FENCED bit, the record in flash, UNIT_FENCED, and its work dealt again (R281, R572). (DEDUCED, assumption log 23) -/
def fenceEngine (s : State) (kind inst : Nat) : State :=
  let (a, f, n) := fenceBit kind inst
  let s := recordFence (setBitF s a f n true) (srcOf kind inst)
  let left := (List.range 32).filter fun i => i < (if kind = 5 then 16 else if kind = 6 then 4 else 32) && engineDie kind i == engineDie kind inst && engineOn s kind i
  redealWork (logEvent s (srcOf kind inst) 0x02C1 clsFenced 0 left.length (beatNow s)) kind inst

/-- How many tries in a row the duplicated datapaths disagree on, by the upsets of the command in hand (R275). -/
def badTries (s : State) : Nat := s.upsets.foldl (fun n u => match u with | .mismatch k => n + k | _ => n) 0

/-- An operation of an engine in its duplicated datapaths (R275, R581): whether a try agrees, and whether the engine is to be fenced after it. -/
def engineTry (s : State) (src : Nat) : State × Bool × Bool :=
  match badTries s with
  | 0 => (s, true, false)
  | 1 =>
    let due := strikeFences s src
    (strike (ladderRung s 1 src) src 3, true, due)
  | 2 => (ladderRung (ladderRung s 1 src) 2 src, true, false)
  | _ => (ladderRung (ladderRung s 1 src) 2 src, false, true)

/-- An operation of a unit has ended: the ladder of its timeouts starts again at rung 1 (R581). -/
def endTimeout (s : State) (src : Nat) : State := { s with ladder := { s.ladder with rung := mapDel s.ladder.rung src } }

/-- One operation of an engine: run if a try agrees; the engine fenced where the ladder or its strikes say so. -/
def engineRun (s : State) (kind inst : Nat) (f : State → State) : State :=
  let (s, ok, fence) := engineTry s (srcOf kind inst)
  let s := if ok then f (endTimeout s (srcOf kind inst)) else s
  if fence then fenceEngine s kind inst else s

/-! ### Soundings of the step (R287) -/

/-- A soundings record written by a command, remembered for the bands of the seal. -/
def noteSounds (s : State) (k : Soundings) : State :=
  let top := match s.esc.soundExp, k.maxExp with
    | some a, some b => some (max a b)
    | some a, none => some a
    | none, b => b
  { s with esc := { s.esc with soundNan := s.esc.soundNan || k.nan != 0 || k.inf != 0, soundExp := top, soundClip := max s.esc.soundClip (min 65535 k.sat + min 65535 k.flush) } }

/-- The work of a command in a list of works. -/
def isWork (q c : Nat) (w : DealWork) : Bool := w.stream == q && w.counter == c

end Sys2Proof.Machine
end

