-- ==== Sys2Proof/Machine/Training.lean ====
section
/-!
DEFINITION. Training state: UPDATE and its engines, SET_DRAW_COUNTER, and ferries (09 R233 to R261).
-/
namespace Sys2Proof.Machine

/-! ### The UPDATE descriptor (R241 to R243) -/

/-- OPT, MOM_ROUND and GRAD_FP32 of an UPDATE. -/
def updOpt (p : Bytes) : Nat := uAt p 72 1
def updSr (p : Bytes) : Bool := (uAt p 73 1).testBit 0
def updGrad32 (p : Bytes) : Bool := (uAt p 73 1).testBit 1

/-- HIST_BASE, with its default (R84). -/
def histBaseAt (p : Bytes) (off : Nat) : Int := if uAt p off 2 = 0x8000 then -16 else sgn16 (uAt p off 2)

/-- A scalar is finite, and with its use: used scalars are finite, others zero (R242). -/
def scalarOk (p : Bytes) (off : Nat) (used : Bool) : Bool × Nat := (if used then bitsOf (uAt p off 4) 30 23 != 255 else uAt p off 4 == 0, off)

/-- A base an OPT needs is a non-zero multiple of 4,096; one it does not use is zero (R242). -/
def baseOk (p : Bytes) (off : Nat) (used : Bool) : Bool × Nat := (if used then uAt p off 8 != 0 && uAt p off 8 % 4096 == 0 else uAt p off 8 == 0, off)

/-- Format checks of UPDATE (R242). -/
def updateChecks (p : Bytes) : List (Bool × Nat) :=
  let o := updOpt p
  let adam := o == 1
  let some3 := o ≥ 1
  [boundOk p 64 8 1 (2 ^ 40), (o ≤ 2, 72), (uAt p 73 1 < 4, 73), scalarOk p 80 true, scalarOk p 84 true, scalarOk p 88 true, scalarOk p 92 some3, scalarOk p 96 some3,
   scalarOk p 100 some3, scalarOk p 104 adam, scalarOk p 108 adam] ++
  [(if adam then normalFp32 (uAt p 112 4) && !(uAt p 112 4).testBit 31 else uAt p 112 4 == 0, 112), scalarOk p 116 true, (uAt p 116 4 % 2 ^ 31 != 0, 116),
   (uAt p 120 4 != 0, 120), rsvOk p 124 4] ++
  [baseOk p 128 true, baseOk p 136 true, baseOk p 144 true, baseOk p 152 adam, baseOk p 160 true, baseOk p 168 true, baseOk p 176 true, baseOk p 184 true, baseOk p 192 adam, baseOk p 200 true]

/-- Bytes of a plane, of the gradient and of the soundings. -/
def updPlane (p : Bytes) : Nat := uAt p 64 8 * 2
def updGradBytes (p : Bytes) : Nat := if updGrad32 p then uAt p 64 8 * 4 else uAt p 64 8 * 2
def updSoundBytes (p : Bytes) : Nat := cdiv (uAt p 64 8) 16384 * 64

/-- The regions of an UPDATE: descriptor offset, length, whether it is written. -/
def updRegions (p : Bytes) : List (Nat × Nat × Bool) :=
  let n := updPlane p
  let adam := updOpt p == 1
  [(128, n, false), (136, n, false), (144, n, false)] ++ (if adam then [(152, n, false)] else []) ++ [(160, updGradBytes p, false)] ++
  [(168, n, true), (176, n, true), (184, n, true)] ++ (if adam then [(192, n, true)] else []) ++ [(200, updSoundBytes p, true)]

/-- The first fault of a command's regions: a range outside software-addressable memory, then a written region that overlaps another (R243): descriptor offset and first address. -/
def regionsFault (s : State) (p : Bytes) (rs : List (Nat × Nat × Bool)) : Option (Nat × Nat) :=
  match rs.findSome? fun r => rangeFault s r.1 (uAt p r.1 8) r.2.1 with
  | some f => some f
  | none =>
    (rs.zipIdx.filter fun r => r.1.2.2).findSome? fun w =>
      (rs.zipIdx.find? fun r => r.2 != w.2 && overlaps (uAt p w.1.1 8) w.1.2.1 (uAt p r.1.1 8) r.1.2.1).map fun r => (w.1.1, max (uAt p w.1.1 8) (uAt p r.1.1 8))

/-- The start check of an UPDATE's regions (R243). -/
def updateStart (s : State) (p : Bytes) : Option (Nat × Nat) := regionsFault s p (updRegions p)

/-- Release-list entries an UPDATE takes (R283). -/
def updEntries (p : Bytes) : Nat := if updOpt p == 1 then 4 else 3

/-- Whether the release list has room for a command's entries (R283). -/
def listRoom (s : State) (n : Nat) : Bool := s.esc.list.length + (s.esc.reserved.map fun r => r.2.2).sum + n ≤ 4096

/-- Reserved entries given back (R283). -/
def freeEntries (s : State) (q c : Nat) : State := { s with esc := { s.esc with reserved := s.esc.reserved.filter fun r => !(r.1 == q && r.2.1 == c) } }

/-- Draws an UPDATE takes (R248). -/
def updDraws (p : Bytes) : Nat := if updSr p then 2 * uAt p 64 8 else 0

/-- The blocks of a started UPDATE dealt to the enabled engines (R240), with its entries reserved. -/
def updateBegin (s : State) (q c : Nat) (p : Bytes) : State :=
  let total := cdiv (uAt p 64 8) 2048
  let w : DealWork := { stream := q, counter := c, deal := newDeal (enginesOf s 7 (uAt p 120 4)) 0 total, total := total }
  { s with comp := { s.comp with updates := s.comp.updates ++ [w] }, esc := { s.esc with reserved := s.esc.reserved ++ [(q, c, updEntries p)] } }

/-! ### One element (R237, R238) -/

/-- The scalars of an UPDATE as FP32 codes. -/
structure UpdScalars where
  lr : Nat
  wd : Nat
  b1 : Nat
  omb1 : Nat
  b2 : Nat
  omb2 : Nat
  bc1 : Nat
  bc2 : Nat
  eps : Nat
  gscale : Nat
  deriving DecidableEq, Repr

def updScalars (p : Bytes) : UpdScalars :=
  { lr := uAt p 80 4, wd := uAt p 84 4, b1 := uAt p 88 4, omb1 := uAt p 92 4, b2 := uAt p 96 4, omb2 := uAt p 100 4, bc1 := uAt p 104 4, bc2 := uAt p 108 4,
    eps := uAt p 112 4, gscale := uAt p 116 4 }

/-- The sign of LION: +1.0, −1.0, +0, or the canonical NaN (R237). -/
def lionSign (c : Nat) : Nat :=
  match decodeElem .fp32 c with
  | .nan => canonNan .fp32
  | .inf sg => if sg then 0xBF800000 else 0x3F800000
  | .fin sg m _ => if m = 0 then 0 else if sg then 0xBF800000 else 0x3F800000

/-- The exact value of the step-4 FMA, and the new moments as FP32 codes (R237). All arguments are FP32 codes. -/
def updElem (opt : Nat) (k : UpdScalars) (w m1 m2 grad : Nat) : XV × Nat × Nat :=
  let g := fMul .fp32 k.gscale grad
  let (u, m1n, m2n) :=
    if opt = 0 then
      let m := fFma .fp32 k.b1 m1 g
      (m, m, 0)
    else if opt = 1 then
      let m := fFma .fp32 k.b1 m1 (fMul .fp32 k.omb1 g)
      let v := fFma .fp32 k.b2 m2 (fMul .fp32 k.omb2 (fMul .fp32 g g))
      (fDiv .fp32 (fMul .fp32 m k.bc1) (fAdd .fp32 (fSqrt .fp32 (fMul .fp32 v k.bc2)) k.eps), m, v)
    else
      let c := fFma .fp32 k.b1 m1 (fMul .fp32 k.omb1 g)
      (lionSign c, fFma .fp32 k.b2 m1 (fMul .fp32 k.omb2 g), 0)
  let t := fAdd .fp32 u (fMul .fp32 k.wd w)
  (xAdd (xMul (xNeg (decodeElem .fp32 k.lr)) (decodeElem .fp32 t)) (decodeElem .fp32 w), m1n, m2n)

/-- A moment converted to BF16: nearest, or by a draw (R238). -/
def momentCode (mode : Rnd) (draw m : Nat) : Nat := convert .bf16 mode false draw (decodeElem .fp32 m)

/-- Two-byte fields of a plane. -/
def halves (b : Bytes) (n : Nat) : List Nat := (List.range n).map fun i => uAt b (2 * i) 2

/-- What the block gives: the bytes of the four planes and the exact values of its elements. -/
structure UpdOut where
  hi : Bytes
  lo : Bytes
  m1 : Bytes
  m2 : Bytes
  vals : List XV
  deriving DecidableEq, Repr

/-- A block of elements from element e0 (R233, R237, R238). grads are FP32 codes. -/
def updBlock (p : Bytes) (key : Bytes) (window e0 : Nat) (hi lo m1 m2 grads : List Nat) : UpdOut :=
  let k := updScalars p
  let opt := updOpt p
  let mode := if updSr p then Rnd.sr else Rnd.rne
  let draw := fun q => if updSr p then drawAt key window q else 0
  let rows := (List.range hi.length).map fun i =>
    let r := updElem opt k (hi.getD i 0 * 65536 + lo.getD i 0) (m1.getD i 0 * 65536) (m2.getD i 0 * 65536) (grads.getD i 0)
    let w := convert .fp32 .rne false 0 r.1
    (r.1, w, momentCode mode (draw (2 * (e0 + i))) r.2.1, momentCode mode (draw (2 * (e0 + i) + 1)) r.2.2)
  { hi := (rows.map fun r => natLe 2 (r.2.1 / 65536)).flatten, lo := (rows.map fun r => natLe 2 (r.2.1 % 65536)).flatten,
    m1 := (rows.map fun r => natLe 2 r.2.2.1).flatten, m2 := (rows.map fun r => natLe 2 r.2.2.2).flatten, vals := rows.map Prod.fst }

/-! ### One block of an UPDATE (R235, R240) -/

/-- Bytes of a range for an engine of a die: whole blocks by R265, parts by R266. -/
def readSpan (die : Option Nat) (q c a n : Nat) : MM Bytes := do
  let mut out : Bytes := []
  for b in blocksOf a n do
    let lo := max a b
    let hi := min (a + n) (b + 4096)
    let bs ← if hi - lo = 4096 then readBlock b else readPart die q c lo (hi - lo)
    out := out ++ bs
  pure out

/-- Block b of a running UPDATE: read, computed and staged; its values for the soundings. -/
def updWork (q c : Nat) (p : Bytes) (die window b : Nat) : MM (List XV) := do
  let e0 := 2048 * b
  let n := min 2048 (uAt p 64 8 - e0)
  let adam := updOpt p == 1
  let plane := fun off => readSpan (some die) q c (uAt p off 8 + 2 * e0) (2 * n)
  let hi ← plane 128
  let lo ← plane 136
  let m1 ← plane 144
  let m2 ← if adam then plane 152 else pure []
  let g ← if updGrad32 p then readSpan (some die) q c (uAt p 160 8 + 4 * e0) (4 * n) else plane 160
  let grads := if updGrad32 p then (List.range n).map fun i => uAt g (4 * i) 4 else (halves g n).map (· * 65536)
  let s ← get
  let o := updBlock p (trbKey s (rngStream (uAt p 76 4))) window e0 (halves hi n) (halves lo n) (halves m1 n) (halves m2 n) grads
  writeBytes (uAt p 168 8 + 2 * e0) o.hi
  writeBytes (uAt p 176 8 + 2 * e0) o.lo
  writeBytes (uAt p 184 8 + 2 * e0) o.m1
  if adam then writeBytes (uAt p 192 8 + 2 * e0) o.m2
  pure o.vals

/-- The soundings record of a tile written once its blocks are done (R239). -/
def updSound (q c : Nat) (p : Bytes) (t : Nat) (k : Soundings) (s : State) : State :=
  let a := uAt p 200 8 + t * 64
  match runMM (writeBytes a (soundBytes t .fp32 false (histBaseAt p 74) k)) s with
  | (.ok _, s) => noteSounds (staleRange s a 64) k
  | (.error e, s) => failMem s q c e

/-- The blocks of a tile of an UPDATE: those not yet counted. -/
def tileLeft (w : DealWork) (t : Nat) : Nat :=
  ((List.range 8).filter fun i => 8 * t + i < w.total && w.low ≤ 8 * t + i && !w.done.contains (8 * t + i)).length

/-- A block of an UPDATE finished: its soundings, its count, and the end of the command with its last block. -/
def updDone (s : State) (w : DealWork) (u b : Nat) (x : Cmd) (vals : List XV) : State :=
  let p := x.pkt
  let e0 := 2048 * b
  let s := [168, 176, 184].foldl (fun s off => staleRange s (uAt p off 8 + 2 * e0) (2 * vals.length)) s
  let s := if updOpt p == 1 then staleRange s (uAt p 192 8 + 2 * e0) (2 * vals.length) else s
  let s := incF s (R.CDn_UPD_BLOCKS (u / 8)) F.CDn_UPD_BLOCKS_BLOCKS 1
  let t := b / 8
  let k := soundScalar .fp32 (histBaseAt p 74) vals (mapGetD {} w.sounds t)
  let w := w.finish u b
  let whole := tileLeft w t == 0
  let w := { w with sounds := if whole then mapDel w.sounds t else mapPut w.sounds t k }
  let s := { s with comp := { s.comp with updates := s.comp.updates.map fun (v : DealWork) => if isWork w.stream w.counter v then w else v } }
  let s := if whole then updSound w.stream w.counter p t k s else s
  let s := modCmd s w.stream w.counter fun y => { y with cursor := w.low }
  if w.low == w.total && (findCmd s w.stream w.counter).any fun y => y.stop.isNone then
    endCmd { s with comp := { s.comp with updates := s.comp.updates.filter fun v => !isWork w.stream w.counter v } } w.stream w.counter 0 w.total 0 0
  else s

/-- The work an engine takes up: of the running UPDATEs in order of acceptance, the first with a block dealt to it. -/
def updNext (s : State) (u : Nat) : Option (DealWork × Nat × Cmd) :=
  s.comp.updates.findSome? fun (w : DealWork) =>
    match dealFor w.deal u, findCmd s w.stream w.counter with
    | some b, some x => if x.phase == .running && x.stop.isNone then some (w, b, x) else none
    | _, _ => none

/-- UPDATE (R241 to R243): its packet at intake. -/
def execUpdate (s : State) : Reply := done (intakeWork s opUPDATE (bodyChecks 240 updateChecks))

/-- UPDATE_BLOCK (R237): the next block of an update engine. -/
def execUpdateBlock (engine : Nat) (ups : List Upset) (s : State) : Reply :=
  done (onlyIf (engine < 32 && engineOn s 7 engine) s fun s =>
    match updNext s engine with
    | none => s
    | some (w, b, x) =>
      inClass 0 s fun s => withUpsets ups s fun s => engineRun s 7 engine fun s =>
        match runMM (updWork w.stream w.counter x.pkt (engine / 8) x.window b) s with
        | (.ok vals, s) => updDone s w engine b x vals
        | (.error e, s) => failMem s w.stream w.counter e)

/-! ### SET_DRAW_COUNTER (R251) -/

/-- Format checks of SET_DRAW_COUNTER (R251). -/
def drawCounterChecks (p : Bytes) : List (Bool × Nat) :=
  [(uAt p 64 1 < 64, 64), rsvOk p 65 7, (uAt p 72 8 ≤ 2 ^ 44 && uAt p 72 8 % 2 ^ 18 == 0, 72), rsvOk p 88 8]

/-- SET_DRAW_COUNTER at intake (R251). -/
def execSetDrawCounter (s : State) : Reply := done (intakeWork s opSET_DRAW_COUNTER (bodyChecks 128 drawCounterChecks))

/-- The first part of its retirement: P_T and D_T written; its DETAIL (R251). -/
def retireDraw (s : State) (p : Bytes) : State × Nat :=
  let t := uAt p 64 1
  let s := setF (wr s (R.TRB_COUNTER t) (BitVec.ofNat 64 (uAt p 80 8))) (R.TRB_PER_STEP t) F.TRB_PER_STEP_PER_STEP (uAt p 72 8)
  (s, b2n (uAt p 80 8 != uAt p 72 8 * committedStep s % 2 ^ 64))

/-! ### Ferries (R252 to R255) -/

/-- Format checks of FERRY_OUT (R252). -/
def ferryChecks (p : Bytes) : List (Bool × Nat) :=
  [(uAt p 64 8 != 0, 64), (uAt p 72 2 < 256, 72), rsvOk p 74 6, (4096 ≤ uAt p 88 8 && uAt p 88 8 ≤ 2 ^ 40 && uAt p 88 8 % 4096 == 0, 88), alignOk p 96 8 4096, alignOk p 104 8 4096, rsvOk p 112 16]

/-- The ferry key and its direction on a port: the newest generation that holds one and has not expired (18 R546). -/
def ferryGen (s : State) (port : Nat) : Option KeyGen := (getPort s port).keys.find? fun g => g.rot ≤ rotNow s && g.ferryKey != [] && !genExpired s g

/-- Last FERRY_ID used on a route under the current ferry key. -/
def lastFerry (s : State) (route : Nat) (key : Bytes) : Nat := match mapGet s.fleet.ferryIds route with | some (n, k) => if k == key then n else 0 | none => 0

/-- The start checks of FERRY_OUT (R253): status, DETAIL, DETAIL2. -/
def ferryStart (s : State) (p : Bytes) : Option (Nat × Nat × Nat) :=
  let route := uAt p 72 2
  match ferryRoute s route with
  | none => some (0x0416, 0, route)
  | some r =>
    if r.role != 0 then some (0x0416, 0, route)
    else
      match ferryGen s r.port with
      | none => some (0x0416, 1, route)
      | some g =>
        let last := lastFerry s route g.ferryKey
        if uAt p 64 8 ≤ last then some (0x0418, 0, last)
        else if uAt p 80 8 != committedStep s then some (0x0415, 0, committedStep s)
        else
          let a := uAt p 96 8
          let n := uAt p 88 8
          match rangeFault s 96 a n with
          | some (o, x) => some (0x0413, o, x)
          | none => if a + n ≤ 8 * stackBytes then none else some (0x0413, 96, max a (8 * stackBytes))

/-- A started ferry: its FERRY_ID is used. -/
def ferryBegin (s : State) (q c : Nat) (p : Bytes) : State :=
  match (ferryRoute s (uAt p 72 2)).bind fun r => ferryGen s r.port with
  | none => s
  | some g => { s with fleet := { s.fleet with ferryOut := s.fleet.ferryOut ++ [{ stream := q, counter := c }], ferryIds := mapPut s.fleet.ferryIds (uAt p 72 2) (uAt p 64 8, g.ferryKey) } }

/-- A running ferry's record. -/
def ferryOf (s : State) (q c : Nat) : Option FerryOut := s.fleet.ferryOut.find? fun f => f.stream == q && f.counter == c
def dropFerry (s : State) (q c : Nat) : State := { s with fleet := { s.fleet with ferryOut := s.fleet.ferryOut.filter fun f => !(f.stream == q && f.counter == c) } }

/-- The nonce of a ferry or snapshot block: the identifier, then the low 32 bits of the index (17 R519; for a ferry DEDUCED, assumption log 19). -/
def blockNonce (ident index : Nat) : Bytes := natLe 8 ident ++ natLe 4 index

/-- A ferry's route has failed (R254). -/
def ferryFail (s : State) (q c : Nat) : State := failRun s q c 0x0417 0 0

/-- The next block of a running ferry: read, encrypted and sent; the final frame follows the last (R254, R255). -/
def ferryWork (s : State) (q c : Nat) : State :=
  match findCmd s q c, ferryOf s q c with
  | some x, some f =>
    let p := x.pkt
    let n := uAt p 88 8
    if f.sent ≥ n then s
    else
      match ferryRoute s (uAt p 72 2) with
      | none => ferryFail s q c
      | some r =>
        match ferryGen s r.port with
        | none => ferryFail s q c
        | some g =>
          match runMM (readBlock (uAt p 96 8 + f.sent)) s with
          | (.error e, s) => failMem s q c e
          | (.ok bs, s) =>
            let i := f.sent / 4096
            let ident := uAt p 64 8
            let (ct, tag) := gcmSeal (dirKey g.ferryKey g.lower true).1 (blockNonce ident i) [] bs
            let s := { s with fleet := { s.fleet with ferryOut := s.fleet.ferryOut.map fun (o : FerryOut) => if o.stream == q && o.counter == c then { o with sent := f.sent + 4096 } else o } }
            let s := sendOnPort s r.port 2 r.tag .ferryBlock [ident, uAt p 80 8, i, uAt p 104 8 + f.sent] (ct ++ tag)
            if f.sent + 4096 == n then sendOnPort s r.port 2 r.tag .ferryFinal [ident, uAt p 80 8, n] else s
  | _, _ => s

/-- The running ferry a frame of a port belongs to. -/
def ferryOfFrame (s : State) (port ident : Nat) : Option Cmd :=
  s.cmd.cmds.find? fun x => x.hdr.opcode == opFERRY_OUT && x.phase == .running && uAt x.pkt 64 8 == ident && (ferryRoute s (uAt x.pkt 72 2)).any fun r => r.port == port

/-- Frames of a ferry acknowledged on the link: each block counts in CURSOR, the final frame ends the command (R254, R259). -/
def ferryAcked (s : State) (port : Nat) (f : SentFrame) : State :=
  match f.msg.kind with
  | .ferryBlock =>
    let s := incF s R.CMD_FERRY_BYTES F.CMD_FERRY_BYTES_BYTES 4096
    match ferryOfFrame s port (f.msg.args.getD 0 0) with
    | some x => modCmd s x.q x.hdr.counter fun y => { y with cursor := y.cursor + 4096 }
    | none => s
  | .ferryFinal =>
    match ferryOfFrame s port (f.msg.args.getD 0 0) with
    | some x => if x.stop.isNone then dropFerry (endCmd s x.q x.hdr.counter 0 x.cursor 0 0) x.q x.hdr.counter else s
    | none => s
  | _ => s

/-- Frames of a ferry discarded (14 R408): the route has failed. -/
def ferryLost (s : State) (port : Nat) (f : SentFrame) : State :=
  match f.msg.kind with
  | .ferryBlock | .ferryFinal => match ferryOfFrame s port (f.msg.args.getD 0 0) with | some x => ferryFail s x.q x.hdr.counter | none => s
  | _ => s

/-- FERRY_OUT: its packet at intake, or the next block of a running one (R252 to R254). -/
def execFerryOut (a : CmdArg) (s : State) : Reply :=
  done (match a with
    | .intake => intakeWork s opFERRY_OUT (bodyChecks 160 ferryChecks)
    | .work q c ups => onlyIf (isRunning s q c opFERRY_OUT) s fun s => inClass 2 s fun s => withUpsets ups s fun s => ferryWork s q c)

/-- The recipient's route of a port. -/
def ferryInRoute (s : State) (port : Nat) : Option FerryRoute := s.fab.tables.bind fun t => t.ferries.find? fun r => r.role == 1 && r.port == port

/-- A delivery in work, or a new one. -/
def ferryIn (s : State) (r : FerryRoute) (f : FerryFrame) : FerryIn :=
  (s.fleet.ferryIn.find? fun d => d.route == r.route && d.ferryId == f.ferryId).getD { ferryId := f.ferryId, route := r.route, sourceFid := r.peerFid, step := f.step }

/-- A delivery put back; complete once every block and the final frame have come, with its entry (R255). -/
def ferryPut (s : State) (port : Nat) (d : FerryIn) : State :=
  let full := match d.final with | some n => d.blocks.length ≥ n / 4096 | none => false
  let s := if full && !d.complete then note s (portSource port) 0x04 clsInfo d.ferryId d.sourceFid d.step else s
  let d := { d with complete := d.complete || full }
  { s with fleet := { s.fleet with ferryIn := (s.fleet.ferryIn.filter fun e => !(e.route == d.route && e.ferryId == d.ferryId)) ++ [d] } }

/-- A ferry frame received (R255): the block written with a fresh hallmark, or dropped and logged outside the window. -/
def takeFerry (s : State) (f : FerryFrame) : State :=
  match ferryInRoute s f.port with
  | none => s
  | some r =>
    let d := ferryIn s r f
    match f.final with
    | some n => ferryPut s f.port { d with final := some n }
    | none =>
      if f.offset + 4096 > r.bytes || f.offset % 4096 != 0 then noteAt s (portSource f.port) 0x04 clsInfo
      else
        match (ferryGen s f.port).bind fun g => gcmOpen (dirKey g.ferryKey g.lower false).1 (blockNonce f.ferryId f.index) [] f.ct f.tag with
        | none => s
        | some bs =>
          match runMM (writeBlock (r.base + f.offset) bs) s with
          | (.ok _, s) => ferryPut (staleRange s (r.base + f.offset) 4096) f.port { d with blocks := setIns f.index d.blocks, lastNs := s.now }
          | (.error e, s) => blockFailed s e 0

/-- FERRY_BLOCK (R255): a ferry block or final frame arrives. -/
def execFerryBlock (f : FerryFrame) (s : State) : Reply := done (onlyIf (sliceState s == 2) s fun s => inClass 2 s fun s => takeFerry s f)

/-- FERRY_VOID (R255): a watch has passed since the last block without the final frame. -/
def execFerryVoid (port ferryId : Nat) (s : State) : Reply :=
  done (match s.fleet.ferryIn.find? fun d => d.ferryId == ferryId && (ferryInRoute s port).any fun r => r.route == d.route with
    | none => s
    | some d =>
      if d.final.isNone && d.lastNs + 16384 * 65536 ≤ s.now then
        logEvent { s with fleet := { s.fleet with ferryIn := s.fleet.ferryIn.erase d } } (portSource port) 0x04C2 clsLostWork d.ferryId d.sourceFid d.step
      else s)

end Sys2Proof.Machine
end

