-- ==== Sys2Proof/Machine/Data.lean ====
section
/-!
DEFINITION. Tenant data and snapshots in and out through the pilot: DATA_IN, DATA_OUT and SNAPSHOT_OUT (18 R550, R551, 17 R518 to R520).
-/
namespace Sys2Proof.Machine

/-! ### Packets -/

/-- Least output window of a length: its records and their trailer (R518, R550). -/
def windowLeast (n : Nat) : Nat := (n / 4096 + 1) * 4128

/-- Format checks of DATA_IN (R550). -/
def dataInChecks (p : Bytes) : List (Bool × Nat) :=
  [alignOk p 64 8 4096, (uAt p 64 8 ≤ uAt p 88 8, 64), (uAt p 72 8 != 0, 72), boundOk p 88 8 4096 (2 ^ 40), alignOk p 88 8 4096, alignOk p 96 8 4096, alignOk p 104 8 64, (uAt p 112 1 ≤ 16, 112), rsvOk p 113 15]

/-- Format checks of DATA_OUT (R550). -/
def dataOutChecks (p : Bytes) : List (Bool × Nat) :=
  [(uAt p 64 8 != 0, 64), boundOk p 80 8 4096 (2 ^ 40), alignOk p 80 8 4096, alignOk p 88 8 4096, alignOk p 96 8 64, (windowLeast (uAt p 80 8) ≤ uAt p 104 8, 104), (uAt p 112 1 ≤ 15, 112), rsvOk p 113 15]

/-- Format checks of SNAPSHOT_OUT (R518). -/
def snapChecks (p : Bytes) : List (Bool × Nat) :=
  [(uAt p 64 8 != 0, 64), alignOk p 80 8 4096, boundOk p 88 8 4096 (2 ^ 40), alignOk p 88 8 4096, alignOk p 96 8 4096, (windowLeast (uAt p 88 8) ≤ uAt p 104 8, 104), rsvOk p 112 16]

/-! ### Start checks -/

/-- The key of a slot with a use, slot 16 being the snapshot key (R549, R550). -/
def slotKey (s : State) (slot : Nat) (use : DataSlot → Bool) : Option Bytes :=
  if slot = 16 then (if s.sec.bound.kSnap == [] then none else some s.sec.bound.kSnap)
  else match mapGet s.sec.slots slot with | some d => if use d then some d.key else none | none => none

/-- The start checks of DATA_IN (R550): status, DETAIL, DETAIL2. -/
def dataInStart (s : State) (p : Bytes) : Option (Nat × Nat × Nat) :=
  let slot := uAt p 112 1
  if (slotKey s slot DataSlot.allowIn).isNone then some (0x0603, slot, 0)
  else match rangeFault s 96 (uAt p 96 8) (uAt p 88 8) with
    | some (o, a) => some (0x0606, o, a)
    | none => if pilotReachable s then none else some (0x0607, 0, 0)

/-- The start checks of DATA_OUT (R550). -/
def dataOutStart (s : State) (p : Bytes) : Option (Nat × Nat × Nat) :=
  let slot := uAt p 112 1
  match mapGet s.sec.slots slot with
  | none => some (0x0603, slot, 0)
  | some d =>
    if !d.allowOut then some (0x0603, slot, 0)
    else if uAt p 64 8 ≤ d.lastId then some (0x0605, slot, d.lastId)
    else match rangeFault s 88 (uAt p 88 8) (uAt p 80 8) with
      | some (o, a) => some (0x0606, o, a)
      | none => if pilotReachable s then none else some (0x0607, 0, 0)

/-- The first address of a range that does not lie in a data extent or whose unit is STALE (R518 check 4). -/
def snapBad (s : State) (a n : Nat) : Option Nat :=
  ((List.range ((a + n - 1) / unitBytes - a / unitBytes + 1)).map fun i => max a ((a / unitBytes + i) * unitBytes)).find? fun x =>
    match unitAt (dataExts s) x with | some (u, _) => isStale s u | none => true

/-- The start checks of SNAPSHOT_OUT (R518). -/
def snapStart (s : State) (p : Bytes) : Option (Nat × Nat × Nat) :=
  if s.sec.bound.kSnap == [] then some (0x0442, 0, 0)
  else if uAt p 64 8 ≤ s.reck.lastSnap then some (0x0443, 0, s.reck.lastSnap)
  else if uAt p 72 8 != committedStep s then some (0x0444, 0, committedStep s)
  else
    let a := uAt p 80 8
    match if degradedWhy s != 0 then some a else snapBad s a (uAt p 88 8) with
    | some x => some (0x0445, 80, x)
    | none => if pilotReachable s then none else some (0x0446, 0, 0)

/-! ### Starts -/

/-- The record of a running transfer with the key it keeps (R549). -/
def beginMove (s : State) (q c : Nat) (key : Bytes) (sent : Nat) : State :=
  { s with fleet := { s.fleet with ferryOut := s.fleet.ferryOut ++ [{ stream := q, counter := c, sent := sent, key := key }] } }

/-- A started DATA_IN; one whose RESUME_FROM equals BYTES ends at once (R550). -/
def dataInBegin (s : State) (q c : Nat) (p : Bytes) : State :=
  let r := uAt p 64 8
  let s := beginMove s q c ((slotKey s (uAt p 112 1) DataSlot.allowIn).getD []) r
  let s := modCmd s q c fun x => { x with cursor := r }
  if r == uAt p 88 8 then dropFerry (endCmd s q c 0 r 0 0) q c else s

/-- A started DATA_OUT: its OBJ_ID is used (R550). -/
def dataOutBegin (s : State) (q c : Nat) (p : Bytes) : State :=
  let slot := uAt p 112 1
  let s := beginMove s q c ((slotKey s slot DataSlot.allowOut).getD []) 0
  { s with sec := { s.sec with slots := s.sec.slots.map fun (e : Nat × DataSlot) => if e.1 == slot then (e.1, { e.2 with lastId := uAt p 64 8 }) else e } }

/-- A started SNAPSHOT_OUT: its SNAP_ID is used (R518). -/
def snapBegin (s : State) (q c : Nat) (p : Bytes) : State :=
  let s := beginMove s q c s.sec.bound.kSnap 0
  { s with reck := { s.reck with lastSnap := uAt p 64 8 } }

/-! ### Records (R519) -/

/-- A record: INDEX, SOURCE_FID, the block as ciphertext, its tag (R519, R551). -/
def sealRecord (fid : Nat) (key : Bytes) (ident ctx index : Nat) (data : Bytes) : Bytes :=
  let head := natLe 8 index ++ natLe 2 fid ++ zeros 6
  let (ct, tag) := gcmSeal key (blockNonce ident index) (head ++ natLe 8 ctx) data
  head ++ ct ++ tag

/-- The block of a record, where its INDEX is the one wanted and its tag verifies (R551). -/
def openRecord (key : Bytes) (ident ctx index : Nat) (r : Bytes) : Option Bytes :=
  if uAt r 0 8 != index then none
  else gcmOpen key (blockNonce ident index) (sub r 0 16 ++ natLe 8 ctx) (sub r 16 4096) (sub r 4112 16)

/-- What goes out for a running DATA_OUT or SNAPSHOT_OUT: its length, source, host base, identifier, context, the status of a failed route, and its trailer. -/
structure OutJob where
  bytes : Nat
  src : Nat
  host : Nat
  ident : Nat
  ctx : Nat
  broken : Nat
  trailer : Bytes

/-- The trailer of a snapshot (R520). -/
def snapTrailer (s : State) (p : Bytes) : Bytes :=
  fit 4096 (natLe 8 (uAt p 64 8) ++ natLe 8 (uAt p 72 8) ++ natLe 8 (uAt p 80 8) ++ natLe 8 (uAt p 88 8) ++ natLe 8 (rd s R.DRD_CHART_EPOCH).toNat ++
    natLe 8 (rd s R.DRD_TABLE_GEN).toNat ++ natLe 2 (myFid s) ++ natLe 2 (rkGroup s) ++ natLe 1 (rkPos s) ++ zeros 11 ++
    ((List.range 64).map fun t => natLe 8 (trbPer s t) ++ natLe 8 (trbCounter s t)).flatten ++ fit 32 s.esc.digest)

/-- The trailer of a DATA_OUT (R551). -/
def dataTrailer (s : State) (p : Bytes) : Bytes :=
  fit 4096 (natLe 8 (uAt p 64 8) ++ natLe 8 (uAt p 72 8) ++ natLe 8 (uAt p 88 8) ++ natLe 8 (uAt p 80 8) ++ natLe 2 (myFid s))

/-- The job of a command. -/
def jobOf (s : State) (x : Cmd) : OutJob :=
  let p := x.pkt
  if x.hdr.opcode == opSNAPSHOT_OUT then ⟨uAt p 88 8, uAt p 80 8, uAt p 96 8, uAt p 64 8, uAt p 72 8, 0x0446, snapTrailer s p⟩
  else ⟨uAt p 80 8, uAt p 88 8, uAt p 96 8, uAt p 64 8, uAt p 72 8, 0x0607, dataTrailer s p⟩

/-- The confirmation of a record at an address: CURSOR counts the block; the trailer's ends the command (R519, R551). -/
def recordPlaced (s : State) (q c addr : Nat) : State :=
  match findCmd s q c with
  | some x =>
    let j := jobOf s x
    if x.phase != .running then s
    else if addr == j.host + j.bytes / 4096 * 4128 then (if x.stop.isNone then dropFerry (endCmd s q c 0 j.bytes 0 0) q c else s)
    else
      let s := if x.hdr.opcode == opSNAPSHOT_OUT then incF s R.REL_SNAP_BYTES F.REL_SNAP_BYTES_BYTES 4096 else s
      modCmd s q c fun y => { y with cursor := y.cursor + 4096 }
  | none => s

/-- The next record of a running DATA_OUT or SNAPSHOT_OUT: the block is read by R265, encrypted and written through the pilot; the trailer comes last. (DESIGN CHOICE, assumption log 38) -/
def outWork (s : State) (q c : Nat) : State :=
  match findCmd s q c, ferryOf s q c with
  | some x, some f =>
    let j := jobOf s x
    if f.sent > j.bytes then s
    else if !pilotReachable s then failRun s q c j.broken 0 0
    else
      let go := fun (s : State) (index : Nat) (data : Bytes) =>
        let addr := j.host + f.sent / 4096 * 4128
        let r := sealRecord (myFid s) f.key j.ident j.ctx index data
        let s := { s with fleet := { s.fleet with ferryOut := s.fleet.ferryOut.map fun (o : FerryOut) => if o.stream == q && o.counter == c then { o with sent := f.sent + 4096 } else o } }
        if isPilot s then recordPlaced (hostWrite s addr r) q c addr else toPilot s 2 .hostWrite [addr, q, c] r
      if f.sent == j.bytes then go s (2 ^ 64 - 1) j.trailer
      else match runMM (readBlock (j.src + f.sent)) s with
        | (.error e, s) => failMem s q c e
        | (.ok bs, s) => go s (f.sent / 4096) bs
  | _, _ => s

/-- The next block of a running DATA_IN (R551). (DESIGN CHOICE, assumption log 38) -/
def inWork (s : State) (q c : Nat) : State :=
  match findCmd s q c, ferryOf s q c with
  | some x, some f =>
    let p := x.pkt
    let i := x.cursor / 4096
    let dst := uAt p 96 8 + x.cursor
    if !pilotReachable s then failRun s q c 0x0607 0 0
    else match openRecord f.key (uAt p 72 8) (uAt p 80 8) i (memRead s.hostMem (uAt p 104 8 + i * 4128) 4128) with
      | none => failRun (incF s R.SEC_COUNTS F.SEC_COUNTS_DATA_TAG_FAIL 1) q c 0x0604 0 i
      | some bs =>
        match runMM (writeBlock dst bs) s with
        | (.error e, s) => failMem s q c e
        | (.ok _, s) =>
          let last := x.cursor + 4096 == uAt p 88 8
          let s := unitDone (staleRange s dst 4096) q c (x.cursor + 4096) last
          if last then dropFerry s q c else s
  | _, _ => s

/-- DATA_IN: its packet at intake, or the next block of a running one (R550, R551). -/
def execDataIn (a : CmdArg) (s : State) : Reply :=
  done (match a with
    | .intake => intakeWork s opDATA_IN (bodyChecks 160 dataInChecks)
    | .work q c ups => onlyIf (isRunning s q c opDATA_IN) s fun s => inClass 2 s fun s => withUpsets ups s fun s => inWork s q c)

/-- DATA_OUT: its packet at intake, or the next record of a running one (R550, R551). -/
def execDataOut (a : CmdArg) (s : State) : Reply :=
  done (match a with
    | .intake => intakeWork s opDATA_OUT (bodyChecks 160 dataOutChecks)
    | .work q c ups => onlyIf (isRunning s q c opDATA_OUT) s fun s => inClass 2 s fun s => withUpsets ups s fun s => outWork s q c)

/-- SNAPSHOT_OUT: its packet at intake, or the next record of a running one (17 R518, R519). -/
def execSnapshotOut (a : CmdArg) (s : State) : Reply :=
  done (match a with
    | .intake => intakeWork s opSNAPSHOT_OUT (bodyChecks 160 snapChecks)
    | .work q c ups => onlyIf (isRunning s q c opSNAPSHOT_OUT) s fun s => inClass 2 s fun s => withUpsets ups s fun s => outWork s q c)

/-- A record's frame acknowledged on the link, or discarded under 14 R408: its confirmation, or a failed route (R551). (DESIGN CHOICE, assumption log 38) -/
def recordAcked (s : State) (f : SentFrame) : State :=
  match f.msg.kind, f.msg.args with
  | .hostWrite, [addr, q, c] => recordPlaced s q c addr
  | _, _ => s

def recordLost (s : State) (f : SentFrame) : State :=
  match f.msg.kind, f.msg.args with
  | .hostWrite, [_, q, c] => match findCmd s q c with | some x => if x.phase == .running then failRun s q c (jobOf s x).broken 0 0 else s | none => s
  | _, _ => s

end Sys2Proof.Machine
end

