-- ==== Sys2Proof/Machine/Darend.lean ====
section
/-!
DEFINITION. Darend ports: frames received, acknowledgement and replay, training and identity (14 R400 to R419, 15 R436).
-/
namespace Sys2Proof.Machine

/-! ### Acknowledgement and replay (R405 to R408) -/

/-- Signed distance of two 32-bit sequence numbers: whether a is not beyond b. -/
def seqLe (a b : Nat) : Bool := (b % 2 ^ 32 + 2 ^ 32 - a % 2 ^ 32) % 2 ^ 32 < 2 ^ 31

/-- The ACK block of a port (R398, R405): the last number accepted, the units freed by class, NAK. -/
def sendAck (s : State) (p : Nat) (nak : Bool) : State :=
  let x := getPort s p
  sendBlock s p .ack [(x.rxNext + 2 ^ 64 - 1) % 2 ^ 32, x.freed.getD 0 0, x.freed.getD 1 0, x.freed.getD 2 0, b2n nak]

/-- What follows for a command whose frame has been acknowledged, or discarded under R408. -/
def frameAcked (s : State) (p : Nat) (f : SentFrame) : State := recordAcked (ferryAcked s p f) f
def frameLost (s : State) (p : Nat) (f : SentFrame) : State := recordLost (ferryLost s p f) f

/-- Every unacknowledged frame resent in order; the eighth replay in a row with no advance sends the port to TRAINING (R407). (DEDUCED, assumption log 35) -/
def replayAll (s : State) (p : Nat) : State :=
  let x := getPort s p
  if x.store == [] then s
  else
    let s := incF { s with out := s.out ++ x.store.map SentFrame.msg } (R.DRD_PORT_REPLAY p) F.DRD_PORT_REPLAY_REPLAYED x.store.length
    let s := modPort s p fun y => { y with replays := y.replays + 1, ackNs := s.now }
    if x.replays + 1 ≥ 8 then setPortState (modPort s p fun y => { y with replays := 0 }) p 1 else s

/-- Frames freed from the replay store, up to a sequence number (R405, R406). -/
def freeStore (s : State) (p : Nat) (done : SentFrame → Bool) : State :=
  let gone := (getPort s p).store.filter done
  if gone == [] then s
  else
    let s := modPort s p fun y => { y with store := y.store.filter fun f => !done f, replays := 0, ackNs := s.now }
    gone.foldl (fun s f => frameAcked s p f) s

/-- What a TRAILER or ACK block tells (R401, R405, R407). -/
def takeAck (s : State) (p : Nat) (a : AckIn) : State :=
  let s := modPort s p fun y => { y with peerFreed := (List.range 3).map fun c => (a.credits.getD c (y.peerFreed.getD c 0)) % 2 ^ 16 }
  let s := freeStore s p fun f => seqLe f.seq a.ack
  let s := if a.nak then replayAll s p else s
  pump s p

/-- ACK (R405): frees frames, returns credits, or asks for a replay. -/
def execAck (port : Nat) (a : AckIn) (s : State) : Reply := done (onlyIf (port < 32 && inService s port) s fun s => takeAck (cleanBlock s port) port a)

/-- R of a port, in ns (R406, R426). -/
def roundTrip (s : State) (p : Nat) : Nat := getF s (R.DRD_PORT_REPLAY p) F.DRD_PORT_REPLAY_RTT_NS

/-- REPLAY_TIMEOUT (R407): the oldest frame has waited R + 2 µs with no advance of ACK. -/
def execReplayTimeout (port : Nat) (s : State) : Reply :=
  done (onlyIf (port < 32 && inService s port && (getPort s port).store != [] && !holding s (getPort s port) && counted s port (getPort s port).ackNs ≥ roundTrip s port + 2000) s fun s =>
    replayAll s port)

/-- The unacknowledged frames of a port discarded: counted, entered in the logbook, their commands' routes failed, their credits back (R408). (DEDUCED, assumption log 35) -/
def discardStore (s : State) (p : Nat) : State :=
  let x := getPort s p
  if x.store == [] then s
  else
    let left := countNow s - (s.now - x.leftNs.getD s.now)
    let s := incF s (R.DRD_PORT_LOST p) F.DRD_PORT_LOST_FRAMES x.store.length
    let s := note s (portSource p) 0x03 clsLostWork x.store.length (beatOf left) 0
    let s := modPort s p fun y =>
      { y with store := [], replays := 0, sentUnits := x.store.foldl (fun (u : List Nat) f => modNth f.cls (fun n => (n + 2 ^ 16 - f.units) % 2 ^ 16) u) y.sentUnits }
    x.store.foldl (fun s f => frameLost s p f) s

/-- PORT_LOST_TIMEOUT (R408): a port has been out of UP and DEGRADED for longer than 2 ms. -/
def execPortLostTimeout (port : Nat) (s : State) : Reply :=
  done (match (getPort s port).leftNs with
    | some t => onlyIf (port < 32 && !inService s port && counted s port t > 2000000) s fun s => modPort (discardStore s port) port fun y => { y with leftNs := none }
    | none => s)

/-! ### Frames received (R403) -/

/-- What a header says: the frame's fields. -/
def hdDest (h : Bytes) : Nat := uAt h 0 2
def hdScope (h : Bytes) : Nat := uAt h 2 2 % 4096
def hdClass (h : Bytes) : Nat := uAt h 2 2 / 4096
def hdSrc (h : Bytes) : Nat := uAt h 4 2
def hdLength (h : Bytes) : Nat := uAt h 6 2
def hdSeq (h : Bytes) : Nat := uAt h 8 4
def hdHops (h : Bytes) : Nat := uAt h 12 1
def hdFlags (h : Bytes) : Nat := uAt h 13 1

/-- A frame taken in order: the number moves on, and its credits are freed unless it has to wait here (R401, R403). -/
def acceptSeq (s : State) (p cls units : Nat) (free : Bool) : State :=
  let s := modPort s p fun y => { y with rxNext := y.rxNext + 1 }
  sendAck (if free && cls < 3 then freeCredits s p cls units else s) p false

/-- Frames held here because no route takes them on, in KiB (16 R486). -/
def heldForward (s : State) : Nat := cdiv (((s.fab.noRoute.filter fun f => f.msg.kind == .frame && f.back.isNone).map SentFrame.units).sum * 64) 1024

/-- Whether a forwarded frame has a port to go to. -/
def canForward (s : State) (f : SentFrame) : Bool :=
  if f.scope = 0 then (homePort s f.dest false).isSome else ((routeOf s f.gen f.dest (currentDraw s)).bind (chosenAlt s)).isSome

/-- A frame passed on with HOPS_LEFT reduced by one; without a route it waits within the hold's limit, and beyond it the credits of its port wait with it (R403, 16 R486). -/
def forward (s : State) (p : Nat) (h body : Bytes) : State :=
  let f : SentFrame := { cls := hdClass h, units := cdiv (hdLength h) 64, dest := hdDest h, scope := hdScope h, hops := hdHops h - 1, msg := { kind := .frame, dest := hdDest h, args := [hdSrc h], data := body } }
  if canForward s f then routeFrame (acceptSeq s p f.cls f.units true) f
  else
    let room := heldForward s + cdiv (f.units * 64) 1024 ≤ getF s R.REL_HOLD F.REL_HOLD_LIMIT
    let s := acceptSeq s p f.cls f.units room
    { s with fab := { s.fab with noRoute := s.fab.noRoute ++ [{ f with back := if room then none else some p }] } }

/-- A frame for every module of the host group, passed on once over the other HOME ports (16 R477). (DEDUCED, assumption log 49) -/
def spread (s : State) (p : Nat) (h body : Bytes) : State :=
  allPorts.foldl (fun s q =>
    if q != p && (portRec s q).home && !(portRec s q).unused && inService s q then
      giveFrame s q { cls := hdClass h, units := cdiv (hdLength h) 64, dest := 0xFFFF, scope := 0, hops := hdHops h - 1, msg := { kind := .frame, dest := 0xFFFF, args := [hdSrc h], data := body } }
    else s) s

/-- A frame delivered here; one for every module is passed on the first time it comes. (DEDUCED, assumption log 49) -/
def deliver (s : State) (p : Nat) (h body : Bytes) : State :=
  let d : Delivered := { port := p, src := hdSrc h, tag := hdScope h, cls := hdClass h, body := body }
  let again := hdDest h == 0xFFFF && (hdSrc h == myFid s || s.inbox.any fun e => e.src == d.src && e.tag == d.tag && e.body == d.body)
  if again then s
  else
    let s := { s with inbox := s.inbox ++ [d] }
    if hdDest h == 0xFFFF && hdHops h > 1 then spread s p h body else s

/-- The plaintext of a frame under a generation of keys with its phase (R402, R418). (DEDUCED, assumption log 46) -/
def openFrame (s : State) (p : Nat) (f : FrameIn) : Option (KeyGen × Bytes) :=
  let h := f.header
  let aad := h.take 12 ++ natLe 1 0 ++ h.drop 13
  ((getPort s p).keys.filter fun g => g.phase == hdFlags h % 2 && scopeKeys s g (hdScope h) != [] && !genExpired s g).findSome? fun g =>
    let (k, salt) := dirKey (scopeKeys s g (hdScope h)) g.lower false
    (gcmOpen k (linkIv salt (getPort s p).rxNext) aad f.ct f.tag).map fun b => (g, b)

/-- The checks of R403 after the tag has verified: fields, destination, then delivery or forwarding. -/
def takeBody (s : State) (p : Nat) (f : FrameIn) (body : Bytes) : State :=
  let h := f.header
  let len := hdLength h
  let units := cdiv len 64
  let own := hdDest h == myFid s || (hdDest h == 0xFFFF && hdScope h == 0)
  if !(32 ≤ len && len ≤ 2048 && len % 16 == 0 && f.ct.length + 16 == len && hdClass h < 3 && hdFlags h < 2 && uAt h 14 2 == 0) then
    incF (acceptSeq s p (hdClass h) units true) (R.DRD_PORT_ERRORS p) F.DRD_PORT_ERRORS_MALFORMED 1
  else if !own && (hdHops h ≤ 1 || (hdScope h != 0 && hdScope h != mySlice s)) then
    incF (acceptSeq s p (hdClass h) units true) (R.DRD_PORT_ERRORS p) F.DRD_PORT_ERRORS_HOPS_EXPIRED 1
  else if own then deliver (acceptSeq s p (hdClass h) units true) p h body
  else forward s p h body

/-- A failed tag in a frame whose codewords all corrected: the fourth in a watch sends the port to QUARANTINED, and it trains from the start (R403). -/
def tagFailed (s : State) (p : Nat) : State :=
  let s := incF (sendAck s p true) (R.DRD_PORT_ERRORS p) F.DRD_PORT_ERRORS_TAG_FAIL 1
  let n := (getPort s p).tagFails + 1
  let s := modPort s p fun y => { y with tagFails := n }
  if n == 4 then setPortState (setPortState s p 4) p 1 else s

/-- DAREND_FRAME (R403): the checks in their order; the first that fails is acted on. -/
def execDarendFrame (port : Nat) (f : FrameIn) (s : State) : Reply :=
  done (onlyIf (port < 32 && inService s port) s fun s =>
    if !f.good then sendAck (incF s (R.DRD_PORT_FEC port) F.DRD_PORT_FEC_UNCORRECTABLE 1) port true
    else
      let s := takeAck (cleanBlock s port) port f.trailer
      let h := f.header
      let x := getPort s port
      if hdSeq h != x.rxNext % 2 ^ 32 then sendAck s port (!seqLe (hdSeq h) x.rxNext)
      else if !(admits s port (hdScope h) && (!restricted s port || (hdScope h == 0 && hdClass h == 0))) then
        let s := acceptSeq s port (hdClass h) (cdiv (hdLength h) 64) true
        noteAt (incF s (R.DRD_PORT_ERRORS port) F.DRD_PORT_ERRORS_FOREIGN 1) (portSource port) 0x03 clsInfo
      else
        match openFrame s port f with
        | none => tagFailed s port
        | some (g, body) =>
          let newest := match x.keys with | k :: _ => k == g | [] => false
          let s := if newest && x.keys.length > 1 && x.newSeen.isNone then modPort s port fun y => { y with newSeen := some (watchNow s) } else s
          takeBody s port f body)

/-! ### Holds (R409) -/

/-- HOLD (R409): a pause of up to 256 µs that the peer announces. -/
def execHold (port beat durationUs reason : Nat) (s : State) : Reply :=
  done (onlyIf (port < 32 && durationUs ≤ 256 && (portState s port == 1 || inService s port || portState s port == 7)) s fun s => putHold s port beat durationUs reason)

/-- HOLD_RESUME_TIMEOUT (R409): clean blocks have not resumed 100 µs after the announced end. -/
def execHoldResumeTimeout (port : Nat) (s : State) : Reply :=
  done (match (getPort s port).hold with
    | some h => onlyIf (port < 32 && inService s port && h.endNs + 100000 ≤ s.now) s fun s => setPortState s port 1
    | none => s)

/-! ### Lanes received (R397, R413) -/

/-- Whether the ring of a wavelength keeps it out of its link (15 R437, R444). -/
def ringOut (s : State) (p w : Nat) : Bool :=
  let st := (getRing s (ringNo p 1 w)).state
  st == 3 || st == 5

/-- End of phase 3: lanes without two valid ALIGN blocks in a row are out from the start, and told to the peer; then HELLO blocks go out (R410, R413). A port that trains quickly keeps the wavelengths out that were (15 R437). -/
def alignedLanes (s : State) (p : Nat) : State :=
  let x := getPort s p
  let was := lanesOf s p false
  let draw := currentDraw s
  let rx := localWaves s draw p false
  let out := rx.filter fun k => mapGetD 0 x.aligns k < 2 || ringOut s p k || (x.quick && k < 8 && !was.contains k && was.contains 15)
  let m := lanesWithout rx out
  let full := lanesWithout rx []
  let s := setLaneMap (setLaneMap s p false m) p true (lanesWithout (localWaves s draw p true) [])
  let s := (List.range 8).foldl (fun s i => if m.getD i 15 != full.getD i 15 then sendBlock s p .laneChange [0, i, m.getD i 15, x.markerCount + 2] else s) s
  let s := modPort s p fun y => { y with phase := 4, phaseNs := s.now, helloNs := s.now, tries := 1 }
  sendHello s p

/-- Phases 2 and 3 end when every lit lane is aligned, or after their limits with four lanes or more (R413). -/
def alignPhase (s : State) (p : Nat) : State :=
  let x := getPort s p
  let ok := x.lit.filter fun k => mapGetD 0 x.aligns k ≥ 2
  if portState s p == 1 && x.phase == 2 && ok.length ≥ 4 && (ok.length == x.lit.length || s.now ≥ x.phaseNs + 560000) then alignedLanes s p else s

/-- ALIGN (R397, R410, R413, 15 R443, R444). -/
def execAlign (port : Nat) (a : AlignIn) (s : State) : Reply :=
  done (onlyIf (port < 32 && a.filter < 9) s fun s => alignPhase (alignBlock (if a.formed then cleanBlock s port else s) port a) port)

/-! ### Identity and training (R412 to R417) -/

/-- The entry of the chart with a serial digest, withdrawn ones left out. -/
def entryByDigest (s : State) (d : Bytes) : Option ModEntry := s.fab.chart.bind fun c => c.modules.find? fun e => !e.withdrawn && e.digest == d

/-- What R414 and R415 find: the state the port goes to, none to go on; without a fabric ID every port is QUARANTINED (20 R618). (DEDUCED, assumption log 47) -/
def peerFault (s : State) (p : Nat) (b : Bytes) : Option Nat :=
  let r := portRec s p
  if diagnostic s || myFid s == 0 then some 4
  else match entryByDigest s (idDigest b) with
    | none => some 4
    | some e =>
      if idBoot b == 2 then some 4
      else if r.unused || r.peerFid != e.fid || r.peerPort != idPort b then some 2
      else if min (verMax s) (idVerMax b) < max (getF s R.DRD_STATUS F.DRD_STATUS_VER_MIN) (idVerMin b) then some 3
      else none

/-- Training from the start of phase 2 after a quick training has failed (15 R436). (DEDUCED, assumption log 40) -/
def trainFully (s : State) (p : Nat) : State := modPort s p fun y => { beginTraining s.now y with lit := y.lit }

/-- A port that trains quickly with a stored state that matches the peer: its keys and numbers are used, phase 6 is skipped (15 R436). (DEDUCED, assumption log 40) -/
def quickMatch (s : State) (p : Nat) (t : TrainingState) : State :=
  let s := modPort s p fun y => { y with keys := t.keys, txNext := t.txNext, rxNext := t.rxNext, phase := 7, phaseNs := s.now }
  showKeys s p

/-- Phase 5, the checks of R414 and R415, then phase 6; a chart of a larger epoch is asked for (R414, R415, 16 R476). (DEDUCED, assumption log 40) (DEDUCED, assumption log 43) -/
def checkPeer (s : State) (p : Nat) : State :=
  match (getPort s p).peer with
  | none => s
  | some b =>
    let own := (rd s R.DRD_CHART_EPOCH).toNat
    let s := if idEpoch b > own then sendOnPort (modPort s p fun y => { y with queue := y.queue.filter fun f => f.msg.kind != .chartReq }) p 0 0 .chartReq [own] else s
    let x := getPort s p
    let st := x.stored.find? fun t => x.quick && t.peerDigest == idDigest b && t.peerPort == idPort b
    if x.quick && st.isNone then trainFully s p
    else
      match if st.isSome then none else peerFault s p b with
      | some v =>
        let s := setF s (R.DRD_PORT_STATUS p) F.DRD_PORT_STATUS_VERSION 0
        let s := setPortState s p v
        if v == 2 then tellBluvisen (noteAt s (portSource p) 0x03 clsInfo) 414 [p, idFid b, idPort b] else s
      | none =>
        let v := min (verMax s) (idVerMax b)
        let s := if portState s p == 1 then s else setPortState s p 1
        let s := modPort s p fun y => { y with peer := some b, peerTwice := true, phase := 6, phaseNs := s.now }
        let s := setF s (R.DRD_PORT_STATUS p) F.DRD_PORT_STATUS_VERSION v
        let s := setF s (R.DRD_PORT_STATUS p) F.DRD_PORT_STATUS_RESTRICTED (b2n (idEpoch b != own))
        match st with
        | some t => quickMatch s p t
        | none => startKx (dropKx (if (getPort s p).ident == [] then sendHello s p else s) p false) p false false

/-- HELLO0 (R412): the first 31 bytes of the peer's identity block. -/
def execHello0 (port : Nat) (b : Bytes) (s : State) : Reply :=
  done (onlyIf (port < 32 && b.length == 31 && 1 ≤ portState s port && portState s port ≤ 6) s fun s => modPort s port fun y => { y with hello0 := some b })

/-- HELLO1 (R412 to R417): the block is complete; in phase 4 two equal blocks that show SEEN lead to the checks, in MISCHARTED, DISCORDANT and QUARANTINED a changed block does; on a RESTRICTED port in service it tells whether the epochs now agree. -/
def execHello1 (port : Nat) (b : Bytes) (s : State) : Reply :=
  done (match (getPort s port).hello0 with
    | none => s
    | some h0 =>
      onlyIf (port < 32 && b.length == 31) s fun s =>
        let blk := h0 ++ b
        let old := (getPort s port).peer
        let st := portState s port
        if st == 1 && (getPort s port).phase ≤ 4 then
          let s := showPeer (modPort s port fun y => { y with hello0 := none, peer := some blk, peerTwice := old == some blk }) port blk
          if (getPort s port).phase == 4 && old == some blk && idSeen blk then checkPeer s port else s
        else if (st == 2 || st == 3 || st == 4) then
          let s := showPeer (modPort s port fun y => { y with hello0 := none, peer := some blk, peerTwice := true }) port blk
          if old != some blk then discoverChange (checkPeer s port) else s
        else if inService s port && restricted s port then
          let s := showPeer (modPort s port fun y => { y with hello0 := none, peer := some blk }) port blk
          let s := setF s (R.DRD_PORT_STATUS port) F.DRD_PORT_STATUS_RESTRICTED (b2n (idEpoch blk != (rd s R.DRD_CHART_EPOCH).toNat))
          retryRoutes (pump (showPorts s) port)
        else modPort s port fun y => { y with hello0 := none })

/-- HELLO_RESEND (R413): every 10 µs in phase 4; each 100 µs is a try, and after the eighth the port goes to DARK. (DEDUCED, assumption log 44) -/
def execHelloResend (port : Nat) (s : State) : Reply :=
  done (onlyIf (port < 32 && portState s port == 1 && (getPort s port).phase == 4 && (getPort s port).identNs + 10000 ≤ s.now) s fun s =>
    let x := getPort s port
    if x.helloNs + 100000 ≤ s.now then
      if x.tries ≥ 8 then setPortState s port 0
      else sendHello (modPort s port fun y => { y with tries := y.tries + 1, helloNs := s.now }) port
    else sendHello s port)

/-- TRAINING_TIMEOUT (R413): phases 1 to 5 have taken more than 2 ms. (DEDUCED, assumption log 44) -/
def execTrainingTimeout (port : Nat) (s : State) : Reply :=
  done (onlyIf (port < 32 && portState s port == 1 && (getPort s port).phase ≤ 5 && counted s port (getPort s port).trainNs > 2000000) s fun s => setPortState s port 0)

/-- IDENTITY_RESEND (R417): once per millisecond. -/
def execIdentityResend (port : Nat) (s : State) : Reply :=
  done (onlyIf (port < 32 && (portState s port == 2 || portState s port == 3 || portState s port == 4) && (getPort s port).identNs + 1000000 ≤ s.now) s fun s => sendHello s port)

/-! ### Phase 7 (R406, R408, R413) -/

/-- KiB of an extension for a round trip R in ns (R406). (DEDUCED, assumption log 48) -/
def extensionFor (r : Nat) : Nat := min 2048 (cdiv (200 * (r + 1000) - 262144) 262144 * 256)

/-- The round trip measured at a training, from the link delay in ps with 0.3 µs added (R406). -/
def measureTrip (s : State) (p : Nat) : State :=
  match mapGet s.mer.markers p with
  | some m => setF s (R.DRD_PORT_REPLAY p) F.DRD_PORT_REPLAY_RTT_NS (min 65535 (2 * m.delayPs / 1000 + 300))
  | none => s

/-- The extension a port takes at its training, where the region has room for it (R406). (DEDUCED, assumption log 48) -/
def takeExtension (s : State) (p : Nat) : State :=
  let size := getF s R.DRD_REPLAY_REGION F.DRD_REPLAY_REGION_SIZE * 1024
  let used := ((allPorts.filter (· != p)).map fun q => (getPort s q).extension).sum
  let want := extensionFor (roundTrip s p)
  let e := if used + want ≤ size then want else 0
  setF (modPort s p fun y => { y with extension := e }) (R.DRD_PORT_REPLAY p) F.DRD_PORT_REPLAY_STORE_KIB (256 + e)

/-- Phase 7 at the start of a beat: frames the peer has are freed, the rest resent where the store still holds the peer's next, else discarded; the number expected stays where the port comes back in time, else it is the peer's (R407, R408, R413). (DEDUCED, assumption log 35) -/
def comeUp (s : State) (p : Nat) : State :=
  match (getPort s p).peer with
  | none => s
  | some b =>
    let s := freeStore s p fun f => f.seq < idRxNext b
    let x := getPort s p
    let holds := match x.store with | f :: _ => f.seq == idRxNext b | [] => true
    let s := if holds then s else discardStore s p
    let rx := if x.leftNs.isSome && idTxNext b ≥ x.rxNext then x.rxNext else idTxNext b
    let s := modPort s p fun y => { y with rxNext := rx, changes := [], missing := [] }
    let s := showKeys (takeExtension (measureTrip s p) p) p
    let v := laneState s p
    if v == 1 then retrain s p
    else
      let s := setPortState s p v
      let n := (getPort s p).store.length
      if n == 0 then s
      else modPort (incF { s with out := s.out ++ (getPort s p).store.map SentFrame.msg } (R.DRD_PORT_REPLAY p) F.DRD_PORT_REPLAY_REPLAYED n) p fun y => { y with ackNs := s.now }

/-- A port at the start of a beat: the light seen, DARK without any, training started with enough of it, and phase 7 (R413, R419). -/
def portBeat (s : State) (p lights : Nat) : State :=
  let lit := (List.range 9).filter fun k => lights.testBit k
  let s := modPort s p fun y => { y with lit := lit }
  let st := portState s p
  if st == 7 || st == 8 then s
  else if lit == [] then (if st == 0 then s else setPortState s p 0)
  else if st == 0 then
    if lit.length ≥ 4 && (getPort s p).darkTries < 8 then
      let quick := (getPort s p).quick && !(getPort s p).stored.isEmpty
      let s := setPortState (modPort s p fun y => { y with darkTries := y.darkTries + 1 }) p 1
      if quick && portState s p == 1 then modPort s p fun y => { y with quick := true, keys := [], rxNext := 0, txNext := 0 } else s
    else s
  else if st == 1 then
    let x := getPort s p
    if x.phase == 1 && lit.length ≥ 4 then modPort s p fun y => { y with phase := 2, phaseNs := s.now }
    else if x.phase == 7 then comeUp s p
    else alignPhase s p
  else s

/-- The per-watch counts of a port begin anew (R403, R413, R427), and an old key lets go (R418). -/
def portWatch (s : State) (p : Nat) : State :=
  let s := if getF s (R.DRD_PORT_LOST p) F.DRD_PORT_LOST_TRAIN_WATCH == 0 then s else setF s (R.DRD_PORT_LOST p) F.DRD_PORT_LOST_TRAIN_WATCH 0
  retireKeys (modPort s p fun y => { y with tagFails := 0, darkTries := 0 }) p

/-! ### The replay region (R406, R430) -/

/-- A write of DRD_REPLAY_REGION (R406): refused and logged while a port holds an extension or where the region does not lie wholly in the fabric buffer. (DEDUCED, assumption log 48) -/
def writeReplayRegion (s : State) (value : Word) (how : How := (R.DRD_REPLAY_REGION, 8, value.toNat)) : State :=
  let size := fld value 54 48
  let base := fld value 47 20 * 2 ^ 20
  let inBuf := size == 0 || (fabricBase ≤ base && base + size * 2 ^ 20 ≤ fabricBase + fabricBytes)
  if allPorts.any (fun p => (getPort s p).extension != 0) || !inBuf || size > 64 then refuseAs s how
  else wr s R.DRD_REPLAY_REGION (BitVec.ofNat 64 (size * 2 ^ 48 + base))

/-- DRD_REPLAY_REGION_WRITE (R406, R430). -/
def execDrdReplayRegionWrite (value : Word) (s : State) : Reply := done (writeReplayRegion s value)

end Sys2Proof.Machine
end

