-- ==== Sys2Proof/Machine/Meridian.lean ====
section
/-!
DEFINITION. Meridian time: markers, the upstream link, lock states and the discipline of master and deputies (02 R19 to R27, 14 R404).
-/
namespace Sys2Proof.Machine

/-- SOURCE of Meridian time (19 R567). -/
def merSource : Nat := srcOf 0xC 0

/-- ROLE and SOURCING (R38). (DEDUCED, assumption log 60) -/
def merRole (s : State) : Nat := getF s R.MER_STATUS F.MER_STATUS_ROLE
def sourcing (s : State) : Bool := flagF s R.MER_STATUS F.MER_STATUS_SOURCING

/-- A lock state entered (R27, R38). -/
def setLock (s : State) (v : Nat) : State :=
  if lockState s == v then s
  else
    let s := setF (setF s R.MER_STATUS F.MER_STATUS_STATE v) R.MER_STATUS F.MER_STATUS_STATE_CHANGED 1
    { s with mer := { s.mer with firstLock := s.mer.firstLock || v == 2, inBand := 0, outBand := 0, holdover := 0 } }

/-- The count corrected against a measured value, where it may be (R20, R27): a step before the first lock; after it, in ACQUIRING and ADRIFT, a forward step or a hold. The residue of the offset is what stays. (DEDUCED, assumption log 61) -/
def correctCount (s : State) (offsetPs : Int) : State :=
  let n : Int := (offsetPs + 500) / 1000
  let st := lockState s
  if n == 0 || st == 2 || st == 3 then s
  else
    let old := countNow s
    let measured : Int := (old : Int) - n
    let note_ := fun (s : State) => setF (logEvent s merSource 0x03C1 clsInfo old measured.toNat st) R.MER_STATUS F.MER_STATUS_STEPPED 1
    let m := s.mer
    if !m.firstLock || decide (n < 0) then
      { note_ s with mer := { (note_ s).mer with count := BitVec.ofNat 64 measured.toNat, hold := 0, offset := some (offsetPs - 1000 * n) } }
    else if m.hold == 0 then { note_ s with mer := { (note_ s).mer with hold := n.toNat } }
    else { s with mer := { m with hold := n.toNat } }

/-- A measurement of the own offset: kept for the bands, and acted on as the lock state allows; a FREE or ADRIFT module passes to ACQUIRING (R27). (DEDUCED, assumption log 61) -/
def measured (s : State) (offsetPs : Int) : State :=
  let s := { s with mer := { s.mer with offset := some offsetPs } }
  let s := if lockState s == 0 || lockState s == 4 then setLock s 1 else s
  correctCount s offsetPs

/-! ### The upstream link (R23 to R26) -/

/-- Whether one marker is to be followed before another: higher rank, fewer hops, lower peer, lower port (R24). -/
def markerBefore (a b : Nat × Marker) : Bool :=
  if a.2.rank != b.2.rank then a.2.rank < b.2.rank
  else if a.2.hops != b.2.hops then a.2.hops < b.2.hops
  else if a.2.peerFid != b.2.peerFid then a.2.peerFid < b.2.peerFid
  else a.1 < b.1

/-- Markers that a source stands behind, received on ports in service in this beat or the four before it. (DEDUCED, assumption log 60) -/
def liveMarkers (s : State) : List (Nat × Marker) :=
  s.mer.markers.filter fun e => e.2.rank != 0 && inService s e.1 && !restricted s e.1 && e.2.beat + 4 ≥ beatNow s

/-- The link to follow, while this module does not source markers itself (R24). (DEDUCED, assumption log 60) -/
def upstream (s : State) : Option (Nat × Marker) :=
  if sourcing s then none
  else (liveMarkers s).foldl (fun acc e => match acc with | none => some e | some b => if markerBefore e b then some e else acc) none

/-- MER_STATUS as the upstream stands (R26, R38). -/
def showUpstream (s : State) : State :=
  let put := fun (fid port hops : Nat) =>
    let s := setF (setF s R.MER_STATUS F.MER_STATUS_SOURCE_FID fid) R.MER_STATUS F.MER_STATUS_UPSTREAM_PORT port
    setF (setF s R.MER_STATUS F.MER_STATUS_HOPS (min 255 hops)) R.MER_STATUS F.MER_STATUS_OUT_OF_BUDGET (b2n (24 < hops && hops < 255))
  if sourcing s then put (myFid s) 255 0
  else match upstream s with
    | some (p, m) => put m.sourceFid p (min 254 (m.hops + 1))
    | none => put 0 255 255

/-- A module that starts, or ceases, to source markers in its own rank (R23). -/
def setSourcing (s : State) (v : Bool) : State :=
  showUpstream { setF s R.MER_STATUS F.MER_STATUS_SOURCING (b2n v) with mer := { (setF s R.MER_STATUS F.MER_STATUS_SOURCING (b2n v)).mer with missed := 0, rankMissed := 0 } }

/-- The role the chart gives this module (R22, R23, R38). -/
def chartRole (s : State) : State :=
  let role := match ownEntry s with
    | some e => if e.master then 1 else if e.deputy1 then 2 else if e.deputy2 then 3 else 0
    | none => 0
  let s := setF s R.MER_STATUS F.MER_STATUS_ROLE role
  if sourcing s && role == 0 then setSourcing s false else s

/-- OFFSET as 32 bits of two's complement, at the limit where the offset lies beyond them (R39). -/
def twos32 (x : Int) : Nat :=
  let y := max (-2147483648) (min 2147483647 x)
  (y % 4294967296).toNat

/-- SUPERFRAME_MARKER (R24, R25, 14 R404): timestamps give the delay and the own offset; a marker whose MAC fails is counted, and one without a key serves for the delay alone. -/
def execSuperframeMarker (m : MarkerIn) (s : State) : Reply :=
  done (onlyIf (m.port < 32 && 1 ≤ portState s m.port && portState s m.port ≤ 6) s fun s =>
    let keyed := (getPort s m.port).keys != []
    if keyed && !m.good then incF s (R.DRD_PORT_ERRORS m.port) F.DRD_PORT_ERRORS_TAG_FAIL 1
    else
      let fwd : Int := (m.t2 : Int) - m.t1
      let back : Int := (m.t4 : Int) - m.t3
      let delay := ((fwd + back) / 2).toNat
      let offset : Int := (fwd - back) / 2
      let mk : Marker := { rank := if keyed then m.rank else 0, sourceFid := m.sourceFid, hops := m.hops, peerFid := m.peerFid, delayPs := delay, offsetPs := offset, beat := beatNow s }
      let s := modPort { s with mer := { s.mer with markers := mapPut s.mer.markers m.port mk } } m.port fun x => { x with lastRx := countNow s }
      let role := merRole s
      let higher := mk.rank != 0 && mk.rank < role
      let s := if sourcing s && higher then setSourcing s false else s
      let s := if (role == 1 && mk.rank != 0) || higher then { s with mer := { s.mer with rankMissed := 0 } } else s
      let s := showUpstream s
      match upstream s with
      | some (p, _) =>
        if p == m.port then
          let s := setF (setF s R.MER_OFFSET F.MER_OFFSET_DELAY (min (2 ^ 32 - 1) delay)) R.MER_OFFSET F.MER_OFFSET_OFFSET (twos32 offset)
          measured { s with mer := { s.mer with missed := 0 } } offset
        else s
      | none => s)

/-- MER_PPS_EDGE (R22): the master, or a deputy, under discipline 1 compares its count with the whole second the edge marks; what it follows is its reference while it sources markers or hears no upstream. -/
def followsReference (s : State) (discipline : Nat) : Bool :=
  merRole s != 0 && (match ownEntry s with | some e => e.discipline == discipline | none => false) && !flagF s R.MER_STATUS F.MER_STATUS_REF_LOST && (upstream s).isNone

/-- MER_PPS_EDGE (R22): count is the whole second after the epoch, in ns, that the edge marks. -/
def execMerPpsEdge (count : Nat) (s : State) : Reply :=
  done (onlyIf (count % 1000000000 == 0 && followsReference s 1) s fun s => measured s (1000 * ((countNow s : Int) - (count : Int))))

/-- PTP_MESSAGE (R22): under discipline 2 the offset from the PTP timescale, less the epoch. -/
def execPtpMessage (offsetPs : Int) (s : State) : Reply := done (onlyIf (followsReference s 2) s fun s => measured s offsetPs)

/-- REF_LOST (R22): the reference of a master or deputy fails or returns. -/
def execRefLost (lost : Bool) (s : State) : Reply :=
  done (onlyIf (merRole s != 0 && lost != flagF s R.MER_STATUS F.MER_STATUS_REF_LOST) s fun s =>
    logEvent (setF s R.MER_STATUS F.MER_STATUS_REF_LOST (b2n lost)) merSource 0x03C0 (if lost then clsDegraded else clsInfo) (b2n lost) 0 0)

/-- HOLDOVER_ENTRY (R27): no upstream marker for four beats, from LOCKED; a source of markers follows no upstream. -/
def execHoldoverEntry (s : State) : Reply := done (onlyIf (lockState s == 2 && !sourcing s && s.mer.missed ≥ 4) s fun s => setLock s 3)

/-- ADRIFT_ENTRY (R27): more than 64 beats of HOLDOVER, or four beats in a row with the offset beyond ±20 ns. -/
def execAdriftEntry (s : State) : Reply :=
  done (onlyIf ((lockState s == 3 && s.mer.holdover > 64) || ((lockState s == 2 || lockState s == 3) && s.mer.outBand ≥ 4)) s fun s => setLock s 4)

/-- DEPUTY_TAKEOVER (R23): 16 beats without a marker of higher rank. -/
def execDeputyTakeover (s : State) : Reply := done (onlyIf (merRole s ≥ 2 && !sourcing s && s.mer.rankMissed ≥ 16) s fun s => setSourcing s true)

/-- The count slewed in LOCKED and HOLDOVER by at most 0.655 ns in a beat (R20, R27): whole nanoseconds come off as a hold, so that the count never falls. (DEDUCED, assumption log 61) -/
def slew (s : State) : State :=
  match s.mer.offset with
  | none => s
  | some o =>
    if lockState s != 2 && lockState s != 3 then s
    else
      let d : Int := max (-655) (min 655 (-o))
      let t := s.mer.slewPs + d
      let m := { s.mer with offset := some (o + d) }
      if t ≥ 1000 then { s with mer := { m with count := m.count + 1, slewPs := t - 1000 } }
      else if t ≤ -1000 then { s with mer := { m with hold := m.hold + 1, slewPs := t + 1000 } }
      else { s with mer := { m with slewPs := t } }

/-- The per-beat counts of R23 and R27, and the change to LOCKED after 16 beats within ±2 ns. -/
def merBeat (s : State) : State :=
  let up := upstream s
  let got := sourcing s || (match up with | some (_, m) => m.beat + 1 ≥ beatNow s | none => false)
  let live := got && s.mer.offset.isSome
  let o := s.mer.offset.getD 0
  let near := live && decide (o ≤ 2000) && decide (o ≥ -2000)
  let far := live && (decide (o > 20000) || decide (o < -20000))
  let m := s.mer
  let m := { m with missed := if got then 0 else m.missed + 1, inBand := if near then m.inBand + 1 else 0, outBand := if far then m.outBand + 1 else if live then 0 else m.outBand,
                    holdover := if lockState s == 3 && !sourcing s then m.holdover + 1 else 0, rankMissed := m.rankMissed + 1 }
  let s := showUpstream { s with mer := m }
  let s := if m.inBand ≥ 16 && (lockState s == 1 || lockState s == 3) then setLock s 2 else s
  let s := slew s
  if merRole s == 1 && !sourcing s && lockState s != 0 && s.mer.rankMissed ≥ 16 then setSourcing s true else s

/-- The SUPERFRAME block of a beat on a port (14 R404): the times of the markers before it, the source, and the MAC under the installation key, zero without one. (DEDUCED, assumption log 62) -/
def sendMarker (s : State) (p : Nat) : State :=
  let x := getPort s p
  let hops := getF s R.MER_STATUS F.MER_STATUS_HOPS
  let rank := if sourcing s then merRole s else match upstream s with | some (_, m) => m.rank | none => 0
  let fid := getF s R.MER_STATUS F.MER_STATUS_SOURCE_FID
  let body := natLe 8 x.lastTx ++ natLe 8 x.lastRx ++ natLe 2 fid ++ natLe 1 rank ++ natLe 1 hops
  let mac := match x.keys with
    | g :: _ => kmac256 (dirKey g.inst g.lower true).1 (natLe 8 (beatNow s) ++ body) 8 (izName [83, 70, 77])
    | [] => zeros 8
  modPort (sendBlock s p .superframe [x.lastTx, x.lastRx, fid, rank, hops] mac) p fun x => { x with lastTx := countNow s }

/-- Markers on every port that exchanges control blocks (14 R404, R419). -/
def sendMarkers (s : State) : State := allPorts.foldl (fun s p => if 1 ≤ portState s p && portState s p ≤ 6 then sendMarker s p else s) s

/-! ### The count as software reads it (R21) -/

/-- How messages name a requester: the management core, a Helm core, the host of the pilot, or the register path. -/
def requesterNo : Requester → Nat
  | .mgmt => 0
  | .helm k => 1 + k.val
  | .host => 33
  | .regPath => 34

/-- A 32-bit read of MER_COUNT (R21): at +0 it latches the upper half for its requester, and the next one at +4 takes it. -/
def merCountRead (s : State) (req : Requester) (upper : Bool) : Nat × State :=
  let c := countNow s
  if upper then
    match s.mer.latch.find? fun e => e.1 == req with
    | some e => (e.2.toNat, { s with mer := { s.mer with latch := s.mer.latch.filter fun x => x.1 != req } })
    | none => (c / 2 ^ 32, s)
  else (c % 2 ^ 32, { s with mer := { s.mer with latch := s.mer.latch.filter (fun x => x.1 != req) ++ [(req, BitVec.ofNat 32 (c / 2 ^ 32))] } })

/-- The answer of a register read. -/
def readAnswer (s : State) (req : Requester) (addr value : Nat) : State := send s .readValue (requesterNo req) [addr, value]

/-- MER_COUNT_READ (R21): one 32-bit read of the count. -/
def execMerCountRead (req : Requester) (upper : Bool) (s : State) : Reply :=
  done (readAnswer (merCountRead s req upper).2 req (if upper then R.MER_COUNT + 4 else R.MER_COUNT) (merCountRead s req upper).1)

end Sys2Proof.Machine
end

