-- ==== Sys2Proof/Machine/Reckoning.lean ====
section
/-!
DEFINITION. Reckoning at work: pages copied and exchanged, deltas and folds, readings, rebuilds, audits and divergent copies (17 R503 to R517, 10 R290).
-/
namespace Sys2Proof.Machine

/-! ### Pages (10 R290, 17 R506) -/

/-- The change of a hallmark that a move between two places of the same offset in a page brings (R269). -/
def moveMark (a b : Nat) : Nat := crc64 (ivOf 0 a ^^^ ivOf 0 b) (zeros 4096)

/-- The cells of a range copied over another. -/
def memCopy (m : List Host.Cell) (src dst n : Nat) : List Host.Cell :=
  m.filter (fun c => c.1 < dst) ++ (m.filter fun c => src ≤ c.1 && c.1 < src + n).map (fun c => (c.1 - src + dst, c.2)) ++ m.filter fun c => dst + n ≤ c.1

/-- A page copied to another with its hallmarks rebased; what fails at the source fails at the copy. -/
def copyPage (s : State) (src dst : Nat) : State :=
  match physOf s src, physOf s dst with
  | some pa, some pb =>
    let k := moveMark src dst
    let s := moved { s with mem := memCopy s.mem pa pb pageBytes } pa (2 * pageBytes)
    (List.range 512).foldl (fun s i =>
      let s := setHallmark s (pb + i * 4096) (hallmarkAt s (pa + i * 4096) ^^^ k)
      if s.poison.contains (pa + i * 4096) then poisonBlock s (pb + i * 4096) else unpoison s (pb + i * 4096)) s
  | _, _ => s

/-- The hallmarks of a frame changed by a constant. -/
def remark (s : State) (k : Nat) (stack : Nat) (f : Option Nat) : State :=
  match f with
  | none => s
  | some g => (frameBase stack g).foldl (fun s b => setHallmark s b (hallmarkAt s b ^^^ k)) s
where
  /-- The blocks of a frame. -/
  frameBase (stack g : Nat) : List Nat := (List.range 512).map fun i => stack * stackBytes + g * pageBytes + i * 4096

/-- Two pages of one stack exchanged in the page map, their hallmarks rebased in place (R290, 12 R334). -/
def exchangePages (s : State) (a b : Nat) : State :=
  let k := a / stackBytes
  let pa := a % stackBytes / pageBytes
  let pb := b % stackBytes / pageBytes
  let fa := frameOf s k pa
  let fb := frameOf s k pb
  let s := setFrame (setFrame s k pa fb) k pb fa
  remark (remark s (moveMark a b) k fa) (moveMark a b) k fb

/-! ### Deltas out (R505) -/

/-- The positions that hold the parity of a stripe, in order of parity. -/
def holdersOf (s : State) (stripe : Nat) : List Nat := (List.range (rkP s)).map fun i => posOf (rkN s) stripe (rkKg s + i)

/-- A delta, or the notice of a STALE unit, sent to every holder of a data unit's stripe and noted until acknowledged (R505, R506). -/
def sendDelta (s : State) (unit off key : Nat) (data : Option Bytes) : State :=
  (holdersOf s (stripeOfData (rkKg s) (rkN s) (rkPos s) unit)).foldl (fun s q =>
    match (groupFids s)[q]? with
    | none => s
    | some fid => sendSlice { s with reck := { s.reck with deltas := s.reck.deltas ++ [(key, q)] } } 0 2 fid .delta [unit, off, b2n data.isNone] (data.getD [])) s

/-- A delta of a block of memory, if it lies in a data extent of a module that holds a position (R505). -/
def foldDelta (s : State) (a : Nat) (d : Bytes) : State :=
  if rkHeld s then
    match unitAt (dataExts s) a with
    | some (u, o) => sendDelta s u o a (some d)
    | none => s
  else s

/-- Whether an entry stages a block, and how many of its bytes. -/
def StageEntry.bytesAt (e : StageEntry) (a : Nat) : Nat := if e.dst ≤ a && a < e.dst + e.bytes then min 4096 (e.dst + e.bytes - a) else 0

/-- A committed block as the entries given stage it, in list order (R505). -/
def viewBlock (es : List StageEntry) (a : Nat) : MM Bytes := do
  let mut cur : Option Bytes := none
  for e in es do
    let n := e.bytesAt a
    if n = 4096 then
      let bs ← readBlock (e.src + (a - e.dst))
      cur := some bs
    else if n ≠ 0 then
      let old ← match cur with | some b => pure b | none => readBlock a
      let bs ← readBlock (e.src + (a - e.dst))
      cur := some (bs.take n ++ old.drop n)
  match cur with
  | some b => pure b
  | none => readBlock a

/-- What changes in a committed block by an entry after the entries before it; every staged block is read in full. -/
def entryDelta (before : List StageEntry) (e : StageEntry) (a : Nat) (inExt : Bool) : MM Bytes := do
  if inExt then
    let old ← viewBlock before a
    let new ← viewBlock (before ++ [e]) a
    pure (xorBytes old new)
  else
    let _ ← readBlock (e.src + (a - e.dst))
    pure []

/-- The fold has failed on a block (R287). -/
def failFold (s : State) (e : MemErr) : State :=
  let s := blockFailed s e 0
  { s with reck := { s.reck with foldFailed := true } }

/-- The fold of a release-list entry (R505). -/
def foldEntry (s : State) (before : List StageEntry) (e : StageEntry) : State :=
  (List.range (cdiv e.bytes 4096)).foldl (fun s i =>
    let a := e.dst + i * 4096
    let inExt := rkHeld s && (unitAt (dataExts s) a).isSome
    match runMM (entryDelta before e a inExt) s with
    | (.ok d, s) => if inExt then foldDelta s a d else s
    | (.error x, s) => failFold s x) s

/-- The writes of the staged rows that fall in a block. -/
def rowPieces (rows : List StageRow) (b : Nat) : List (Nat × Bytes) :=
  (rows.map fun r => [(r.elemAddr, r.elems), (r.scaleAddr, r.scales)]).flatten.filter fun p => overlaps p.1 p.2.length b 4096

/-- A block with writes laid over it. -/
def layOver (b : Nat) (old : Bytes) (ps : List (Nat × Bytes)) : Bytes :=
  ps.foldl (fun cur p => (List.range 4096).map fun i => if p.1 ≤ b + i && b + i < p.1 + p.2.length then p.2.getD (b + i - p.1) 0 else cur.getD i 0) old

/-- The fold of the staged rows, at the seal (R505); what an earlier, stopped seal has folded counts once. -/
def foldRows (s : State) : State :=
  let rows := s.esc.rows
  let was := s.reck.foldedRows
  let blocks := ((rows.map fun r => blocksOf r.elemAddr r.elems.length ++ blocksOf r.scaleAddr r.scales.length).flatten).foldl (fun acc b => setIns b acc) []
  let s := blocks.foldl (fun s b =>
    if rkHeld s && (unitAt (dataExts s) b).isSome then
      match runMM (viewBlock s.esc.list b) s with
      | (.ok old, s) => foldDelta s b (xorBytes (layOver b old (rowPieces was b)) (layOver b old (rowPieces rows b)))
      | (.error x, s) => failFold s x
    else s) s
  { s with reck := { s.reck with foldedRows := rows } }

/-- Every STALE unit told to the holders of its stripe, at the seal (R506). (DEDUCED, assumption log 27) -/
def tellStale (s : State) : State :=
  if rkHeld s then
    let stale := (List.range (dataUnits s)).filter fun u => isStale s u
    stale.foldl (fun s u => sendDelta s u 0 ((unitAddr (dataExts s) u).getD 0 + 1) none) { s with reck := { s.reck with sealStale := stale } }
  else s

/-! ### Deltas in (R506) -/

/-- The parity unit of a stripe this module holds: its parity and unit numbers. -/
def heldParity (s : State) (stripe : Nat) : Option (Nat × Nat) :=
  let t := roleOf (rkN s) stripe (rkPos s)
  if t < rkKg s then none else some (t - rkKg s, unitOfRole (rkKg s) (rkP s) (rkN s) stripe t)

/-- A parity page touched for the first time in a step is copied to its stage page (R506 step 1). -/
def touchParity (s : State) (v : Nat) : State :=
  if s.reck.touched.contains v then s
  else
    let s := { s with reck := { s.reck with touched := setIns v s.reck.touched } }
    match unitAddr (parExts s) v, unitAddr (stageExts s) v with
    | some a, some b => copyPage s a b
    | _, _ => s

/-- A delta XORed into a block of the parity stage; a block whose hallmark fails still fails (R506 step 2). -/
def xorStage (s : State) (v off : Nat) (d : Bytes) : State :=
  match (unitAddr (stageExts s) v).bind fun b => physOf s (b + off) with
  | none => s
  | some pb =>
    let old := memRead s.mem pb 4096
    let new := xorBytes old d
    setHallmark { moved s pb 8192 with mem := memWrite s.mem pb new } pb (hallmarkPatch (hallmarkAt s pb) 0 old new)

/-- The acknowledgement of a delta or notice. -/
def ackDelta (s : State) (fid unit off : Nat) (stale : Bool) : State := sendSlice s 0 1 fid .deltaAck [unit, off, b2n stale]

/-- Positions of the data units of a stripe. -/
def dataPositions (s : State) (stripe : Nat) : List Nat := (List.range (rkKg s)).map fun t => posOf (rkN s) stripe t

/-- The next block of the first stripe whose parity is computed anew is asked for (R506 step 3). -/
def foldNext (s : State) : State :=
  if s.reck.reads.any fun w => w.purpose == .fold then s
  else
    match s.reck.folds with
    | [] => s
    | f :: _ => startRead s .fold (rkGroup s) (rkPos s) f.stripe f.offset (dataPositions s f.stripe) []

/-- A delta or a notice taken by the holder of parity (R506). -/
def takeDelta (s : State) (d : DeltaIn) : State :=
  match (groupFids s).idxOf? d.fid with
  | none => s
  | some q =>
    let stripe := stripeOfData (rkKg s) (rkN s) q d.unit
    match heldParity s stripe with
    | none => s
    | some (i, v) =>
      let s := touchParity s v
      match d.data with
      | some x =>
        let j := roleOf (rkN s) stripe q
        ackDelta (xorStage s v d.offset (if i = 0 then x else gfScale (gfPow j) x)) d.fid d.unit d.offset false
      | none =>
        let have_ := s.reck.folds.any fun f => f.stripe == stripe
        let fs := if have_ then s.reck.folds.map fun (f : FoldWork) => if f.stripe == stripe then { f with waits := f.waits ++ [(d.fid, d.unit)] } else f
          else s.reck.folds ++ [{ stripe := stripe, offset := 0, waits := [(d.fid, d.unit)] }]
        foldNext { s with reck := { s.reck with folds := fs } }

/-- An acknowledgement received (R505). -/
def takeDeltaAck (s : State) (fid unit off : Nat) (stale : Bool) : State :=
  match (groupFids s).idxOf? fid, unitAddr (dataExts s) unit with
  | some q, some a => { s with reck := { s.reck with deltas := s.reck.deltas.erase (a + off + b2n stale, q) } }
  | _, _ => s

/-! ### Parity at the decision (R506) -/

/-- The parity released: touched pages exchanged with their stage pages, STALE units told at the seal kept (R290 step 3, R506). -/
def releaseParity (s : State) : State :=
  let s := s.reck.touched.foldl (fun s v =>
    match unitAddr (parExts s) v, unitAddr (stageExts s) v with
    | some a, some b => exchangePages s a b
    | _, _ => s) s
  let kept := s.reck.sealStale.foldl (fun k u => setIns u k) s.reck.kept
  showStale { s with reck := { s.reck with kept := kept, sealStale := [], touched := [], foldedRows := [] } }

/-- Deltas, touched marks and folds dropped (R291, R506). -/
def dropParity (s : State) : State :=
  { s with reck := { s.reck with touched := [], deltas := [], sealStale := [], folds := [], foldedRows := [], foldFailed := false, reads := s.reck.reads.filter fun w => w.purpose != .fold } }

/-! ### Answers to readings (R507) -/

/-- The software address of what this module holds of a stripe at an offset, with its unit: 2 × unit for data, 2 × unit + 1 for parity. -/
def ownUnit (s : State) (stripe off : Nat) : Option (Nat × Nat) :=
  let t := roleOf (rkN s) stripe (rkPos s)
  let u := unitOfRole (rkKg s) (rkP s) (rkN s) stripe t
  if t < rkKg s then (unitAddr (dataExts s) u).map fun a => (a + off, 2 * u) else (unitAddr (parExts s) u).map fun a => (a + off, 2 * u + 1)

/-- A reading frame: stripe, offset, what it carries, and the hallmark of a block. -/
def sendReading (s : State) (fid stripe off code mark : Nat) (data : Bytes := []) : State :=
  sendSlice s 0 (if data.isEmpty then 1 else 2) fid .reading [stripe, off, code, mark] data

/-- The committed step with P_T and D_T of every stream, for a spare that asks (R510, R514). -/
def streamsData (s : State) : Bytes := (List.range 64).map (fun t => natLe 8 (trbPer s t) ++ natLe 8 (trbCounter s t)) |>.flatten

/-- A request answered (R507). -/
def answerReading (s : State) (fid stripe off step : Nat) (fold : Bool) : State :=
  if step != committedStep s then sendReading s fid stripe off 1 0
  else
    match ownUnit s stripe off with
    | none => sendReading s fid stripe off 2 0
    | some (a, u) =>
      if s.reck.rebuildList.contains u then sendReading s fid stripe off 2 0
      else if u % 2 == 0 && !fold && isStale s (u / 2) then sendReading s fid stripe off 3 0
      else
        match runMM (readBlock a) s with
        | (.ok bs, s) => sendReading s fid stripe off 0 (hallmarkAt s ((physOf s a).getD 0)) bs
        | (.error e, s) => sendReading (blockFailed s e 0) fid stripe off 2 0

/-- Requests held while a release ran, answered now (R507). -/
def answerHeld (s : State) : State :=
  let hs := s.reck.heldReads
  hs.foldl (fun s h => answerReading s h.fid h.stripe h.offset h.step h.fold) { s with reck := { s.reck with heldReads := [] } }

/-! ### Solutions (R503, R508) -/

/-- The data blocks of a stripe from what is known by role, if it suffices. -/
def solveData (kg : Nat) (f : Nat → Option Bytes) : Option (List Bytes) :=
  let known := (List.range kg).map fun j => (f j).getD (zeros 4096)
  let x0 := (f kg).map fun p => xorBytes p (xorAll known)
  let x1 := (f (kg + 1)).map fun p => xorBytes p (parityOf 1 known)
  match (List.range kg).filter fun j => (f j).isNone with
  | [] => some known
  | [t] =>
    match x0, x1 with
    | some a, _ => some (known.set t a)
    | none, some b => some (known.set t (gfScale (gfInv (gfPow t)) b))
    | none, none => none
  | [t, r] =>
    match x0, x1 with
    | some a, some b =>
      let d := gfScale (gfInv (gfPow t ^^^ gfPow r)) (xorBytes b (gfScale (gfPow r) a))
      some ((known.set t d).set r (xorBytes a d))
    | _, _ => none
  | _ => none

/-- The block of a role from what is known. -/
def solveRole (kg t : Nat) (f : Nat → Option Bytes) : Option Bytes :=
  (solveData kg f).map fun ds => if t < kg then ds.getD t [] else parityOf (t - kg) ds

/-- What is known without some roles. -/
def without (f : Nat → Option Bytes) (rs : List Nat) (t : Nat) : Option Bytes := if rs.contains t then none else f t

/-- The outcome of a solution: the block, with the parity whose holder is to write a block anew; divergent copies; or nothing (R508, R516). -/
inductive Solved where
  | good (b : Bytes) (fix : Option (Nat × Bytes))
  | diverge
  | lost
  deriving DecidableEq, Repr

/-- One lost unit under P = 2: solutions A and B must agree, or the third settles them (R508, R516). -/
def solveTwo (kg t : Nat) (f : Nat → Option Bytes) : Solved :=
  if t < kg then
    match solveRole kg t (without f [kg + 1]), solveRole kg t (without f [kg]) with
    | some a, some b =>
      if a == b then .good a none
      else
        let j := if t = 0 then 1 else 0
        match solveData kg (without f [t, j]) with
        | none => .diverge
        | some ds =>
          let c := ds.getD t []
          let fixed := fun i => parityOf i ((List.range kg).map fun r => if r = t then c else (f r).getD (zeros 4096))
          if c == a then .good c (some (kg + 1, fixed 1)) else if c == b then .good c (some (kg, fixed 0)) else .diverge
    | some a, none => .good a none
    | none, some b => .good b none
    | none, none => .lost
  else
    match solveRole kg t (without f [kg, kg + 1]) with
    | none => .lost
    | some x =>
      let other := if t = kg then kg + 1 else kg
      match f other, solveRole kg other (without f [kg, kg + 1]) with
      | some p, some q => if p == q then .good x none else .diverge
      | _, _ => .good x none

/-- The block of the wanted role by R508. -/
def solveFor (kg p t lost : Nat) (f : Nat → Option Bytes) : Solved :=
  if p = 2 && lost ≤ 1 then solveTwo kg t f
  else match solveRole kg t f with | some b => .good b none | none => .lost

/-! ### Findings (R509, R516, R517) -/

/-- An entry of the reckoning's own, without values of its own (R509, R510, R516). -/
def reckNote (s : State) : State := note s (srcOf 0xB 0) 0x04 clsInfo 0 0 0

/-- A stripe found divergent (R517). -/
def diverge (s : State) (g stripe : Nat) : State :=
  let s := logEvent s (srcOf 0xB 0) 0x04C0 clsDegraded g stripe (mapGetD 0 s.reck.lastAudit stripe)
  let s := incF s R.REL_RECKON_COUNTS F.REL_RECKON_COUNTS_DIVERGENT 1
  showReckon (setF { s with reck := { s.reck with divergent := setIns stripe s.reck.divergent } } R.REL_RECKON_STATUS F.REL_RECKON_STATUS_DIVERGENT 1)

/-- A stripe that has lost more than P units (R508). -/
def loseStripe (s : State) (stripe : Nat) : State := showReckon { s with reck := { s.reck with lostStripes := setIns stripe s.reck.lostStripes } }

/-- The holder of a role told to write a block anew (R516). -/
def sendRewrite (s : State) (g stripe off t : Nat) (b : Bytes) : State :=
  match (grpFids s g)[posOf (grpFids s g).length stripe t]? with
  | some fid => sendReading s fid stripe off 5 0 b
  | none => s

/-- A block written by dead reckoning: fresh hallmark, poison cleared (R508). -/
def writeRebuilt (s : State) (a : Nat) (b : Bytes) : State := (runMM (writeBlock a b) s).2

/-- A gathering taken out of the list. -/
def dropRead (s : State) (w : ReadWork) : State :=
  { s with reck := { s.reck with reads := s.reck.reads.filter fun v => !(v.purpose == w.purpose && v.stripe == w.stripe && v.offset == w.offset) } }

/-! ### Rebuilds (R510, R514) -/

/-- The stripe of a unit of the rebuild list at a position. -/
def stripeOfUnit (kg p n q u : Nat) : Nat := if u % 2 = 0 then stripeOfData kg n q (u / 2) else stripeOfParity kg p n q (u / 2)

/-- The stand-in in which this module is the spare, if one runs (R514). -/
def standingIn (s : State) : Option StandIn := s.reck.standIns.find? fun x => x.spare == myFid s

/-- Group and position whose units this module rebuilds: the suspect's in a stand-in, else its own. -/
def rebuildPlace (s : State) : Nat × Nat :=
  match standingIn s, s.fab.alloc with
  | some x, some a =>
    match a.groups.zipIdx.find? fun g => g.1.contains x.suspect with
    | some (ms, g) => (g, (ms.idxOf? x.suspect).getD 0)
    | none => (rkGroup s, rkPos s)
  | _, _ => (rkGroup s, rkPos s)

/-- The next block of the rebuild asked for (R510, R514). -/
def rebuildNext (s : State) : State :=
  if s.reck.reads.any fun w => w.purpose == .rebuild || w.purpose == .standIn then s
  else
    match s.reck.rebuildList with
    | [] => s
    | u :: _ =>
      let (g, q) := rebuildPlace s
      let n := (grpFids s g).length
      let lost := if (standingIn s).isSome then [q] else setIns q ((List.range n).filter (notIntact s))
      let stripe := stripeOfUnit (grpKg s g) (grpP s) n q u
      startRead s (if (standingIn s).isSome then .standIn else .rebuild) g q stripe s.reck.rebuildOff ((List.range n).filter fun x => !lost.contains x) lost

/-- The end of a rebuild: the position is intact, the members are told, an entry and a report (R510); in a stand-in the spare's command ends (R514). -/
def rebuildEnd (s : State) : State :=
  match standingIn s with
  | some x => { s with reck := { s.reck with standIns := s.reck.standIns.map fun (y : StandIn) => if y.spare == x.spare then { y with done := true } else y } }
  | none =>
    if s.reck.lostStripes.isEmpty then
      let s := showReckon (setBitF s R.REL_RECKON_STATUS F.REL_RECKON_STATUS_NOT_INTACT (rkPos s) false)
      let s := reckNote (tellBluvisen s 510 [rkGroup s, rkPos s])
      (groupFids s).foldl (fun s fid => if fid == myFid s then s else sendReading s fid 0 0 4 0) s
    else showReckon s

/-- The unit in work is over: written (kept, R504), or passed by because its stripe is lost or divergent. -/
def rebuildUnit (s : State) (ok : Bool) : State :=
  match s.reck.rebuildList with
  | [] => s
  | u :: rest =>
    let s := { s with reck := { s.reck with rebuildList := rest, rebuildOff := 0, kept := if ok && u % 2 == 0 && (standingIn s).isNone then setIns (u / 2) s.reck.kept else s.reck.kept } }
    let s := if ok && (standingIn s).isNone then showStale (incF s R.REL_RECKON_REBUILD F.REL_RECKON_REBUILD_DONE 1) else s
    if rest.isEmpty then rebuildEnd s else s

/-- A block of the rebuild written, and the next one due. -/
def rebuildBlock (s : State) (w : ReadWork) (b : Bytes) : State :=
  match s.reck.rebuildList with
  | [] => s
  | u :: _ =>
    match (if u % 2 = 0 then unitAddr (dataExts s) (u / 2) else unitAddr (parExts s) (u / 2)) with
    | none => s
    | some a =>
      let s := writeRebuilt s (a + w.offset) b
      if w.offset + 4096 < unitBytes then { s with reck := { s.reck with rebuildOff := w.offset + 4096 } } else rebuildUnit s true

/-! ### Audits (R516) -/

/-- Stripes of the group whose P0 this module holds. -/
def auditCount (s : State) : Nat := if rkHeld s then cdiv (dataUnits s) (rkKg s) else 0
def auditStripe (s : State) (c : Nat) : Nat := stripeOfParity (rkKg s) (rkP s) (rkN s) (rkPos s) (c * rkP s)

/-- The next block of the audit asked for, while the dog watch lasts. -/
def auditAsk (s : State) : State :=
  if s.reck.auditLeft = 0 || auditCount s = 0 || !flagF s R.MER_STATUS F.MER_STATUS_IN_DOG_WATCH || (s.reck.reads.any fun w => w.purpose == .audit) then s
  else startRead s .audit (rkGroup s) (rkPos s) (auditStripe s s.reck.auditNext) s.reck.auditOff ((List.range (rkN s)).filter fun q => q != rkPos s) []

/-- The stripe in work is over: audited, or skipped. -/
def auditStripeEnd (s : State) (audited : Bool) : State :=
  let stripe := auditStripe s s.reck.auditNext
  let s := if audited then incF s R.REL_RECKON_STALE F.REL_RECKON_STALE_AUDITED 1 else s
  let last := if audited && s.reck.auditClean then mapPut s.reck.lastAudit stripe (committedStep s) else s.reck.lastAudit
  { s with reck := { s.reck with auditLeft := s.reck.auditLeft - 1, auditNext := (s.reck.auditNext + 1) % max 1 (auditCount s), auditOff := 0, auditClean := true, lastAudit := last } }

/-- The data position whose value both parities agree on, if exactly one is (R516). -/
def auditSuspect (kg : Nat) (p0 p1 : Bytes) (ds : List Bytes) : Option (Nat × Bytes) :=
  let cands := (List.range kg).filterMap fun j =>
    let rest := ds.set j (zeros 4096)
    let a := xorBytes p0 (xorAll rest)
    let b := gfScale (gfInv (gfPow j)) (xorBytes p1 (parityOf 1 rest))
    if a == b then some (j, a) else none
  match cands with
  | [c] => some c
  | _ => none

/-- A block of the audit compared, and its finding (R516). -/
def auditCheck (s : State) (w : ReadWork) : State :=
  let n := rkN s
  let kg := rkKg s
  let f := fun t => mapGet w.got (posOf n w.stripe t)
  let ds := (List.range kg).map fun j => (f j).getD (zeros 4096)
  let found := fun (s : State) => { reckNote s with reck := { (reckNote s).reck with auditClean := false } }
  match ownUnit s w.stripe w.offset with
  | none => s
  | some (a, _) =>
    match runMM (readBlock a) s with
    | (.error e, s) => blockFailed { s with reck := { s.reck with auditClean := false } } e 0
    | (.ok p0, s) =>
      let ok0 := p0 == parityOf 0 ds
      if rkP s = 1 then (if ok0 then s else diverge (found s) (rkGroup s) w.stripe)
      else
        let p1 := (f (kg + 1)).getD (zeros 4096)
        let ok1 := p1 == parityOf 1 ds
        if ok0 && ok1 then s
        else if ok1 then writeRebuilt (found s) a (parityOf 0 ds)
        else if ok0 then sendRewrite (found s) (rkGroup s) w.stripe w.offset (kg + 1) (parityOf 1 ds)
        else
          match auditSuspect kg p0 p1 ds with
          | some (j, b) => sendRewrite (found s) (rkGroup s) w.stripe w.offset j b
          | none => diverge (found s) (rkGroup s) w.stripe

/-- A block of the audit done, and the next asked for. -/
def auditDone (s : State) (w : ReadWork) : State :=
  let s := auditCheck s w
  auditAsk (if w.offset + 4096 < unitBytes then { s with reck := { s.reck with auditOff := w.offset + 4096 } } else auditStripeEnd s true)

/-- The audit of a dog watch begins: up to 256 stripes, where the last one stopped (R516). -/
def auditBegin (s : State) : State := if dwLength s ≥ 64 && auditCount s != 0 then auditAsk { s with reck := { s.reck with auditLeft := 256 } } else s

/-! ### A gathering comes to its end -/

/-- A block of a fold computed and stored; its parity stands for the committed data and the deltas so far (R506 step 3). -/
def foldDone (s : State) (w : ReadWork) : State :=
  match heldParity s w.stripe with
  | none => s
  | some (i, v) =>
    let fresh := parityOf i ((List.range (rkKg s)).map fun t => (mapGet w.got (posOf (rkN s) w.stripe t)).getD (zeros 4096))
    let s := match (unitAddr (parExts s) v).bind fun a => physOf s (a + w.offset), (unitAddr (stageExts s) v).map fun b => b + w.offset with
      | some pa, some b =>
        match physOf s b with
        | some pb => writeRebuilt s b (xorBytes fresh (xorBytes (memRead s.mem pa 4096) (memRead s.mem pb 4096)))
        | none => s
      | _, _ => s
    let next := w.offset + 4096
    let s :=
      if next < unitBytes then { s with reck := { s.reck with folds := s.reck.folds.map fun (f : FoldWork) => if f.stripe == w.stripe then { f with offset := next } else f } }
      else
        let waits := ((s.reck.folds.filter fun f => f.stripe == w.stripe).map FoldWork.waits).flatten
        let s := { s with reck := { s.reck with folds := s.reck.folds.filter fun f => f.stripe != w.stripe } }
        waits.foldl (fun s x => ackDelta s x.1 x.2 0 true) s
    foldNext s

/-- A gathering that cannot come to an end: the stripe has lost too much, or a unit of it is STALE. -/
def failRead (s : State) (w : ReadWork) : State :=
  let s := dropRead s w
  match w.purpose with
  | .repair => match ownUnit s w.stripe w.offset with | some (a, _) => loseBlock s a | none => s
  | .rebuild | .standIn => rebuildNext (rebuildUnit (loseStripe s w.stripe) false)
  | .fold => foldNext { s with reck := { s.reck with foldFailed := true, folds := s.reck.folds.filter fun f => f.stripe != w.stripe } }
  | .audit => auditAsk (auditStripeEnd s false)

/-- A block solved by R508 and put to its use. -/
def solveDone (s : State) (w : ReadWork) : State :=
  let n := (grpFids s w.group).length
  let kg := grpKg s w.group
  let f := fun t => mapGet w.got (posOf n w.stripe t)
  match solveFor kg (grpP s) (roleOf n w.stripe w.pos) w.lost.length f with
  | .lost => failRead s w
  | .diverge =>
    let s := diverge (reckNote (dropRead s w)) w.group w.stripe
    if w.purpose == .repair then s else rebuildNext (rebuildUnit s false)
  | .good b fix =>
    let s := dropRead s w
    let s := match fix with | some (t, x) => sendRewrite (reckNote s) w.group w.stripe w.offset t x | none => s
    if w.purpose == .repair then
      match ownUnit s w.stripe w.offset with
      | some (a, _) => reckNote (incF (writeRebuilt s a b) R.REL_RECKON_COUNTS F.REL_RECKON_COUNTS_REPAIRED 1)
      | none => s
    else rebuildNext (rebuildBlock s w b)

/-- A gathering to which every answer has come. -/
def settleRead (s : State) (w : ReadWork) : State :=
  if w.asked.all fun q => (mapGet w.got q).isSome then
    match w.purpose with
    | .fold => foldDone (dropRead s w) w
    | .audit => auditDone (dropRead s w) w
    | _ => solveDone s w
  else s

/-- A gathering changed, and settled if complete. -/
def putRead (s : State) (w : ReadWork) : State :=
  settleRead { s with reck := { s.reck with reads := s.reck.reads.map fun (v : ReadWork) => if v.purpose == w.purpose && v.stripe == w.stripe && v.offset == w.offset then w else v } } w

/-- The sender's address of a block of a stripe, for its hallmark. -/
def readingAddr (s : State) (w : ReadWork) (q : Nat) : Nat :=
  let n := (grpFids s w.group).length
  let kg := grpKg s w.group
  let t := roleOf n w.stripe q
  let u := unitOfRole kg (grpP s) n w.stripe t
  ((if t < kg then unitAddr (dataExts s) u else unitAddr (parExts s) u).getD 0) + w.offset

/-- A position found without the block. -/
def losePosition (s : State) (w : ReadWork) (q : Nat) : State :=
  let w := { w with lost := setIns q w.lost, asked := w.asked.erase q }
  if w.purpose == .fold || w.purpose == .audit || w.lost.length > grpP s then failRead s w else putRead s w

/-- An answer to a gathering (R507, R508, R269). -/
def gather (s : State) (w : ReadWork) (q : Nat) (b : ReadingBody) : State :=
  match b with
  | .block data h =>
    if crc64 (ivOf (tensorEpoch s) (readingAddr s w q)) data == h then putRead s { w with got := mapPut w.got q data }
    else if w.retried.contains q then
      let s := noteBlockErr s ⟨stHallmark, 2, (match ownUnit s w.stripe w.offset with | some (a, _) => a | none => 0)⟩ 0
      losePosition s w q
    else askReading (putRead s { w with retried := setIns q w.retried }) w.group q w.stripe w.offset (w.purpose == .fold)
  | .stepDiffers => putRead s { w with again := setIns q w.again }
  | .unavailable => losePosition s w q
  | .stale => failRead s w
  | _ => s

/-- The positions that answered with another step asked again, after a decision (R507). -/
def askAgain (s : State) : State :=
  s.reck.reads.foldl (fun s w =>
    let s := { s with reck := { s.reck with reads := s.reck.reads.map fun (v : ReadWork) => if v.purpose == w.purpose && v.stripe == w.stripe && v.offset == w.offset then { v with again := [] } else v } }
    w.again.foldl (fun s q => askReading s w.group q w.stripe w.offset (w.purpose == .fold)) s) s

/-- The step and draw counters of a group neighbour taken over (R510, R514), and the rebuild begun. -/
def takeStreams (s : State) (step : Nat) (draws : List (Nat × Nat)) : State :=
  let s := wr s R.ARB_ESC_STEP (BitVec.ofNat 64 step)
  let s := draws.zipIdx.foldl (fun s d => setF (wr s (R.TRB_COUNTER d.2) (BitVec.ofNat 64 d.1.2)) (R.TRB_PER_STEP d.2) F.TRB_PER_STEP_PER_STEP d.1.1) s
  rebuildNext s

/-- A reading frame received (R507 to R516). -/
def takeReading (s : State) (fid stripe off : Nat) (b : ReadingBody) : State :=
  match b with
  | .rebuilt =>
    match (groupFids s).idxOf? fid with
    | some q => showReckon (setBitF s R.REL_RECKON_STATUS F.REL_RECKON_STATUS_NOT_INTACT q false)
    | none => s
  | .rewrite data => match ownUnit s stripe off with | some (a, _) => writeRebuilt s a data | none => s
  | .streams step draws => if s.reck.rebuildList.isEmpty then s else takeStreams s step draws
  | b =>
    match s.reck.reads.find? fun w => w.stripe == stripe && w.offset == off && ((grpFids s w.group).idxOf? fid).any (fun q => w.asked.contains q && (mapGet w.got q).isNone) with
    | none => s
    | some w => gather s w (((grpFids s w.group).idxOf? fid).getD 0) b

/-- Gatherings that need no answer, settled (every unit asked for does not exist). -/
def settleReads (s : State) : State := s.reck.reads.foldl (fun s w => if w.asked.isEmpty then settleRead s w else s) s

/-- The group neighbour of lowest position of a position, asked for the step and the draw counters (R510, R514). -/
def askStreams (s : State) (g q : Nat) : State :=
  match ((grpFids s g).zipIdx.find? fun x => x.2 != q).map Prod.fst with
  | some fid => sendSlice s 0 1 fid .readingRequest [0, 0, committedStep s, 2]
  | none => s

end Sys2Proof.Machine
end

