-- ==== Sys2Proof/Machine/Escapement.lean ====
section
/-!
DEFINITION. The Escapement: COMMIT, its seal, vote and decision, the state in doubt, and the fabric's deltas and readings that a seal waits for (10 R283 to R295, 14 R416, 17 R505 to R512).
-/
namespace Sys2Proof.Machine

/-- Escapement state code (R293). -/
def escState (s : State) : Nat := getF s R.ARB_ESC_STATUS F.ARB_ESC_STATUS_STATE
def setEsc (s : State) (v : Nat) : State := setF s R.ARB_ESC_STATUS F.ARB_ESC_STATUS_STATE v

/-- LIST_USED, STAGE_ROWS and the applied counts shown (R298, 08 R232). -/
def showEsc (s : State) : State :=
  let s := setF (setF s R.ARB_ESC_STATUS F.ARB_ESC_STATUS_LIST_USED s.esc.list.length) R.ARB_ESC_STATUS F.ARB_ESC_STATUS_STAGE_ROWS (min (2 ^ 24 - 1) s.esc.rows.length)
  setF s R.EMB_STAGE F.EMB_STAGE_COUNTS s.esc.applied.length

/-- Replay due (17 R510, R512). -/
def replayDue (s : State) : Bool := flagF s R.REL_RECKON_STATUS F.REL_RECKON_STATUS_REPLAY_DUE

/-! ### The COMMIT descriptor (R285, R286) -/

def cmStep (p : Bytes) : Nat := uAt p 64 8
def cmBeat (p : Bytes) : Nat := uAt p 72 8
def cmChain (p : Bytes) : Nat := uAt p 88 2
def cmFid (p : Bytes) : Nat := uAt p 90 2
def cmAction (p : Bytes) : Nat := uAt p 92 1

/-- The loss bounds are in order and not NaN where a loss is named, zero where none is (R286). -/
def lossChecks (p : Bytes) : List (Bool × Nat) :=
  let lo := decodeElem .fp32 (uAt p 96 4)
  let hi := decodeElem .fp32 (uAt p 100 4)
  if uAt p 80 8 != 0 then [(!xIsNan lo && !(!xIsNan hi && xLt false hi lo), 96), (!xIsNan hi, 100)] else [rsvOk p 96 4, rsvOk p 100 4]

/-- Format checks of COMMIT (R286). -/
def commitChecks (p : Bytes) : List (Bool × Nat) :=
  [alignOk p 80 8 4, (cmFid p == 0 || cmAction p == 2, 90), (cmAction p ≤ 3, 92), (uAt p 93 1 < 2, 93)] ++ lossChecks p ++ [rsvOk p 108 20]

/-- A SEAL_ONLY digest still held for a step (R287, 17 R512). -/
def heldDigest (s : State) (step : Nat) : Option Bytes := (s.esc.keptDigests.find? fun k => k.step == step && s.now ≤ k.untilNs).map KeptDigest.digest

/-- Whether an ACTION is allowed in the state of the Escapement (R286 check 1, R292, 17 R512). -/
def actionOk (s : State) (p : Bytes) : Bool :=
  let st := escState s
  match cmAction p with
  | 0 => st == 0 && (!replayDue s || (heldDigest s (cmStep p)).isSome)
  | 1 => st == 0 || st == 4 || (st == 5 && s.esc.work.any CommitWork.doubtDone)
  | 2 => st == 4
  | _ => st == 0

/-- The start checks of COMMIT in their order (R286): status, DETAIL, DETAIL2. -/
def commitStart (s : State) (p : Bytes) : Option (Nat × Nat × Nat) :=
  let act := cmAction p
  if act != 1 && s.reck.replayBad.isSome then some (0x0441, 0, cmStep p)
  else if !actionOk s p then some (0x0436, escState s, 0)
  else if act == 3 then none
  else if cmStep p != committedStep s + 1 then some (0x0433, 0, committedStep s)
  else
    match chainMembers s (cmChain p) with
    | none => some (0x0310, cmChain p, 0)
    | some ms =>
      if (posIn s ms).isNone then some (0x0311, cmChain p, 0)
      else if cmBeat p * 65536 ≤ countNow s then some (0x0040, 0, beatNow s)
      else if beatNow s + 2 ^ 20 < cmBeat p then some (0x0041, 0, beatNow s)
      else if act == 2 && flagF s R.ARB_ESC_STATUS F.ARB_ESC_STATUS_SUSPECT_HERE && (cmFid p == 0 || cmFid p == 0xFFFF) then some (0x0013, 90, 0)
      else none

/-! ### What a decision does (R289 to R291) -/

/-- The staged writes, the applied counts and what the step's bands saw dropped (R290 step 4, R291). (DEDUCED, assumption log 25) -/
def dropStage (s : State) : State :=
  let e := { s.esc with list := [], rows := [], applied := [], soundNan := false, soundExp := none, soundClip := 0, notClean := false, suspect := false }
  let s := { s with esc := e, fab := { s.fab with lateHere := false } }
  showEsc (setF (dropParity s) R.ARB_ESC_STATUS F.ARB_ESC_STATUS_IN_STEP 0)

/-- What the step's bands, readings and folds have seen is over with its decision (R287, R290); the next step begins. -/
def nextStep (s : State) : State :=
  let e := { s.esc with soundNan := false, soundExp := none, soundClip := 0, notClean := false, suspect := false }
  let r := { s.reck with deltas := [], folds := [], foldedRows := [], foldFailed := false, reads := s.reck.reads.filter fun w => w.purpose != .fold }
  setF { s with esc := e, reck := r, fab := { s.fab with lateHere := false } } R.ARB_ESC_STATUS F.ARB_ESC_STATUS_IN_STEP 0

/-- The record of a COMMIT whose step is abandoned (R289, R295, 17 R511, R512). -/
def abandonRecord (s : State) (w : CommitWork) (missing : Bool) : Nat × Nat × Nat :=
  if w.action = 1 then (0, 0, 0)
  else if w.confirm == some false then (0x0420, 0, w.step)
  else if s.reck.replayBad == some w.step then (0x0441, 0, w.step)
  else if degradedWhy s != 0 then (0x0411, degradedWhy s, rkGroup s)
  else (0x0430, if w.sealed && w.verdict == .notClean then 1 else if missing then 3 else 2, committedStep s)

/-- The end of a COMMIT's work. -/
def endCommit (s : State) (w : CommitWork) (r : Nat × Nat × Nat) : State := endCmd s w.stream w.counter r.1 0 r.2.1 r.2.2

/-- What follows every decision to commit or abandon outside a release: readings asked again and held ones answered (17 R507), stand-ins ended (17 R514). -/
def afterDecision (s : State) : State := answerHeld (askAgain s)

/-- Four fabric IDs in a DETAIL2 (R295). -/
def fidsWord (fids : List Nat) : Nat := (fids.take 4).zipIdx.foldl (fun n f => n + f.1 * 2 ^ (16 * f.2)) 0

/-- A decision acted on (R289 to R291). -/
def actOn (s : State) (w : CommitWork) (d : Decision) : State :=
  let s := { s with esc := { s.esc with pending := none, vote := none, ask := none, early := none } }
  let origin := fun (s : State) =>
    let s := if (standingIn s).isSome then { s with reck := { s.reck with rebuildList := [], rebuildOff := 0, reads := s.reck.reads.filter fun v => v.purpose != .standIn } } else s
    { s with fab := { s.fab with origin := d.beat, schedDone := 0 }, reck := { s.reck with standIns := [] } }
  match d.kind with
  | .commit =>
    let s := setF (setEsc (nextStep (origin s)) 3) R.REL_RECKON_STATUS F.REL_RECKON_STATUS_REPLAY_DUE 0
    { s with esc := { s.esc with work := some { w with acted := true, entries := s.esc.list.length }, risen := false } }
  | .hold =>
    let s := endCommit s w (0x0431, b2n (flagF s R.ARB_ESC_STATUS F.ARB_ESC_STATUS_SUSPECT_HERE) + 2 * min (2 ^ 15 - 1) d.suspects, fidsWord d.fids)
    { setEsc s 4 with esc := { (setEsc s 4).esc with work := none } }
  | .abandon =>
    let s := endCommit s w (abandonRecord s w d.missing)
    let s := incF (dropStage (origin s)) R.ARB_ESC_EVENTS F.ARB_ESC_EVENTS_ABANDONED 1
    afterDecision { setEsc s 0 with esc := { (setEsc s 0).esc with work := none } }

/-- A decision acted on now if its beat has begun, else kept for it (R289). -/
def actOrWait (s : State) (w : CommitWork) (d : Decision) : State :=
  if beatNow s ≥ d.beat then actOn s w d else { s with esc := { s.esc with pending := some d } }

/-- Decisions of the last four steps (R289), and the version the slice shows (14 R416). -/
def keepDecision (s : State) (d : Decision) : State :=
  setF { s with esc := { s.esc with decisions := (d :: s.esc.decisions.filter fun e => e.step != d.step).take 4 } } R.DRD_STATUS F.DRD_STATUS_SLICE_FLOOR d.version

/-- The decision frame passed to a position. -/
def sendDecision (s : State) (gen : Nat) (fid : Nat) (d : Decision) (answer : Bool) : State :=
  let k := match d.kind with | .commit => 0 | .hold => 1 | .abandon => 2
  sendSlice s gen 1 fid (if answer then .decisionAnswer else .decision) ([d.step, k, d.beat, d.chain, d.suspects, d.version, b2n d.missing] ++ d.fids)

/-- The decision of the last position (R289). -/
def decide_ (s : State) (w : CommitWork) (v : Vote) (missing : Bool) : State :=
  let kind := if missing || v.worst == .notClean then DecisionKind.abandon else if v.worst == .suspect then .hold else .commit
  let d : Decision := { step := w.step, kind := kind, beat := w.beat, chain := w.chain, suspects := v.suspects, fids := v.fids, version := v.version, missing := missing }
  let s := keepDecision s d
  let s := match w.members with | f :: _ :: _ => sendDecision s w.gen f d false | _ => s
  actOrWait s w d

/-! ### The vote (R289) -/

/-- Order of verdicts, the worst last. -/
def Verdict.rank : Verdict → Nat
  | .clean => 0
  | .suspect => 1
  | .notClean => 2

/-- The lower of two versions, 0 standing for none (14 R416). -/
def minVersion (a b : Nat) : Nat := if a = 0 then b else if b = 0 then a else min a b

/-- A vote with this module's verdict merged in (R289). -/
def mergeVote (s : State) (w : CommitWork) (v : Vote) : Vote :=
  let bad := v.step != w.step || v.action != w.action || v.beat != w.beat
  let own := if bad then Verdict.notClean else w.verdict
  let worst := if v.worst.rank < own.rank then own else v.worst
  let sus := w.verdict == .suspect
  { step := w.step, action := w.action, beat := w.beat, worst := worst, suspects := v.suspects + b2n sus,
    fids := if sus then (v.fids ++ [myFid s]).take 4 else v.fids, version := minVersion v.version (versionFloor s) }

/-- The vote sent, or the decision taken at the last position, once this module is sealed and holds the vote before it (R289). -/
def castVote (s : State) : State :=
  match s.esc.work with
  | none => s
  | some w =>
    if !w.sealed || w.voted || escState s == 5 then s
    else
      let start : Vote := { step := w.step, action := w.action, beat := w.beat, worst := .clean, suspects := 0, fids := [], version := 0 }
      match (if w.pos = 0 then some start else s.esc.vote) with
      | none => s
      | some v0 =>
        let v := mergeVote s w v0
        let sus := w.verdict == .suspect
        let s := setF s R.ARB_ESC_STATUS F.ARB_ESC_STATUS_SUSPECT_HERE (b2n sus)
        let s := if sus then incF s R.ARB_ESC_EVENTS F.ARB_ESC_EVENTS_SUSPECT 1 else s
        let w := { w with voted := true }
        let s := setEsc { s with esc := { s.esc with work := some w, vote := none } } 2
        match w.members[w.pos + 1]? with
        | some f =>
          let worst := v.worst.rank
          sendSlice s w.gen 1 f .vote ([v.step, v.action, v.beat, worst, v.suspects, v.version] ++ v.fids)
        | none => decide_ s w v false

/-! ### The seal (R287, R288) -/

/-- The stage digest (R288). -/
def stageDigest (s : State) (step loss : Nat) : Bytes :=
  let marks := (s.esc.list.map fun e => (List.range (cdiv e.bytes 4096)).map fun i =>
    let a := e.src + i * 4096
    natLe 8 (rebase (hallmarkAt s ((physOf s a).getD 0)) (ivOf (tensorEpoch s) a) 0)).flatten.flatten
  let rows := (s.esc.rows.map fun r => natLe 8 (crc64 0 (r.elems ++ r.scales))).flatten
  shake256 (natLe 8 step ++ natLe 4 loss ++ marks ++ rows) 32

/-- Whether an alarm band is crossed by the soundings of the step or by the loss (R287 step 2). -/
def bandCrossed (s : State) (p : Bytes) (loss : Option Nat) : Bool :=
  let limit := uAt p 94 2
  let sat := uAt p 104 4
  ((uAt p 93 1).testBit 0 && s.esc.soundNan) ||
  (limit != 0x8000 && s.esc.soundExp.any fun e => sgn16 limit < e) ||
  (sat < 16384 && sat < s.esc.soundClip) ||
  (match loss with
   | none => false
   | some c =>
     let x := decodeElem .fp32 c
     xIsNan x || xLt false x (decodeElem .fp32 (uAt p 96 4)) || xLt false (decodeElem .fp32 (uAt p 100 4)) x)

/-- Whether every work command accepted before the COMMIT has retired (R287 step 1). -/
def earlierRetired (s : State) (w : CommitWork) : Bool :=
  match findCmd s w.stream w.counter with
  | some x => s.cmd.cmds.all fun y => x.order ≤ y.order
  | none => false

/-- The verdict of a sealed step (R287 step 5, 14 R416, 16 R474, 17 R511). -/
def sealVerdict (s : State) (w : CommitWork) : Verdict :=
  let floor := versionFloor s
  if s.esc.notClean || s.reck.foldFailed || degradedWhy s != 0 || s.fab.lateHere || (floor != 0 && floor < 3 && grpP s == 2) then .notClean
  else if s.esc.suspect || w.crossed then .suspect
  else .clean

/-- The comparison of a recovery replay (17 R512): the new digest against the held one. -/
def checkReplay (s : State) (w : CommitWork) (digest : Bytes) (v : Verdict) : Verdict × State :=
  if w.action = 0 && replayDue s then
    match heldDigest s w.step with
    | some h =>
      if h == digest then (v, s)
      else
        let s := logEvent { s with reck := { s.reck with replayBad := some w.step } } (srcOf 0xB 0) 0x04C1 clsLostWork w.step (uAt h 0 8) (uAt digest 0 8)
        (.notClean, tellBluvisen s 512 [w.step])
    | none => (v, s)
  else (v, s)

/-- The end of the fold: digest, verdict, and the vote, or under SEAL_ONLY the discard (R287 steps 4 and 5). (DEDUCED, assumption log 25) -/
def sealNow (s : State) (w : CommitWork) : State :=
  let dg := stageDigest s w.step w.loss
  let (v, s) := checkReplay s w dg (sealVerdict s w)
  if w.action = 3 then
    let kept : KeptDigest := { step := w.step, digest := dg, untilNs := s.now + 16384 * 65536 }
    let s := dropStage s
    let s := { setEsc s 0 with esc := { (setEsc s 0).esc with digest := dg, keptDigests := (s.esc.keptDigests.filter fun k => k.step != w.step && s.now ≤ k.untilNs) ++ [kept], work := none } }
    afterDecision (endCommit s w (0, v.rank, 0))
  else castVote { s with esc := { s.esc with digest := dg, work := some { w with sealed := true, verdict := v } } }

/-- The fold ends once every delta is acknowledged and every stripe of STALE units has its parity (R287 step 3, 17 R505, R506). -/
def sealTry (s : State) : State :=
  match s.esc.work with
  | none => s
  | some w => if w.folding && !w.sealed && escState s == 1 && s.reck.deltas.isEmpty && s.reck.folds.isEmpty then sealNow s w else s

/-- Steps 2 and 3 of R287: the bands, the loss, the folds and the notices of STALE units. -/
def sealFold (s : State) (w : CommitWork) (p : Bytes) : State :=
  let a := uAt p 80 8
  let (loss, s) : Option Nat × State :=
    if a = 0 then (none, s)
    else match runMM (readPart none w.stream w.counter a 4) s with
      | (.ok bs, s) => (some (leNat bs), s)
      | (.error e, s) => (none, { blockFailed s e w.counter with esc := { (blockFailed s e w.counter).esc with notClean := true } })
  let w := { w with folding := true, crossed := bandCrossed s p loss, loss := loss.getD 0 }
  sealTry (tellStale (foldRows { s with esc := { s.esc with work := some w } }))

/-- A decision of a step that came before this module's vote (R289). -/
def earlyDecision (s : State) (step : Nat) : Option Decision := if s.esc.early.any fun d => d.step == step then s.esc.early else none

/-- The kept decision of a step, among the last four (R289). -/
def keptDecision (s : State) (step : Nat) : Option Decision := s.esc.decisions.find? fun d => d.step == step

/-- An ABANDON in IN_DOUBT (R292): the staged writes go, the position is not intact, and the asking goes on. (DEDUCED, assumption log 24) -/
def doubtAbandon (s : State) (w : CommitWork) : State :=
  let s := endCommit s w (0, 0, 0)
  let s := dropStage s
  let s := if rkHeld s then showReckon (setBitF s R.REL_RECKON_STATUS F.REL_RECKON_STATUS_NOT_INTACT (rkPos s) true) else s
  let s := incF s R.ARB_ESC_EVENTS F.ARB_ESC_EVENTS_ABANDONED 1
  afterDecision { setEsc s 0 with esc := { (setEsc s 0).esc with work := none, doubtAbandon := true, vote := none, pending := none } }

/-- The Escapement's work on a COMMIT whose earlier commands have retired (R287, R289, R292). -/
def sealStep (s : State) (w : CommitWork) (p : Bytes) : State :=
  match (if w.action = 3 then none else earlyDecision s w.step) with
  | some d => actOn s w { d with missing := true }
  | none =>
    if w.action = 1 then
      if w.before = 5 then doubtAbandon s w else castVote { s with esc := { s.esc with work := some { w with sealed := true, verdict := .notClean } } }
    else sealFold s w p

/-- ESCAPEMENT_SEAL (R287): the seal of a COMMIT whose earlier commands have retired. -/
def execEscapementSeal (ups : List Upset) (s : State) : Reply :=
  done (match s.esc.work with
    | none => s
    | some w =>
      match findCmd s w.stream w.counter with
      | none => s
      | some x => onlyIf (escState s == 1 && !w.folding && !w.sealed && w.action != 2 && x.stop.isNone && earlierRetired s w) s fun s =>
          inClass 3 s fun s => withUpsets ups s fun s => sealStep s w x.pkt)

/-! ### COMMIT -/

/-- A COMMIT that has started (R287): SEALING; under CONFIRM the verdict at once, or the digest fetched. -/
def commitBegin (s : State) (q c gen : Nat) (p : Bytes) : State :=
  let ms := if cmAction p == 3 then [] else (chainMembers s (cmChain p)).getD []
  let w : CommitWork := { stream := q, counter := c, step := cmStep p, action := cmAction p, beat := cmBeat p, chain := cmChain p, pos := (posIn s ms).getD 0,
                          members := ms, before := escState s, gen := gen }
  let s := setEsc s 1
  if cmAction p == 2 then
    if (earlyDecision s w.step).isSome then
      match earlyDecision s w.step with | some d => actOn s w { d with missing := true } | none => s
    else if flagF s R.ARB_ESC_STATUS F.ARB_ESC_STATUS_SUSPECT_HERE then
      sendSlice { s with esc := { s.esc with work := some w } } gen 1 (cmFid p) .digestRequest [w.step]
    else castVote { s with esc := { s.esc with work := some { w with sealed := true, verdict := .clean } } }
  else { s with esc := { s.esc with work := some w } }

/-- A COMMIT stopped before its vote (R67): the seal ends, the state before it returns, the staged writes stay. -/
def commitStop (s : State) (q c : Nat) : State :=
  match s.esc.work with
  | some w => if w.stream == q && w.counter == c && !w.voted then { setEsc s w.before with esc := { (setEsc s w.before).esc with work := none } } else s
  | none => s

/-- COMMIT (R285, R286): its packet at intake. -/
def execCommit (s : State) : Reply := done (intakeWork s opCOMMIT (bodyChecks 160 commitChecks))

/-- VOTE_FRAME (R289): the vote of the position before. -/
def execVoteFrame (v : Vote) (s : State) : Reply :=
  done (onlyIf (sliceState s == 2) s fun s => castVote { s with esc := { s.esc with vote := some v } })

/-! ### Decisions received (R289, R292) -/

/-- A decision passed on along the chain: from position p to p + 1, up to n − 2. -/
def passDecision (s : State) (d : Decision) : State :=
  match chainMembers s d.chain with
  | none => s
  | some ms =>
    match posIn s ms with
    | none => s
    | some p => if p + 3 ≤ ms.length then (match ms[p + 1]? with | some f => sendDecision s 0 f d false | none => s) else s

/-- A decision learned after an ABANDON in IN_DOUBT (R292): ABANDON makes the position intact again; the asking ends. -/
def learnLate (s : State) (d : Decision) : State :=
  if s.esc.doubtAbandon && s.esc.ask.any fun a => a.step == d.step then
    let s := { s with esc := { s.esc with doubtAbandon := d.kind != .abandon, ask := none } }
    if d.kind == .abandon && rkHeld s then showReckon (setBitF s R.REL_RECKON_STATUS F.REL_RECKON_STATUS_NOT_INTACT (rkPos s) false) else s
  else s

/-- A decision received: kept, passed on, and acted on at COMMIT_BEAT or now (R289). -/
def takeDecision (s : State) (d : Decision) (answer : Bool) : State :=
  let known := (keptDecision s d.step).any fun e => e.kind == d.kind && e.beat == d.beat
  let s := keepDecision s d
  let s := if answer || known then s else passDecision s d
  match s.esc.work with
  | some w =>
    if w.step == d.step && !w.acted && s.esc.pending.isNone && w.action != 3 && (w.voted || w.folding || w.sealed || w.action == 2) then actOrWait s w d
    else if w.step == d.step && !w.acted && w.action != 3 then { s with esc := { s.esc with early := some d } }
    else learnLate s d
  | none => if d.step == committedStep s + 1 && !answer && !known then learnLate { s with esc := { s.esc with early := some d } } d else learnLate s d

/-- DECISION_FRAME (R289): a decision, or the answer to a request for one (R292). -/
def execDecisionFrame (d : Decision) (answer : Bool) (s : State) : Reply := done (onlyIf (sliceState s == 2) s fun s => takeDecision s d answer)

/-- COMMIT_BEAT (R289): the last position decides with missing votes, and a held decision is acted on. -/
def execCommitBeat (s : State) : Reply :=
  done (match s.esc.work with
    | none => s
    | some w =>
      if beatNow s < w.beat || w.acted || w.action == 3 then s
      else
        match s.esc.pending with
        | some d => actOn s w d
        | none =>
          if w.pos + 1 == w.members.length && escState s != 5 && s.esc.early.isNone then
            let v : Vote := { step := w.step, action := w.action, beat := w.beat, worst := .notClean, suspects := 0, fids := [], version := versionFloor s }
            let d : Decision := { step := w.step, kind := .abandon, beat := w.beat, chain := w.chain, suspects := v.suspects, fids := v.fids, version := v.version, missing := true }
            let early := fun d => { keepDecision s d with esc := { (keepDecision s d).esc with early := some d } }
            if w.folding || w.sealed || w.action == 2 then decide_ s w v true
            else match w.members with | f :: _ :: _ => sendDecision (early d) w.gen f d false | _ => early d
          else s)

/-! ### In doubt (R292) -/

/-- IN_DOUBT_ENTRY (R292): sixteen beats after COMMIT_BEAT without a decision. (DEDUCED, assumption log 24) -/
def execInDoubtEntry (s : State) : Reply :=
  done (match s.esc.work with
    | none => s
    | some w =>
      if w.action == 3 || w.acted || s.esc.pending.isSome || beatNow s < w.beat + 16 || !(escState s == 1 || escState s == 2) || s.esc.early.isSome then s
      else setEsc { s with esc := { s.esc with ask := some { step := w.step, members := w.members, pos := w.pos, since := beatNow s } } } 5)

/-- The order in which an IN_DOUBT module asks (R292). -/
def askOrder (n p : Nat) : List Nat :=
  let a := (p + n - 1) % n
  let b := (p + 1) % n
  let first := if a = b then [a] else [a, b]
  (first ++ (List.range n).filter fun i => !first.contains i).filter (· != p)

/-- DECISION_REQUEST (R292): one request per beat, or per watch once ESC_IN_DOUBT has been given. -/
def execDecisionRequest (s : State) : Reply :=
  done (match s.esc.ask with
    | none => s
    | some a =>
      let due := match a.last with | none => true | some b => if a.slow then b + 16384 ≤ beatNow s else b < beatNow s
      let order := askOrder a.members.length a.pos
      if !due || order.isEmpty then s
      else
        let fid := a.members.getD (order.getD (a.sent % order.length) 0) 0
        sendSlice { s with esc := { s.esc with ask := some { a with sent := a.sent + 1, last := some (beatNow s) } } } 0 1 fid .decisionRequest [a.step])

/-- ESC_IN_DOUBT (R292): one watch in doubt, and the COMMIT completes; the staged writes are kept and the asking goes on. (DEDUCED, assumption log 24) -/
def execEscInDoubt (s : State) : Reply :=
  done (match s.esc.work, s.esc.ask with
    | some w, some a =>
      if escState s == 5 && !w.doubtDone && a.since + 16384 ≤ beatNow s then
        let s := endCommit s w (0x0434, 0, w.step)
        { s with esc := { s.esc with work := some { w with doubtDone := true }, ask := some { a with slow := true } } }
      else s
    | _, _ => s)

/-- DECISION_REQUEST_RECEIPT (R292): the kept decision of a step is sent to the member that asks. -/
def execDecisionRequestReceipt (fid step : Nat) (s : State) : Reply :=
  done (onlyIf (sliceState s == 2 && isMember s fid) s fun s => match keptDecision s step with | some d => sendDecision s 0 fid d true | none => s)

/-! ### Digests (R287) -/

/-- DIGEST_FETCH_REQUEST (R287): the digest of a SEAL_ONLY, or that none is held. -/
def execDigestFetchRequest (fid step : Nat) (s : State) : Reply :=
  done (onlyIf (sliceState s == 2 && isMember s fid) s fun s =>
    match heldDigest s step with
    | some d => sendSlice s 0 1 fid .digestAnswer [step, 1] d
    | none => sendSlice s 0 1 fid .digestAnswer [step, 0])

/-- DIGEST_FETCH_ANSWER (R287): the digest, or its failure, fixes the verdict of a suspect member under CONFIRM. -/
def execDigestFetchAnswer (step : Nat) (digest : Option Bytes) (s : State) : Reply :=
  done (match s.esc.work with
    | none => s
    | some w =>
      if w.action == 2 && w.step == step && !w.sealed && escState s == 1 then
        let same := digest == some s.esc.digest
        castVote { s with esc := { s.esc with work := some { w with sealed := true, verdict := if same then .clean else .notClean, confirm := some same } } }
      else s)

/-! ### Deltas and readings received (17 R505 to R508) -/

/-- PARITY_DELTA (17 R506): a delta, or the notice of a STALE unit, reaches a holder of parity. -/
def execParityDelta (d : DeltaIn) (s : State) : Reply := done (onlyIf (sliceState s == 2 && rkHeld s) s fun s => inClass 3 s fun s => takeDelta s d)

/-- PARITY_DELTA_ACK (17 R505): once every delta is acknowledged, the seal goes on. -/
def execParityDeltaAck (fid unit offset : Nat) (stale : Bool) (s : State) : Reply :=
  done (onlyIf (sliceState s == 2 && rkHeld s) s fun s => sealTry (takeDeltaAck s fid unit offset stale))

/-- READING_REQUEST (17 R507): answered, held while a release runs, or answered STEP_DIFFERS. -/
def execReadingRequest (fid stripe offset step : Nat) (ask : ReadingAsk) (ups : List Upset) (s : State) : Reply :=
  done (onlyIf (sliceState s == 2 && rkHeld s && isMember s fid) s fun s => inClass 1 s fun s => withUpsets ups s fun s =>
    match ask with
    | .streams => sendReading s fid stripe offset 6 (committedStep s) (streamsData s)
    | k =>
      if releasing s then { s with reck := { s.reck with heldReads := s.reck.heldReads ++ [⟨fid, stripe, offset, step, k == .fold⟩] } }
      else answerReading s fid stripe offset step (k == .fold))

/-- The STAND_IN of a spare whose last unit has been written ends (17 R514). -/
def standInDone (s : State) : State :=
  match standingIn s with
  | some x => if x.done && isRunning s x.stream x.counter opSTAND_IN then endCmd s x.stream x.counter 0 0 0 0 else s
  | none => s

/-- READING (17 R508): an answer to a gathering, or another reading frame. -/
def execReading (fid stripe offset : Nat) (body : ReadingBody) (ups : List Upset) (s : State) : Reply :=
  done (onlyIf (sliceState s == 2) s fun s => inClass 1 s fun s => withUpsets ups s fun s => standInDone (sealTry (takeReading s fid stripe offset body)))

end Sys2Proof.Machine
end

