-- ==== Sys2Proof/Machine/Feeders.lean ====
section
/-!
DEFINITION. The MATMUL descriptor and what the feeders deliver: operand rows, conversions, transposition, promoted regions and parts (04 R103 to R105, 05 R112 to R135).
-/
namespace Sys2Proof.Machine

/-! ### Descriptor fields (R133) -/

def mmM (p : Bytes) : Nat := uAt p 64 4
def mmN (p : Bytes) : Nat := uAt p 68 4
def mmK (p : Bytes) : Nat := uAt p 72 4
def mmWTrans (p : Bytes) : Bool := (uAt p 77 1).testBit 0
def mmXTrans (p : Bytes) : Bool := (uAt p 77 1).testBit 1
def mmSplit (p : Bytes) : Nat := 2 ^ bitsOf (uAt p 77 1) 3 2
def mmTilesN (p : Bytes) : Nat := cdiv (mmN p) 128
def mmTiles (p : Bytes) : Nat := cdiv (mmM p) 128 * mmTilesN p

/-- A compute format: its code and QESC. -/
def cfmtAt (p : Bytes) (off : Nat) : Option Fmt := fmtOfCode (bitsOf (uAt p off 1) 3 0)
def qescAt (p : Bytes) (off : Nat) : Bool := (uAt p off 1).testBit 4

/-- A format block of the descriptor. -/
def fmtAt (p : Bytes) (off : Nat) : Option FmtBlock := parseFmt (sub p off 16)

/-- An operand of MATMUL as its fields give it. -/
structure Operand where
  fmt : FmtBlock
  cfmt : Fmt
  qesc : Bool
  trans : Bool
  base : Nat
  pitch : Nat
  scale : Nat
  esc : Nat
  /-- Stored rows and their length. -/
  rows : Nat
  cols : Nat
  deriving DecidableEq, Repr

/-- W and X (R133): stored rows and columns by their transposition. -/
def operandW (p : Bytes) : Option Operand :=
  match fmtAt p 88, cfmtAt p 78 with
  | some f, some c =>
    let t := mmWTrans p
    some { fmt := f, cfmt := c, qesc := qescAt p 78, trans := t, base := uAt p 136 8, pitch := uAt p 144 8, scale := uAt p 152 8, esc := uAt p 160 8,
           rows := if t then mmK p else mmN p, cols := if t then mmN p else mmK p }
  | _, _ => none

def operandX (p : Bytes) : Option Operand :=
  match fmtAt p 104, cfmtAt p 79 with
  | some f, some c =>
    let t := mmXTrans p
    some { fmt := f, cfmt := c, qesc := qescAt p 79, trans := t, base := uAt p 168 8, pitch := uAt p 176 8, scale := uAt p 184 8, esc := uAt p 192 8,
           rows := if t then mmK p else mmM p, cols := if t then mmM p else mmK p }
  | _, _ => none

/-- Bytes of a stored row of n elements. -/
def rowBytes (f : Fmt) (n : Nat) : Nat := if f.blockScaled then n / 32 * (4 * f.width) else n * f.width / 8

/-! ### Pairs and parts (R103, R105, R112) -/

/-- Whether a format takes block sums as a stationary operand against P4. -/
def blockStat (w : Fmt) : Bool := w == .p2 || w == .p3 || w == .p4

/-- Formats of the two-MAC pairs. -/
def twoMac (f : Fmt) : Bool := f == .p6 || f == .e4m3 || f == .e5m2

/-- Whether the arrays accept a pair: stationary, streamed (R103). -/
def pairOk (w x : Fmt) : Bool :=
  (blockStat w && x == .p4) || (twoMac w && twoMac x) || (w == .bf16 && x == .bf16) || (w == .fp16 && x == .fp16) ||
  (w == .fp32x2 && x == .bf16) || (w == .bf16 && x == .fp32x2) || (w == .fp32x2 && x == .fp32x2) || (w == .fp64 && x == .fp64)

/-- Whether a pair forms exact block sums (R104). -/
def exactPair (w x : Fmt) : Bool := blockStat w && x == .p4

/-- Chunk depth Kc (R112). -/
def chunkDepth (w x : Fmt) : Nat := if exactPair w x then (if w == .p2 then 1024 else 512) else if twoMac w then 256 else 128

/-- The parts of a pair in their order: which part of W and of X enters (R105). -/
def partsOf (w x : Fmt) : List (Nat × Nat) :=
  if w == .fp32x2 && x == .fp32x2 then [(2, 1), (1, 2), (1, 1)]
  else if w == .fp32x2 then [(2, 1), (1, 1)]
  else if x == .fp32x2 then [(1, 2), (1, 1)]
  else [(1, 1)]

/-- Whether a feeder converts a stored format to a compute format (R122). -/
def feedOk (st c : Fmt) : Bool :=
  st == c || ((st == .fp32 || st == .bf16 || st == .fp16) && (c.narrow || c == .e4m3 || c == .e5m2)) || (st == .fp32 && (c == .bf16 || c == .fp16 || c == .fp32x2)) ||
  (st.narrow && c == .e4m3)

/-- The first or second part of an FP32X2 element (R105). -/
def splitPart (part : Nat) (a : XV) : XV :=
  let a1 := roundTo .bf16 .rne true 0 a
  match a with
  | .fin _ _ _ =>
    if part = 1 then a1
    else
      let r := xAdd a (xNeg a1)
      match r with
      | .fin _ m e => if m != 0 && -133 ≤ ilog2 m e then roundTo .bf16 .rne true 0 r else .fin false 0 0
      | _ => r
  | _ => if part = 1 then convSpecial a else .fin false 0 0
where
  /-- An infinite or NaN element as BF16 (R105). -/
  convSpecial (x : XV) : XV := match x with | .nan => .nan | y => y

/-- The part of a compute operand that a pass uses; parts other than 1 exist for FP32X2 alone. -/
def takePart (c : Fmt) (part : Nat) (v : XV) : XV := if c == .fp32x2 then splitPart part v else v

/-! ### Format checks (R134, R154) -/

/-- A base is non-zero exactly where it is used. -/
def useBase (p : Bytes) (off : Nat) (used : Bool) : Bool × Nat := ((uAt p off 8 != 0) == used, off)

/-- A pitch (R134). -/
def pitchOk (p : Bytes) (off : Nat) (f : Fmt) (n : Nat) : Bool × Nat := (uAt p off 8 % 16 == 0 && rowBytes f n ≤ uAt p off 8, off)

/-- Format checks of MATMUL in the order of its fields (R86, R134, R154). (DEDUCED, assumption log 112) -/
def matmulChecks (p : Bytes) : List (Bool × Nat) :=
  let wt := mmWTrans p
  let xt := mmXTrans p
  let wc := if wt then mmN p else mmK p
  let xc := if xt then mmM p else mmK p
  match fmtAt p 88, fmtAt p 104, fmtAt p 120, cfmtAt p 78, cfmtAt p 79 with
  | some w, some x, some y, some cw, some cx =>
    let s := mmSplit p
    let c := cdiv (mmK p) (chunkDepth cw cx)
    [boundOk p 64 4 1 (2 ^ 24), boundOk p 68 4 1 (2 ^ 24), boundOk p 72 4 1 (2 ^ 24), (1 ≤ uAt p 76 1 && uAt p 76 1 < 16, 76), (uAt p 77 1 < 16, 77)] ++
    [(!(w.fmt.blockScaled && wt) && !(x.fmt.blockScaled && xt), 77), (s == 1 || !(cw == .fp64 || cw == .fp32x2 || c < s), 77),
     (uAt p 78 1 < 32 && feedOk w.fmt cw, 78), (uAt p 79 1 < 32 && pairOk cw cx && feedOk x.fmt cx, 79), rsvOk p 84 4] ++
    [(fmtOk (sub p 88 16) false wc && !w.promote, 88), (fmtOk (sub p 104 16) false xc && !(x.promote && xt), 104), (fmtOk (sub p 120 16) true (mmN p) && y.fmt != .fp32x2, 120)] ++
    [useBase p 136 true, pitchOk p 144 w.fmt wc, useBase p 152 w.fmt.blockScaled, useBase p 160 w.esc] ++
    [useBase p 168 true, pitchOk p 176 x.fmt xc, useBase p 184 x.fmt.blockScaled, useBase p 192 x.esc, useBase p 200 x.promote, useBase p 208 x.promote] ++
    [useBase p 216 true, pitchOk p 224 y.fmt (mmN p), useBase p 232 y.fmt.blockScaled, useBase p 240 y.esc, useBase p 248 y.promote, useBase p 256 y.promote, useBase p 264 true]
  | w, x, y, cw, cx =>
    [boundOk p 64 4 1 (2 ^ 24), boundOk p 68 4 1 (2 ^ 24), boundOk p 72 4 1 (2 ^ 24), (1 ≤ uAt p 76 1 && uAt p 76 1 < 16, 76), (uAt p 77 1 < 16, 77),
     (cw.isSome && uAt p 78 1 < 32, 78), (cx.isSome && uAt p 79 1 < 32, 79), rsvOk p 84 4, (w.isSome, 88), (x.isSome, 104), (y.isSome, 120)]

/-! ### Regions (R135) -/

/-- Bytes of a plane of rows at a pitch. (DEDUCED, assumption log 74) -/
def planeSpan (rows pitch bytes : Nat) : Nat := (rows - 1) * pitch + bytes

/-- Regions of a MATMUL: descriptor offset of the base, length, whether it is written, whether it must lie in tile memory. -/
def mmRegions (p : Bytes) : List (Nat × Nat × Bool × Bool) :=
  match operandW p, operandX p, fmtAt p 120 with
  | some w, some x, some y =>
    let one := fun (o : Operand) (b sc es : Nat) =>
      [(b, planeSpan o.rows o.pitch (rowBytes o.fmt.fmt o.cols), false, false)] ++
      (if o.fmt.fmt.blockScaled then [(sc, o.rows * (o.cols / 32), false, false)] else []) ++ (if o.fmt.esc then [(es, o.rows * (o.cols / 8), false, false)] else [])
    let xt := cdiv (mmM p) 128 * cdiv (mmK p) 128
    let yt := mmTiles p
    one w 136 152 160 ++ one x 168 184 192 ++
    (if x.fmt.promote then [(200, xt * 0x5000, false, false), (208, cdiv xt 8, false, false)] else []) ++
    [(216, planeSpan (mmM p) (uAt p 224 8) (rowBytes y.fmt (mmN p)), true, true)] ++
    (if y.fmt.blockScaled then [(232, mmM p * (mmN p / 32), true, true)] else []) ++ (if y.esc then [(240, mmM p * (mmN p / 8), true, true)] else []) ++
    (if y.promote then [(248, yt * 0x5000, true, true), (256, cdiv yt 8, true, true)] else []) ++ [(264, yt * 64, true, false)]
  | _, _, _ => []

/-- The first address of a range outside tile memory. -/
def notTile (a n : Nat) : Option Nat :=
  if a < tileBase 0 then some a else if tileBase 4 < a + n then some (max a (tileBase 4)) else none

/-- The start check of MATMUL's regions (R135). -/
def matmulStart (s : State) (p : Bytes) : Option (Nat × Nat) :=
  (mmRegions p).findSome? fun r =>
    match rangeFault s r.1 (uAt p r.1 8) r.2.1 with
    | some f => some f
    | none => if r.2.2.2 then (notTile (uAt p r.1 8) r.2.1).map fun a => (r.1, a) else none

/-! ### Reading an operand -/

/-- A bag of decoded elements and the operand blocks among them whose escape entries conflict (R96). -/
structure Fed where
  vals : List XV
  conflicts : Nat
  deriving DecidableEq, Repr

/-- Elements k0 to k1 of a stored row, decoded; block-scaled rows are read by whole blocks. -/
def readRow (die : Option Nat) (q c : Nat) (o : Operand) (r k0 k1 : Nat) : MM Fed := do
  let f := o.fmt.fmt
  if f.blockScaled then
    let b0 := k0 / 32
    let nb := cdiv k1 32 - b0
    let w := 4 * f.width
    let el ← readSpan die q c (o.base + r * o.pitch + b0 * w) (nb * w)
    let sc ← readSpan die q c (o.scale + r * (o.cols / 32) + b0) nb
    let es ← if o.fmt.esc then readSpan die q c (o.esc + r * (o.cols / 8) + 4 * b0) (4 * nb) else pure []
    let ds := (List.range nb).map fun b => decodeBlock f (uAt sc b 1) (sub el (b * w) w) (if o.fmt.esc then some (sub es (4 * b) 4) else none)
    pure { vals := ((ds.map DecodedBlock.vals).flatten.drop (k0 - 32 * b0)).take (k1 - k0), conflicts := (ds.filter DecodedBlock.conflict).length }
  else
    let w := f.width / 8
    let el ← readSpan die q c (o.base + r * o.pitch + k0 * w) ((k1 - k0) * w)
    pure { vals := (List.range (k1 - k0)).map fun i => decodeElem f (uAt el (i * w) w), conflicts := 0 }

/-- Values along the reduction axis converted to the compute format (R122); the first is at a multiple of 32. -/
def feedVals (o : Operand) (vs : List XV) : List XV :=
  let st := o.fmt.fmt
  let c := o.cfmt
  if st == c || st.narrow then vs
  else if c.blockScaled then
    ((List.range (cdiv vs.length 32)).map fun b =>
      let blk := (List.range 32).map fun i => vs.getD (32 * b + i) (.fin false 0 0)
      let e := encodeBlock c .rne true (o.qesc && c.escapes) [] blk
      (decodeBlock c e.scale (packBlock c.width e.codes) (if o.qesc && c.escapes then some e.esc else none)).vals).flatten.take vs.length
  else if c == .fp32x2 then vs
  else vs.map fun v => roundTo c .rne true 0 v

/-- Rows turned into columns. -/
def transposeVals (n : Nat) (m : List (List XV)) : List (List XV) := (List.range n).map fun j => m.map fun r => r.getD j (.fin false 0 0)

/-- Outputs o0 to o1 (rows of Y for X, columns for W) over reduction positions k0 to k1, in the compute format, output by output, with the conflicting blocks read. -/
def readOperand (die : Option Nat) (q c : Nat) (o : Operand) (o0 o1 k0 k1 : Nat) : MM (List (List XV) × Nat) := do
  let mut rows : List (List XV) := []
  let mut bad := 0
  if o.trans then
    for k in List.range (k1 - k0) do
      let f ← readRow die q c o (k0 + k) o0 o1
      rows := rows ++ [f.vals]
    pure ((transposeVals (o1 - o0) rows).map (feedVals o), 0)
  else
    for i in List.range (o1 - o0) do
      let f ← readRow die q c o (o0 + i) k0 k1
      rows := rows ++ [feedVals o f.vals]
      bad := bad + f.conflicts
    pure (rows, bad)

/-! ### Promoted regions (R124, R125) -/

/-- Regions of a row of X's regions whose bit is set in the promotion map. -/
def readPromo (die : Option Nat) (q c : Nat) (p : Bytes) (mt : Nat) : MM (List Nat) := do
  match fmtAt p 104 with
  | none => pure []
  | some x =>
    if x.promote then
      let nk := cdiv (mmK p) 128
      let b0 := mt * nk
      let bs ← readSpan die q c (uAt p 208 8 + b0 / 8) (cdiv (b0 + nk) 8 - b0 / 8)
      pure ((List.range nk).filter fun kt => (uAt bs ((b0 + kt) / 8 - b0 / 8) 1).testBit ((b0 + kt) % 8))
    else pure []

/-- Row r of a promoted region, decoded (R125). -/
def readPromoRow (die : Option Nat) (q c : Nat) (p : Bytes) (t r : Nat) : MM (List XV) := do
  let a := uAt p 200 8 + t * 0x5000
  let el ← readSpan die q c (a + r * 128) 128
  let sc ← readSpan die q c (a + 0x4000 + r * 4) 4
  pure (((List.range 4).map fun b => (decodeBlock .e4m3 (uAt sc b 1) (sub el (32 * b) 32) none).vals).flatten)

/-- Row i of X over positions k0 to k1 for a tile row with promoted regions: those from the promotion area, the others as stored (R124). -/
def readXRow (die : Option Nat) (q c : Nat) (p : Bytes) (o : Operand) (promo : List Nat) (i k0 k1 : Nat) : MM (List XV × Nat) := do
  let nk := cdiv (mmK p) 128
  let mut out : List XV := []
  let mut bad := 0
  for kt in (List.range nk).filter (fun kt => kt * 128 < k1 && k0 < kt * 128 + 128) do
    let a := max k0 (kt * 128)
    let b := min k1 (kt * 128 + 128)
    if promo.contains kt then
      let vs ← readPromoRow die q c p (i / 128 * nk + kt) (i % 128)
      out := out ++ (vs.drop (a - kt * 128)).take (b - a)
    else
      let f ← readRow die q c o i a b
      out := out ++ feedVals o f.vals
      bad := bad + f.conflicts
  pure (out, bad)

/-! ### The steps of a tile's share (R113, R124, R145, R152) -/

/-- One chunk as it runs: the parts, its reduction positions, and whether it runs as an E4M3 sub-chunk. -/
structure Step where
  wpart : Nat
  xpart : Nat
  last : Bool
  k0 : Nat
  k1 : Nat
  sub : Bool
  deriving DecidableEq, Repr

/-- The steps of chunk c: one, or the sub-chunks of 256 positions where it covers a promoted region (R124). -/
def chunkSteps (p : Bytes) (kc : Nat) (promo : List Nat) (part : Nat × Nat) (last : Bool) (c : Nat) : List Step :=
  let k0 := c * kc
  let k1 := min (mmK p) (k0 + kc)
  if promo.any fun kt => kt * 128 < k1 && k0 < kt * 128 + 128 then
    (List.range (cdiv (k1 - k0) 256)).map fun i => { wpart := part.1, xpart := part.2, last := last, k0 := k0 + i * 256, k1 := min k1 (k0 + i * 256 + 256), sub := true }
  else [{ wpart := part.1, xpart := part.2, last := last, k0 := k0, k1 := k1, sub := false }]

/-- The steps of member j of a tile (R152): its chunks, once per part in the order of R105. -/
def memberSteps (p : Bytes) (promo : List Nat) (j : Nat) : List Step :=
  match cfmtAt p 78, cfmtAt p 79 with
  | some w, some x =>
    let kc := chunkDepth w x
    let c := cdiv (mmK p) kc
    let s := mmSplit p
    let lo := j * c / s
    let hi := (j + 1) * c / s
    let parts := partsOf w x
    (parts.zipIdx.map fun pt => ((List.range (hi - lo)).map fun i => chunkSteps p kc promo pt.1 (pt.2 + 1 == parts.length) (lo + i)).flatten).flatten
  | _, _ => []

/-- Whether a tile is checked by the exact method (10 R271). -/
def exactTile (p : Bytes) (promo : List Nat) : Bool :=
  match cfmtAt p 78, cfmtAt p 79 with
  | some w, some x => exactPair w x && promo.isEmpty
  | _, _ => false

end Sys2Proof.Machine
end

