-- ==== Sys2Proof/Machine/Relay.lean ====
section
/-!
DEFINITION. The relay engine: RELAY along a chain, its frames, holding and stalling (06 R158 to R174).
-/
namespace Sys2Proof.Machine

/-! ### The descriptor (R167, R168) -/

def rlElems (p : Bytes) : Nat := uAt p 80 8
def rlChain (p : Bytes) : Nat := uAt p 88 2
def rlKind (p : Bytes) : Nat := uAt p 90 1
def rlOp (p : Bytes) : Nat := bitsOf (uAt p 91 1) 1 0
/-- CARRY is FP32. -/
def rlCarry32 (p : Bytes) : Bool := (uAt p 91 1).testBit 2
def rlSeg (p : Bytes) : Nat := 2 ^ uAt p 92 1
def rlSegs (p : Bytes) : Nat := cdiv (rlElems p) (rlSeg p)
/-- H of R160. -/
def rlH (p : Bytes) : Nat := if rlKind p == 1 then 2 else 1
/-- HOP_TIMEOUT_US with its default. -/
def hopUs (p : Bytes) (off : Nat) : Nat := if uAt p off 4 == 0 then 1000 else uAt p off 4
/-- Elements of segment k. -/
def rlLen (p : Bytes) (k : Nat) : Nat := min (rlSeg p) (rlElems p - k * rlSeg p)

/-- Formats a RELAY may name. -/
def rlFmtOk (f : Fmt) : Bool := f == .fp32 || f == .bf16 || f == .fp16 || f == .a40

/-- HOP_TIMEOUT_US in range. -/
def hopUsOk (p : Bytes) (off : Nat) : Bool × Nat := (uAt p off 4 == 0 || (100 ≤ uAt p off 4 && uAt p off 4 ≤ 1000000), off)

/-- Format checks of RELAY (R168). -/
def relayChecks (p : Bytes) : List (Bool × Nat) :=
  let copy := rlKind p ≥ 3
  [(uAt p 92 1 < 10 || uAt p 92 1 > 20 || (uAt p 64 8 % rlH p == 0 && uAt p 64 8 ≤ rlH p * rlSegs p), 64), (uAt p 72 8 != 0, 72), boundOk p 80 8 1 (2 ^ 40), (rlChain p < 1024, 88), (rlKind p ≤ 4, 90),
   (uAt p 91 1 < 8 && rlOp p ≤ 2 && (!copy || uAt p 91 1 % 4 == 0), 91), boundOk p 92 1 10 20, rsvOk p 93 3, hopUsOk p 96] ++
  (match fmtAt p 104, fmtAt p 120 with
   | some a, some b =>
     [(fmtOk (sub p 104 16) false 0 && rlFmtOk a.fmt && !(a.fmt == .a40 && rlCarry32 p), 104), (fmtOk (sub p 120 16) true 0 && rlFmtOk b.fmt && (!copy || a.fmt == b.fmt), 120)]
   | a, b => [(a.isSome, 104), (b.isSome, 120)]) ++ [rsvOk p 152 8]

/-- The digest of a collective: the binding fields in the order R159 lists them, as the packet holds them (R163). -/
def relayDigest (p : Bytes) : Nat :=
  leNat (shake256 (sub p 72 8 ++ sub p 90 2 ++ sub p 80 8 ++ sub p 92 1 ++ sub p 88 2 ++ sub p 104 32 ++ sub p 100 4) 8)

/-- Draws of a RELAY (R248). -/
def relayDraws (p : Bytes) : Nat := match fmtAt p 120 with | some f => if f.rnd == .sr then rlElems p else 0 | none => 0

/-! ### Hops (R160) -/

/-- First position of a segment's reduce or copy phase. -/
def rlFirst (p : Bytes) (n k : Nat) (copy : Bool) : Nat :=
  match rlKind p with
  | 0 => 0
  | 1 => if copy then k % n else (k + 1) % n
  | 2 => (k + 1) % n
  | 3 => k % n
  | _ => 0

/-- Whether a KIND has a phase. -/
def rlHas (p : Bytes) (copy : Bool) : Bool := if rlKind p == 1 then true else (rlKind p ≥ 3) == copy

/-- How far position q stands from the first of a phase. -/
def rlIdx (p : Bytes) (n k : Nat) (copy : Bool) (q : Nat) : Nat := (q + n - rlFirst p n k copy) % n

/-- Number of a hop in the order of R166. -/
def rlHop (p : Bytes) (k : Nat) (copy : Bool) : Nat := rlH p * k + (if rlKind p == 1 && copy then 1 else 0)

/-- Whether position q reads SRC, and whether it writes DST (R160). -/
def rlReads (p : Bytes) (n q : Nat) : Bool :=
  match rlKind p with
  | 3 => (List.range (min n (rlSegs p))).any fun k => k == q
  | 4 => q == 0
  | _ => n != 0
def rlWrites (p : Bytes) (n q : Nat) : Bool :=
  match rlKind p with
  | 0 => q + 1 == n
  | 2 => q < rlSegs p
  | _ => true

/-- Bytes of an element in memory. -/
def elemBytes (f : Fmt) : Nat := f.width / 8

/-- The start checks of RELAY (R169): status, DETAIL, DETAIL2. -/
def relayFault (s : State) (p : Bytes) : Option (Nat × Nat × Nat) :=
  match chainMembers s (rlChain p) with
  | none => some (0x0310, rlChain p, 0)
  | some ms =>
    match posIn s ms, fmtAt p 104, fmtAt p 120 with
    | some q, some a, some b =>
      let n := ms.length
      let sn := rlElems p * elemBytes a.fmt
      let dn := rlElems p * elemBytes b.fmt
      let chk := fun (off len : Nat) (used : Bool) =>
        if !used then none
        else if uAt p off 8 == 0 then some (off, 0)
        else rangeFault s off (uAt p off 8) len
      match chk 136 sn (rlReads p n q) with
      | some (o, x) => some (0x0314, o, x)
      | none =>
        match chk 144 dn (rlWrites p n q) with
        | some (o, x) => some (0x0314, o, x)
        | none =>
          if rlReads p n q && rlWrites p n q && overlaps (uAt p 136 8) sn (uAt p 144 8) dn then some (0x0314, 144, max (uAt p 136 8) (uAt p 144 8)) else none
    | _, _, _ => some (0x0311, rlChain p, 0)

/-- REL_STATUS.ACTIVE and REL_HOLD.HELD as they stand (R171, R174). -/
def showRelay (s : State) : State :=
  setF (setF s R.REL_STATUS F.REL_STATUS_ACTIVE s.fleet.relays.length) R.REL_HOLD F.REL_HOLD_HELD (cdiv (s.fleet.held.map HeldFrame.bytes).sum 1024)

/-- A RELAY's running record. -/
def isRelay (q c : Nat) (w : RelayWork) : Bool := w.stream == q && w.counter == c
def putRelay (s : State) (w : RelayWork) : State :=
  { s with fleet := { s.fleet with relays := s.fleet.relays.map fun (v : RelayWork) => if isRelay w.stream w.counter v then w else v } }
def dropRelay (s : State) (q c : Nat) : State := showRelay { s with fleet := { s.fleet with relays := s.fleet.relays.filter fun v => !isRelay q c v } }

/-! ### Operations of the relay engine -/

/-- An operation in the relay engine's duplicated datapaths (10 R275, 19 R581): a second disagreement climbs a rung; the engine has no fence. -/
def relayTry (s : State) (f : State → State) : State :=
  let src := srcOf 0xB 0
  let s := endTimeout s src
  match badTries s with
  | 0 => f s
  | 1 => f (ladderRung s 1 src)
  | _ => f (ladderRung (ladderRung s 1 src) 2 src)

/-- Carry codes: A40 in 5 bytes, FP32 in 4 (R161). -/
def carryBytes (p : Bytes) : Nat := if rlCarry32 p then 4 else 5
def carryFmt (p : Bytes) : Fmt := if rlCarry32 p then .fp32 else .a40
def toCarry (p : Bytes) (x : XV) : Nat := convert (carryFmt p) .rne false 0 x

/-- One step of a reduction (R161). -/
def relayCombine (p : Bytes) (a b : XV) : XV :=
  match rlOp p with
  | 0 => decodeElem (carryFmt p) (toCarry p (xAdd a b))
  | 1 => xMax a b
  | _ => xMin a b

/-- Values of a byte string of elements. -/
def elemVals (f : Fmt) (n : Nat) (bs : Bytes) : List XV := let w := elemBytes f; (List.range n).map fun i => decodeElem f (uAt bs (i * w) w)

/-- Frames of a hop sent to the next position, 128 elements each (DEDUCED, assumption log 22). -/
def sendHop (s : State) (w : RelayWork) (p : Bytes) (gen k : Nat) (copy : Bool) (width : Nat) (bs : Bytes) : State :=
  let next := (w.pos + 1) % w.members.length
  let n := rlLen p k
  (List.range (cdiv n 128)).foldl (fun s i =>
    sendSlice s gen 2 (w.members.getD next 0) .relay [w.relayId, k, b2n copy, w.pos, i * 128, w.digest] ((bs.drop (i * 128 * width)).take (min 128 (n - i * 128) * width))) s

/-- A finished hop: counted, the cursor moved on, and the end of the command with the last (R166, R172). -/
def hopDone (s : State) (q c k : Nat) (copy : Bool) : State :=
  match s.fleet.relays.find? (isRelay q c), findCmd s q c with
  | some w, some x =>
    let p := x.pkt
    let s := incF s R.REL_HOPS F.REL_HOPS_HOPS 1
    let w := { w with done := setIns (rlHop p k copy) w.done, hops := w.hops.filter fun h => !(h.seg == k && h.copy == copy), waitNs := s.now }
    let s := putRelay s w
    let low := (settleDone (w.done.length + 1) (uAt p 64 8) w.done).1
    let s := modCmd s q c fun y => { y with cursor := low }
    if low == rlH p * rlSegs p && x.stop.isNone then endCmd (dropRelay s q c) q c 0 low 0 0 else s
  | _, _ => s

/-- Elements of a source segment. -/
def readSeg (q c : Nat) (p : Bytes) (k : Nat) : MM Bytes :=
  match fmtAt p 104 with
  | some f => readSpan none q c (uAt p 136 8 + k * rlSeg p * elemBytes f.fmt) (rlLen p k * elemBytes f.fmt)
  | none => pure []

/-- Elements written to a destination segment. -/
def writeSeg (p : Bytes) (k : Nat) (bs : Bytes) : MM Unit :=
  match fmtAt p 120 with
  | some f => writeBytes (uAt p 144 8 + k * rlSeg p * elemBytes f.fmt) bs
  | none => pure ()

/-- A copy hop: bits written here where this position writes, and sent on (R161). -/
def copyHop (s : State) (w : RelayWork) (x : Cmd) (k : Nat) (bs : Bytes) (write : Bool) : State :=
  let p := x.pkt
  let q := w.stream
  let c := w.counter
  match fmtAt p 120 with
  | none => s
  | some f =>
    match runMM (if write then writeSeg p k bs else pure ()) s with
    | (.error e, s) => failMem s q c e
    | (.ok _, s) =>
      let s := if write then staleRange s (uAt p 144 8 + k * rlSeg p * elemBytes f.fmt) bs.length else s
      let s := if rlIdx p w.members.length k true w.pos + 1 < w.members.length then sendHop s w p x.gen k true (elemBytes f.fmt) bs else s
      hopDone s q c k true

/-- A reduce hop: this position's elements joined to the running sum that came, if any; the last position converts it into DST (R161), and in ALL_REDUCE begins the copies. -/
def reduceHop (s : State) (w : RelayWork) (x : Cmd) (k : Nat) (incoming : Option Bytes) : State :=
  let p := x.pkt
  let q := w.stream
  let c := w.counter
  match fmtAt p 104, fmtAt p 120 with
  | some fs, some fd =>
    match runMM (readSeg q c p k) s with
    | (.error e, s) => failMem s q c e
    | (.ok src, s) =>
      let n := rlLen p k
      let own : List XV := (elemVals fs.fmt n src).map fun v => decodeElem (carryFmt p) (toCarry p v)
      let cw := carryBytes p
      let sums : List XV := match incoming with
        | none => own
        | some bs => ((List.range n).zip own).map fun e => relayCombine p (decodeElem (carryFmt p) (uAt bs (e.1 * cw) cw)) e.2
      if rlIdx p w.members.length k false w.pos + 1 < w.members.length then
        hopDone (sendHop s w p x.gen k false cw (sums.map fun v => natLe cw (toCarry p v)).flatten) q c k false
      else
        let key := trbKey s (rngStream (uAt p 100 4))
        let out := ((sums.zipIdx).map fun v =>
          natLe (elemBytes fd.fmt) (convert fd.fmt fd.rnd fd.sat (if fd.rnd == .sr then drawAt key x.window (k * rlSeg p + v.2) else 0) (xMul fd.scaleX v.1))).flatten
        match runMM (writeSeg p k out) s with
        | (.error e, s) => failMem s q c e
        | (.ok _, s) =>
          let s := staleRange s (uAt p 144 8 + k * rlSeg p * elemBytes fd.fmt) out.length
          let s := hopDone s q c k false
          if rlKind p == 1 then (match s.fleet.relays.find? (isRelay q c) with | some w => copyHop s w x k out false | none => s) else s
  | _, _ => s

/-- Whether a hop of a running RELAY is finished; hops below RESUME_FROM count as finished (R166). -/
def hopFinished (w : RelayWork) (p : Bytes) (k : Nat) (copy : Bool) : Bool := rlHop p k copy < uAt p 64 8 || w.done.contains (rlHop p k copy)

/-- The next hop that begins at this member: it is the first of its segment's order. -/
def ownHop (w : RelayWork) (p : Bytes) : Option (Nat × Bool) :=
  let n := w.members.length
  (List.range (rlSegs p)).findSome? fun k =>
    let copy := rlKind p ≥ 3
    if rlIdx p n k copy w.pos == 0 && !hopFinished w p k copy then some (k, copy) else none

/-- A segment begun by this member. -/
def relayWork (s : State) (q c : Nat) : State :=
  match s.fleet.relays.find? (isRelay q c), findCmd s q c with
  | some w, some x =>
    match ownHop w x.pkt with
    | none => s
    | some (k, copy) =>
      if copy then
        (match runMM (readSeg q c x.pkt k) s with
         | (.error e, s) => failMem s q c e
         | (.ok bs, s) => copyHop s w x k bs true)
      else reduceHop s w x k none
  | _, _ => s

/-- RELAY (R167): its packet at intake, or the next segment that begins at this member of a running RELAY. -/
def execRelay (a : CmdArg) (s : State) : Reply :=
  done (match a with
    | .intake => intakeWork s opRELAY (bodyChecks 192 relayChecks)
    | .work q c ups => onlyIf (isRunning s q c opRELAY) s fun s => inClass 1 s fun s => withUpsets ups s fun s => relayTry s fun s => relayWork s q c)

/-! ### Frames (R163, R164) -/

/-- A RELAY stops for a frame that does not fit. -/
def relayMismatch (s : State) (q c from_ seg : Nat) : State :=
  match findCmd s q c with
  | some x => if x.stop.isSome then s else askStop (incF s R.REL_ERRORS F.REL_ERRORS_MISMATCH 1) q c 0x0312 from_ seg
  | none => s

/-- Pieces of a hop joined where they cover it whole. -/
def joinPieces (total : Nat) (m : SMap Bytes) : Option Bytes :=
  let b := m.foldl (fun (acc : Option Bytes) e => acc.bind fun bs => if e.1 ≤ bs.length then some (bs.take e.1 ++ e.2 ++ bs.drop (e.1 + e.2.length)) else none) (some [])
  b.bind fun bs => if total ≤ bs.length then some (bs.take total) else none

/-- A frame of a running RELAY placed; a hop that is whole is run (R163). -/
def takeRelayFrame (s : State) (w : RelayWork) (f : RelayFrame) : State :=
  let q := w.stream
  let c := w.counter
  match findCmd s q c with
  | none => s
  | some x =>
    if x.stop.isSome || x.phase != .running then s
    else
      let p := x.pkt
      let n := w.members.length
      let fits := f.seg < rlSegs p && rlHas p f.copy && rlIdx p n f.seg f.copy w.pos != 0 && (f.fromPos + 1) % n == w.pos && f.fromPos < n && f.offset < rlLen p f.seg
      if f.digest != w.digest || !fits then relayMismatch s q c f.fromPos f.seg
      else if w.done.contains (rlHop p f.seg f.copy) then relayMismatch s q c f.fromPos f.seg
      else if rlHop p f.seg f.copy < uAt p 64 8 then s
      else
        let width := if f.copy then (match fmtAt p 120 with | some b => elemBytes b.fmt | none => 1) else carryBytes p
        let old := (w.hops.find? fun h => h.seg == f.seg && h.copy == f.copy).getD { seg := f.seg, copy := f.copy, pieces := [] }
        let h := { old with pieces := mapPut old.pieces (f.offset * width) f.data }
        let w := { w with hops := (w.hops.filter fun h => !(h.seg == f.seg && h.copy == f.copy)) ++ [h], waitNs := s.now }
        let s := putRelay s w
        match joinPieces (rlLen p f.seg * width) h.pieces with
        | none => s
        | some bs => if f.copy then copyHop s w x f.seg bs true else reduceHop s w x f.seg (some bs)

/-- Whether the hold has room for a frame (R164, R210). -/
def holdRoom (s : State) (bytes : Nat) : Bool := cdiv ((s.fleet.held.map HeldFrame.bytes).sum + bytes) 1024 ≤ getF s R.REL_HOLD F.REL_HOLD_LIMIT

/-- A frame held until its command starts; without room its credits stay withheld and it does not come (R164). -/
def holdBody (s : State) (port bytes : Nat) (b : HeldBody) : State :=
  if holdRoom s bytes then showRelay { s with fleet := { s.fleet with held := s.fleet.held ++ [{ body := b, atNs := s.now, bytes := bytes, port := port }] } } else s

/-- RELAY_FRAME (R163, R164): a frame for a running RELAY, or held for one that has not started. -/
def execRelayFrame (port : Nat) (f : RelayFrame) (ups : List Upset) (s : State) : Reply :=
  done (onlyIf (sliceState s == 2) s fun s =>
    match s.fleet.relays.find? fun w => w.relayId == f.relayId with
    | some w => inClass 1 s fun s => withUpsets ups s fun s => relayTry s fun s => takeRelayFrame s w f
    | none => holdBody s port (f.data.length + 48) (.relay f))

/-- HELD_FRAME_EXPIRY (R164): a held frame whose command has not started within one watch is discarded. -/
def execHeldFrameExpiry (index : Nat) (s : State) : Reply :=
  done (match s.fleet.held[index]? with
    | none => s
    | some h => onlyIf (h.atNs + 16384 * 65536 ≤ s.now) s fun s =>
        showRelay (incF { s with fleet := { s.fleet with held := s.fleet.held.eraseIdx index } } R.REL_ERRORS F.REL_ERRORS_DISCARDED 1))

/-- A started RELAY: its record, then the frames held for it (R164). -/
def relayBegin (s : State) (q c : Nat) (p : Bytes) : State :=
  match (chainMembers s (rlChain p)) with
  | none => s
  | some ms =>
    let w : RelayWork := { stream := q, counter := c, relayId := uAt p 72 8, digest := relayDigest p, pos := (posIn s ms).getD 0, members := ms, waitNs := s.now }
    let mine := s.fleet.held.filterMap fun h => match h.body with | .relay f => if f.relayId == w.relayId then some f else none | _ => none
    let rest := s.fleet.held.filter fun h => match h.body with | .relay f => f.relayId != w.relayId | _ => true
    let s := showRelay { s with fleet := { s.fleet with relays := s.fleet.relays ++ [w], held := rest } }
    let s := modCmd s q c fun x => { x with cursor := uAt p 64 8 }
    let s := if uAt p 64 8 == rlH p * rlSegs p then endCmd (dropRelay s q c) q c 0 (uAt p 64 8) 0 0 else s
    mine.foldl (fun s f => match s.fleet.relays.find? (isRelay q c) with | some w => takeRelayFrame s w f | none => s) s

/-- Whether a hold is in force on any port (R165). -/
def anyHold (s : State) : Bool := allPorts.any fun p => holding s (getPort s p)

/-- The segment of the first unfinished hop that comes from another member. -/
def awaitedSeg (w : RelayWork) (p : Bytes) : Option Nat :=
  let n := w.members.length
  (List.range (rlSegs p)).find? fun k => [false, true].any fun cp => rlHas p cp && rlIdx p n k cp w.pos != 0 && !hopFinished w p k cp

/-- HOP_TIMEOUT (R165): no frame of the awaited hop within HOP_TIMEOUT_US. -/
def execHopTimeout (stream counter : Nat) (s : State) : Reply :=
  done (match s.fleet.relays.find? (isRelay stream counter), findCmd s stream counter with
    | some w, some x =>
      match awaitedSeg w x.pkt with
      | none => s
      | some k =>
        onlyIf (x.stop.isNone && !anyHold s && w.waitNs + hopUs x.pkt 96 * 1000 ≤ s.now) s fun s =>
          askStop (incF s R.REL_ERRORS F.REL_ERRORS_STALLED 1) stream counter 0x0313 ((w.pos + w.members.length - 1) % w.members.length) k
    | _, _ => s)

end Sys2Proof.Machine
end

