-- ==== Sys2Proof/Machine/Embedding.lean ====
section
/-!
DEFINITION. The embedding engines: tables, placement, gathers and scatter-adds as exchanges of a chain (08 R202 to R232).
-/
namespace Sys2Proof.Machine

/-! ### Descriptors (R214, R218) -/

/-- A field of an embedding packet: its offset in EMB_GATHER and in EMB_SCATTER_ADD. -/
def ebOff (sc : Bool) (g k : Nat) : Nat := if sc then k else g

def ebXid (sc : Bool) (p : Bytes) : Nat := uAt p (ebOff sc 64 72) 8
def ebTable (sc : Bool) (p : Bytes) : Nat := uAt p (ebOff sc 72 80) 8
def ebBags (sc : Bool) (p : Bytes) : Nat := uAt p (ebOff sc 80 88) 4
/-- COMBINE: 0 NONE, 1 SUM, 2 MEAN, 3 MAX. -/
def ebComb (sc : Bool) (p : Bytes) : Nat := bitsOf (uAt p (ebOff sc 84 92) 1) 1 0
def ebWeighted (sc : Bool) (p : Bytes) : Bool := (uAt p (ebOff sc 84 92) 1).testBit 2
def ebMask (sc : Bool) (p : Bytes) : Nat := uAt p (ebOff sc 85 93) 1
def ebLookups (sc : Bool) (p : Bytes) : Nat := uAt p (ebOff sc 88 104) 8
def ebKeys (sc : Bool) (p : Bytes) : Nat := uAt p (ebOff sc 96 112) 8
def ebOffsets (sc : Bool) (p : Bytes) : Nat := uAt p (ebOff sc 104 120) 8
def ebWeights (sc : Bool) (p : Bytes) : Nat := uAt p (ebOff sc 112 128) 8
def ebHop (sc : Bool) (p : Bytes) : Nat := hopUs p (ebOff sc 172 180)
/-- First lookup to send. -/
def ebResume (sc : Bool) (p : Bytes) : Nat := if sc then uAt p 64 8 else 0
/-- Items dealt: bags, or lookups under NONE. -/
def ebItems (sc : Bool) (p : Bytes) : Nat := if ebComb sc p == 0 then ebLookups sc p else ebBags sc p

/-- Opcode of an embedding command. -/
def ebOp (sc : Bool) : Nat := if sc then opEMB_SCATTER_ADD else opEMB_GATHER

/-- Checks that both packets share (R224): the fields from BAGS to WEIGHTS. Bases are used where there is something to read (DEDUCED, assumption log 21). -/
def ebCommon (sc : Bool) (p : Bytes) : List (Bool × Nat) :=
  let o := ebOff sc
  let comb := ebComb sc p
  [(ebXid sc p != 0, o 64 72), (ebTable sc p != 0, o 72 80), boundOk p (o 80 88) 4 0 (2 ^ 24), (uAt p (o 84 92) 1 < 8 && !(sc && comb == 3), o 84 92), (1 ≤ ebMask sc p && ebMask sc p < 16, o 85 93), rsvOk p (o 86 94) 2]

def ebLists (sc : Bool) (p : Bytes) : List (Bool × Nat) :=
  let o := ebOff sc
  let n := ebLookups sc p
  [(decide (n ≤ 2 ^ 31), o 88 104), useBase p (o 96 112) (n != 0), useBase p (o 104 120) (ebComb sc p != 0), useBase p (o 112 128) (ebWeighted sc p && n != 0)]

/-- The table descriptor's DIM is not known at intake: pitches and formats are checked against it at the start (R224, R225). -/
def gatherChecks (p : Bytes) : List (Bool × Nat) :=
  ebCommon false p ++ ebLists false p ++
  (match fmtAt p 120 with
   | some f => [(fmtOk (sub p 120 16) true 0 && !f.promote && f.fmt != .fp64 && f.fmt != .fp32x2 && f.fmt != .a40, 120), useBase p 136 (ebItems false p != 0), alignOk p 144 8 16,
                useBase p 152 (f.fmt.blockScaled && ebItems false p != 0), useBase p 160 (f.esc && ebItems false p != 0)]
   | none => [(false, 120)]) ++
  [hopUsOk p 172, rsvOk p 176 16]

/-- Formats of rows and gradients (R203, R218). -/
def rowFmtOk (f : Fmt) : Bool := f == .fp32 || f == .bf16 || f == .fp16 || f == .e4m3 || f == .e5m2

def scatterChecks (p : Bytes) : List (Bool × Nat) :=
  [(decide (uAt p 64 8 ≤ ebLookups true p), 64)] ++ ebCommon true p ++ ebLists true p ++
  (match fmtAt p 136 with
   | some f => [(fmtOk (sub p 136 16) false 0 && !f.promote && rowFmtOk f.fmt, 136), useBase p 152 (ebItems true p != 0), alignOk p 160 8 16, useBase p 168 (f.fmt.blockScaled && ebItems true p != 0)]
   | none => [(false, 136)]) ++
  [(normalFp32 (uAt p 176 4), 176), hopUsOk p 180, rsvOk p 184 8]

/-- EMB_GATHER (R214): its packet at intake. -/
def execEmbGather (s : State) : Reply := done (intakeWork s opEMB_GATHER (bodyChecks 224 gatherChecks))

/-- EMB_SCATTER_ADD (R218): its packet at intake. -/
def execEmbScatterAdd (s : State) : Reply := done (intakeWork s opEMB_SCATTER_ADD (bodyChecks 224 scatterChecks))

/-! ### Tables and placement (R202 to R207) -/

def tbRows (t : Bytes) : Nat := uAt t 0 8
def tbDim (t : Bytes) : Nat := uAt t 24 2
def tbChain (t : Bytes) : Nat := uAt t 26 2
def tbState (t : Bytes) : Bool := (uAt t 29 1).testBit 1
def tbPitch (t : Bytes) : Nat := uAt t 48 8
def tbFmt (t : Bytes) : FmtBlock := (fmtAt t 32).getD { fmt := .fp32, rnd := .rne, sat := false, esc := false, promote := false, histBase := 0, promoLimit := 0, tscale := 0x3F800000 }
def tbElem (t : Bytes) : Nat := elemBytes (tbFmt t).fmt
/-- Stacks with a shard, in order, and the shard count for n members. -/
def tbStacks (t : Bytes) : List Nat := (List.range 8).filter fun j => (uAt t 28 1).testBit j
def tbShards (t : Bytes) (n : Nat) : Nat := n * (tbStacks t).length

/-- mix (R206). -/
def mix (x : Nat) : Nat :=
  let x := x ^^^ (x >>> 33)
  let x := x * 0xFF51AFD7ED558CCD % 2 ^ 64
  let x := x ^^^ (x >>> 33)
  let x := x * 0xC4CEB9FE1A85EC53 % 2 ^ 64
  x ^^^ (x >>> 33)

/-- The pad key. -/
def padKey : Nat := 0xFFFFFFFFFFFFFFFF

/-- The row of a key that is not the pad key; none where it is out of range (R206). -/
def rowOf (t : Bytes) (key : Nat) : Option Nat :=
  if (uAt t 29 1).testBit 0 then some (mix (key ^^^ uAt t 16 8) % tbRows t) else if key < tbRows t then some key else none

/-- Where a row lies: chain position, stack, local row (R207). -/
def placeOf (t : Bytes) (n row : Nat) : Nat × Nat × Nat :=
  let sh := tbShards t n
  let k := (tbStacks t).length
  let b := row / sh
  let x := ((row % sh) + (mix (b ^^^ uAt t 8 8) % sh)) % sh
  (x / k, (tbStacks t).getD (x % k) 0, b)

/-- Addresses of a local row's elements and scales. -/
def rowAddr (t : Bytes) (j b : Nat) : Nat × Nat := (uAt t (64 + 8 * j) 8 + b * tbPitch t, uAt t (64 + 8 * j) 8 + uAt t 56 8 + b * (tbDim t / 32))

/-- Bytes of a row's elements and scales. -/
def rowSize (t : Bytes) : Nat := tbDim t * tbElem t
def rowScales (t : Bytes) : Nat := if (tbFmt t).fmt.blockScaled then tbDim t / 32 else 0

/-- The first field of a table descriptor at fault (R202, R203). -/
def tableFault (t : Bytes) : Option Nat :=
  let d := tbDim t
  firstFault ([boundOk t 0 8 1 (2 ^ 40), (32 ≤ d && d ≤ 4096 && d % 32 == 0, 24), (tbChain t < 1024, 26), (uAt t 28 1 != 0, 28), (uAt t 29 1 < 4, 29), rsvOk t 30 2] ++
    (match fmtAt t 32 with
     | some f => [(fmtOk (sub t 32 16) true d && rowFmtOk f.fmt && !f.esc && !f.promote && f.tscale == 0x3F800000, 32), (tbPitch t % 64 == 0 && d * elemBytes f.fmt ≤ tbPitch t, 48), (f.fmt.blockScaled || uAt t 56 8 == 0, 56)]
     | none => [(false, 32)]) ++
    (List.range 8).map fun j => ((uAt t (64 + 8 * j) 8 != 0) == (uAt t 28 1).testBit j, 64 + 8 * j))

/-- Whether a range lies wholly in a stack outside the hallmark plane. -/
def inStack (j a n : Nat) : Bool := j * stackBytes ≤ a && a + n ≤ j * stackBytes + 32704 * pageBytes

/-- The first shard that does not fit its stack (R205). -/
def shardFault (t : Bytes) (n : Nat) : Option Nat :=
  let rows := cdiv (tbRows t) (tbShards t n)
  ((tbStacks t).find? fun j =>
    let base := uAt t (64 + 8 * j) 8
    !(inStack j base (planeSpan rows (tbPitch t) (rowSize t)) && (!(tbFmt t).fmt.blockScaled || inStack j (base + uAt t 56 8) (rows * (tbDim t / 32))))).map fun j => 64 + 8 * j

/-- The digest of an embedding frame (R210), and that of a table (R223). -/
def embDigest (t : Bytes) (sc : Bool) : Nat := leNat (shake256 (t.take 64 ++ natLe 2 (ebOp sc)) 8)
def tableDigest (t : Bytes) : Nat := leNat (shake256 (t.take 64) 8)

/-! ### The start (R205, R213, R217, R225) -/

/-- Bytes of an output or gradient row of DIM elements. -/
def embRegions (sc : Bool) (p t : Bytes) : List (Nat × Nat × Bool) :=
  let o := ebOff sc
  let n := ebLookups sc p
  let items := ebItems sc p
  let d := tbDim t
  let planes := match fmtAt p (o 120 136) with
    | some f =>
      let b := o 136 152
      if items = 0 then []
      else [(b, planeSpan items (uAt p (o 144 160) 8) (rowBytes f.fmt d), !sc)] ++ (if f.fmt.blockScaled then [(o 152 168, items * (d / 32), !sc)] else []) ++ (if f.esc && !sc then [(160, items * (d / 8), true)] else [])
    | none => []
  [(o 96 112, n * 8, false)] ++ (if ebComb sc p != 0 then [(o 104 120, (ebBags sc p + 1) * 4, false)] else []) ++ (if ebWeighted sc p then [(o 112 128, n * 4, false)] else []) ++ planes

/-- The table descriptor as it stands in memory. -/
def tableAt (s : State) (q c a : Nat) : Except MemErr Bytes × State := runMM (readPart none q c a 128) s

/-- The start checks of an embedding command on its table: status, DETAIL, DETAIL2 (R205, R213, R217, R224, R225). (DEDUCED, assumption log 80) -/
def embFault (s : State) (sc : Bool) (p t : Bytes) : Option (Nat × Nat × Nat) :=
  match chainMembers s (tbChain t) with
  | none => some (0x0232, 0, tbChain t)
  | some ms =>
    if (posIn s ms).isNone then some (0x0232, 1, tbChain t)
    else
      match tableFault t with
      | some o => some (0x0230, o, 0)
      | none =>
        match shardFault t ms.length with
        | some o => some (0x0230, o, 0)
        | none =>
          let f := fmtAt p (ebOff sc 120 136)
          let pitch := ebOff sc 144 160
          if ebItems sc p != 0 && !(f.any fun f => rowBytes f.fmt (tbDim t) ≤ uAt p pitch 8) then some (0x0231, pitch, 0)
          else
            match regionsFault s p (embRegions sc p t) with
            | some (o, a) => some (0x0231, o, a)
            | none => if ebLookups sc p != 0 && (enginesOf s 6 (ebMask sc p)).isEmpty then some (0x0221, ebMask sc p, 0) else none

/-- Draws of an embedding command (R248); a scatter-add's positions reach (chain members) × 2^32. -/
def embDraws (s : State) (sc : Bool) (p t : Bytes) : Nat :=
  if sc then (if (tbFmt t).rnd == .sr then (match chainMembers s (tbChain t) with | some ms => ms.length * 2 ^ 32 | none => 0) else 0)
  else match fmtAt p 120 with | some f => if f.rnd == .sr then ebItems false p * tbDim t else 0 | none => 0

/-! ### Exchanges -/

def isExch (q c : Nat) (x : Exchange) : Bool := x.stream == q && x.counter == c
def findExch (s : State) (q c : Nat) : Option Exchange := s.fleet.exchanges.find? (isExch q c)

/-- EMB_STATUS and REL_HOLD.HELD as they stand (R228). -/
def showEmb (s : State) : State :=
  let busy := (List.range 4).foldl (fun n e => if s.fleet.exchanges.any fun x => x.bags.any fun b => b.engine == e then n + 2 ^ e else n) 0
  showRelay (setF (setF s R.EMB_STATUS F.EMB_STATUS_ACTIVE s.fleet.exchanges.length) R.EMB_STATUS F.EMB_STATUS_BUSY busy)

def putExch (s : State) (x : Exchange) : State :=
  showEmb { s with fleet := { s.fleet with exchanges := s.fleet.exchanges.map fun (y : Exchange) => if isExch x.stream x.counter y then x else y } }
def dropExch (s : State) (q c : Nat) : State := showEmb { s with fleet := { s.fleet with exchanges := s.fleet.exchanges.filter fun x => !isExch q c x } }

/-- The other positions of an exchange. -/
def otherPos (x : Exchange) : List Nat := (List.range x.members.length).filter (· != x.pos)

/-- A message to a position of an exchange, in the class of R401. -/
def embSend (s : State) (x : Exchange) (gen to_ : Nat) (k : OutKind) (args : List Nat) (data : Bytes := []) : State :=
  sendSlice s gen 1 (x.members.getD to_ 0) k ([x.xid, x.pos, x.digest] ++ args) data

/-- A counted stop of an embedding command (R231). -/
def embStopAsk (s : State) (q c status detail detail2 : Nat) (f : Option RF) : State :=
  match findCmd s q c with
  | some y => if y.stop.isSome then s else askStop (match f with | some f => incF s R.EMB_ERRORS f 1 | none => s) q c status detail detail2
  | none => s

/-- The STOP marker to every other member (R212). -/
def embTellStop (s : State) (x : Exchange) (gen : Nat) : State := (otherPos x).foldl (fun s q => embSend s x gen q .embStop []) s

/-- A 4-byte number in memory as it stands. -/
def rawU32 (s : State) (a : Nat) : Nat := match runMM (readRaw a 4) s with | (.ok b, _) => uAt b 0 4 | _ => 0

/-- CURSOR of an exchange (R216, R222). -/
def embCursor (s : State) (x : Exchange) (p : Bytes) : Nat :=
  if x.scatter then (settleDone (x.acked.length + 1) (ebResume true p) x.acked).1
  else
    let n := (settleDone (x.done.length + 1) 0 x.done).1
    if ebComb false p == 0 then n else if n == ebBags false p then ebLookups false p else rawU32 s (ebOffsets false p + 4 * n)

/-- Sources in the order of R220. -/
def sourceOrder (x : Exchange) : List Nat := (List.range x.members.length).map fun i => (x.pos + 1 + i) % x.members.length

/-- Whether every contribution of a source has been taken. -/
def sourceDone (x : Exchange) (q : Nat) : Bool := match mapGet x.ends q with | some n => n ≤ mapGetD 0 x.taken q | none => false

/-- Whether an exchange is over here (R211). -/
def exchOver (x : Exchange) (p : Bytes) : Bool :=
  (x.done.length == ebItems x.scatter p) && x.endSent && ((otherPos x).all fun q => (mapGet x.ends q).isSome) &&
  (!x.scatter || ((sourceOrder x).all (sourceDone x) && (settleDone (x.acked.length + 1) (ebResume true p) x.acked).1 ≥ ebLookups true p))

/-- Progress noted: the END marker once everything has been sent, the cursor, and the end of the command (R211). -/
def embProgress (s : State) (q c : Nat) : State :=
  match findExch s q c, findCmd s q c with
  | some x, some y =>
    let p := y.pkt
    let sentAll := (x.deal.all fun d => d.front.isNone) && x.bags.all fun b => b.issue == b.stop
    let s := if sentAll && !x.endSent then (otherPos x).foldl (fun s k => embSend s x y.gen k .embEnd [mapGetD 0 x.sent k]) s else s
    let x := if sentAll && !x.endSent then { x with endSent := true, ends := mapPut x.ends x.pos (mapGetD 0 x.sent x.pos) } else x
    let x := { x with waitNs := s.now }
    let s := putExch s x
    let cur := embCursor s x p
    let s := modCmd s q c fun z => { z with cursor := cur, issued := z.issued || x.endSent }
    if exchOver x p && y.stop.isNone then endCmd (dropExch s q c) q c 0 (ebLookups x.scatter p) 0 0 else s
  | _, _ => s

/-! ### Scatter-add at the owner (R219 to R221) -/

/-- Exact new value of an element: old + ALPHA × w × g / m (R219). -/
def addContribution (c : Contribution) (old g : XV) : XV :=
  let t := xMul (decodeElem .fp32 c.alpha) g
  let t := match c.weight with | some w => xMul t (decodeElem .fp32 w) | none => t
  if c.divisor == 1 then xAdd old t else xDiv (xAdd (xMul old (.fin false c.divisor 0)) t) (.fin false c.divisor 0)

/-- Values of a stored row. -/
def rowVals (f : Fmt) (dim : Nat) (elems scales : Bytes) : List XV :=
  if f.blockScaled then ((List.range (dim / 32)).map fun b => (decodeBlock f (uAt scales b 1) (sub elems (32 * b) 32) none).vals).flatten
  else elemVals f dim elems

/-- A row written in ROW_FMT: elements and scales (R219). (DESIGN CHOICE, assumption log 26) -/
def packRow (f : FmtBlock) (draw : Nat → Nat) (vs : List XV) : Bytes × Bytes :=
  let d := fun i => if f.rnd == .sr then draw i else 0
  if f.fmt.blockScaled then
    let es := (List.range (vs.length / 32)).map fun b => encodeBlock f.fmt f.rnd f.sat false ((List.range 32).map fun i => d (32 * b + i)) ((vs.drop (32 * b)).take 32)
    ((es.map fun e => packBlock 8 e.codes).flatten, es.map fun e => BitVec.ofNat 8 e.scale)
  else ((vs.zipIdx.map fun v => natLe (elemBytes f.fmt) (convert f.fmt f.rnd f.sat (d v.2) v.1)).flatten, [])

/-- Space of the stage row store, and of one row in it (R283, R300). (DESIGN CHOICE, assumption log 26) -/
def stageSpace (s : State) : Nat := getF s R.ARB_ESC_STAGE F.ARB_ESC_STAGE_PAGES * pageBytes
def stageRowBytes (t : Bytes) : Nat := cdiv (tbPitch t + tbDim t / 32 + 64) 64 * 64

/-- A row's stored bytes as a scatter-add reads them: staged if there is one, else committed (R204). -/
def readRowFor (q c : Nat) (t : Bytes) (j b : Nat) : MM (Bytes × Bytes) := do
  let s ← get
  let (ea, sa) := rowAddr t j b
  match if tbState t then s.esc.rows.find? fun r => r.elemAddr == ea else none with
  | some r => pure (r.elems, r.scales)
  | none =>
    let el ← readPart none q c ea (rowSize t)
    let sc ← readPart none q c sa (rowScales t)
    pure (el, sc)

/-- The applied count of a table, batch and source. -/
def appliedAt (s : State) (tbl batch src : Nat) : Option Nat := (s.esc.applied.find? fun a => a.table == tbl && a.batch == batch && a.source == src).map AppliedCount.count

/-- EMB_STAGE.COUNTS (R232). -/
def showCounts (s : State) : State := setF s R.EMB_STAGE F.EMB_STAGE_COUNTS s.esc.applied.length

/-- An applied count moved past a lookup. -/
def setApplied (s : State) (tbl batch src n : Nat) : State :=
  let rest := s.esc.applied.filter fun a => !(a.table == tbl && a.batch == batch && a.source == src)
  showCounts { s with esc := { s.esc with applied := rest ++ [{ table := tbl, batch := batch, source := src, count := n }] } }

/-- The acknowledgement of a lookup's contribution to its source (R222). (DEDUCED, assumption log 30) -/
def ackContribution (s : State) (x : Exchange) (gen src lookup : Nat) : State :=
  if src == x.pos then
    match findExch s x.stream x.counter with
    | some y => putExch s { y with acked := setIns lookup y.acked }
    | none => s
  else embSend s x gen src .embContributionAck [lookup]

/-- One contribution applied by its owner; none where the command has to stop (R219 to R221). (DEDUCED, assumption log 30) -/
def applyOne (s : State) (x : Exchange) (y : Cmd) (k : Contribution) : State × Bool :=
  let t := x.table
  let q := x.stream
  let c := x.counter
  let tbl := tableDigest t
  let batch := uAt y.pkt 96 4
  let old := appliedAt s tbl batch k.source
  if (old.getD 0) > k.lookup then (ackContribution s x y.gen k.source k.lookup, true)
  else if old.isNone && s.esc.applied.length ≥ 65536 then (embStopAsk s q c 0x0237 0 0 none, false)
  else
    let (_, j, b) := placeOf t x.members.length k.row
    let (ea, sa) := rowAddr t j b
    let staged := tbState t && s.esc.rows.any fun r => r.elemAddr == ea
    if tbState t && !staged && stageSpace s < (s.esc.rows.map StageRow.bytes).sum + stageRowBytes t then (embStopAsk s q c 0x0432 0 0 none, false)
    else
      match runMM (readRowFor q c t j b) s with
      | (.error e, s) => (failMem s q c e, false)
      | (.ok (el, sc), s) =>
        let f := tbFmt t
        let dim := tbDim t
        let gf := (fmtOfCode k.gradFmt).getD .fp32
        let vals := ((rowVals f.fmt dim el sc).zip (rowVals gf dim k.grad k.scales)).map fun v => addContribution k v.1 v.2
        let key := trbKey s (rngStream (uAt y.pkt 100 4))
        let (ne, ns) := packRow f (fun i => drawAt key y.window (k.source * 2 ^ 32 + k.lookup * dim + i)) vals
        let put : MM Unit :=
          if tbState t then modify fun s =>
            let r : StageRow := { tableAddr := ebTable true y.pkt, localRow := b, shard := j, elemAddr := ea, elems := ne, scaleAddr := sa, scales := ns, bytes := stageRowBytes t }
            showEsc { s with esc := { s.esc with rows := if staged then s.esc.rows.map fun o => if o.elemAddr == ea then r else o else s.esc.rows ++ [r] } }
          else do
            writeBytes ea ne
            if ns != [] then writeBytes sa ns
            modify fun s => staleRange (staleRange s ea ne.length) sa ns.length
        match runMM put s with
        | (.error e, s) => (failMem s q c e, false)
        | (.ok _, s) =>
          let s := setApplied s tbl batch k.source (k.lookup + 1)
          let s := if k.source == x.pos then s else incF s R.EMB_SERVED F.EMB_SERVED_ROWS 1
          (ackContribution s x y.gen k.source k.lookup, true)

/-- Contributions held for an exchange that are due, applied in order (R220). -/
def applyDue (fuel : Nat) (s : State) (q c : Nat) : State :=
  match fuel with
  | 0 => s
  | n + 1 =>
    match findExch s q c, findCmd s q c with
    | some x, some y =>
      if y.stop.isSome then s
      else
        match (sourceOrder x).find? fun k => !sourceDone x k with
        | none => s
        | some src =>
          match x.held.find? fun k => k.source == src && k.seq == mapGetD 0 x.taken src with
          | none => s
          | some k =>
            let (s, ok) := applyOne (putExch s { x with held := x.held.erase k, taken := mapPut x.taken src (k.seq + 1) }) x y k
            if ok then applyDue n s q c else s
    | _, _ => s

/-- A contribution taken by its owner. (DEDUCED, assumption log 30) -/
def takeContribution (s : State) (q c : Nat) (k : Contribution) : State :=
  match findExch s q c with
  | none => s
  | some x =>
    let known := k.seq < mapGetD 0 x.taken k.source || x.held.any fun o => o.source == k.source && o.seq == k.seq
    let s := putExch s { x with held := if known then x.held else x.held ++ [k], waitNs := s.now }
    embProgress (applyDue (x.held.length + 2) s q c) q c

/-! ### Bags (R215, R216) -/

/-- First lookup of item b and the one after its last; none where OFFSETS does not rise or exceeds LOOKUPS (R225). -/
def bagRange (die q c : Nat) (sc : Bool) (p : Bytes) (b : Nat) : MM (Option (Nat × Nat)) := do
  if ebComb sc p == 0 then pure (some (b, b + 1))
  else
    let bs ← readPart (some die) q c (ebOffsets sc p + 4 * b) 8
    let lo := uAt bs 0 4
    let hi := uAt bs 4 4
    pure (if lo ≤ hi && hi ≤ ebLookups sc p then some (lo, hi) else none)

/-- The key of a lookup, and its weight. -/
def lookupKey (die q c : Nat) (sc : Bool) (p : Bytes) (i : Nat) : MM Nat := do
  let b ← readPart (some die) q c (ebKeys sc p + 8 * i) 8
  pure (uAt b 0 8)
def lookupWeight (die q c : Nat) (sc : Bool) (p : Bytes) (i : Nat) : MM (Option Nat) := do
  if ebWeighted sc p then
    let b ← readPart (some die) q c (ebWeights sc p + 4 * i) 4
    pure (some (uAt b 0 4))
  else pure none

/-- The next value of an output element's running value (R215): A40 codes under SUM and MEAN, exact FP64 codes under NONE and MAX. -/
def combineElem (comb : Nat) (first : Bool) (run : Nat) (v : XV) : Nat :=
  if comb == 1 || comb == 2 then convert .a40 .rne false 0 (a40Add (decodeElem .a40 run) v)
  else if comb == 3 && !first then convert .fp64 .rne false 0 (xMax (decodeElem .fp64 run) v)
  else convert .fp64 .rne false 0 v

/-- A bag's rows combined in lookup order, as far as they have come. A row without bytes stands for a pad lookup. -/
def combineReady (fuel : Nat) (die q c : Nat) (p t : Bytes) (b : BagWork) : MM BagWork :=
  match fuel with
  | 0 => pure b
  | n + 1 =>
    match b.rows.find? fun r => r.lookup == b.combine with
    | none => pure b
    | some r => do
      let rest := { b with combine := b.combine + 1, rows := b.rows.erase r }
      if r.elems == [] then combineReady n die q c p t rest
      else
        let w ← lookupWeight die q c false p b.combine
        let vs := (rowVals (tbFmt t).fmt (tbDim t) r.elems r.scales).map fun v => match w with | some k => xMul v (decodeElem .fp32 k) | none => v
        let comb := ebComb false p
        let sums := vs.zipIdx.map fun v => combineElem comb (b.count == 0) (b.sums.getD v.2 0) v.1
        modify fun s => incF s R.EMB_LOOKUPS F.EMB_LOOKUPS_LOOKUPS 1
        combineReady n die q c p t { rest with sums := sums, count := b.count + 1 }

/-- The output row of a finished bag written (R215). -/
def writeBag (key : Bytes) (window : Nat) (p t : Bytes) (b : BagWork) : MM Unit := do
  match fmtAt p 120 with
  | none => pure ()
  | some f =>
    let dim := tbDim t
    let comb := ebComb false p
    let vals := (List.range dim).map fun i =>
      let x := decodeElem (if comb == 1 || comb == 2 then .a40 else .fp64) (b.sums.getD i 0)
      let v := xMul f.scaleX x
      if b.count == 0 then .fin false 0 0 else if comb == 2 then xDiv v (.fin false b.count 0) else v
    let draw := fun i => if f.rnd == .sr then drawAt key window (b.bag * dim + i) else 0
    let a := uAt p 136 8 + b.bag * uAt p 144 8
    if f.fmt.blockScaled then
      let es := (List.range (dim / 32)).map fun k => encodeBlock f.fmt f.rnd f.sat f.esc ((List.range 32).map fun i => draw (32 * k + i)) ((vals.drop (32 * k)).take 32)
      writeBytes a (es.map fun e => packBlock f.fmt.width e.codes).flatten
      writeBytes (uAt p 152 8 + b.bag * (dim / 32)) (es.map fun e => BitVec.ofNat 8 e.scale)
      if f.esc then writeBytes (uAt p 160 8 + b.bag * (dim / 8)) (es.map EncodedBlock.esc).flatten
    else writeBytes a (vals.zipIdx.map fun v => natLe (elemBytes f.fmt) (convert f.fmt f.rnd f.sat (draw v.2) v.1)).flatten
    modify fun s => staleRange s a (rowBytes f.fmt dim)

/-- A bag's record in its exchange. -/
def putBag (x : Exchange) (b : BagWork) : Exchange := { x with bags := x.bags.map fun (o : BagWork) => if o.engine == b.engine && o.bag == b.bag then b else o }

/-- A bag whose lookups are all over leaves its engine. -/
def closeBag (s : State) (x : Exchange) (b : BagWork) : State :=
  embProgress (putExch s { x with bags := x.bags.filter fun o => !(o.engine == b.engine && o.bag == b.bag), done := setIns b.bag x.done }) x.stream x.counter

/-- A gather's bag carried on with the rows that have come. -/
def bagOn (s : State) (x : Exchange) (y : Cmd) (b : BagWork) : State :=
  let m : MM BagWork := do
    let b ← combineReady (b.rows.length + 1) b.engine x.stream x.counter y.pkt x.table b
    let s ← get
    if b.combine == b.stop then writeBag (trbKey s (rngStream (uAt y.pkt 168 4))) y.window y.pkt x.table b
    pure b
  match runMM m s with
  | (.error e, s) => failMem s x.stream x.counter e
  | (.ok b, s) => if b.combine == b.stop then closeBag s x b else embProgress (putExch s (putBag x b)) x.stream x.counter

/-! ### Issuing lookups (R217, R227) -/

/-- The bag an engine issues lookups of: one it has in work, or the next dealt to it, of the oldest accepted exchange (R217). -/
def embPick (s : State) (e : Nat) : Option (Exchange × Cmd × Option BagWork × Nat) :=
  let cs := sortBy (fun a b => decide (a.order ≤ b.order)) (s.cmd.cmds.filter fun c => c.phase == .running && c.stop.isNone)
  let at_ := fun (f : Exchange → Cmd → Option (Exchange × Cmd × Option BagWork × Nat)) => cs.findSome? fun c => (findExch s c.q c.hdr.counter).bind fun x => f x c
  match at_ fun x c => (x.bags.find? fun b => b.engine == e && b.issue < b.stop).map fun b => (x, c, some b, b.bag) with
  | some r => some r
  | none => at_ fun x c => (dealFor x.deal e).map fun q => (x, c, none, q)

/-- Lookups of this command before i that go to an owner: the number a contribution carries (R220). -/
def seqOf (die q c : Nat) (p t : Bytes) (n owner i : Nat) : MM Nat := do
  let lo := ebResume true p
  let bs ← readPart (some die) q c (ebKeys true p + 8 * lo) (8 * (i - lo))
  pure ((List.range (i - lo)).filter fun k =>
    let key := uAt bs (8 * k) 8
    key != padKey && (rowOf t key).any fun r => (placeOf t n r).1 == owner).length

/-- The gradient row of item b (R218, R219). -/
def gradRow (die q c : Nat) (p t : Bytes) (b : Nat) : MM (Bytes × Bytes) := do
  match fmtAt p 136 with
  | none => pure ([], [])
  | some f =>
    let d := tbDim t
    let el ← readPart (some die) q c (uAt p 152 8 + b * uAt p 160 8) (rowBytes f.fmt d)
    let sc ← if f.fmt.blockScaled then readPart (some die) q c (uAt p 168 8 + b * (d / 32)) (d / 32) else pure []
    pure (el, sc)

/-- Non-pad lookups of a range. -/
def countKeys (die q c : Nat) (p : Bytes) (lo hi : Nat) : MM Nat := do
  let bs ← readPart (some die) q c (ebKeys true p + 8 * lo) (8 * (hi - lo))
  pure ((List.range (hi - lo)).filter fun k => uAt bs (8 * k) 8 != padKey).length

/-- A key out of range stops the command (R216). -/
def keyRange (s : State) (x : Exchange) (i : Nat) : State := embStopAsk s x.stream x.counter 0x0233 0 i (some F.EMB_ERRORS_KEY_RANGE)

/-- One lookup of a gather: a pad, a local row, or a request to the row's owner. -/
def gatherLookup (s : State) (x : Exchange) (y : Cmd) (b : BagWork) : State :=
  let q := x.stream
  let c := x.counter
  let p := y.pkt
  let t := x.table
  let i := b.issue
  let b1 := { b with issue := i + 1 }
  match runMM (lookupKey b.engine q c false p i) s with
  | (.error e, s) => failMem s q c e
  | (.ok key, s) =>
    if key == padKey then bagOn s x y { b1 with rows := b1.rows ++ [{ lookup := i, elems := [], scales := [] }] }
    else
      match rowOf t key with
      | none => keyRange s x i
      | some r =>
        let (owner, j, k) := placeOf t x.members.length r
        if owner == x.pos then
          let (ea, sa) := rowAddr t j k
          match runMM (do let el ← readPart (some b.engine) q c ea (rowSize t); let sc ← readPart (some b.engine) q c sa (rowScales t); pure (el, sc)) s with
          | (.error e, s) => failMem s q c e
          | (.ok (el, sc), s) => bagOn s x y { b1 with rows := b1.rows ++ [{ lookup := i, elems := el, scales := sc }] }
        else
          let s := embSend s x y.gen owner .embRequest [i, r]
          embProgress (putExch s (putBag x b1)) q c

/-- One lookup of a scatter-add: a pad, one below RESUME_FROM, or a contribution to the row's owner. -/
def scatterLookup (s : State) (x : Exchange) (y : Cmd) (b : BagWork) : State :=
  let q := x.stream
  let c := x.counter
  let p := y.pkt
  let t := x.table
  let i := b.issue
  let b1 := { b with issue := i + 1 }
  let next := fun (s : State) (x : Exchange) => if b1.issue == b1.stop then closeBag s x b1 else embProgress (putExch s (putBag x b1)) q c
  match runMM (lookupKey b.engine q c true p i) s with
  | (.error e, s) => failMem s q c e
  | (.ok key, s) =>
    if i < ebResume true p then next s x
    else if key == padKey then next s { x with acked := setIns i x.acked }
    else
      match rowOf t key with
      | none => keyRange s x i
      | some r =>
        let owner := (placeOf t x.members.length r).1
        let m : MM Contribution := do
          let (el, sc) ← gradRow b.engine q c p t b.bag
          let w ← lookupWeight b.engine q c true p i
          let n ← seqOf b.engine q c p t x.members.length owner i
          pure { source := x.pos, lookup := i, row := r, seq := n, gradFmt := bitsOf (uAt p 136 1) 3 0, grad := el, scales := sc, alpha := uAt p 176 4, weight := w,
                 divisor := if ebComb true p == 2 then b.count else 1 }
        match runMM m s with
        | (.error e, s) => failMem s q c e
        | (.ok k, s) =>
          let s := incF s R.EMB_LOOKUPS F.EMB_LOOKUPS_LOOKUPS 1
          let x := { x with sent := mapPut x.sent owner (max (mapGetD 0 x.sent owner) (k.seq + 1)) }
          let s := if owner == x.pos then next s { x with held := x.held ++ [k] }
            else next (embSend s x y.gen owner .embContribution [k.lookup, k.row, k.seq, k.gradFmt, k.alpha, k.weight.getD 0, b2n k.weight.isSome, k.divisor] (k.grad ++ k.scales)) x
          embProgress (applyDue (x.held.length + 2) s q c) q c

/-- A bag taken up by an engine. -/
def openBag (s : State) (e : Nat) (x : Exchange) (y : Cmd) (item : Nat) : State :=
  let p := y.pkt
  let sc := x.scatter
  let m : MM (Option (Nat × Nat × Nat)) := do
    match ← bagRange e x.stream x.counter sc p item with
    | none => pure none
    | some (lo, hi) =>
      let n ← if sc && ebComb sc p == 2 then countKeys e x.stream x.counter p lo hi else pure 0
      pure (some (lo, hi, n))
  match runMM m s with
  | (.error er, s) => failMem s x.stream x.counter er
  | (.ok none, s) => embStopAsk s x.stream x.counter 0x0231 (ebOff sc 104 120) item none
  | (.ok (some (lo, hi, n)), s) =>
    let b : BagWork := { engine := e, bag := item, issue := lo, stop := hi, combine := lo, count := n }
    let x := { x with deal := dealDrop x.deal e item, bags := x.bags ++ [b] }
    if lo == hi then (if sc then closeBag s x b else bagOn s x y b)
    else if sc then scatterLookup s x y b else gatherLookup s x y b

/-- EMB_LOOKUP (R227): an embedding engine issues its next lookup. -/
def execEmbLookup (engine : Nat) (ups : List Upset) (s : State) : Reply :=
  done (onlyIf (engine < 4 && engineOn s 6 engine) s fun s =>
    match embPick s engine with
    | none => s
    | some (x, y, b, item) =>
      inClass 0 s fun s => withUpsets ups s fun s => engineRun s 6 engine fun s =>
        match b with
        | none => openBag s engine x y item
        | some b => if x.scatter then scatterLookup s x y b else gatherLookup s x y b)

/-! ### Frames (R208 to R212, R220) -/

/-- An exchange a frame names: none where it has not started, else whether the digest agrees. -/
def frameExch (s : State) (xid : Nat) : Option Exchange := s.fleet.exchanges.find? fun x => x.xid == xid

/-- A frame with another digest stops the command (R210). -/
def embMismatch (s : State) (x : Exchange) (source : Nat) : State := embStopAsk s x.stream x.counter 0x0234 source 0 (some F.EMB_ERRORS_MISMATCH)

/-- A request served from this module's shards (R208). -/
def takeRequest (s : State) (x : Exchange) (source lookup row : Nat) : State :=
  let (owner, j, b) := placeOf x.table x.members.length row
  if owner != x.pos || tbRows x.table ≤ row then s
  else
    let (ea, sa) := rowAddr x.table j b
    match runMM (do let el ← readPart none x.stream x.counter ea (rowSize x.table); let sc ← readPart none x.stream x.counter sa (rowScales x.table); pure (el ++ sc)) s with
    | (.error e, s) => failMem s x.stream x.counter e
    | (.ok bs, s) =>
      let gen := match findCmd s x.stream x.counter with | some y => y.gen | none => 0
      incF (embSend s x gen source .embResponse [lookup] bs) R.EMB_SERVED F.EMB_SERVED_ROWS 1

/-- A body for a running exchange acted on, its digest compared first. -/
def takeEmb (s : State) (x : Exchange) (b : HeldBody) : State :=
  match b with
  | .embRequest _ source digest lookup row => if digest != x.digest then embMismatch s x source else takeRequest s x source lookup row
  | .embContribution _ digest k => if digest != x.digest then embMismatch s x k.source else takeContribution s x.stream x.counter k
  | .embEnd _ source digest count =>
    if digest != x.digest then embMismatch s x source
    else embProgress (applyDue (x.held.length + 2) (putExch s { x with ends := mapPut x.ends source count }) x.stream x.counter) x.stream x.counter
  | .embStop _ source digest => if digest != x.digest then embMismatch s x source else embStopAsk s x.stream x.counter 0x0236 source 0 (some F.EMB_ERRORS_PEER_STOPPED)
  | .relay _ => s

/-- An embedding frame: for a running exchange, or held for one that has not started (R210). -/
def embFrame (s : State) (port xid bytes : Nat) (ups : List Upset) (b : HeldBody) : State :=
  onlyIf (sliceState s == 2) s fun s =>
    match frameExch s xid with
    | some x => inClass 1 s fun s => withUpsets ups s fun s => takeEmb s x b
    | none => holdBody s port bytes b

/-- EMB_REQUEST (R208). -/
def execEmbRequest (port xid source digest lookup row : Nat) (ups : List Upset) (s : State) : Reply := done (embFrame s port xid 16 ups (.embRequest xid source digest lookup row))

/-- EMB_CONTRIBUTION (R220): the additions are the embedding engines' (10 R275). -/
def execEmbContribution (port xid digest : Nat) (c : Contribution) (ups : List Upset) (s : State) : Reply :=
  done (onlyIf (sliceState s == 2) s fun s =>
    match frameExch s xid with
    | some x => inClass 1 s fun s => withUpsets ups s fun s => engineRun s 6 (((enginesOf s 6 15).head?).getD 0) fun s => takeEmb s x (.embContribution xid digest c)
    | none => holdBody s port (16 + c.grad.length + c.scales.length) (.embContribution xid digest c))

/-- EMB_END (R211). -/
def execEmbEnd (port xid source digest count : Nat) (s : State) : Reply := done (embFrame s port xid 16 [] (.embEnd xid source digest count))

/-- EMB_STOP (R212). -/
def execEmbStop (port xid source digest : Nat) (s : State) : Reply := done (embFrame s port xid 16 [] (.embStop xid source digest))

/-- EMB_RESPONSE (R215, R222): a remote row for a bag, or an owner's word that a contribution has been applied. -/
def execEmbResponse (xid source digest : Nat) (a : EmbAnswer) (ups : List Upset) (s : State) : Reply :=
  done (match frameExch s xid with
    | none => s
    | some x =>
      if digest != x.digest then embMismatch s x source
      else
        match findCmd s x.stream x.counter with
        | none => s
        | some y =>
          match a with
          | .applied lookup => if x.scatter then embProgress (putExch s { x with acked := setIns lookup x.acked, waitNs := s.now }) x.stream x.counter else s
          | .row r =>
            match x.bags.find? fun b => b.combine ≤ r.lookup && r.lookup < b.issue && !(b.rows.any fun o => o.lookup == r.lookup) with
            | none => s
            | some b => onlyIf (!x.scatter && y.stop.isNone) s fun s => inClass 0 s fun s => withUpsets ups s fun s => engineRun s 6 b.engine fun s => bagOn s x y { b with rows := b.rows ++ [r] })

/-- Whether an exchange waits for a position: for its END, or for a row it owns (R211). -/
def embAwaits (x : Exchange) (pos : Nat) : Bool :=
  pos < x.members.length && pos != x.pos && ((mapGet x.ends pos).isNone || (x.bags.any fun b => b.combine < b.issue) || x.scatter)

/-- EMB_STALLED (R211): nothing from an awaited member within HOP_TIMEOUT_US. -/
def execEmbStalled (stream counter pos : Nat) (s : State) : Reply :=
  done (match findExch s stream counter, findCmd s stream counter with
    | some x, some y => onlyIf (embAwaits x pos && y.stop.isNone && !anyHold s && x.waitNs + x.hopUs * 1000 ≤ s.now) s fun s =>
        embStopAsk s stream counter 0x0235 pos 0 (some F.EMB_ERRORS_STALLED)
    | _, _ => s)

/-- A started embedding command: its exchange, then the frames held for it (R209, R210). -/
def embBegin (s : State) (q c : Nat) (sc : Bool) (p t : Bytes) : State :=
  match chainMembers s (tbChain t) with
  | none => s
  | some ms =>
    let x : Exchange := { stream := q, counter := c, scatter := sc, xid := ebXid sc p, digest := embDigest t sc, pos := (posIn s ms).getD 0, members := ms, table := t, hopUs := ebHop sc p,
                          deal := newDeal (enginesOf s 6 (ebMask sc p)) 0 (ebItems sc p), waitNs := s.now }
    let xidOf := fun (b : HeldBody) => match b with
      | .embRequest i _ _ _ _ => some i
      | .embContribution i _ _ => some i
      | .embEnd i _ _ _ => some i
      | .embStop i _ _ => some i
      | .relay _ => none
    let mine := (s.fleet.held.filter fun h => xidOf h.body == some x.xid).map HeldFrame.body
    let rest := s.fleet.held.filter fun h => xidOf h.body != some x.xid
    let s := showEmb { s with fleet := { s.fleet with exchanges := s.fleet.exchanges ++ [x], held := rest } }
    let s := modCmd s q c fun y => { y with cursor := ebResume sc p }
    let s := embProgress s q c
    mine.foldl (fun s b => match findExch s q c with | some x => takeEmb s x b | none => s) s

end Sys2Proof.Machine
end

