-- ==== Sys2Proof/Machine/Intake.lean ====
section
/-!
DEFINITION. The command aperture, the rings as the host handles them, and the commands of the general group with an empty or a short body (03 R43 to R46, R53, R55, R64 to R66, R73, R75 to R83).
-/
namespace Sys2Proof.Machine

/-! ### The aperture (R43 to R46) -/

/-- An untagged record of a packet that no Helm core has accepted, made by the pilot (R44 to R46). -/
def pilotRecord (s : State) (p : Bytes) (status detail : Nat) : State := refuse s (parseHeader p) [] false status detail 0

/-- The bytes of a slot from offset 0 to n. -/
def slotBytes (t : Slot) (n : Nat) : Bytes := memRead t.data 0 n

/-- Distinct offsets below n that have arrived. -/
def slotCount (t : Slot) (n : Nat) : Nat := (t.data.filter fun c => c.1 < n).length

/-- LENGTH of the packet in a slot, once bytes 0 and 1 have arrived. -/
def slotLength (t : Slot) : Option Nat := if slotCount t 2 == 2 then some (uAt (slotBytes t 2) 0 2) else none

/-- Whether a LENGTH is one a packet may have (R45, R47). -/
def lengthOk (n : Nat) : Bool := 96 ≤ n && n ≤ 8192 && n % 16 == 0

/-- A slot given a content, with its bit of CMD_SLOT_BUSY. -/
def setSlot (s : State) (n : Nat) (t : Option Slot) : State :=
  match t with
  | some t => setBitF { s with cmd := { s.cmd with slots := mapPut s.cmd.slots n t } } R.CMD_SLOT_BUSY F.CMD_SLOT_BUSY_BUSY n true
  | none => setBitF { s with cmd := { s.cmd with slots := mapDel s.cmd.slots n } } R.CMD_SLOT_BUSY F.CMD_SLOT_BUSY_BUSY n false

/-- Writes dropped and packets without a header, counted (R77). -/
def dropWrite (s : State) : State := incF s R.CMD_INTAKE_STATUS F.CMD_INTAKE_STATUS_DROPPED_WRITES 1
def countIncomplete (s : State) : State := incF s R.CMD_INTAKE_STATUS F.CMD_INTAKE_STATUS_INCOMPLETE 1

/-- A packet the pilot has taken: to its own Helm cores, to the module it names, or refused for want of a path (R46). -/
def forwardPacket (s : State) (p : Bytes) : State :=
  let d := (parseHeader p).destFid
  if d == 0 || d == 0xFFFF || d == myFid s then { s with cmd := { s.cmd with intake := s.cmd.intake ++ [p] } }
  else
    match unreachable s d with
    | some code => pilotRecord s p 0x0050 code
    | none => sendInst s 1 d .command [] p

/-- Bytes stored in a slot by offset. -/
def slotPut (t : Slot) (off : Nat) (bs : Bytes) : List Host.Cell := (bs.zipIdx).foldl (fun m b => mapPut m (off + b.2) b.1) t.data

/-- A slot after bytes have come: taken once LENGTH bytes are there, discarded for a LENGTH out of range once the header is there (R43, R45). -/
def settleSlot (s : State) (n : Nat) (t : Slot) : State :=
  match slotLength t with
  | none => setSlot s n (some t)
  | some len =>
    if lengthOk len then
      let t := { t with data := t.data.filter fun c => c.1 < len }
      if slotCount t len == len then forwardPacket (setSlot s n none) (slotBytes t len) else setSlot s n (some t)
    else if slotCount t 64 == 64 then pilotRecord (setSlot s n (some { t with data := [], quiet := true })) (slotBytes t 64) 0x0013 0
    else setSlot s n (some t)

/-- A write into one slot (R44, R45). -/
def writeSlot (s : State) (n off : Nat) (bs : Bytes) : State :=
  match mapGet s.cmd.slots n with
  | none => if off != 0 then dropWrite s else settleSlot s n { data := slotPut {} 0 bs, firstNs := s.now, lastNs := s.now }
  | some t =>
    if t.quiet then dropWrite (setSlot s n (some { t with lastNs := s.now }))
    else
      match slotLength t with
      | some len =>
        if lengthOk len && off + bs.length > len then
          let s := dropWrite s
          if off ≥ len then s else settleSlot s n { t with data := slotPut t off (bs.take (len - off)), lastNs := s.now }
        else settleSlot s n { t with data := slotPut t off bs, lastNs := s.now }
      | none => settleSlot s n { t with data := slotPut t off bs, lastNs := s.now }

/-- A write that covers several slots is a write into each. -/
def writeSlots (fuel : Nat) (s : State) (off : Nat) (bs : Bytes) : State :=
  match fuel with
  | 0 => s
  | k + 1 =>
    if bs = [] ∨ off ≥ 0x80000 then s
    else
      let room := 8192 - off % 8192
      writeSlots k (writeSlot s (off / 8192) (off % 8192) (bs.take room)) (off + room) (bs.drop room)

/-- COMMAND_SLOT_WRITE (R43 to R46): a host write into the aperture of a pilot; one that is not READY drops it (20 R606). -/
def execCommandSlotWrite (offset : Nat) (data : Bytes) (s : State) : Reply :=
  done (onlyIf (isPilot s && data != []) s fun s => if isReady s then writeSlots (data.length / 8192 + 2) s offset data else dropWrite s)

/-- SLOT_TIMEOUT (R44, R45): 100 µs after the first write the content is discarded. -/
def execSlotTimeout (slot : Nat) (s : State) : Reply :=
  done (match mapGet s.cmd.slots slot with
    | none => s
    | some t =>
      if t.quiet || s.now < t.firstNs + 100000 then s
      else
        let bad := match slotLength t with | some n => !lengthOk n | none => false
        let free := if bad then setSlot s slot (some { t with data := [], quiet := true }) else setSlot s slot none
        if !bad && slotCount t 64 == 64 then pilotRecord free (slotBytes t 64) 0x0015 t.data.length else countIncomplete free)

/-- SLOT_QUIET_EXPIRY (R45): 100 µs without a write free a slot discarded for its LENGTH. -/
def execSlotQuietExpiry (slot : Nat) (s : State) : Reply :=
  done (match mapGet s.cmd.slots slot with
    | none => s
    | some t => if t.quiet && t.lastNs + 100000 ≤ s.now then setSlot s slot none else s)

/-! ### Rings as software sets them (R73, R79 to R83) -/

/-- Records that waited for a ring that has been disabled are discarded (R73). -/
def discardWaiting (s : State) (ring : Nat) : State :=
  let gone := s.cmd.ringWait.filter fun w => w.1 == ring
  gone.foldl (fun s w => logEvent s (srcOf 0 0) 0x00C3 clsInfo ring 1 (uAt w.2 16 8)) { s with cmd := { s.cmd with ringWait := s.cmd.ringWait.filter fun w => w.1 != ring } }

/-- A write of CMD_RING_CTRL (R79, R80). -/
def writeRingCtrl (s : State) (ring : Nat) (value : Word) (how : How := (R.CMD_RING_CTRL ring, 8, value.toNat)) : State :=
  let a := R.CMD_RING_CTRL ring
  let on := bitW value 0
  if flagF s a F.CMD_RING_CTRL_ENABLE then (if on then s else discardWaiting (setF s a F.CMD_RING_CTRL_ENABLE 0) ring)
  else
    let s := setF (setF s a F.CMD_RING_CTRL_SLICE_TAG (fld value 27 16)) a F.CMD_RING_CTRL_SIZE (fld value 12 8)
    if !on then s
    else if 6 ≤ fld value 12 8 && fld value 12 8 ≤ 20 then wr (wr (setF s a F.CMD_RING_CTRL_ENABLE 1) (R.CMD_RING_HEAD ring) 0) (R.CMD_RING_CONSUMED ring) 0
    else refuseAs s how

/-- A write of CMD_RING_CONSUMED (R82, R83): in order it frees places, out of order it changes nothing. -/
def writeRingConsumed (s : State) (ring : Nat) (value : Word) (how : How := (R.CMD_RING_CONSUMED ring, 8, value.toNat)) : State :=
  let a := R.CMD_RING_CONSUMED ring
  if value.toNat > ringHead s ring || value.toNat < (rd s a).toNat then refuseAs s how else drainRing (wr s a value) ring

/-- CMD_RING_CTRL_WRITE (R80). -/
def execCmdRingCtrlWrite (ring : Nat) (value : Word) (s : State) : Reply := done (onlyIf (ring < 16) s fun s => writeRingCtrl s ring value)

/-- CMD_RING_CONSUMED_WRITE (R83). -/
def execCmdRingConsumedWrite (ring : Nat) (value : Word) (s : State) : Reply := done (onlyIf (ring < 16) s fun s => writeRingConsumed s ring value)

/-- The stream and counter of a record that waits for a full ring: one of no command, or that of the first command held at its retirement (R57, R73). -/
def ringWaiter (s : State) (ring : Nat) : Option (Nat × Nat) :=
  match s.cmd.ringWait.find? fun w => w.1 == ring with
  | some w => some (uAt w.2 10 1, uAt w.2 16 8)
  | none => (s.cmd.cmds.find? fun x => x.phase == .ended && x.hdr.ring == ring && x.hdr.sliceTag == ringTag s ring && predRetired s x.q x.hdr.counter).map fun x => (x.hdr.stream, x.hdr.counter)

/-- RING_FULL_WAIT (R73): one entry per beat while a record waits for space. -/
def execRingFullWait (ring : Nat) (s : State) : Reply :=
  done (onlyIf (isPilot s && ringOn s ring && ringFull s ring && mapGet s.cmd.fullBeat ring != some (beatNow s)) s fun s =>
    match ringWaiter s ring with
    | none => s
    | some (st, c) => logEvent { s with cmd := { s.cmd with fullBeat := mapPut s.cmd.fullBeat ring (beatNow s) } } (srcOf 0 0) 0x00C4 clsInfo ring st c)

/-! ### The general commands -/

/-- NOP at intake (R53): an empty body. -/
def execNop (s : State) : Reply := done (intakeWork s opNOP (bodyChecks 96 fun _ => []))

/-- FENCE_ONLY at intake (R53): an empty body. -/
def execFenceOnly (s : State) : Reply := done (intakeWork s opFENCE_ONLY (bodyChecks 96 fun _ => []))

/-- Whether the fields of a SET_STREAM lie within their ranges (R55). -/
def setStreamOk (p : Bytes) : Bool :=
  let t := uAt p 64 4
  let w := uAt p 68 4
  1 ≤ t && t ≤ 3600000 && 1 ≤ w && w ≤ 3600000 && allZero (sub p 72 8)

/-- SET_STREAM at intake (R55): its values hold for commands accepted after it; out of range it changes nothing and completes MALFORMED when it starts. -/
def execSetStream (s : State) : Reply :=
  done (takePacket s opSET_STREAM (bodyChecks 112 fun _ => []) fun s h p key =>
    let s := acceptWork s h p key
    let st := getStream s h.stream
    if setStreamOk p && (haltOf st h.counter).isNone then setStream s h.stream { st with timeoutMs := uAt p 64 4, waitMs := uAt p 68 4 } else s)

/-- The control counter advanced over an accepted control command, with its kept entry (R51). -/
def acceptControl (s : State) (h : Header) (p : Bytes) (r : Option Rec) : State :=
  setStream s h.stream (advance (getStream s h.stream) true h.counter (packetTag p) r)

/-- A control command that completes at once (R65, R75). -/
def controlNow (s : State) (h : Header) (p : Bytes) (r : Rec) : State := emitRecord (acceptControl s h p (some r)) r

/-- A started command stopped by an ABORT, in place of any stop asked before but another ABORT's; with its work ended it keeps its final cursor (R65). -/
def abortStarted (s : State) (x : Cmd) (c : Nat) : State :=
  modCmd s x.q x.hdr.counter fun y =>
    if y.phase == .ended then (if y.status == 1 && y.detail == 0 then y else { y with status := 1, detail := 0, detail2 := c })
    else if (match y.stop with | some k => k.status == 1 && k.detail == 0 | none => false) then y
    else { y with stop := some ⟨1, 0, c⟩ }

/-- An ABORT settled against its target in one step of the stream (R65, R66). (DEDUCED, assumption log 82) -/
def settleAbort (s : State) (h : Header) (p key : Bytes) : State :=
  let q := h.stream
  let t := uAt p 64 8
  let st := getStream s q
  let own := mkRec h key true 0 0 1 t
  if t > st.lastWork then controlNow s h p (mkRec h key true 0x0014 0 0 t)
  else
    match findCmd s q t with
    | none => controlNow s h p (mkRec h key true 0 0 0 t)
    | some x =>
      if (haltOf st t).isSome then controlNow s h p (mkRec h key true 0 0 0 t)
      else
        let s := acceptControl s h p (some own)
        if beyondStop s x then haltAt (modCmd s q t fun x => { x with late := some h.counter }) q t
        else if x.phase == .queued then failStart s q t 0x0001 0 h.counter
        else haltAt (abortStarted s x h.counter) q t

/-- ABORT (R65, R66). -/
def execAbort (s : State) : Reply := done (takePacket s opABORT (bodyChecks 112 fun p => [rsvOk p 72 8]) settleAbort)

/-- CLEAR_STREAMs of a stream completed, oldest first, as the records of the commands before them have been written (R64). -/
def settleClears (fuel : Nat) (s : State) (q : Nat) : State :=
  match fuel with
  | 0 => s
  | k + 1 =>
    let st := getStream s q
    match st.clears with
    | [] => s
    | c :: rest =>
      if (s.cmd.cmds.any fun x => x.q == q && x.hdr.counter ≤ c.upTo) then s
      else
        let failed := if st.fenced.isSome then st.failed else st.failed.filter fun f => c.upTo < f
        let r := match st.fenced with | some d => { c.record with status := 0x0240, detail := d } | none => c.record
        let state := if !rest.isEmpty then .clearing else if failed.isEmpty then .opened else .halted
        let s := setStream s q { st with clears := rest, failed := failed, state := state }
        let s := emitRecord (keepRec s q true c.record.counter r) r
        let s := (List.replicate c.dups (dupOf r c.record.ring)).foldl emitRecord s
        settleClears k s q

/-- CLEAR_STREAM (R64): at once on an OPEN stream, else once the earlier records are written; DIE_FENCED where the owning die is fenced (13 R383). -/
def execClearStream (s : State) : Reply :=
  done (takePacket s opCLEAR_STREAM (bodyChecks 96 fun _ => []) fun s h p key =>
    let r := mkRec h key true 0 0 0 0
    let st := getStream s h.stream
    if st.fenced.isSome then controlNow s h p (mkRec h key true 0x0240 0 (st.fenced.getD 0) 0)
    else if st.state == .opened then controlNow s h p r
    else
      let s := acceptControl s h p none
      let st := getStream s h.stream
      let s := setStream s h.stream { st with state := .clearing, clears := st.clears ++ [{ upTo := st.lastWork, record := r }] }
      settleClears (st.clears.length + 1) s h.stream)

/-- QUERY_STREAM (R75). -/
def execQueryStream (s : State) : Reply :=
  done (takePacket s opQUERY_STREAM (bodyChecks 96 fun _ => []) fun s h p key =>
    let st := getStream s h.stream
    let oldest := ((s.cmd.cmds.filter fun x => x.q == h.stream).map fun x => x.hdr.counter).min?.getD 0
    controlNow s h p (mkRec h key true 0 st.lastWork (streamCode st.state) oldest))

end Sys2Proof.Machine
end

