-- ==== Sys2Proof/Machine/Finish.lean ====
section
/-!
DEFINITION. The completion record of a command that has ended, with the records that stand directly behind it (03 R52, R57, R65, R70).
-/
namespace Sys2Proof.Machine

/-- The record of a command as it has ended; an ABORT that came too late turns the status into DETAIL_STATUS (R65). -/
def recordOf (x : Cmd) : Rec :=
  let r := mkRec x.hdr x.key true x.status x.cursor x.detail x.detail2
  let r := { r with tainted := x.tainted }
  match x.late with
  | some c => { r with status := 0x0002, detailStatus := x.status, detail := 0, detail2 := c }
  | none => r

/-- A command's record written and kept for duplicates, then the copies that wait for it (R51, R52). -/
def writeRecord (s : State) (x : Cmd) (r : Rec) : State :=
  let s := emitRecord (keepRec s x.q false x.hdr.counter r) r
  x.after.foldl (fun s a => match a with | none => emitRecord s (dupOf r r.ring) | some d => emitRecord s d) s

end Sys2Proof.Machine
end

