-- ==== Sys2Proof/Machine/Redraw.lean ====
section
/-!
DEFINITION. Draws of the rose switches: redraws, what follows when they have settled, and the schedule (15 R434 to R437, 16 R482, R488, R489).
-/
namespace Sys2Proof.Machine

/-- RSEn_DRAW_STATUS and RSEn_DRAW_BEAT of both Rose dies for a pending redraw, or none (15 R456, R457). -/
def showPending (s : State) : State :=
  [0, 1].foldl (fun s n =>
    match s.fab.redraw with
    | some (b, d) => setF (setF (setF s (R.RSEn_DRAW_STATUS n) F.RSEn_DRAW_STATUS_NEXT_DRAW d) (R.RSEn_DRAW_STATUS n) F.RSEn_DRAW_STATUS_PENDING 1) (R.RSEn_DRAW_BEAT n) F.RSEn_DRAW_BEAT_BEAT b
    | none => setF (setF (setF s (R.RSEn_DRAW_STATUS n) F.RSEn_DRAW_STATUS_NEXT_DRAW 0) (R.RSEn_DRAW_STATUS n) F.RSEn_DRAW_STATUS_PENDING 0) (R.RSEn_DRAW_BEAT n) F.RSEn_DRAW_BEAT_BEAT 0) s

/-- A redraw due at a beat, in place of the one due before (16 R489). -/
def putRedraw (s : State) (r : Option (Nat × Nat)) : State := showPending { s with fab := { s.fab with redraw := r } }

/-- Ports whose local wavelengths differ between the current draws of two states. -/
def wavesDiffer (a b : State) : List Nat :=
  allPorts.filter fun p => localWaves a (currentDraw a) p true != localWaves b (currentDraw b) p true || localWaves a (currentDraw a) p false != localWaves b (currentDraw b) p false

/-- The switch rings retune to a draw, and every port that could carry light holds for 40 µs (15 R435); before is the state whose draws they leave. (DEDUCED, assumption log 66) -/
def retune (before s : State) (draw : Nat) : State :=
  let s := [0, 1].foldl (fun s n => incF (setF s (R.RSEn_DRAW_STATUS n) F.RSEn_DRAW_STATUS_CURRENT draw) (R.RSEn_DRAW_STATUS n) F.RSEn_DRAW_STATUS_REDRAWS 1) s
  let s := allPorts.foldl (fun s p => if (inService s p || portState s p == 7) && !holding s (getPort s p) then putHold s p (beatNow s) 40 0 else s) s
  { s with fab := { s.fab with settling := some (s.now, wavesDiffer before s) } }

/-- A redraw made now, where it changes the draw. -/
def redrawNow (s : State) (draw : Nat) : State := if draw == currentDraw s then s else retune s s draw

/-- During the beat before a redraw each port of the slice in UP, DEGRADED or PASS sends HOLD; where a spare-in falls on the same beat, one hold covers both (15 R435, R437). -/
def holdForRedraw (s : State) (beat : Nat) (spare : Bool) : State :=
  allPorts.foldl (fun s p =>
    if (inService s p || portState s p == 7) && isMember s (chartedPeer s p) then (if spare then sendHold s p beat 242 1 else sendHold s p beat 40 0) else s) s

/-- REDRAW (15 R434, R435): at its beat, while scheduled events run. -/
def execRedraw (s : State) : Reply :=
  done (match s.fab.redraw with
    | some (b, d) => onlyIf (b ≤ beatNow s) s fun s => if locked s then redrawNow (putRedraw s none) d else putRedraw s none
    | none => s)

/-- The link state a port keeps for the peer it leaves, of up to 16 peers (15 R436). -/
def storeLink (s : State) (p : Nat) : State :=
  match (getPort s p).peer with
  | none => s
  | some b =>
    let (e, s) := takeFree s
    modPort s p fun x =>
      let t : TrainingState := { peerDigest := idDigest b, peerPort := idPort b, equaliser := e, keys := x.keys, txNext := x.txNext, rxNext := x.rxNext }
      if x.keys == [] then x else { x with stored := lastN 16 ((x.stored.filter fun o => !(o.peerDigest == t.peerDigest && o.peerPort == t.peerPort)) ++ [t]) }

/-- A port with a new peer, new lanes or new local wavelengths after a redraw: it stores its link state and trains, quickly where it holds a stored state; without local wavelengths it is in PASS (15 R432, R436). -/
def changePeer (s : State) (p : Nat) : State :=
  let s := if inService s p then storeLink s p else s
  if passesAll s (currentDraw s) p then setPortState s p 7
  else
    let s := discardStore s p
    let s := if portState s p == 1 then retrain s p else setPortState s p 1
    if portState s p == 1 then modPort s p fun x => { x with quick := !x.stored.isEmpty, keys := [], rxNext := 0, txNext := 0, leftNs := none } else s

/-- REDRAW_SETTLED (15 R436): 40 µs after the redraw, ports whose end-to-end peer or lanes the environment names as changed, or whose own local wavelengths are others, and those that leave PASS, train. (DESIGN CHOICE, assumption log 39) -/
def execRedrawSettled (changed : List Nat) (s : State) : Reply :=
  done (match s.fab.settling with
    | none => s
    | some (t, own) =>
      onlyIf (t + 40000 ≤ s.now) s fun s =>
        let d := currentDraw s
        let s := { s with fab := { s.fab with settling := none } }
        allPorts.foldl (fun s p =>
          let st := portState s p
          let other := changed.contains p || own.contains p
          if ((inService s p || st == 1) && other) || (st == 7 && !passesAll s d p) then changePeer s p else s) s)

/-! ### The schedule (16 R488, R489) -/

/-- The first beat after the dog watch a beat falls into, or the beat itself (16 R489). -/
def afterDogWatch (s : State) (b : Nat) : Nat :=
  match s.fab.chart with
  | none => b
  | some c =>
    let inWatch := watchOf b
    let at_ := inWatch * 16384 + c.offset
    if inWatch % c.period == c.phase && at_ ≤ b && b < at_ + c.length then at_ + c.length else b

/-- Schedule entries whose beat is the next one or has begun: the latest of them becomes the redraw due, at its beat or at the next one (16 R488, R489). -/
def scheduleBeat (s : State) : State :=
  match s.fab.tables with
  | none => s
  | some t =>
    let due := t.sched.drop s.fab.schedDone
    let ready := due.takeWhile fun e => afterDogWatch s (s.fab.origin + e.1) ≤ beatNow s + 1
    match ready.getLast? with
    | none => s
    | some e =>
      let s := { s with fab := { s.fab with schedDone := s.fab.schedDone + ready.length } }
      putRedraw s (some (max (beatNow s + 1) (afterDogWatch s (s.fab.origin + e.1)), e.2))

/-- The redraw origin moved to a decision's COMMIT_BEAT or a table set's beat (16 R488). (DEDUCED, assumption log 66) -/
def setOrigin (s : State) (beat : Nat) : State := { s with fab := { s.fab with origin := beat, schedDone := 0 } }

end Sys2Proof.Machine
end

