-- ==== Sys2Proof/Machine/Slice.lean ====
section
/-!
DEFINITION. Slices on a module: allocation, bind offer and acceptance, installed keys, release and scrub (18 R538 to R542, R547 to R549, R552 to R555).
-/
namespace Sys2Proof.Machine

/-- SEC_STATUS and DRD_CHART_STATUS for a slice state and tag (R557, 16 R492). -/
def setSlice (s : State) (st tag : Nat) : State :=
  let s := setF (setF s R.SEC_STATUS F.SEC_STATUS_STATE st) R.SEC_STATUS F.SEC_STATUS_SLICE_TAG tag
  setF s R.DRD_CHART_STATUS F.DRD_CHART_STATUS_SLICE_TAG (if st == 2 then tag else 0)

/-- A bit of SEC_EVENTS set (R565). -/
def secEvent (s : State) (f : RF) : State := setF s R.SEC_EVENTS f 1

/-- SEC_KEYS as the installed keys stand (R560). -/
def showSecKeys (s : State) : State :=
  let bits := fun (use : DataSlot → Bool) => ((s.sec.slots.filter fun e => use e.2).map fun e => 2 ^ e.1).sum
  let s := setF (setF s R.SEC_KEYS F.SEC_KEYS_DATA_IN (bits DataSlot.allowIn)) R.SEC_KEYS F.SEC_KEYS_DATA_OUT (bits DataSlot.allowOut)
  setF (setF s R.SEC_KEYS F.SEC_KEYS_FERRY_AUTHS s.sec.ferryAuth.length) R.SEC_KEYS F.SEC_KEYS_SNAP_KEY (b2n (s.sec.bound.kSnap != []))

/-! ### Allocation (R539) -/

/-- The module becomes ALLOCATED (R539). -/
def becomeAllocated (s : State) (a : Alloc) : State := secEvent (setSlice { s with sec := { s.sec with allocAfterScrub := false } } 1 a.tag) F.SEC_EVENTS_ALLOCATED

/-- The fence action of the allocation, as ARB_LINK_POLICY shows it (13 R384, R393). -/
def showPolicy (s : State) : State := setF s R.ARB_LINK_POLICY F.ARB_LINK_POLICY_WITHDRAW (match s.fab.alloc with | some a => a.fenceAction | none => 0)

/-- An allocation that names this module, as it takes effect on it (R539): ALLOCATED at once, after the scrub, or an entry and a report. -/
def allocateHere (s : State) (a : Alloc) : State :=
  if sliceState s == 0 && uAt (lastScrub s) 3 1 == 0 && !debugUnlocked s && !identityFault s then becomeAllocated s a
  else if sliceState s == 3 then { s with sec := { s.sec with allocAfterScrub := true } }
  else tellBluvisen (noteAt s srcSec 0x06 clsInfo) 539 [a.epoch]

/-! ### Bind (R540 to R542) -/

/-- BIND_REQUEST (R540): an ALLOCATED module answers with an offer; the offer before it is gone. -/
def execBindRequest (nonce : Bytes) (s : State) : Reply :=
  done (onlyIf (sliceState s == 1 && bluvisenOn s) s fun s =>
    let draw := s.free
    let ek := fit 1568 (Config.kemPublic draw)
    let (r, s) := makeReport { s with free := s.free + 1 } nonce (digest32 ek)
    let offer := r ++ ek
    let life := match s.fab.alloc with | some a => a.offerWatches | none => 0
    bluvisen { s with sec := { s.sec with offer := some ⟨draw, digest32 offer, beatNow s + life * 16384⟩ } } .bindOffer [] offer)

/-- BIND_OFFER_EXPIRY (R540): OFFER_WATCHES watches after it was made. -/
def execBindOfferExpiry (s : State) : Reply :=
  done (match s.sec.offer with
    | some o => onlyIf (o.untilBeat ≤ beatNow s) s fun s => { s with sec := { s.sec with offer := none } }
    | none => s)

/-- A refused acceptance: BIND_REFUSE with the code, an entry, and nothing else but its counts (R542). -/
def refuseBind (s : State) (code : Nat) : State :=
  let s := incF (setF s R.SEC_STATUS F.SEC_STATUS_REFUSE_REASON code) R.SEC_COUNTS F.SEC_COUNTS_BIND_REFUSED 1
  bluvisen (noteAt (secEvent s F.SEC_EVENTS_BIND_REFUSED) srcSec 0x06 clsInfo) .bindRefuse [code]

/-- The key of a bundle: K_BND (R541). -/
def bundleKey (ss offerDigest : Bytes) (bindId : Nat) : Bytes := kmac256 ss (offerDigest ++ natLe 8 bindId) 32 (izName [66, 78, 68])

/-- BIND_ACCEPTANCE (R541, R542): the checks by code; then the bundle waits for the next beat. -/
def execBindAcceptance (doc : Bytes) (s : State) : Reply :=
  done (onlyIf (bluvisenOn s) s fun s =>
    let key := sub doc 1656 1952
    let gen := match s.fab.alloc with | some a => a.epoch | none => 0
    let td := match s.fab.alloc with | some a => a.tenantDigest | none => []
    let bindId := uAt doc 48 8
    let od := sub doc 56 32
    if sliceState s != 1 || debugUnlocked s then refuseBind s 1
    else if !Config.dsaVerify key (sub doc 0 3896) (sub doc 3896 3309) then refuseBind s 2
    else if digest32 key != td then refuseBind s 3
    else if sub doc 8 24 != ownDigest || uAt doc 32 2 != mySlice s || uAt doc 40 8 != gen then refuseBind s 4
    else
      match s.sec.offer with
      | none => refuseBind s 5
      | some o =>
        if o.digest != od || o.untilBeat ≤ beatNow s then refuseBind s 5
        else
          match (Config.kemDecap o.draw (sub doc 88 1568)).bind fun ss => gcmOpen (bundleKey ss od bindId) (sub doc 3608 12) (sub doc 0 88) (sub doc 3624 256) (sub doc 3880 16) with
          | none => refuseBind { s with sec := { s.sec with offer := none } } 6
          | some b =>
            let epoch := uAt b 128 4
            if bindId == 0 || epoch == 0 || epoch ≥ 2 ^ 28 || epoch == s.sec.lastEpoch || !allZero (sub b 132 124) || !allZero (sub doc 34 6) || !allZero (sub doc 3620 4) then refuseBind s 7
            else
              let bun : Bundle := { kCtl := sub b 0 32, kFab := sub b 32 32, seed := sub b 64 32, kSnap := sub b 96 32, epoch := epoch, bindId := bindId, offerDigest := od }
              let rec0 := (flashGet s.flash.bind).getD {}
              let s := { s with flash := { s.flash with bind := flashPut s.flash.bind { rec0 with bind := some (bindId, mySlice s) } } }
              { s with sec := { s.sec with offer := none, pendingBind := some (beatNow s + 1, bun, digest32 doc) } })

/-- The group, position, K_g and P of this module, and every unit STALE (17 R499 to R504, R522). -/
def placeReckon (s : State) : State :=
  match s.fab.alloc with
  | none => s
  | some a =>
    match a.groups.zipIdx.find? fun g => g.1.contains (myFid s) with
    | none => resetReg s R.REL_RECKON_STATUS
    | some (g, i) =>
      let s := setF (setF (resetReg s R.REL_RECKON_STATUS) R.REL_RECKON_STATUS F.REL_RECKON_STATUS_GROUP i) R.REL_RECKON_STATUS F.REL_RECKON_STATUS_POSITION ((g.idxOf? (myFid s)).getD 0)
      let s := setF (setF s R.REL_RECKON_STATUS F.REL_RECKON_STATUS_KG (g.length - a.p)) R.REL_RECKON_STATUS F.REL_RECKON_STATUS_P a.p
      showStale (setF s R.REL_RECKON_STATUS F.REL_RECKON_STATUS_STATE 1)

/-- Draw counters, Escapement and stage registers at their reset values (R542, R554). -/
def resetTraining (s : State) : State :=
  let s := (List.range 64).foldl (fun s t => resetReg (resetReg s (R.TRB_COUNTER t)) (R.TRB_PER_STEP t)) s
  [R.ARB_ESC_STATUS, R.ARB_ESC_STEP, R.ARB_ESC_STAGE, R.EMB_STAGE].foldl resetReg s

/-- The beat after an acceptance: the module is BOUND, its streams CLOSED, its fences and counters zero, the bundle in force; slice keys are derived and the report goes out (R542, R544). -/
def bindBeat (s : State) : State :=
  match s.sec.pendingBind with
  | none => s
  | some (beat, b, nonce) =>
    if beatNow s < beat || sliceState s != 1 then s
    else
      let s := { s with sec := { s.sec with pendingBind := none, bound := b, lastEpoch := b.epoch, slots := [], ferryAuth := [] },
                        cmd := { s.cmd with streams := [], fences := [], broken := [] }, esc := {}, reck := {} }
      let s := resetTraining s
      let s := wr (resetReg s R.SEC_KEY_COUNTER) R.SEC_BIND (BitVec.ofNat 64 b.bindId)
      let s := showSecKeys (showStreams (secEvent (setSlice s 2 (mySlice s)) F.SEC_EVENTS_BOUND))
      let s := unitsTake (placeReckon s) true
      let s := allPorts.foldl (fun s p => if (getPort s p).keys == [] then s else deriveSlice s p) s
      sendReport s nonce

/-! ### KEY_INSTALL (R547 to R549, R701) -/

/-- Format checks of KEY_INSTALL (R548, R701). -/
def keyChecks (p : Bytes) : List (Bool × Nat) :=
  let kind := uAt p 64 1
  let slot := uAt p 65 1
  let bare := kind == 4 || uAt p 66 1 == 0
  [(1 ≤ kind && kind ≤ 4, 64), (kind == 1 || (kind == 2 && slot < 16) || slot == 0, 65), (uAt p 66 1 < 4, 66), rsvOk p 67 5,
   (if kind == 4 then decide (uAt p 92 2 < 256) else uAt p 92 2 == 0, 92), rsvOk p 94 2, (!bare || allZero (sub p 96 32), 96), (!bare || allZero (sub p 128 16), 128),
   (kind == 4 || allZero (sub p 144 32), 144), rsvOk p 176 16]

/-- KEY_INSTALL at intake (R547). -/
def execKeyInstall (s : State) : Reply := done (intakeWork s opKEY_INSTALL (bodyChecks 224 keyChecks))

/-- The ferry keys of a port destroyed (R546). -/
def dropFerryKeys (s : State) (port : Nat) : State :=
  showPorts (modPort (dropKx s port true) port fun x => { x with keys := x.keys.map fun (g : KeyGen) => { g with ferry := [], ferryKey := [] } })

/-- Ferry keys are set up on every route whose conditions hold and that has none (R546): this end begins on the sender's side. (DEDUCED, assumption log 55) -/
def startFerryKeys (s : State) : State :=
  match s.fab.tables with
  | none => s
  | some t =>
    t.ferries.foldl (fun s r =>
      let has := match (getPort s r.port).keys with | g :: _ => g.ferryKey != [] | [] => true
      if sliceState s == 2 && r.role == 0 && (mapGet s.sec.ferryAuth r.route).isSome && inService s r.port && !has && (getKx s r.port true).isNone then startKx s r.port true false else s) s

/-- The key a KEY_INSTALL wraps (R547). -/
def unwrapKey (s : State) (p : Bytes) : Option Bytes := gcmOpen (keyWrap s) (sub p 80 12) (sub p 0 96) (sub p 96 32) (sub p 128 16)

/-- The effect of a KEY_INSTALL as its retirement begins: the state, its status, DETAIL and DETAIL2 (R549). (DEDUCED, assumption log 52) -/
def keyEffect (s : State) (p : Bytes) : State × Nat × Nat × Nat :=
  let kind := uAt p 64 1
  let slot := uAt p 65 1
  let use := uAt p 66 1
  let ident := uAt p 72 8
  if kind == 1 && unretired s slot != 0 then (s, 0x0601, slot, 0)
  else if kind == 4 then
    let route := uAt p 92 2
    if use != 0 then
      (startFerryKeys (showSecKeys { s with sec := { s.sec with ferryAuth := mapPut s.sec.ferryAuth route (sub p 144 32) } }), 0, 0, ident)
    else
      let s := showSecKeys { s with sec := { s.sec with ferryAuth := mapDel s.sec.ferryAuth route } }
      ((match ferryRoute s route with | some r => dropFerryKeys s r.port | none => s), 0, 0, ident)
  else
    let put := fun (k : Option Bytes) =>
      match kind with
      | 1 => setStream s slot (match k with | some key => { state := .opened, key := key } | none => {})
      | 2 => match k with
        | some key => showSecKeys { s with sec := { s.sec with slots := mapPut s.sec.slots slot ⟨key, use.testBit 0, use.testBit 1, 0⟩ } }
        | none => showSecKeys { s with sec := { s.sec with slots := mapDel s.sec.slots slot } }
      | _ => showSecKeys { s with sec := { s.sec with bound := { s.sec.bound with kSnap := k.getD [] } }, reck := { s.reck with lastSnap := 0 } }
    if use == 0 then (put none, 0, 0, ident)
    else match unwrapKey s p with
      | some k => (put (some k), 0, 0, ident)
      | none => (incF s R.SEC_COUNTS F.SEC_COUNTS_UNWRAP_FAIL 1, 0x0602, 0, ident)

/-! ### Release (R552, R553) -/

/-- Every command of the slice but the one that releases it ends with RELEASED, in order of acceptance; commands whose work had ended keep their status (R553 step 3). CLEAR_STREAMs complete behind them. -/
def stopSlice (s : State) (own : Option (Nat × Nat)) : State :=
  let mine := fun (x : Cmd) => match own with | some (q, c) => isCmd q c x | none => false
  let s := s.cmd.cmds.foldl (fun s x =>
    if mine x then s
    else
      let s := dropCmd s x.q x.hdr.counter
      let r := recordOf x
      if x.phase == .ended then writeRecord s x r
      else writeRecord s x { recordOf { x with late := none } with status := 0x0608, detail := 0, detail2 := 0 }) s
  s.cmd.streams.foldl (fun s e => settleClears (e.2.clears.length + 1) s e.1) s

/-- The slice keys destroyed, but for the command key of the stream that issued the release (R553 step 4). -/
def destroyKeys (s : State) (own : Option (Nat × Nat)) : State :=
  let streams : SMap Stream := match own with | some (q, _) => mapPutD {} [] q { key := (getStream s q).key } | none => []
  let s := { s with cmd := { s.cmd with streams := streams, intake := s.cmd.intake }, sec := { s.sec with bound := {}, slots := [], ferryAuth := [], offer := none, pendingBind := none } }
  let s := setF s R.SEC_LINK_KEYS F.SEC_LINK_KEYS_SLICE_CONFIRMED 0
  let s := allPorts.foldl (fun s p =>
    if (getPort s p).keys == [] then s
    else modPort (dropKx s p true) p fun x => { x with keys := x.keys.map fun (g : KeyGen) => { g with slice := [], ferry := [], ferryKey := [] } }) s
  secEvent (showSecKeys (showStreams (showPorts s))) F.SEC_EVENTS_RELEASED

/-- Steps 2 to 5 of a release (R553): staged writes and commands go, the keys are destroyed, and the module is SCRUBBING. (DEDUCED, assumption log 53) (DEDUCED, assumption log 55) -/
def releaseGo (s : State) : State :=
  match s.sec.releasing with
  | none => s
  | some r =>
    let s := { s with esc := {}, comp := { strikes := s.comp.strikes }, fleet := {}, reck := {} }
    let s := showRelay (showEsc (setEsc s 0))
    let s := destroyKeys (stopSlice s r.cmd) r.cmd
    let s := setSlice s 3 r.tag
    let s := { s with sec := { s.sec with releasing := some { r with start := countNow s, waits := false } }, fab := { s.fab with alloc := none, noRoute := s.fab.noRoute.filter fun f => f.scope == 0 } }
    let s := setF (setF (setF s R.SEC_SCRUB F.SEC_SCRUB_REASON r.reason) R.SEC_SCRUB F.SEC_SCRUB_RESULT 0) R.SEC_SCRUB F.SEC_SCRUB_ATTEMPT 1
    showPolicy (setF s R.SEC_SCRUB F.SEC_SCRUB_BYTES 0)

/-- A bound or allocated module is released (R552): packets of the slice are refused from now on; a running Escapement release is waited for (R553 steps 1 and 2). -/
def beginRelease (s : State) (reason : Nat) (cmd : Option (Nat × Nat)) : State :=
  if (sliceState s == 1 || sliceState s == 2) && s.sec.releasing.isNone then
    let r : Releasing := { reason := reason, tag := mySlice s, bindId := s.sec.bound.bindId, start := countNow s, cmd := cmd, waits := escState s == 3 }
    let s := { s with sec := { s.sec with releasing := some r } }
    if r.waits then s else releaseGo s
  else s

/-! ### Scrub (R554, R555) -/

/-- The first physical address of a stack's hallmark plane, and the plane's length. -/
def planeBase (k : Nat) : Nat := k * stackBytes + 32704 * pageBytes
def planeBytes : Nat := 64 * pageBytes

/-- Whether a data block of a stack is sampled under a seed: stack, frame, block within the frame (R554 step 5). -/
def sampled (seed : Bytes) (k f b : Nat) : Bool := uAt (shake256 (seed ++ natLe 1 k ++ natLe 2 f ++ natLe 2 b) 1) 0 1 % 64 == 0

/-- The number of sampled blocks. -/
def sampledCount (seed : Bytes) : Nat :=
  (List.range 8).foldl (fun n k => (List.range 32704).foldl (fun n f => (List.range 512).foldl (fun n b => if sampled seed k f b then n + 1 else n) n) n) 0

/-- Whether the read-back of a scrub covers a physical address (R554 steps 3 to 5). -/
def readBack (seed : Bytes) (pa : Nat) : Bool :=
  if pa < 8 * stackBytes then
    let o := pa % stackBytes
    o ≥ 32704 * pageBytes || sampled seed (pa / stackBytes) (o / pageBytes) (o % pageBytes / 4096)
  else true

/-- The blocks a read-back finds non-zero or unreadable, given the errors its reads meet (R555). -/
def scrubBad (s : State) (seed : Bytes) (ups : List Upset) : List Nat :=
  let cells := (s.mem.filter fun c => readBack seed c.1).foldl (fun l c => setIns (c.1 / 4096 * 4096) l) []
  ups.foldl (fun l u => match u with | .uncorrected a => if readBack seed a then setIns (a / 4096 * 4096) l else l | _ => l) cells

/-- PLANE_CRC: the XOR of the eight planes' results with INIT 0 (R554 step 4). -/
def planeCrc (s : State) : Nat := (List.range 8).foldl (fun x k => x ^^^ crc64 0 (memRead s.mem (planeBase k) planeBytes)) 0

/-- The scrub record (R555). -/
def scrubRecord (s : State) (r : Releasing) (seed : Bytes) (bad : List Nat) : Bytes :=
  natLe 2 r.tag ++ natLe 1 r.reason ++ natLe 1 (b2n (bad != [])) ++ natLe 2 s.hbm.retired.length ++ zeros 2 ++ natLe 8 r.bindId ++ natLe 8 r.start ++ natLe 8 (countNow s) ++
  natLe 8 (8 * stackBytes) ++ natLe 8 (sampledCount seed) ++ fit 32 seed ++ natLe 8 (planeCrc s) ++ natLe 4 bad.length ++ natLe 4 r.attempt ++ natLe 8 (4 * tileBytes + fabricBytes) ++ zeros 24

/-- The registers and state that a release resets (R554). -/
def resetSlice (s : State) (r : Releasing) : State :=
  let s := { s with cmd := { s.cmd with fences := [], broken := [] } }
  let s := (List.range 16).foldl (fun s n =>
    if ringTag s n == r.tag then resetReg (resetReg (setF s (R.CMD_RING_CTRL n) F.CMD_RING_CTRL_ENABLE 0) (R.CMD_RING_HEAD n)) (R.CMD_RING_CONSUMED n) else s) s
  let waits := s.cmd.ringWait.filter fun w => !ringOn s w.1
  let s := waits.foldl (fun s w => ringTake s w.1 w.2) { s with cmd := { s.cmd with ringWait := s.cmd.ringWait.filter fun w => ringOn s w.1 } }
  let s := resetTraining s
  let s := redrawNow (putRedraw s none) 0
  let s := [0, 1].foldl (fun s n => setF s (R.RSEn_DRAW_STATUS n) F.RSEn_DRAW_STATUS_INSTALLED 1) s
  let s := { s with fab := { s.fab with tables := none, oldTables := [], chosen := [], schedDone := 0 } }
  let s := [R.DRD_TABLE_GEN, R.DRD_TABLE_COUNTS, R.REL_RECKON_STATUS, R.REL_RECKON_REBUILD, R.REL_RECKON_STALE, R.SEC_BIND, R.SEC_KEY_COUNTER, R.SEC_KEYS].foldl resetReg s
  showPorts (unitsTake s false)

/-- The end of a release without a command, or after its record: the last key goes, and the module is UNBOUND, ALLOCATED where an allocation waits, or SCRUB_FAILED (R539, R553 step 7, R554). (DEDUCED, assumption log 53) -/
def endRelease (s : State) (failed : Bool) : State :=
  let s := { s with sec := { s.sec with releasing := none }, cmd := { s.cmd with streams := [], fences := [], broken := [] } }
  let s := showStreams s
  if failed then setSlice s 4 0
  else
    let s := setSlice s 0 0
    match s.fab.alloc with
    | some a => if s.sec.allocAfterScrub then becomeAllocated s a else s
    | none => s

/-- One scrub: everything is written with zeros and read back; a failure runs it again, up to twice, and after it the release ends (R554, R555). (DEDUCED, assumption log 55) -/
def scrubRun (s : State) (ups : List Upset) : State :=
  match s.sec.releasing with
  | none => s
  | some r =>
    let (seed, s) := takeRandom { s with mem := [], side := [], poison := [] } 32
    let s := applyFlips s ups
    let bad := scrubBad s seed ups
    let s := incF s (R.HBM_GOV_BYTES 4) F.HBM_GOV_BYTES_BYTES (8 * stackBytes + 8 * planeBytes + 4096 * sampledCount seed)
    let s := setF (setF s R.SEC_SCRUB F.SEC_SCRUB_ATTEMPT r.attempt) R.SEC_SCRUB F.SEC_SCRUB_BYTES (8 * stackBytes)
    let s := setF (setF s R.SEC_SCRUB_FAILS F.SEC_SCRUB_FAILS_FAILED_BLOCKS bad.length) R.SEC_SCRUB_FAILS F.SEC_SCRUB_FAILS_SAMPLED (sampledCount seed)
    if bad != [] && r.attempt < 3 then { s with sec := { s.sec with releasing := some { r with attempt := r.attempt + 1 } } }
    else
      let failed := bad != []
      let s := resetSlice s r
      let s := secEvent (setF s R.SEC_SCRUB F.SEC_SCRUB_RESULT (if failed then 2 else 1)) F.SEC_EVENTS_SCRUB_DONE
      let s := { s with flash := { s.flash with bind := flashPut s.flash.bind { bind := none, scrub := scrubRecord s r seed bad } } }
      let s := if failed then tellBluvisen s 554 [r.tag, bad.length] else s
      match r.cmd with
      | some (q, c) => if failed then endCmd s q c 0x0609 (8 * stackBytes) 0 bad.length else endCmd s q c 0 (8 * stackBytes) 0 0
      | none => endRelease s failed

/-- SLICE_RELEASE (R553, R554): its packet at intake, or one scrub of a release that runs. -/
def execSliceRelease (a : CmdArg) (s : State) : Reply :=
  done (match a with
    | .intake => intakeWork s opSLICE_RELEASE (bodyChecks 128 fun p => [rsvOk p 64 32])
    | .work q c ups => onlyIf (sliceState s == 3 && (match s.sec.releasing with
        | some r => match r.cmd with | some (u, v) => u == q && v == c && (match findCmd s q c with | some x => x.phase == .running | none => false) | none => true
        | none => false)) s fun s => scrubRun s ups)

end Sys2Proof.Machine
end

