-- ==== Sys2Proof/Machine/Documents.lean ====
section
/-!
DEFINITION. Signed documents: charts, amendments, slice allocations and slice table sets, their checks, their spreading and their effect (16 R466 to R490, 17 R499 to R501, R510, 18 R538, R539, 20 R616 to R618).
-/
namespace Sys2Proof.Machine

/-! ### Layout (R466) -/

/-- Bytes of an ML-DSA-65 signature. -/
def sigBytes : Nat := 3309

/-- Fields of a document (R466). -/
def docKind (d : Bytes) : Nat := uAt d 0 4
def docEpoch (d : Bytes) : Nat := uAt d 16 8
def docBase (d : Bytes) : Nat := uAt d 24 8
def docBeat (d : Bytes) : Nat := uAt d 32 8
def docTag (d : Bytes) : Nat := uAt d 40 2
def docTarget (d : Bytes) : Nat := uAt d 42 2
def docBody (d : Bytes) : Bytes := sub d 64 (d.length - 64 - sigBytes)

/-- Whether a document's signature verifies (R466, R467 check 1). -/
def docSigned (s : State) (d : Bytes) : Bool := d.length ≥ 64 + sigBytes && underAuthority s (d.take (d.length - sigBytes)) (d.drop (d.length - sigBytes))

/-- The head of a document of a kind (R466, R467 check 5). -/
def headOk (kind : Nat) (d : Bytes) : Bool :=
  docKind d == kind && uAt d 4 4 == d.length && d.length ≤ 2 ^ 24 && allZero (sub d 44 20) &&
  (if kind == 2 then docEpoch d == docBase d + 1 else docBase d == 0) &&
  (if kind ≥ 3 then decide (1 ≤ docTag d) && decide (docTag d ≤ 0xFFF) else docTag d == 0) && (kind == 4 || docTarget d == 0)

/-! ### Charts (R468 to R471) -/

/-- A port record of 4 bytes, none where a field is out of range (R469). -/
def readPort (b : Bytes) : Option PortRec := if uAt b 2 1 < 32 && uAt b 3 1 < 8 then some ⟨uAt b 0 2, uAt b 2 1, uAt b 3 1⟩ else none

/-- A module entry of 160 bytes (R469). -/
def readEntry (b : Bytes) : Option ModEntry :=
  let ports := (List.range 32).filterMap fun p => readPort (sub b (32 + 4 * p) 4)
  if b.length == 160 && uAt b 27 1 < 32 && uAt b 28 1 ≤ 2 && allZero (sub b 29 3) && ports.length == 32 then
    some { digest := sub b 0 24, fid := uAt b 24 2, hostGroup := uAt b 26 1, flags := uAt b 27 1, discipline := uAt b 28 1, ports := ports }
  else none

/-- A chart body (R468). -/
def readChart (d : Bytes) : Option Chart :=
  let b := docBody d
  let n := uAt b 8 2
  let es := (List.range n).filterMap fun i => readEntry (sub b (32 + 160 * i) 160)
  if 1 ≤ n && n ≤ 4096 && b.length == 32 + 160 * n && allZero (sub b 20 12) && es.length == n then
    some { epoch := docEpoch d, installation := uAt d 8 8, meridianEpoch := uAt b 0 8, period := uAt b 10 2, phase := uAt b 12 2, offset := uAt b 14 2,
           length := uAt b 16 2, deferral := uAt b 18 2, modules := es, raw := d }
  else none

/-- The entries that are not withdrawn. -/
def liveEntries (c : Chart) : List ModEntry := c.modules.filter fun e => !e.withdrawn

/-- Master and deputies: one, at most one, at most one, each with a discipline (R470). (DEDUCED, assumption log 63) -/
def rolesOk (c : Chart) : Bool :=
  let m := (liveEntries c).filter ModEntry.master
  let d1 := (liveEntries c).filter ModEntry.deputy1
  let d2 := (liveEntries c).filter ModEntry.deputy2
  m.length == 1 && d1.length ≤ 1 && d2.length ≤ 1 && (m ++ d1 ++ d2).all fun e => e.discipline != 0

/-- Port records agree in pairs (R470). -/
def pairsOk (c : Chart) : Bool :=
  (liveEntries c).all fun a => a.ports.zipIdx.all fun r =>
    if r.1.unused then r.1.peerFid == 0
    else match entryOf c r.1.peerFid with
      | some b => match b.ports[r.1.peerPort]? with
        | some q => !q.unused && q.peerFid == a.fid && q.peerPort == r.2 && q.flags == r.1.flags
        | none => false
      | none => false

/-- Host groups: 1 to 16 modules, one pilot, HOME ports within the group and connecting all of it (R470). -/
def groupsOk (c : Chart) : Bool :=
  (liveEntries c).all fun e =>
    let g := hostGroup c e.hostGroup
    let home := (homePeers e).all fun h => match entryOf c h.2 with | some x => x.hostGroup == e.hostGroup | none => false
    g.length ≤ 16 && (g.filter ModEntry.pilot).length == 1 && home && (homeDist g e.fid g.length 0 [(e.fid, 0)]).length == g.length

/-- Fabric IDs: unique, neither 0x0000 nor 0xFFFF; 0x0000 where WITHDRAWN (R469, R470). -/
def fidsOk (c : Chart) : Bool :=
  let l := (liveEntries c).map ModEntry.fid
  l.all (fun f => f != 0 && f != 0xFFFF && l.count f == 1) && c.modules.all fun e => !e.withdrawn || e.fid == 0

/-- The reason code of the first rule of R470 or R32 a chart breaks (R467 checks 5 to 8). (DEDUCED, assumption log 63) -/
def chartFault (c : Chart) : Option Nat :=
  if !rolesOk c || !pairsOk c then some 5
  else if !groupsOk c then some 6
  else if !fidsOk c then some 7
  else if !planOk c.period c.phase c.offset c.length c.deferral then some 8
  else none

/-- The change records of an amendment body (R471); none where one is out of range. -/
def readChanges : Nat → Bytes → Option (List Bytes)
  | 0, b => if b == [] then some [] else none
  | n + 1, b =>
    if b == [] then some []
    else
      let k := uAt b 0 1
      let len := if k == 4 then 200 else 40
      let ok := 1 ≤ k && k ≤ 4 && b.length ≥ len && uAt b 1 1 == 0 && allZero (sub b 5 3) && allZero (sub b 12 4) && uAt b 4 1 < 32 &&
        (k != 1 || (readPort (sub b 8 4)).isSome) && (k != 4 || (match readEntry (sub b 40 160) with | some e => !e.master && !e.deputy1 && !e.deputy2 | none => false))
      if ok then (readChanges n (b.drop len)).map fun r => b.take len :: r else none

/-- The changes of an amendment. -/
def docChanges (d : Bytes) : Option (List Bytes) := readChanges ((docBody d).length / 40 + 1) (docBody d)

/-- Fields of a change record. -/
def chKind (r : Bytes) : Nat := uAt r 0 1
def chFid (r : Bytes) : Nat := uAt r 2 2
def chPort (r : Bytes) : Nat := uAt r 4 1
def chDigest (r : Bytes) : Bytes := sub r 16 24

/-- A module's entry without a fabric ID (R471). -/
def withdrawEntry (e : ModEntry) : ModEntry := { e with fid := 0, flags := e.flags ||| 16 }

/-- Every port record that names a module made UNUSED. -/
def unusePeer (fid : Nat) (e : ModEntry) : ModEntry := { e with ports := e.ports.map fun r => if !r.unused && r.peerFid == fid then noPort else r }

/-- The former fabric ID of the module a REASSIGN names. -/
def formerFid (c : Chart) (r : Bytes) : Option Nat := ((liveEntries c).find? fun e => e.digest == chDigest r).map ModEntry.fid

/-- One change applied to a chart (R471); none where it names what is not there. -/
def applyChange (c : Chart) (r : Bytes) : Option Chart :=
  let f := chFid r
  match chKind r with
  | 1 => match entryOf c f, readPort (sub r 8 4) with
    | some _, some pr => some { c with modules := c.modules.map fun (e : ModEntry) => if !e.withdrawn && e.fid == f then { e with ports := modNth (chPort r) (fun _ => pr) e.ports } else e }
    | _, _ => none
  | 2 => match formerFid c r with
    | some y =>
      let ms := c.modules.map fun (e : ModEntry) =>
        if e.withdrawn then e
        else if e.digest == chDigest r then { e with fid := f }
        else if e.fid == f then withdrawEntry e else e
      let ms := if y == f then ms else ms.map fun e => if e.withdrawn then e else unusePeer f e
      some { c with modules := ms.map fun (e : ModEntry) => { e with ports := e.ports.map fun (p : PortRec) => if !p.unused && p.peerFid == y then { p with peerFid := f } else p } }
    | none => none
  | 3 => match entryOf c f with
    | some _ => some { c with modules := (c.modules.map fun (e : ModEntry) => if !e.withdrawn && e.fid == f then withdrawEntry e else e).map (unusePeer f) }
    | none => none
  | _ => (readEntry (sub r 40 160)).map fun e => { c with modules := c.modules ++ [e] }

/-- An amendment applied to a chart, its changes in list order (R471). -/
def amend (c : Chart) (d : Bytes) : Option Chart :=
  (docChanges d).bind fun rs => (rs.foldl (fun (o : Option Chart) r => o.bind fun c => applyChange c r) (some c)).map fun c => { c with epoch := docEpoch d }

/-! ### Slice allocations (R479, 17 R499 to R501, 18 R538) -/

/-- Pairs of 8-byte numbers. -/
def readPairs (b : Bytes) (off n : Nat) : List (Nat × Nat) := (List.range n).map fun i => (uAt b (off + 16 * i) 8, uAt b (off + 16 * i + 8) 8)

/-- Bytes padded to a multiple of 8. -/
def pad8 (n : Nat) : Nat := (n + 7) / 8 * 8

/-- Lists of fabric IDs, each with a count before it and padded to 8 bytes, and what follows them. -/
def readGroups : Nat → Bytes → Option (List (List Nat) × Bytes)
  | 0, b => some ([], b)
  | n + 1, b =>
    let k := uAt b 0 2
    let len := pad8 (2 + 2 * k)
    if b.length < len || !allZero (sub b (2 + 2 * k) (len - 2 - 2 * k)) then none
    else (readGroups n (b.drop len)).map fun r => (((List.range k).map fun i => uAt b (2 + 2 * i) 2) :: r.1, r.2)

/-- An allocation body (R479, R500, R538). -/
def readAlloc (d : Bytes) : Option Alloc :=
  let b := docBody d
  let n := uAt b 0 2
  let m := uAt b 2 2
  let fids := (List.range (n + m)).map fun i => uAt b (8 + 2 * i) 2
  let r := b.drop (8 + 2 * (n + m))
  let de := uAt r 4 1
  let pe := uAt r 5 1
  let gs := readGroups (uAt r 2 2) (r.drop (16 + 16 * (de + 2 * pe)))
  match gs with
  | none => none
  | some (groups, t) =>
    if 1 ≤ n && n + m ≤ 4096 && uAt b 4 1 ≤ 1 && allZero (sub b 5 3) && b.length ≥ 8 + 2 * (n + m) && 1 ≤ de && de ≤ 16 && 1 ≤ pe && pe ≤ 16 &&
       allZero (sub r 6 2) && allZero (sub r 12 4) && t.length == 48 && allZero (sub t 42 6) then
      some { epoch := docEpoch d, tag := docTag d, working := fids.take n, spares := fids.drop n, fenceAction := uAt b 4 1, k := uAt r 0 1, p := uAt r 1 1,
             dataUnits := uAt r 8 4, dataExt := readPairs r 16 de, parExt := readPairs r (16 + 16 * de) pe, pstage := readPairs r (16 + 16 * (de + pe)) pe,
             groups := groups, tenantDigest := sub t 0 32, tenantId := uAt t 32 8, offerWatches := uAt t 40 2, raw := d }
    else none

/-- K, P and the least number of spares for a slice size (R499). -/
def reckonPlan (size : Nat) : Nat × Nat × Nat :=
  if size ≤ 256 then (8, 1, cdiv size 64) else if size ≤ 1024 then (8, 2, cdiv size 32) else (6, 2, cdiv size 16)

/-- Whether a list holds no element twice. -/
def distinct (l : List Nat) : Bool := l.all fun x => l.count x == 1

/-- Whether no two extents share a byte. -/
def apart : List (Nat × Nat) → Bool
  | [] => true
  | e :: r => r.all (fun f => !overlaps e.1 e.2 f.1 f.2) && apart r

/-- Whether an extent is aligned to its units and lies wholly in HBM outside the hallmark plane (R501). -/
def extentOk (e : Nat × Nat) : Bool :=
  e.1 % unitBytes == 0 && e.2 % unitBytes == 0 && e.2 != 0 && e.1 + e.2 ≤ 8 * stackBytes && e.1 / stackBytes == (e.1 + e.2 - 1) / stackBytes &&
  (e.1 + e.2 - 1) % stackBytes < 32704 * pageBytes

/-- Whether every page of an extent is backed on this module (R335, R501). -/
def extentBacked (s : State) (e : Nat × Nat) : Bool := (firstBad s e.1 e.2).isNone

/-- Membership and reckoning rules of an allocation (R467 check 9, R479, R501, R538). -/
def allocOk (s : State) (a : Alloc) : Bool :=
  let all := a.working ++ a.spares
  let exts := a.dataExt ++ a.parExt ++ a.pstage
  let (k, p, spares) := reckonPlan all.length
  let named := a.groups.flatten
  let group := fun (f : Nat) => (s.fab.chart.bind fun c => entryOf c f).map ModEntry.hostGroup
  distinct all && (all.all fun f => (group f).isSome) && a.k == k && a.p == p && a.spares.length ≥ spares && distinct named && named.all a.working.contains && named.length == a.working.length &&
  (a.groups.all fun g => (g.length == k + p || g.length + 1 == k + p) && g.all fun f => (g.filter fun x => group x == group f).length == 1) &&
  exts.all extentOk && apart exts && (a.parExt.zip a.pstage).all (fun e => e.1.2 == e.2.2 && e.1.1 / stackBytes == e.2.1 / stackBytes) &&
  (a.dataExt.map Prod.snd).sum == a.dataUnits * unitBytes && (a.parExt.map Prod.snd).sum / unitBytes ≥ cdiv a.dataUnits (k - 1) * p &&
  (!all.contains (myFid s) || exts.all (extentBacked s)) && !allZero a.tenantDigest && 1 ≤ a.offerWatches && a.offerWatches ≤ 256

/-! ### Slice table sets (R480, R481, R484, R490, 15 R433) -/

/-- Chains of a table set and what follows them (R480). -/
def readChains : Nat → Bytes → Option (SMap (List Nat) × Bytes)
  | 0, b => some ([], b)
  | n + 1, b =>
    let k := uAt b 2 2
    let len := pad8 (4 + 2 * k)
    if b.length < len || !allZero (sub b (4 + 2 * k) (len - 4 - 2 * k)) then none
    else (readChains n (b.drop len)).map fun r => (mapPut r.1 (uAt b 0 2) ((List.range k).map fun i => uAt b (4 + 2 * i) 2), r.2)

/-- A route record of 24 bytes (R484). -/
def readRoute (b : Bytes) : RouteRec :=
  { dest := uAt b 0 2, draw := uAt b 2 1, alts := (List.range 4).map fun a => (uAt b (4 + 5 * a) 4, uAt b (8 + 5 * a) 1) }

/-- A ferry route record of 32 bytes (R490). -/
def readFerry (b : Bytes) : FerryRoute :=
  { route := uAt b 0 2, tag := uAt b 2 2, role := uAt b 4 1, port := uAt b 5 1, peerFid := uAt b 6 2, base := uAt b 8 8, bytes := uAt b 16 8, peerSlice := uAt b 24 2 }

/-- A window of a ferry route: whole blocks in HBM outside the hallmark plane (R490). -/
def windowOk (base bytes : Nat) : Bool :=
  base % 4096 == 0 && bytes % 4096 == 0 && (bytes == 0 || (base + bytes ≤ 8 * stackBytes && base / stackBytes == (base + bytes - 1) / stackBytes && (base + bytes - 1) % stackBytes < 32704 * pageBytes))

/-- A table-set body with its ranges and reserved fields (R480, R484, R488, R490). -/
def readTables (d : Bytes) : Option TableSet :=
  let b := docBody d
  let nch := uAt b 0 2
  let nf := uAt b 2 2
  let nr := uAt b 4 4
  let nd := uAt b 8 1
  let ns := uAt b 9 1
  let init := uAt b 10 1
  match readChains nch (b.drop 16) with
  | none => none
  | some (chains, r) =>
    let nmaps := 2 * nd
    let maps := (List.range nmaps).map fun i => sub r (136 * i) 136
    let sch := r.drop (136 * nmaps)
    let rts := sch.drop (8 * ns)
    let fer := rts.drop (24 * nr)
    let draws := maps.map fun m => (⟨uAt m 0 1, uAt m 1 1, (List.range 16).map fun i => uAt m (8 + 8 * i) 8⟩ : DrawMap)
    let sched := (List.range ns).map fun i => (uAt sch (8 * i) 4, uAt sch (8 * i + 4) 1)
    let routes := (List.range nr).map fun i => readRoute (sub rts (24 * i) 24)
    let ferries := (List.range nf).map fun i => readFerry (sub fer (32 * i) 32)
    let sizes := nch ≤ 1024 && nf ≤ 256 && nr ≤ 65536 && 1 ≤ nd && nd ≤ 16 && ns ≤ 32 && init < nd && allZero (sub b 11 5) && chains.length == nch && fer.length == 32 * nf
    let drawsOk := (List.range nd).all (fun n => [0, 1].all fun die => (draws.filter fun m => m.rose == die && m.draw == n).length == 1) &&
      maps.all (fun m => allZero (sub m 2 6)) && draws.all fun m => m.words.all fun w => w < 2 ^ 45 && (List.range 9).all fun k => (entryAt w k).isSome || bitsOf w (5 * k + 4) (5 * k) == 0
    let schedOk := sched.all (fun e => 16 ≤ e.1 && e.1 ≤ 2 ^ 20 && e.2 < nd) && (sched.zip (sched.drop 1)).all (fun p => p.1.1 < p.2.1) && (List.range ns).all fun i => allZero (sub sch (8 * i + 5) 3)
    let routesOk := (List.range nr).all (fun i => uAt rts (24 * i + 3) 1 == 0) && routes.all fun x => (x.draw < nd || x.draw == 0xFF) && x.alts.all fun a => a.2 ≤ 8
    let ferriesOk := (List.range nf).all (fun i => allZero (sub fer (32 * i + 26) 6)) && ferries.all fun f => f.route < 256 && f.tag < 4096 && f.role ≤ 1 && f.port < 32 && (f.role == 0 || windowOk f.base f.bytes)
    if sizes && drawsOk && schedOk && routesOk && ferriesOk then
      some { epoch := docEpoch d, tag := docTag d, target := docTarget d, chains := chains, draws := draws, drawCount := nd, initialDraw := init, sched := sched, routes := routes, ferries := ferries, raw := d }
    else none

/-- Whether the charted peer of a port is a member of the allocation. -/
def memberPort (s : State) (a : Alloc) (p : Nat) : Bool := !(portRec s p).unused && (a.working ++ a.spares).contains (portRec s p).peerFid

/-- Membership rules of a table set (R467 check 9, R481): it is for this module and its slice; chains, routes and route ports stay within the slice. -/
def tablesMember (s : State) (a : Alloc) (t : TableSet) : Bool :=
  let all := a.working ++ a.spares
  t.tag == a.tag && t.target == myFid s && t.chains.all (fun c => c.2.all all.contains) &&
  t.routes.all fun r => all.contains r.dest && r.alts.all fun x => allPorts.all fun p => !x.1.testBit p || memberPort s a p

/-- The entries of one draw that R433 or R481 forbids: input port and wavelength, in order. -/
def drawFaults (s : State) (a : Alloc) (t : TableSet) (m : DrawMap) : List (Nat × Nat) :=
  let ferry := fun (i : Nat) => t.ferries.any fun f => f.port == m.rose * 16 + i
  let bad := fun (i q : Nat) => i == q || [i, q].any fun x => !memberPort s a (m.rose * 16 + x) || (portRec s (m.rose * 16 + x)).home || ferry x
  let n := fun (l : List Nat) => 1 ≤ l.length && l.length ≤ 3
  ((List.range 16).map fun i => (List.range 9).filterMap fun k =>
    let own := match entryAt (m.words.getD i 0) k with
      | some q => bad i q || (List.range i).any fun j => entryAt (m.words.getD j 0) k == some q
      | none => false
    let rx := localRxOf m.words i
    let tx := localTxOf m.words i
    let count := k == 0 && (n rx || n tx || ((rx == []) != (tx == [])))
    if own || count then some (m.rose * 16 + i, k) else none).flatten

/-- A chain position of this module without a route record to its successor in some draw (R481). -/
def routeMissing (s : State) (t : TableSet) : Bool :=
  t.chains.any fun c => c.2.zipIdx.any fun e => e.1 == myFid s && 1 < c.2.length &&
    (let next := c.2.getD ((e.2 + 1) % c.2.length) 0
     next != myFid s && (List.range t.drawCount).any fun d => !t.routes.any fun r => r.dest == next && (r.draw == d || r.draw == 0xFF))

/-- Ferry rules (R490). -/
def ferriesAllowed (s : State) (t : TableSet) : Bool :=
  t.ferries.all fun f =>
    !(portRec s f.port).unused && (portRec s f.port).peerFid == f.peerFid && f.peerSlice != t.tag && f.tag != t.tag &&
    (t.ferries.all fun g => g.port != f.port || g.tag == f.tag) && (f.role == 1 || (f.base == 0 && f.bytes == 0))

/-! ### Acceptance (R467, R472 to R475) -/

/-- A document refused: an entry, a report and the reason code (R467). -/
def refuseDoc (s : State) (d : Bytes) (code : Nat) : State :=
  let s := setF s R.DRD_CHART_STATUS F.DRD_CHART_STATUS_REFUSE_REASON code
  tellBluvisen (logEvent s (srcOf 0 0) 0x00C2 clsInfo (docKind d) (docEpoch d) code) 467 [docKind d, docEpoch d, code]

/-- Amendments accepted and not in effect, in epoch order. -/
def heldAmends (s : State) : List Waiting := s.fab.waiting.filter fun w => w.kind == 2

/-- DRD_CHART_STATUS.PENDING (R492). -/
def showHeld (s : State) : State := setF s R.DRD_CHART_STATUS F.DRD_CHART_STATUS_PENDING (heldAmends s).length

/-- The epoch of the chart in effect, 0 if none. -/
def chartEpoch (s : State) : Nat := (rd s R.DRD_CHART_EPOCH).toNat

/-- A waiting document put into the list, amendments by epoch. -/
def addWaiting (s : State) (w : Waiting) : State :=
  let l := s.fab.waiting
  let l := l.filter (fun x => !(x.kind == 2 && w.kind == 2 && x.epoch > w.epoch)) ++ [w] ++ l.filter (fun x => x.kind == 2 && w.kind == 2 && x.epoch > w.epoch)
  showHeld { s with fab := { s.fab with waiting := l } }

/-- Whether a document names a member of this module's slice in a REASSIGN or a WITHDRAW (R474). -/
def namesMember (s : State) (d : Bytes) : Bool :=
  match docChanges d with
  | some rs => rs.any fun r =>
      (chKind r == 2 && (isMember s (chFid r) || (match s.fab.chart.bind fun c => formerFid c r with | some y => isMember s y | none => false))) || (chKind r == 3 && isMember s (chFid r))
  | none => false

/-- The beat at which an accepted document takes effect: its own; the next one where that has begun, which is late (R473, R474). (DEDUCED, assumption log 64) -/
def effectBeat (s : State) (d : Bytes) : Nat × Bool :=
  if docBeat d == 0 then (beatNow s + 1, false) else if docBeat d ≤ beatNow s then (beatNow s + 1, true) else (docBeat d, false)

/-- An amendment or slice document accepted late (R474). -/
def noteLate (s : State) (d : Bytes) : State :=
  let s := incF s R.DRD_CHART_STATUS F.DRD_CHART_STATUS_LATE 1
  let s := noteAt s (srcOf 0 0) 0x03 clsInfo
  if docKind d == 4 || (docKind d == 2 && namesMember s d) then { s with fab := { s.fab with lateHere := true } } else s

/-- Chunks of a document on a port (R475). -/
def sendDoc (s : State) (p : Nat) (d : Bytes) : State :=
  let n := cdiv d.length 1984
  (List.range n).foldl (fun s i => sendOnPort s p 0 0 .chartChunk [docKind d, docEpoch d, i, n] (sub d (1984 * i) 1984)) s

/-- A chart or amendment first accepted goes on by every port in service but the one it came in on (R475). -/
def spreadDoc (s : State) (d : Bytes) (via : Option Nat) : State := allPorts.foldl (fun s p => if inService s p && via != some p then sendDoc s p d else s) s

/-- The chart store in module flash: the chart and the amendments accepted after it (20 R615). (DEDUCED, assumption log 65) -/
def storeChart (s : State) : State :=
  match s.fab.chart with
  | some c => { s with flash := { s.flash with charts := flashPut s.flash.charts (c.raw, s.fab.recent.filter fun a => docEpoch a > docEpoch c.raw) } }
  | none => s

/-- A document accepted: it waits for its beat, and a chart or amendment is kept and sent on (R472 to R476, 18 R536). (DEDUCED, assumption log 65) -/
def acceptDoc (s : State) (d : Bytes) (via : Option Nat) : State :=
  let (beat, late) := effectBeat s d
  let s := if late && docKind d != 1 then noteLate s d else s
  let s := addWaiting s ⟨docKind d, docEpoch d, beat, docTag d, d⟩
  match docKind d with
  | 1 => spreadDoc { s with fab := { s.fab with mChart := digest32 (izName [67, 72, 84] ++ d) } } d via
  | 2 => spreadDoc (storeChart { s with fab := { s.fab with recent := lastN 64 (s.fab.recent ++ [d]) } }) d via
  | 3 => { s with fab := { s.fab with lastAlloc := mapPut s.fab.lastAlloc (docTag d) (docEpoch d) } }
  | _ => { s with fab := { s.fab with lastTable := mapPut s.fab.lastTable (docTag d) (docEpoch d) } }

/-- Whether a document that would replace another is newer than it (R467 check 3). -/
def newer (s : State) (d : Bytes) : Bool :=
  match docKind d with
  | 1 => docEpoch d > chartEpoch s && s.fab.waiting.all fun w => w.kind != 1 || docEpoch d > w.epoch
  | 2 => docEpoch d > chartEpoch s && s.fab.waiting.all fun w => w.kind != 2 || docEpoch d != w.epoch
  | 3 => docEpoch d > mapGetD 0 s.fab.lastAlloc (docTag d)
  | _ => docEpoch d > mapGetD 0 s.fab.lastTable (docTag d)

/-- The chart as it will be after the held amendments up to an epoch; none where one of them is missing or cannot be applied. -/
def chartAt (s : State) (epoch : Nat) : Option Chart :=
  s.fab.chart.bind fun c =>
    (((heldAmends s).filter fun w => w.epoch ≤ epoch).foldl (fun (o : Option Chart) w => o.bind fun c => if docBase w.raw == c.epoch then amend c w.raw else none) (some c)).bind fun c =>
      if c.epoch == epoch then some c else none

/-- The reason code of checks 5 to 11 for a document, none where it passes (R467). (DEDUCED, assumption log 63) -/
def docFault (s : State) (kind : Nat) (d : Bytes) (base : Option Chart) : Option Nat :=
  if !headOk kind d then some 5
  else match kind with
    | 1 => if docBeat d == 0 then some 5 else match readChart d with | some c => chartFault c | none => some 5
    | 2 =>
      match docChanges d with
      | none => some 5
      | some rs =>
        if rs == [] || (docBeat d == 0 && !rs.all fun r => chKind r == 1) then some 5
        else match base with
          | none => none
          | some c => match amend c d with | some c => chartFault c | none => some 5
    | 3 => if docBeat d == 0 then some 5 else match readAlloc d with | some a => if allocOk s a then none else some 9 | none => some 5
    | _ =>
      if docBeat d == 0 then some 5
      else match readTables d with
        | none => some 5
        | some t =>
          match s.fab.alloc with
          | none => some 9
          | some a =>
            if !tablesMember s a t then some 9
            else if t.draws.any (fun m => drawFaults s a t m != []) || routeMissing s t then some 10
            else if !ferriesAllowed s t then some 11
            else none

/-- The entry of R433 for a refused draw: the first entry at fault, by port and wavelength, and the draw. -/
def noteDraw (s : State) (d : Bytes) : State :=
  match readTables d, s.fab.alloc with
  | some t, some a =>
    match t.draws.find? fun m => drawFaults s a t m != [] with
    | some m => match drawFaults s a t m with | e :: _ => note s (lineSource e.2) 0x03 clsInfo e.1 e.2 m.draw | [] => s
    | none => s
  | _, _ => s

/-- A received document checked in the order of R467: accepted, held or refused. -/
def takeDoc (s : State) (kind : Nat) (d : Bytes) (via : Option Nat) : State :=
  let full := (heldAmends s).length ≥ 16
  if !docSigned s d then refuseDoc s d 1
  else if uAt d 8 8 != (authRecord s).installation then refuseDoc s d 2
  else if !newer s d then refuseDoc s d 3
  else
    let reached := kind != 2 || docBase d == chartEpoch s || (heldAmends s).any fun w => w.epoch == docBase d
    if !reached && full then refuseDoc s d 4
    else
      let base := if kind == 2 then chartAt s (docBase d) else none
      match docFault s kind d base with
      | some code => refuseDoc (if code == 10 then noteDraw s d else s) d code
      | none => if kind == 2 && full then refuseDoc s d 12 else acceptDoc s d via

/-- Documents come through Bluvisen to a module that holds the authority's key (18 R534). (DEDUCED, assumption log 49) -/
def docHeard (s : State) : Bool := bluvisenOn s && authKey s != []

/-- CHART (R467). -/
def execChart (doc : Bytes) (s : State) : Reply := done (onlyIf (docHeard s && docKind doc == 1) s fun s => takeDoc s 1 doc none)

/-- CHART_AMENDMENT (R467, R473). -/
def execChartAmendment (doc : Bytes) (s : State) : Reply := done (onlyIf (docHeard s && docKind doc == 2) s fun s => takeDoc s 2 doc none)

/-- SLICE_ALLOCATION (R467, R479). -/
def execSliceAllocation (doc : Bytes) (s : State) : Reply := done (onlyIf (docHeard s && docKind doc == 3) s fun s => takeDoc s 3 doc none)

/-- SLICE_TABLE_SET (R467, R481). -/
def execSliceTableSet (doc : Bytes) (s : State) : Reply := done (onlyIf (docHeard s && docKind doc == 4) s fun s => takeDoc s 4 doc none)

/-- CHART_CHUNK (R475): the chunks of a document are gathered, and the whole is taken. -/
def execChartChunk (port kind epoch index count : Nat) (data : Bytes) (s : State) : Reply :=
  done (onlyIf (port < 32 && inService s port && (kind == 1 || kind == 2) && index < count && data.length ≤ 1984 && authKey s != []) s fun s =>
    let same := fun (g : Gather) => g.port == port && g.kind == kind && g.epoch == epoch
    if epoch ≤ chartEpoch s then s
    else
      let g := match s.fab.gathers.find? same with | some g => g | none => ⟨port, kind, epoch, count, []⟩
      let g := { g with count := count, chunks := mapPut g.chunks index data }
      let rest := s.fab.gathers.filter fun x => !same x
      if (List.range count).all fun i => (mapGet g.chunks i).isSome then
        takeDoc { s with fab := { s.fab with gathers := rest } } kind ((List.range count).map fun i => mapGetD [] g.chunks i).flatten (some port)
      else { s with fab := { s.fab with gathers := rest ++ [g] } })

/-- CHART_REQ (R476): the amendments from the peer's epoch to this module's own, or the chart and every amendment since. -/
def execChartReq (port epoch : Nat) (s : State) : Reply :=
  done (onlyIf (port < 32 && inService s port && epoch < chartEpoch s) s fun s =>
    let own := chartEpoch s
    let need := (List.range (own - epoch)).filterMap fun i => s.fab.recent.find? fun a => docEpoch a == epoch + 1 + i
    if need.length == own - epoch then need.foldl (fun s a => sendDoc s port a) s
    else match s.fab.chart with
      | some c => ((s.fab.recent.filter fun a => docEpoch a > docEpoch c.raw && docEpoch a ≤ own).foldl (fun s a => sendDoc s port a) (sendDoc s port c.raw))
      | none => s)

/-! ### Effect of charts and amendments (R472, 14 R414, R417, 20 R616, R618) -/

/-- Whether a waiting document is due: its beat has begun. A module that has no time yet does not wait for it (R27: FREE). (DEDUCED, assumption log 64) -/
def docDue (s : State) (w : Waiting) : Bool := w.beat ≤ beatNow s || lockState s == 0

/-- The strap against the chart (20 R616, R700): PILOT_MISMATCH with its entry and report, and the host-port link kept only where both allow it. -/
def pilotCheck (s : State) : State :=
  let sel := flagF s R.ARB_BOOT_STATUS F.ARB_BOOT_STATUS_PILOT_SEL
  let named := match ownEntry s with | some e => e.pilot | none => false
  let mismatch := (sel && s.fab.chart.isSome && !named) || (!sel && named)
  let was := flagF s R.ARB_BOOT_STATUS F.ARB_BOOT_STATUS_PILOT_MISMATCH
  let live := sel && (s.fab.chart.isNone || named) && pdState s 4 == 2
  let s := setF (setF s R.ARB_BOOT_STATUS F.ARB_BOOT_STATUS_PILOT_MISMATCH (b2n mismatch)) R.ARB_BOOT_STATUS F.ARB_BOOT_STATUS_PILOT_LIVE (b2n live)
  if mismatch && !was then tellBluvisen (if sel then noteAt s (srcOf 0 0) 0x00 clsInfo else s) 616 [b2n sel] else s

/-- The fabric ID, host group and PILOT flag that the chart gives this module (R477, R492, 20 R618); a new fabric ID brings a boot report (20 R621). -/
def takeFid (s : State) : State :=
  let old := myFid s
  let (fid, g, p) := match ownEntry s with | some e => (e.fid, e.hostGroup, e.pilot) | none => (0, 0, false)
  let s := setF (setF s R.DRD_CHART_STATUS F.DRD_CHART_STATUS_FID fid) R.DRD_CHART_STATUS F.DRD_CHART_STATUS_HOST_GROUP g
  let s := setF s R.DRD_CHART_STATUS F.DRD_CHART_STATUS_PILOT (b2n p)
  if fid != old && isReady s then bootReport s else s

/-- A port after the chart has changed (R472, 14 R414, R417, R419): fenced by the chart, freed by an amendment that names it, or checked again. (DEDUCED, assumption log 43) -/
def recheckPort (s : State) (p : Nat) (old : PortRec) (named : Bool) : State :=
  let r := portRec s p
  let changed := named || old != r
  let s := if named then modPort s p fun x => { x with stored := [] } else s
  let st := portState s p
  if dieFenced s (4 + roseOf p) then s
  else if r.fenced then (if st == 8 then s else setPortState s p 8)
  else if st == 8 then (if changed then setPortState s p 0 else s)
  else if st == 2 || st == 3 || st == 4 then checkPeer s p
  else if inService s p then
    match (if changed || myFid s == 0 then (getPort s p).peer.bind (peerFault s p) else none) with
    | some v =>
      let s := setPortState s p v
      if v == 2 then tellBluvisen (noteAt s (portSource p) 0x03 clsInfo) 414 [p, idFid ((getPort s p).peer.getD []), idPort ((getPort s p).peer.getD [])] else s
    | none =>
      if restricted s p then
        let e := idEpoch ((getPort s p).peer.getD [])
        sendHello (setF s (R.DRD_PORT_STATUS p) F.DRD_PORT_STATUS_RESTRICTED (b2n (e != chartEpoch s))) p
      else s
  else if st == 1 && (getPort s p).phase ≥ 6 && changed then checkPeer s p
  else s

/-- What follows a chart or an amendment in effect: identity, role, dog-watch plan, pilot and ports (R472, R477, R478, 02 R23, 20 R616, R618). -/
def afterChart (s : State) (olds : List PortRec) (named : List Nat) : State :=
  let s := pilotCheck (chartRole (takeFid s))
  let s := showDogWatch s (beatNow s + 1)
  let s := allPorts.foldl (fun s p => recheckPort s p (olds.getD p noPort) (named.contains p)) s
  retryRoutes (showPorts s)

/-- The port records of this module before a change of chart. -/
def ownPorts (s : State) : List PortRec := allPorts.map fun p => portRec s p

/-- CHART_EFFECT (R472): the new chart replaces the old one and discards every amendment held; a withdrawn or missing entry releases the slice (18 R552). (DEDUCED, assumption log 64) (DEDUCED, assumption log 65) -/
def execChartEffect (s : State) : Reply :=
  done (match s.fab.waiting.find? fun w => w.kind == 1 && docDue s w with
    | none => s
    | some w =>
      match readChart w.raw with
      | none => s
      | some c =>
        let olds := ownPorts s
        let listed := (ownEntry s).isSome
        let s := showHeld { s with fab := { s.fab with chart := some c, waiting := s.fab.waiting.filter fun x => x.kind > 2 || (x.kind == 1 && x.epoch > w.epoch) } }
        let s := storeChart (wr s R.DRD_CHART_EPOCH (BitVec.ofNat 64 c.epoch))
        let s := afterChart s olds []
        if listed && (ownEntry s).isNone then beginRelease s 2 none else s)

/-- Ports of this module that an amendment names (14 R419, 15 R436): its own PORT records, and those whose record the amendment's other changes touch. -/
def namedPorts (s : State) (fid : Nat) (rs : List Bytes) : List Nat :=
  let own := rs.filterMap fun r => if chKind r == 1 && chFid r == fid then some (chPort r) else none
  let fids := rs.filterMap fun r => if chKind r == 2 || chKind r == 3 then some (chFid r) else none
  own ++ allPorts.filter fun p => fids.contains (chartedPeer s p)

/-- NOT_INTACT for a member of this module's group that was replaced or withdrawn (17 R511). -/
def memberGone (s : State) (fid : Nat) : State :=
  if !rkHeld s then s
  else match (groupFids s).idxOf? fid with
    | some q => showReckon (setBitF s R.REL_RECKON_STATUS F.REL_RECKON_STATUS_NOT_INTACT q true)
    | none => s

/-- Units of a position of a group in ascending stripe order, data as 2u and parity as 2v + 1 (17 R510, R514). -/
def unitsByStripe (s : State) (g q : Nat) (parity : Bool) : List Nat :=
  let kg := grpKg s g
  let n := (grpFids s g).length
  let du := dataUnits s
  let data := (List.range du).map fun u => (stripeOfData kg n q u, 2 * u)
  let par := if parity then (List.range (cdiv du kg * grpP s)).map fun v => (stripeOfParity kg (grpP s) n q v, 2 * v + 1) else []
  (sortBy (fun a b => decide (a.1 ≤ b.1)) (data ++ par)).map Prod.snd

/-- This module takes a group position in place of a lost member: nothing is intact, the counters of a neighbour are asked for, and its table set is fetched (17 R510). -/
def takePosition (s : State) (fid : Nat) : State :=
  let due := replayDue s
  let s := placeReckon { s with reck := {} }
  if !rkHeld s then s
  else
    let s := setF (setBitF s R.REL_RECKON_STATUS F.REL_RECKON_STATUS_NOT_INTACT (rkPos s) true) R.REL_RECKON_STATUS F.REL_RECKON_STATUS_REPLAY_DUE (b2n due)
    let l := unitsByStripe s (rkGroup s) (rkPos s) true
    let s := setF (resetReg s R.REL_RECKON_REBUILD) R.REL_RECKON_REBUILD F.REL_RECKON_REBUILD_TOTAL l.length
    let s := showReckon { s with reck := { s.reck with rebuildList := l } }
    askStreams (tellBluvisen { s with fab := { s.fab with lastTable := mapDel s.fab.lastTable (mySlice s) } } 510 [fid]) (rkGroup s) (rkPos s)

/-- Route records after a REASSIGN of X to the module that was Y: X takes Y's alternatives (16 R487). -/
def moveRoutes (s : State) (x y : Nat) : State :=
  match s.fab.tables with
  | none => s
  | some t =>
    let own := t.routes.filter fun r => r.dest == y
    let rs := t.routes.filter (fun r => r.dest != x && r.dest != y) ++ own.map fun (r : RouteRec) => { r with dest := x }
    { s with fab := { s.fab with tables := some { t with routes := rs } } }

/-- What a REASSIGN or a WITHDRAW does to the slice (16 R487, 17 R510, R511). -/
def sliceChange (before s : State) (r : Bytes) : State :=
  match s.fab.alloc, before.fab.chart with
  | some a, some c =>
    let x := chFid r
    if chKind r == 2 then
      match formerFid c r with
      | none => s
      | some y =>
        if y == x then s
        else
          let s := moveRoutes s x y
          let s := { s with fab := { s.fab with alloc := some { a with spares := a.spares.filter (· != y) } } }
          let s := memberGone s x
          let s := if a.working.contains x && a.spares.contains y && sliceState s == 2 then setF s R.REL_RECKON_STATUS F.REL_RECKON_STATUS_REPLAY_DUE 1 else s
          if a.working.contains x && chDigest r == ownDigest && sliceState s == 2 then takePosition s x else s
    else if chKind r == 3 then memberGone s x else s
  | _, _ => s

/-- CHART_AMENDMENT_EFFECT (R472, R473): the next held amendment in epoch order, once its beat has begun; one that no longer passes R470 is refused. -/
def execChartAmendmentEffect (s : State) : Reply :=
  done (match (heldAmends s).find? fun w => docBase w.raw == chartEpoch s && docDue s w with
    | none => s
    | some w =>
      let rest := s.fab.waiting.filter fun x => !(x.kind == 2 && x.epoch == w.epoch)
      match s.fab.chart.bind fun c => amend c w.raw, docFault s 2 w.raw s.fab.chart with
      | some c, none =>
        let before := s
        let olds := ownPorts s
        let rs := (docChanges w.raw).getD []
        let rest := rest.map fun (x : Waiting) => if x.kind == 2 then { x with beat := max x.beat (beatNow s + 1) } else x
        let s := showHeld { s with fab := { s.fab with chart := some c, waiting := rest, mChart := digest32 (s.fab.mChart ++ w.raw) } }
        let s := storeChart (wr s R.DRD_CHART_EPOCH (BitVec.ofNat 64 c.epoch))
        let s := afterChart s olds (namedPorts before (myFid before) rs)
        let s := rs.foldl (sliceChange before) s
        let gone := rs.any fun r => (chKind r == 3 || (chKind r == 2 && chDigest r != ownDigest)) && chFid r == myFid before && myFid before != 0
        if gone then beginRelease s 2 none else s
      | _, code => refuseDoc (showHeld { s with fab := { s.fab with waiting := rest } }) w.raw (code.getD 5))

/-! ### Effect of slice documents (R482, 18 R539, R552) -/

/-- SLICE_ALLOCATION_EFFECT (18 R539, R552): a module it names becomes ALLOCATED or keeps its slice under the new generation; a module of the slice it leaves out is released. -/
def execSliceAllocationEffect (s : State) : Reply :=
  done (match s.fab.waiting.find? fun w => w.kind == 3 && docDue s w with
    | none => s
    | some w =>
      let s := { s with fab := { s.fab with waiting := s.fab.waiting.filter fun x => !(x.kind == 3 && x.slice == w.slice && x.epoch == w.epoch) } }
      match readAlloc w.raw with
      | none => s
      | some a =>
        let inSlice := (sliceState s == 1 || sliceState s == 2) && mySlice s == a.tag
        if (a.working ++ a.spares).contains (myFid s) && myFid s != 0 then
          if inSlice then
            let old := (rkGroup s, rkPos s, rkKg s, rkP s)
            let s := showPolicy { s with fab := { s.fab with alloc := some a } }
            let t := placeReckon { s with reck := {} }
            showPorts (if sliceState s == 2 && (rkGroup t, rkPos t, rkKg t, rkP t) != old then t else s)
          else if sliceState s == 0 || sliceState s == 3 then allocateHere (showPolicy { s with fab := { s.fab with alloc := some a } }) a
          else allocateHere s a
        else if inSlice then beginRelease s 1 none
        else s)

/-- Table sets that no started command needs any longer are dropped (R482). -/
def pruneTables (s : State) : State :=
  { s with fab := { s.fab with oldTables := s.fab.oldTables.filter fun t => s.cmd.cmds.any fun x => x.phase != .queued && x.gen == t.epoch } }

/-- DRD_TABLE_GEN, DRD_TABLE_COUNTS and the installed draws of a table set (R493, R494, 15 R456). -/
def showTables (s : State) (t : TableSet) : State :=
  let s := wr s R.DRD_TABLE_GEN (BitVec.ofNat 64 t.epoch)
  let s := setF (setF s R.DRD_TABLE_COUNTS F.DRD_TABLE_COUNTS_ROUTES t.routes.length) R.DRD_TABLE_COUNTS F.DRD_TABLE_COUNTS_FERRY_ROUTES t.ferries.length
  let s := setF (setF s R.DRD_TABLE_COUNTS F.DRD_TABLE_COUNTS_SCHED t.sched.length) R.DRD_TABLE_COUNTS F.DRD_TABLE_COUNTS_CHAINS t.chains.length
  [0, 1].foldl (fun s n => setF s (R.RSEn_DRAW_STATUS n) F.RSEn_DRAW_STATUS_INSTALLED (2 ^ t.drawCount - 1)) s

/-- SLICE_TABLE_SET_EFFECT (R482, R488): the whole set is replaced, with a redraw to INITIAL_DRAW on the same beat; started commands keep the one before. (DEDUCED, assumption log 66) -/
def execSliceTableSetEffect (s : State) : Reply :=
  done (match s.fab.waiting.find? fun w => w.kind == 4 && docDue s w with
    | none => s
    | some w =>
      let s := { s with fab := { s.fab with waiting := s.fab.waiting.filter fun x => !(x.kind == 4 && x.slice == w.slice && x.epoch == w.epoch) } }
      match readTables w.raw with
      | none => s
      | some t =>
        if (sliceState s == 1 || sliceState s == 2) && t.tag == mySlice s && t.target == myFid s then
          let before := s
          let olds := match s.fab.tables with | some o => s.fab.oldTables ++ [o] | none => s.fab.oldTables
          let s := pruneTables { s with fab := { s.fab with tables := some t, oldTables := olds, chosen := [] } }
          let s := showTables s t
          let s := putRedraw s none
          let s := if s.esc.decisions == [] then setOrigin s w.beat
            else { s with fab := { s.fab with schedDone := (t.sched.filter fun e => afterDogWatch s (s.fab.origin + e.1) ≤ beatNow s).length } }
          let s := retune before s t.initialDraw
          startFerryKeys (retryRoutes (showPorts s))
        else s)

end Sys2Proof.Machine
end

