-- ==== Sys2Proof/Machine/Matrix.lean ====
section
/-!
DEFINITION. The matrix arrays and their Verniers: chunks, passes, hand-offs, drains, verdicts, taint and fences (05 R111 to R140, 06 R141 to R157, 10 R271 to R282).
-/
namespace Sys2Proof.Machine

/-! ### MATMULs, tiles and arrays -/

/-- The running record of a MATMUL. -/
def isMat (q c : Nat) (w : MatWork) : Bool := w.stream == q && w.counter == c
def findMat (s : State) (q c : Nat) : Option MatWork := s.comp.mats.find? (isMat q c)
def modMat (s : State) (q c : Nat) (f : MatWork → MatWork) : State :=
  { s with comp := { s.comp with mats := s.comp.mats.map fun (w : MatWork) => if isMat q c w then f w else w } }

/-- A tile by its command, index and reading. -/
def isTile (q c t : Nat) (third : Bool) (x : Tile) : Bool := x.stream == q && x.counter == c && x.index == t && x.third == third
def findTile (s : State) (q c t : Nat) (third : Bool) : Option Tile := s.comp.tiles.find? (isTile q c t third)
def putTile (s : State) (x : Tile) : State :=
  { s with comp := { s.comp with tiles := s.comp.tiles.map fun (y : Tile) => if isTile x.stream x.counter x.index x.third y then x else y } }

/-- One array's record. -/
def arrayAt (s : State) (g : Nat) : ArrayState := mapGetD {} s.comp.arrays g
def setArray (s : State) (g : Nat) (a : ArrayState) : State := { s with comp := { s.comp with arrays := mapPutD {} s.comp.arrays g a } }

/-- A chunk of a tile. -/
def chunkOf (x : Tile) (c : Chunk) : Bool := c.stream == x.stream && c.counter == x.counter && c.tile == x.index && c.third == x.third

/-- A tile given up: its chunks leave the arrays (R129). -/
def dropTile (s : State) (x : Tile) : State :=
  let keep := fun (o : Option Chunk) => o.filter fun c => !chunkOf x c
  let arrays := s.comp.arrays.map fun e =>
    let f := keep e.2.front
    let b := keep e.2.back
    (e.1, if f.isSome then { e.2 with front := f, back := b } else { e.2 with front := b, back := none })
  { s with comp := { s.comp with arrays := arrays.filter fun e => e.2 != {}, tiles := s.comp.tiles.filter fun y => !isTile x.stream x.counter x.index x.third y } }

/-- The packet of a tile's command. -/
def tilePkt (s : State) (x : Tile) : Bytes := match findCmd s x.stream x.counter with | some c => c.pkt | none => []

/-- Steps of a member's share (R152). -/
def sharesOf (s : State) (x : Tile) (j : Nat) : List Step := memberSteps (tilePkt s x) x.promo j

/-- A member has issued all its passes. -/
def memberIssued (s : State) (x : Tile) (j : Nat) (m : Member) : Bool := m.passes == 4 * (sharesOf s x j).length

/-- All members of a tile have. -/
def tileIssued (s : State) (x : Tile) : Bool := x.members.zipIdx.all fun m => memberIssued s x m.2 m.1

/-! ### Enabled arrays, groups and the start (R126, R132, R135, R151) -/

/-- Whether a logical array takes tiles. -/
def arrayOn (s : State) (d a : Nat) : Bool := getF s (R.CDn_ARRAY_MAP d a) F.CDn_ARRAY_MAP_STATE != 2 && !dieFenced s d

/-- Enabled logical arrays of a die as module array numbers. -/
def arraysOf (s : State) (d : Nat) : List Nat := ((List.range 24).filter fun a => arrayOn s d a).map fun a => d * 24 + a

/-- A list in groups of n consecutive elements; what is left over is dropped (R151). -/
def groupsBy (n : Nat) : Nat → List Nat → List (List Nat)
  | 0, _ => []
  | fuel + 1, l => if l.length < n || n = 0 then [] else l.take n :: groupsBy n fuel (l.drop n)

/-- The groups of a MATMUL (R126, R151). -/
def groupsFor (s : State) (p : Bytes) : List (Nat × List Nat) :=
  (((List.range 4).filter fun d => (uAt p 76 1).testBit d).map fun d => (groupsBy (mmSplit p) 25 (arraysOf s d)).map fun g => (d, g)).flatten

/-- The number a group is dealt under: its first array. -/
def groupUnit (g : Nat × List Nat) : Nat := g.2.headD 0

/-- Draws of a MATMUL (R248). -/
def mmDraws (p : Bytes) : Nat := match fmtAt p 120 with | some y => if y.rnd == .sr then mmM p * mmN p else 0 | none => 0

/-- The start checks of MATMUL (R135): status, DETAIL, DETAIL2. -/
def matmulFault (s : State) (p : Bytes) : Option (Nat × Nat × Nat) :=
  match matmulStart s p with
  | some (o, a) => some (0x0210, o, a)
  | none => if (groupsFor s p).isEmpty then some (0x0211, uAt p 76 1, 0) else none

/-- A started MATMUL: its tiles dealt. -/
def matmulBegin (s : State) (q c : Nat) (p : Bytes) : State :=
  let gs := groupsFor s p
  { s with comp := { s.comp with mats := s.comp.mats ++ [{ stream := q, counter := c, groups := gs, deal := newDeal (gs.map groupUnit) 0 (mmTiles p) }] } }

/-- MATMUL (R133, R134): its packet at intake. -/
def execMatmul (s : State) : Reply := done (intakeWork s opMATMUL (bodyChecks 304 matmulChecks))

/-- A MATMUL whose tiles are all dealt and whose passes are all issued has issued its engine work (R56). -/
def noteMatIssued (s : State) (q c : Nat) : State :=
  match findMat s q c with
  | some w =>
    if (w.deal.all fun d => d.front.isNone) && (s.comp.tiles.all fun x => x.third || !(x.stream == q && x.counter == c) || tileIssued s x) then modCmd s q c fun y => { y with issued := true } else s
  | none => s

/-! ### LOAD (R117, R118, R123, R128, R145) -/

/-- Position of an array among a tile's members. -/
def memberAt (x : Tile) (g : Nat) : Option Nat := x.members.findIdx? fun m => m.array == g

/-- Whether passes may still be issued for a tile: a stop ends that but for a third reading (R129, R278). -/
def tileRuns (s : State) (x : Tile) : Bool :=
  x.third || match findCmd s x.stream x.counter with | some c => c.phase == .running && c.stop.isNone | none => false

/-- Tiles with chunks that an array has still to load: the one it has begun, then third readings, then the others in order (R128, R279). -/
def loadTile (s : State) (g : Nat) : Option (Tile × Nat) :=
  let cands := s.comp.tiles.filterMap fun x =>
    match memberAt x g with
    | some j => if tileRuns s x && (x.members.getD j { array := 0, slot := 0 }).loads < (sharesOf s x j).length then some (x, j) else none
    | none => none
  let begun := cands.find? fun e => 0 < (e.1.members.getD e.2 { array := 0, slot := 0 }).loads
  match begun, cands.find? fun e => e.1.third with
  | some e, _ => some e
  | none, some e => some e
  | none, none => cands.head?

/-- The next tile dealt to an array's group: of the oldest accepted command that has one, an array holding tiles of two commands at most (R128). -/
def nextTile (s : State) (g : Nat) : Option (MatWork × Cmd × (Nat × List Nat) × Nat) :=
  let held := ((s.comp.tiles.filter fun x => !x.third && (memberAt x g).isSome).map fun x => (x.stream, x.counter)).eraseDups
  let cs := sortBy (fun a b => decide (a.order ≤ b.order)) (s.cmd.cmds.filter fun c => c.phase == .running && c.stop.isNone && c.hdr.opcode == opMATMUL)
  cs.findSome? fun c =>
    match findMat s c.q c.hdr.counter with
    | none => none
    | some w =>
      if held.length ≥ 2 && !held.contains (c.q, c.hdr.counter) then none
      else
        match w.groups.find? fun e => e.2.contains g with
        | none => none
        | some e => (dealFor w.deal (groupUnit e)).map fun t => (w, c, e, t)

/-- A dealt tile taken up by its group, its promotion map read (R124). -/
def takeTile (s : State) (g : Nat) : State :=
  match nextTile s g with
  | none => s
  | some (w, c, e, t) =>
    match runMM (readPromo (some e.1) w.stream w.counter c.pkt (t / mmTilesN c.pkt)) s with
    | (.error er, s) => failMem s w.stream w.counter er
    | (.ok promo, s) =>
      let x : Tile := { stream := w.stream, counter := w.counter, index := t, die := e.1, third := false, promo := promo, members := e.2.map fun a => { array := a, slot := 0 } }
      let s := modMat s w.stream w.counter fun v => { v with deal := dealDrop v.deal (groupUnit e) t }
      { s with comp := { s.comp with tiles := s.comp.tiles ++ [x] } }

/-- Exact value as an FP64 code, and a sum of magnitudes. -/
def fp64Of (v : XV) : Nat := convert .fp64 .rne false 0 v

/-- c_k and a_k of a chunk's column sums (R273). -/
def colSums (n : Nat) (cols : List (List XV)) : List (Nat × Nat) :=
  (List.range n).map fun k => cols.foldl (fun acc col =>
    let w := col.getD k (.fin false 0 0)
    (fAdd .fp64 acc.1 (fp64Of w), fAdd .fp64 acc.2 (fp64Of (xAbs w)))) (0, 0)

/-- Member j of a tile changed. -/
def modMember (x : Tile) (j : Nat) (f : Member → Member) : Tile := { x with members := modNth j f x.members }

/-- The next chunk of a tile's share goes into an array's weight set. -/
def loadChunk (s : State) (g : Nat) (x : Tile) (j : Nat) : State :=
  let p := tilePkt s x
  let m := x.members.getD j { array := g, slot := 0 }
  match (sharesOf s x j)[m.loads]?, operandW p with
  | some st, some ow =>
    let n0 := x.index % mmTilesN p * 128
    let n1 := min (mmN p) (n0 + 128)
    match runMM (readOperand (some (g / 24)) x.stream x.counter ow n0 n1 st.k0 st.k1) s with
    | (.error e, s) => failMem s x.stream x.counter e
    | (.ok (cols, bad), s) =>
      let a := arrayAt s g
      let ch : Chunk := { stream := x.stream, counter := x.counter, tile := x.index, third := x.third, step := m.loads, cols := cols.map fun c => c.map (takePart ow.cfmt st.wpart),
                          sums := if st.last && !exactTile p x.promo then colSums (st.k1 - st.k0) cols else [] }
      let first := m.loads == 0
      let slot := if first then a.nextSlot else m.slot
      let s := putTile s (modMember x j fun m => { m with loads := m.loads + 1, slot := slot, conflicts := m.conflicts + bad })
      let a := { a with nextSlot := if first then 1 - a.nextSlot else a.nextSlot }
      setArray s g (if a.front.isNone then { a with front := some ch } else { a with back := some ch })
  | _, _ => s

/-- LOAD (R117): an array whose back set is free loads the next chunk. -/
def execLoad (array : Nat) (ups : List Upset) (s : State) : Reply :=
  done (onlyIf (array < 96 && arrayOn s (array / 24) (array % 24) && (arrayAt s array).back.isNone) s fun s =>
    inClass 0 s fun s => withUpsets ups s fun s =>
      let s := if (loadTile s array).isSome then s else takeTile s array
      match loadTile s array with
      | some (x, j) => loadChunk (endTimeout s (srcOf 3 array)) array x j
      | none => s)

/-! ### PASS (R113, R142 to R145, R271 to R273) -/

/-- One block sum into an A40 accumulator, and the values flushed on the way (R104, R143). -/
def addRounded (run : Nat × Nat) (sum : XV) : Nat × Nat :=
  let t := toA40 sum
  let r := xAdd (decodeElem .a40 run.1) t
  (convert .a40 .rne false 0 r, run.2 + b2n (a40Flushed sum) + b2n (a40Flushed r))

/-- One exact product into an A40 accumulator (R143, R144). -/
def addProduct (run : Nat × Nat) (x w : XV) : Nat × Nat :=
  let r := xAdd (decodeElem .a40 run.1) (xMul x w)
  (convert .a40 .rne false 0 r, run.2 + b2n (a40Flushed r))

/-- The exact sum of the products of a block. -/
def blockSumOf (xs ws : List XV) : XV := (xs.zip ws).foldl (fun a p => xAdd a (xMul p.1 p.2)) (.fin false 0 0)

/-- What one streamed row adds to one accumulator over a chunk: block sums, products, or FP64 multiply-adds (R144). -/
def accumulate (blocks fp64 : Bool) (run : Nat × Nat) (xs ws : List XV) : Nat × Nat :=
  if fp64 then ((xs.zip ws).foldl (fun a p => fFma .fp64 (fp64Of p.1) (fp64Of p.2) a) run.1, run.2)
  else if blocks then (List.range (cdiv xs.length 32)).foldl (fun a b => addRounded a (blockSumOf ((xs.drop (32 * b)).take 32) ((ws.drop (32 * b)).take 32))) run
  else (xs.zip ws).foldl (fun a p => addProduct a p.1 p.2) run

/-- A row of accumulators after a chunk's columns. -/
def rowAccs (blocks fp64 : Bool) (m : SMap Nat) (i : Nat) (xs : List XV) (cols : List (List XV)) : SMap Nat × Nat :=
  cols.zipIdx.foldl (fun acc c =>
    let r := accumulate blocks fp64 (mapGetD 0 acc.1 (i * 128 + c.2), acc.2) xs c.1
    (mapPutD 0 acc.1 (i * 128 + c.2) r.1, r.2)) (m, 0)

/-- V_i or Q_i of a streamed row over a chunk (R273). -/
def bandRow (m : SMap Nat) (i : Nat) (xs : List XV) (cs : List Nat) : SMap Nat :=
  mapPutD 0 m i ((xs.zip cs).foldl (fun a p => fFma .fp64 (fp64Of p.1) p.2 a) (mapGetD 0 m i))

/-- One streamed row (i in the tile) of a pass. -/
def passRow (w x : Fmt) (exact : Bool) (st : Step) (ch : Chunk) (m : Member) (i : Nat) (xs : List XV) : Member :=
  let blocks := exactPair w x && !st.sub
  let ys := xs.map (takePart x st.xpart)
  let (acc, fl) := rowAccs blocks (w == .fp64) m.acc i ys ch.cols
  let m := { m with acc := acc, flushes := m.flushes + fl }
  if exact then { m with dup := (rowAccs blocks false m.dup i ys ch.cols).1 }
  else if st.last then { m with bandV := bandRow m.bandV i xs (ch.sums.map Prod.fst), bandQ := bandRow m.bandQ i (xs.map xAbs) (ch.sums.map Prod.snd) }
  else m

/-- What the upsets of a pass do to the sums of its rows (DESIGN CHOICE, assumption log 7). -/
def passUpsets (ups : List Upset) (exact : Bool) (r0 : Nat) (m : Member) : Member :=
  ups.foldl (fun m u =>
    match u with
    | .accFlip r c k => if r0 ≤ r && r < r0 + 32 && c < 128 then { m with acc := mapPutD 0 m.acc (r * 128 + c) (mapGetD 0 m.acc (r * 128 + c) ^^^ k) } else m
    | .vernFlip r c k =>
      if r0 ≤ r && r < r0 + 32 && c < 128 then
        (if exact then { m with dup := mapPutD 0 m.dup (r * 128 + c) (mapGetD 0 m.dup (r * 128 + c) ^^^ k) } else { m with bandV := mapPutD 0 m.bandV r (mapGetD 0 m.bandV r ^^^ k) })
      else m
    | .blockSum r => if r0 ≤ r && r < r0 + 32 then { m with bad := true } else m
    | _ => m) m

/-- Rows i0 to i1 of X over a step's positions, in the compute format, with the conflicting blocks. -/
def passRows (die q c : Nat) (p : Bytes) (ox : Operand) (promo : List Nat) (i0 i1 k0 k1 : Nat) : MM (List (List XV) × Nat) := do
  if ox.trans then readOperand (some die) q c ox i0 i1 k0 k1
  else
    let mut rows : List (List XV) := []
    let mut bad := 0
    for i in List.range (i1 - i0) do
      let r ← readXRow (some die) q c p ox promo (i0 + i) k0 k1
      rows := rows ++ [r.1]
      bad := bad + r.2
    pure (rows, bad)

/-- Whether an array's shadow set of a slot holds a tile. -/
def shadowFull (s : State) (g slot : Nat) : Bool := s.comp.tiles.any fun x => x.members.any fun m => m.array == g && m.slot == slot && m.shadow

/-- The next pass of a member against the front chunk. -/
def runPass (s : State) (g : Nat) (x : Tile) (j : Nat) (m : Member) (st : Step) (ch : Chunk) : State :=
  let p := tilePkt s x
  match operandW p, operandX p with
  | some ow, some ox =>
    let r0 := 32 * (m.passes % 4)
    let i0 := x.index / mmTilesN p * 128 + r0
    let i1 := min (mmM p) (i0 + 32)
    match runMM (passRows (g / 24) x.stream x.counter p ox x.promo i0 (max i0 i1) st.k0 st.k1) s with
    | (.error e, s) => failMem s x.stream x.counter e
    | (.ok (rows, bad), s) =>
      let exact := exactTile p x.promo
      let m := rows.zipIdx.foldl (fun m r => passRow ow.cfmt ox.cfmt exact st ch m (r0 + r.2) r.1) { m with conflicts := m.conflicts + bad, passes := m.passes + 1 }
      let m := passUpsets s.upsets exact r0 m
      let s := putTile s (modMember x j fun _ => m)
      let a := arrayAt s g
      let s := if m.passes % 4 == 0 then setArray s g { a with front := a.back, back := none } else s
      noteMatIssued s x.stream x.counter
  | _, _ => s

/-- PASS (R117, R118): the next 32 rows of the tile whose chunk is in the front set. -/
def execPass (array : Nat) (ups : List Upset) (s : State) : Reply :=
  done (onlyIf (array < 96) s fun s =>
    match (arrayAt s array).front with
    | none => s
    | some ch =>
      match s.comp.tiles.find? fun x => chunkOf x ch with
      | none => s
      | some x =>
        match memberAt x array with
        | none => s
        | some j =>
          let m := x.members.getD j { array := array, slot := 0 }
          let steps := sharesOf s x j
          if !tileRuns s x || m.passes / 4 != ch.step || (m.passes + 1 == 4 * steps.length && shadowFull s array m.slot) then s
          else
            match steps[ch.step]? with
            | some st => inClass 0 s fun s => withUpsets ups s fun s => runPass (endTimeout s (srcOf 3 array)) array x j m st ch
            | none => s)

/-! ### Hand-off and drain (R148, R149, R153) -/

/-- The sums of a member with the running sum of the one before added (R153); the Vernier's copy takes the same sum. -/
def joinSums (m before : Member) : Member :=
  let keys := (sortNat ((m.acc ++ before.acc).map Prod.fst)).eraseDups
  let add := fun (own : SMap Nat) (k : Nat) => xAdd (decodeElem .a40 (mapGetD 0 before.acc k)) (decodeElem .a40 (mapGetD 0 own k))
  let all := (sortNat (keys ++ (m.dup.map Prod.fst))).eraseDups
  let rows := (sortNat ((m.bandV ++ before.bandV ++ m.bandQ ++ before.bandQ).map Prod.fst)).eraseDups
  let join := fun (a b : SMap Nat) => rows.foldl (fun acc i => mapPutD 0 acc i (fAdd .fp64 (mapGetD 0 a i) (mapGetD 0 b i))) []
  { m with
    acc := keys.foldl (fun acc k => mapPutD 0 acc k (convert .a40 .rne false 0 (add m.acc k))) [],
    dup := all.foldl (fun acc k => mapPutD 0 acc k (convert .a40 .rne false 0 (add m.dup k))) [],
    bandV := join before.bandV m.bandV, bandQ := join before.bandQ m.bandQ,
    flushes := m.flushes + (keys.filter fun k => a40Flushed (add m.acc k)).length, joined := true, shadow := true }

/-- TILE_HANDOFF (R148, R153): a member's finished sums go to its shadow set, the sum of the member before added; the last member's are the tile. -/
def execTileHandoff (stream counter tile : Nat) (third : Bool) (member : Nat) (s : State) : Reply :=
  done (match findTile s stream counter tile third with
    | none => s
    | some x =>
      match x.members[member]? with
      | none => s
      | some m =>
        let before := if member = 0 then none else x.members[member - 1]?
        if !memberIssued s x member m || m.joined || (member != 0 && !before.any fun b => b.shadow) then s
        else
          let exact := exactTile (tilePkt s x) x.promo
          let x := match before with
            | none => modMember x member fun m => { m with joined := true, shadow := true }
            | some b =>
              let x := modMember x member fun m => let n := joinSums m b; if exact then { n with bandV := [], bandQ := [] } else { n with dup := [] }
              modMember x (member - 1) fun m => { m with shadow := false }
          let s := if member = 0 then s else incF s (R.CDn_KSPLIT_HOPS x.die) F.CDn_KSPLIT_HOPS_HOPS 1
          putTile s (if member + 1 == x.members.length then { x with stage := .handed } else x))

/-- Element (i, j) of a tile after the tensor scale. -/
def outVal (y : FmtBlock) (fp64 : Bool) (m : Member) (i j : Nat) : XV := xMul y.scaleX (decodeElem (if fp64 then .fp64 else .a40) (mapGetD 0 m.acc (i * 128 + j)))

/-- Rows and columns of Y in a tile. -/
def tileRows (p : Bytes) (t : Nat) : Nat := min 128 (mmM p - t / mmTilesN p * 128)
def tileCols (p : Bytes) (t : Nat) : Nat := min 128 (mmN p - t % mmTilesN p * 128)

/-- The soundings of a tile (R107, R148). -/
def tileSounds (p : Bytes) (y : FmtBlock) (x : Tile) (vals : List (List XV)) : Soundings :=
  let k := vals.foldl (fun k row =>
    if y.fmt.blockScaled then (List.range (cdiv row.length 32)).foldl (fun k b => soundBlock y.fmt y.esc y.histBase ((row.drop (32 * b)).take 32) [] k) k
    else soundScalar y.fmt y.histBase row k) {}
  let _ := p
  { k with conflict := (x.members.map Member.conflicts).sum, a40Flush := (x.members.map Member.flushes).sum }

/-- A row of blocks as written: elements, scales, escapes. -/
def rowBlocks (f : Fmt) (mode : Rnd) (sat esc : Bool) (draw : Nat → Nat) (row : List XV) : Bytes × Bytes × Bytes :=
  let es := (List.range (cdiv row.length 32)).map fun b =>
    let vs := (List.range 32).map fun i => row.getD (32 * b + i) (.fin false 0 0)
    encodeBlock f mode sat esc ((List.range 32).map fun i => if mode == .sr then draw (32 * b + i) else 0) vs
  ((es.map fun e => packBlock f.width e.codes).flatten, es.map fun e => BitVec.ofNat 8 e.scale, (es.map EncodedBlock.esc).flatten)

/-- A promoted row of 128 positions: blocks without an element have scale 0 (R125). -/
def promoRow (mode : Rnd) (sat : Bool) (draw : Nat → Nat) (row : List XV) : Bytes × Bytes :=
  let es := (List.range 4).map fun b =>
    if row.length ≤ 32 * b then (zeros 32, (0 : Byte))
    else
      let vs := (List.range 32).map fun i => row.getD (32 * b + i) (.fin false 0 0)
      let e := encodeBlock .e4m3 mode sat false ((List.range 32).map fun i => if mode == .sr then draw (32 * b + i) else 0) vs
      (packBlock 8 ((e.codes.zipIdx).map fun c => if row.length ≤ 32 * b + c.2 then 0 else c.1), BitVec.ofNat 8 e.scale)
  ((es.map Prod.fst).flatten, es.map Prod.snd)

/-- The promotion map bit of a tile set or cleared (R109). -/
def writeMapBit (base t : Nat) (v : Bool) : MM Unit := do
  let a := base + t / 8
  let old ← readRaw a 1
  let n := uAt old 0 1
  let m := 2 ^ (t % 8)
  writeBytes a [BitVec.ofNat 8 (if v then n ||| m else n - (if n.testBit (t % 8) then m else 0))]

/-- A tile written to its place, with its soundings (R107, R109, R125, R148). -/
def writeTile (key : Bytes) (window : Nat) (p : Bytes) (y : FmtBlock) (x : Tile) : MM Soundings := do
  let t := x.index
  let rows := tileRows p t
  let cols := tileCols p t
  let i0 := t / mmTilesN p * 128
  let j0 := t % mmTilesN p * 128
  let fp64 := (match cfmtAt p 78 with | some f => f == .fp64 | none => false)
  let m := x.members.getLastD { array := 0, slot := 0 }
  let vals := (List.range rows).map fun i => (List.range cols).map fun j => outVal y fp64 m i j
  let k := tileSounds p y x vals
  let promoted := y.promote && y.promoLimit < min 65535 k.sat + min 65535 k.flush
  let draw := fun i j => drawAt key window ((i0 + i) * mmN p + j0 + j)
  if promoted then
    let rs := (List.range 128).map fun i => if i < rows then promoRow y.rnd y.sat (draw i) (vals.getD i []) else (zeros 128, zeros 4)
    writeBytes (uAt p 248 8 + t * 0x5000) ((rs.map Prod.fst).flatten ++ (rs.map Prod.snd).flatten ++ zeros 0xE00)
  else
    for r in vals.zipIdx do
      let i := i0 + r.2
      let n := mmN p
      if y.fmt.blockScaled then
        let (el, sc, es) := rowBlocks y.fmt y.rnd y.sat y.esc (draw r.2) r.1
        writeBytes (uAt p 216 8 + i * uAt p 224 8 + j0 / 32 * (4 * y.fmt.width)) el
        writeBytes (uAt p 232 8 + i * (n / 32) + j0 / 32) sc
        if y.esc then writeBytes (uAt p 240 8 + i * (n / 8) + j0 / 8) es
      else
        let w := y.fmt.width / 8
        writeBytes (uAt p 216 8 + i * uAt p 224 8 + j0 * w) ((r.1.zipIdx).map fun v => natLe w (convert y.fmt y.rnd y.sat (if y.rnd == .sr then draw r.2 v.2 else 0) v.1)).flatten
  if y.promote then writeMapBit (uAt p 256 8) t promoted
  writeBytes (uAt p 264 8 + t * 64) (soundBytes t y.fmt promoted y.histBase k)
  pure k

/-- A tile drained to its place; the drained tile is x's, its sums those of src (R148, R276). -/
def drainTile (s : State) (x src : Tile) : State :=
  match findCmd s x.stream x.counter with
  | none => s
  | some c =>
    match fmtAt c.pkt 120 with
    | none => s
    | some y =>
      match runMM (writeTile (trbKey s (rngStream (uAt c.pkt 80 4))) c.window c.pkt y src) s with
      | (.ok k, s) => noteSounds (staleRange s (uAt c.pkt 264 8 + x.index * 64) 64) k
      | (.error e, s) => failMem s x.stream x.counter e

/-- A tile released: counted, its place in the cursor, the end of the command with its last tile (R129, R274). -/
def releaseTile (s : State) (x : Tile) : State :=
  let q := x.stream
  let c := x.counter
  let s := dropTile s x
  let s := modMat s q c fun w => { w with done := setIns x.index w.done }
  match findMat s q c, findCmd s q c with
  | some w, some y =>
    let cur := (settleDone (w.done.length + 1) 0 w.done).1
    let s := modCmd s q c fun z => { z with cursor := cur }
    if cur == mmTiles y.pkt && y.stop.isNone then
      endCmd { s with comp := { s.comp with mats := s.comp.mats.filter fun v => !isMat q c v } } q c 0 cur 0 0
    else s
  | _, _ => s

/-- A tile that is drained and clean is released (R274). -/
def settleTile (s : State) (x : Tile) : State :=
  let s := putTile s x
  if x.drained && x.clean == some true && !x.third then releaseTile s x else s

/-- TILE_DRAIN (R148): a handed-off tile is written to its place. -/
def execTileDrain (stream counter tile : Nat) (ups : List Upset) (s : State) : Reply :=
  done (match findTile s stream counter tile false with
    | none => s
    | some x =>
      if x.drained || !(x.stage == .handed || x.stage == .held) then s
      else inClass 0 s fun s => withUpsets ups s fun s =>
        let s := incF (drainTile s x x) (R.CDn_MM_TILES x.die) F.CDn_MM_TILES_TILES 1
        let x := { x with drained := true, stage := if x.stage == .held then .held else .drained, members := x.members.map fun m => { m with shadow := false } }
        settleTile s x)

/-! ### Verdicts (R272 to R276) -/

/-- a ≤ b for values that are not NaN. -/
def xLe (a b : XV) : Bool := !xIsNan a && !xIsNan b && !xLt false b a

/-- Terms of the band (R273): n, and u and e as exact values. -/
def bandTerms (p : Bytes) : Nat × XV × XV :=
  let k := mmK p
  let s := mmSplit p
  match cfmtAt p 78, cfmtAt p 79 with
  | some w, some x =>
    if w == .fp64 then (k, .fin false 1 (-53), .fin false 0 0)
    else
      match (partsOf w x).length with
      | 3 => (3 * k + s - 1, .fin false 1 (-31), .fin false 1 (-14))
      | 2 => (2 * k + s - 1, .fin false 1 (-31), .fin false 1 (-16))
      | _ => (k + s - 1, .fin false 1 (-31), .fin false 0 0)
  | _, _ => (0, .fin false 0 0, .fin false 0 0)

/-- Whether a row of sums lies within the band of a Vernier's V and Q (R273). -/
def rowPasses (p : Bytes) (fp64 : Bool) (sums : SMap Nat) (cols i v q : Nat) : Bool :=
  let a := decodeElem .fp64 ((List.range cols).foldl (fun a j => fAdd .fp64 a (fp64Of (decodeElem (if fp64 then .fp64 else .a40) (mapGetD 0 sums (i * 128 + j))))) 0)
  let vv := decodeElem .fp64 v
  let qq := decodeElem .fp64 q
  if !xFinite a then !xFinite vv || xLe (.fin false 1 255) qq
  else if !xFinite vv then false
  else
    let (n, u, e) := bandTerms p
    let f := xAdd (xAdd (xMul (.fin false n 0) u) (.fin false (mmK p + 256) (-52))) e
    xLe (xAbs (xAdd a (xNeg vv))) (xAdd (xMul f qq) (.fin false n (-253)))

/-- Whether the sums of a tile pass a Vernier (R272, R273): the checks of the tile vern on the sums of x. -/
def passesVernier (p : Bytes) (x vern : Tile) : Bool :=
  let a := x.members.getLastD { array := 0, slot := 0 }
  let b := vern.members.getLastD { array := 0, slot := 0 }
  if exactTile p vern.promo then a.acc == b.dup
  else
    let fp64 := (match cfmtAt p 78 with | some f => f == .fp64 | none => false)
    (List.range (tileRows p x.index)).all fun i => rowPasses p fp64 a.acc (tileCols p x.index) i (mapGetD 0 b.bandV i) (mapGetD 0 b.bandQ i)

/-- The verdict of a handed-off tile's own Vernier; under KSPLIT every member of an exact tile compares at its own hand-off. -/
def tileClean (p : Bytes) (x : Tile) : Bool :=
  (x.members.all fun m => !m.bad) && passesVernier p x x && (!exactTile p x.promo || x.members.all fun m => m.acc == m.dup)

/-- Later started commands of a command's fenced group (03 R60, R276). -/
def groupLater (s : State) (x : Cmd) : List Cmd :=
  if x.hdr.signal then []
  else
    let later := sortBy (fun a b => decide (a.hdr.counter ≤ b.hdr.counter)) (s.cmd.cmds.filter fun y => y.q == x.q && x.hdr.counter < y.hdr.counter)
    let stop := (later.find? fun y => y.hdr.signal).map fun y => y.hdr.counter
    later.filter fun y => y.phase != .queued && opClass y.hdr.opcode != 2 && match stop with | some n => y.hdr.counter ≤ n | none => true

/-- A command marked tainted, counted once (R276, R301). -/
def taint (s : State) (q c : Nat) (again : Bool) : State :=
  match findCmd s q c with
  | none => s
  | some x =>
    let s := if x.tainted then s else incF s R.ARB_ESC_EVENTS F.ARB_ESC_EVENTS_TAINTED 1
    modCmd s q c fun y => { y with tainted := true, rerun := y.rerun || again }

/-- A disagreement: the tile is held, its command and the started later ones of its fenced group are tainted (R276); those that work on data are to run again. -/
def disagree (s : State) (x : Tile) : State :=
  let s := incF (putTile s { x with stage := .held, clean := some false }) (R.CDn_VRN_COUNTS x.die) F.CDn_VRN_COUNTS_DISAGREE 1
  match findCmd s x.stream x.counter with
  | none => s
  | some c => (groupLater s c).foldl (fun s y => taint s y.q y.hdr.counter (isStepOp y.hdr.opcode && y.hdr.opcode != opSET_DRAW_COUNTER)) (taint s x.stream x.counter false)

/-- VERNIER_VERDICT (R274): the verdict of a handed-off tile; a third reading's own is kept for its settling. -/
def execVernierVerdict (stream counter tile : Nat) (third : Bool) (s : State) : Reply :=
  done (match findTile s stream counter tile third with
    | none => s
    | some x =>
      if x.clean.isSome || !(x.stage == .handed || x.stage == .drained) then s
      else
        let ok := tileClean (tilePkt s x) x
        if x.third then putTile s { x with clean := some ok }
        else if ok then settleTile s { x with clean := some true }
        else disagree s x)

/-! ### Fences (R132, R157, R281, R282) -/

/-- The number a die's spare slot has in the fence record. -/
def spareSrc (d : Nat) : Nat := srcOf 3 (96 + d)

/-- The array map word of an array kept in module flash. -/
def recordMap (s : State) (d a : Nat) : State :=
  let old := (flashGet s.flash.fences).getD {}
  { s with flash := { s.flash with fences := flashPut s.flash.fences { old with maps := mapPut old.maps (d * 24 + a) (rd s (R.CDn_ARRAY_MAP d a)).toNat } } }

/-- A source number taken out of the fence record. -/
def unrecordFence (s : State) (src : Nat) : State :=
  let old := (flashGet s.flash.fences).getD {}
  { s with flash := { s.flash with fences := flashPut s.flash.fences { old with units := setDel src old.units } } }

/-- Tiles of a MATMUL that an array has not finished, dealt again from their start over the groups as they now are (R126, R132, R157). -/
def redealMat (s : State) (g : Nat) (w : MatWork) : State :=
  match findCmd s w.stream w.counter with
  | none => s
  | some c =>
    let src := srcOf 3 g
    let lost := s.comp.tiles.filter fun x => x.stream == w.stream && x.counter == w.counter && !x.third && x.stage == .computing && (memberAt x g).isSome
    let s := lost.foldl dropTile s
    let gs := groupsFor s c.pkt
    let kept := w.deal.filter fun d => w.groups.any fun o => groupUnit o == d.unit && gs.contains o
    let gone := w.deal.filter fun d => !(w.groups.any fun o => groupUnit o == d.unit && gs.contains o)
    let back := sortNat ((gone.map Deal.left).flatten ++ (lost.map Tile.index))
    if gs.isEmpty then fencedOut (modMat s w.stream w.counter fun v => { v with groups := [], deal := [] }) src w.stream w.counter
    else
      let deal := gs.zipIdx.map fun e =>
        let d := (kept.find? fun d => d.unit == groupUnit e.1).getD { unit := groupUnit e.1, next := 0, stride := 1, stop := 0 }
        { d with extra := sortNat (d.extra ++ back.filter fun t => t % gs.length == e.2) }
      modMat s w.stream w.counter fun v => { v with groups := gs, deal := deal }

/-- What a fenced array had in work: third readings given up, tiles of every MATMUL dealt again. -/
def redealArray (s : State) (g : Nat) : State :=
  let s := (s.comp.tiles.filter fun x => x.third && x.clean.isNone && (memberAt x g).isSome).foldl dropTile s
  (s.comp.mats.foldl (fun s w => redealMat s g w) s)

/-- An array fenced: moved to the die's spare slot, or taken off the enabled list (R132). -/
def fenceArray (s : State) (g : Nat) : State :=
  let d := g / 24
  let a := g % 24
  if getF s (R.CDn_ARRAY_MAP d a) F.CDn_ARRAY_MAP_STATE == 2 then s
  else
    let st := R.CDn_ARRAY_STATUS d
    let spare := getF s st F.CDn_ARRAY_STATUS_SPARE_SLOT
    let onSpare := getF s (R.CDn_ARRAY_MAP d a) F.CDn_ARRAY_MAP_SLOT == spare
    let s := if onSpare then recordFence (setF s st F.CDn_ARRAY_STATUS_SPARE_FENCED 1) (spareSrc d) else s
    let free := !flagF s st F.CDn_ARRAY_STATUS_SPARE_IN_USE && !flagF s st F.CDn_ARRAY_STATUS_SPARE_FENCED
    let s :=
      if free then
        let s := setF (setF (setF s (R.CDn_ARRAY_MAP d a) F.CDn_ARRAY_MAP_SLOT spare) (R.CDn_ARRAY_MAP d a) F.CDn_ARRAY_MAP_STATE 0) st F.CDn_ARRAY_STATUS_SPARE_IN_USE 1
        unrecordFence (setBitF (setBitF s (R.CDn_VRN_STATUS d) F.CDn_VRN_STATUS_FENCED a false) (R.CDn_VRN_STATUS d) F.CDn_VRN_STATUS_BORROWING a false) (srcOf 4 g)
      else
        let s := setBitF (setBitF (setF s (R.CDn_ARRAY_MAP d a) F.CDn_ARRAY_MAP_STATE 2) st F.CDn_ARRAY_STATUS_FENCED a true) (R.CDn_VRN_STATUS d) F.CDn_VRN_STATUS_BORROWING a false
        setF s st F.CDn_ARRAY_STATUS_ENABLED (getF s st F.CDn_ARRAY_STATUS_ENABLED - 1)
    let s := logEvent (recordMap s d a) (srcOf 3 g) 0x02C1 clsFenced (b2n free) (getF s st F.CDn_ARRAY_STATUS_ENABLED) (beatNow s)
    redealArray s g

/-- A Vernier fenced: its array borrows the neighbour's, or is fenced (R282). -/
def fenceVernier (s : State) (g : Nat) : State :=
  let d := g / 24
  let a := g % 24
  let b := a ^^^ 1
  let v := R.CDn_VRN_STATUS d
  if bitF s v F.CDn_VRN_STATUS_FENCED a then s
  else
    let s := recordFence (setBitF s v F.CDn_VRN_STATUS_FENCED a true) (srcOf 4 g)
    let sound := ((List.range 24).filter fun i => !bitF s v F.CDn_VRN_STATUS_FENCED i).length
    let s := logEvent s (srcOf 4 g) 0x02C1 clsFenced 0 sound (beatNow s)
    if bitF s v F.CDn_VRN_STATUS_FENCED b then
      let s := fenceArray s g
      -- the neighbour that borrowed this Vernier has none left, unless the array has moved to the spare slot
      if bitF s v F.CDn_VRN_STATUS_BORROWING b && bitF s v F.CDn_VRN_STATUS_FENCED a then fenceArray s (d * 24 + b) else s
    else recordMap (setBitF (setF s (R.CDn_ARRAY_MAP d a) F.CDn_ARRAY_MAP_STATE 1) v F.CDn_VRN_STATUS_BORROWING a true) d a

/-- Strikes against an array or a Vernier, with the fence they may bring (R281). -/
def strikeArray (s : State) (g finding : Nat) : State :=
  let due := strikeFences s (srcOf 3 g)
  let s := strike s (srcOf 3 g) finding
  if due then fenceArray s g else s

def strikeVernier (s : State) (g finding : Nat) : State :=
  let due := strikeFences s (srcOf 4 g)
  let s := strike s (srcOf 4 g) finding
  if due then fenceVernier s g else s

/-! ### The third reading (R279, R280) -/

/-- The die of a third reading: the next with enough enabled arrays. (DEDUCED, assumption log 29) -/
def thirdDie (s : State) (x : Tile) : Option Nat :=
  ((List.range 3).map fun i => (x.die + 1 + i) % 4).find? fun d => x.members.length ≤ (arraysOf s d).length

/-- The outcome of a third reading, T3 or none where there is none: finding code (0 array, 1 Vernier, 2 all differ) and whether T3 is kept (R280). (DEDUCED, assumption log 29) -/
def thirdOutcome (p : Bytes) (t1 : Tile) (t3 : Option Tile) : Nat × Bool :=
  match t3 with
  | none => (2, false)
  | some t =>
    let same := (t.members.getLastD { array := 0, slot := 0 }).acc == (t1.members.getLastD { array := 0, slot := 0 }).acc
    if t.clean == some true then
      (if same then (1, false)
       else if passesVernier p t t1 && (t1.members.all fun m => !m.bad || exactTile p t1.promo) then (0, true)
       else (2, true))
    else (2, true)

/-- The settling of a held tile: counters, strikes, the kept tile written over its place, and the tile released (R276, R280). (DEDUCED, assumption log 29) -/
def settleThird (s : State) (t1 : Tile) (t3 : Option Tile) : State :=
  let (finding, keep3) := thirdOutcome (tilePkt s t1) t1 t3
  let cnt := if finding = 0 then F.CDn_VRN_COUNTS_ARRAY_WRONG else if finding = 1 then F.CDn_VRN_COUNTS_VERNIER_WRONG else F.CDn_VRN_COUNTS_ALL_DIFFER
  let s := incF s (R.CDn_VRN_COUNTS t1.die) cnt 1
  let kept := match t3 with | some t => if keep3 then t else t1 | none => t1
  let s := inClass 0 s fun s => drainTile s t1 kept
  let s := if t1.drained then s else incF s (R.CDn_MM_TILES t1.die) F.CDn_MM_TILES_TILES 1
  let s := match t3 with | some t => dropTile s t | none => s
  let s := releaseTile s t1
  let arrays := t1.members.map Member.array
  let s := if finding != 1 then arrays.foldl (fun s g => strikeArray s g finding) s else s
  let s := if finding != 0 then arrays.foldl (fun s g => strikeVernier s g finding) s else s
  if finding = 2 then { s with esc := { s.esc with suspect := true } } else s

end Sys2Proof.Machine
end

