-- ==== Sys2Proof/Machine/Vector.lean ====
section
/-!
DEFINITION. The vector engines: the LANE_PROGRAM descriptor, the lane instructions and the reduction unit (07 R176 to R201).
-/
namespace Sys2Proof.Machine

/-! ### The descriptor (R192) -/

def lpRows (p : Bytes) : Nat := uAt p 72 4
def lpLen (p : Bytes) : Nat := uAt p 76 4
def lpN (p : Bytes) : Nat := uAt p 82 1
def lpSplit (p : Bytes) : Nat := uAt p 83 1
def lpPre (p : Bytes) : Nat := uAt p 84 1
/-- BF16×2 mode. -/
def lpBf (p : Bytes) : Bool := (uAt p 85 1).testBit 0
def lpIn (i : Nat) : Nat := 160 + 48 * i
def lpOut (o : Nat) : Nat := 352 + 56 * o
def lpRed (ch : Nat) : Nat := 464 + 8 * ch

/-- Wave width (R176), waves of a row, and the format of a register half. -/
def lpWidth (p : Bytes) : Nat := if lpBf p then 1024 else 512
def lpWaves (p : Bytes) : Nat := cdiv (lpLen p) (lpWidth p)
def lpFmt (p : Bytes) : Fmt := if lpBf p then .bf16 else .fp32
/-- Segments of a row (R180). -/
def lpSegs (p : Bytes) : Nat := cdiv (lpLen p) 16384

/-- An instruction word (R184). -/
structure LaneWord where
  op : Nat
  d : Nat
  a : Nat
  b : Nat
  c : Nat
  imm : Nat
  deriving DecidableEq, Repr

/-- Word i of the program. -/
def laneWord (p : Bytes) (i : Nat) : LaneWord :=
  let w := uAt p (496 + 4 * i) 4
  { op := bitsOf w 31 26, d := bitsOf w 25 21, a := bitsOf w 20 16, b := bitsOf w 15 11, c := bitsOf w 10 6, imm := bitsOf w 5 0 }

/-- Which fields an OP uses (D, A, B, C) and how many values IMM takes (R185). -/
def laneUse (op : Nat) : Option (Bool × Bool × Bool × Bool × Nat) :=
  if op == 0 then some (false, false, false, false, 1)
  else if op == 1 then some (true, true, false, false, 1)
  else if op == 2 then some (true, false, false, false, 16)
  else if op == 3 || op == 8 then some (true, false, false, false, 1)
  else if op == 4 || op == 7 then some (true, false, false, false, 4)
  else if op == 5 then some (false, true, false, false, 2)
  else if op == 6 then some (false, true, false, false, 12)
  else if (0x10 ≤ op && op ≤ 0x12) || op == 0x14 || op == 0x15 then some (true, true, true, false, 1)
  else if op == 0x13 || op == 0x18 then some (true, true, true, true, 1)
  else if op == 0x16 || op == 0x17 || (0x20 ≤ op && op ≤ 0x27) then some (true, true, false, false, 1)
  else if op == 0x19 then some (true, true, true, false, 4)
  else if op == 0x1A then some (true, true, false, false, 5)
  else if 0x30 ≤ op && op ≤ 0x33 then some (true, true, true, false, 1)
  else if op == 0x34 || op == 0x35 then some (true, true, false, false, 32)
  else none

/-- Whether word i is well formed by R187. -/
def laneWordOk (p : Bytes) (i : Nat) : Bool :=
  if i ≥ lpN p then uAt p (496 + 4 * i) 4 == 0
  else
    let w := laneWord p i
    let split := lpSplit p
    let sec0 := i < split
    let pro := split ≤ i && i < split + lpPre p
    let before := fun (f : LaneWord → Nat → Bool) => (List.range i).any fun k => f (laneWord p k) k
    match laneUse w.op with
    | none => false
    | some (d, a, b, c, n) =>
      (d || w.d == 0) && (a || w.a == 0) && (b || w.b == 0) && (c || w.c == 0) && w.imm < n && (w.op != 0x1A || w.imm != 0) &&
      (w.op != 4 || (!(before fun v k => v.op == 4 && v.imm == w.imm && decide (k < split) == sec0) && uAt p (lpIn w.imm + 16) 8 != 0)) &&
      (w.op != 5 || (!(before fun v _ => v.op == 5 && v.imm == w.imm) && uAt p (lpOut w.imm + 16) 8 != 0)) &&
      (split == 0 || ((w.op != 5 || !sec0) && (w.op != 6 || sec0) && (w.op != 7 || !sec0))) && (split != 0 || w.op != 7) &&
      (w.op != 6 || !(before fun v _ => v.op == 6 && v.imm % 4 == w.imm % 4)) && (!pro || !([3, 4, 5, 6, 8].contains w.op)) && (w.op != 3 || !lpBf p)

/-- A row pitch of an input or output. -/
def lpPitchOk (p : Bytes) (off : Nat) (f : Fmt) : Bool := uAt p off 8 % 16 == 0 && rowBytes f (lpLen p) ≤ uAt p off 8

/-- The format checks of a stream (R193): offset of its block, whether it is an output. -/
def lpStreamChecks (p : Bytes) (o : Nat) (out : Bool) : List (Bool × Nat) :=
  let n := if out then 56 else 48
  if uAt p (o + 16) 8 == 0 then
    match (List.range n).find? fun i => uAt p (o + i) 1 != 0 with
    | some i => [(false, if i < 16 then o else o + i / 8 * 8)]
    | none => []
  else
    match fmtAt p o with
    | none => [(false, o)]
    | some f =>
      [(fmtOk (sub p o 16) out (lpLen p) && !f.promote && f.fmt != .fp64 && f.fmt != .fp32x2 && (!out || f.fmt != .a40), o),
       useBase p (o + 24) f.fmt.blockScaled, useBase p (o + 32) f.esc, ((!out && uAt p (o + 40) 8 == 0) || lpPitchOk p (o + 40) f.fmt, o + 40)] ++
      (if out then [useBase p (o + 48) true] else [])

/-- Format checks of LANE_PROGRAM (R187, R193). -/
def laneChecks (p : Bytes) : List (Bool × Nat) :=
  [(uAt p 64 8 % lpLen p == 0 && uAt p 64 8 ≤ lpRows p * lpLen p && lpLen p != 0, 64), boundOk p 72 4 1 (2 ^ 24), boundOk p 76 4 1 (2 ^ 24), (uAt p 80 2 != 0, 80), boundOk p 82 1 1 64,
   (lpSplit p ≤ lpN p, 83), (lpPre p ≤ 16 && lpPre p ≤ lpN p - lpSplit p && (lpSplit p != 0 || lpPre p == 0), 84), (uAt p 85 1 < 2, 85), rsvOk p 86 2, rsvOk p 92 4] ++
  ((List.range 4).map fun i => lpStreamChecks p (lpIn i) false).flatten ++ ((List.range 2).map fun i => lpStreamChecks p (lpOut i) true).flatten ++
  (List.range 64).map fun i => (laneWordOk p i, 496 + 4 * i)

/-- Reduction channels a program feeds, with their operation. -/
def lpChannels (p : Bytes) : List (Nat × Nat) :=
  (List.range (lpN p)).filterMap fun i => let w := laneWord p i; if w.op == 6 then some (w.imm % 4, w.imm / 4) else none

/-- Outputs a program stores to. -/
def lpStores (p : Bytes) : List Nat := (List.range 2).filter fun o => (List.range (lpN p)).any fun i => (laneWord p i).op == 5 && (laneWord p i).imm == o

/-- Regions of a LANE_PROGRAM (R194). -/
def laneRegions (p : Bytes) : List (Nat × Nat × Bool) :=
  let n := lpLen p
  let planes := fun (o : Nat) (out : Bool) =>
    match fmtAt p o with
    | none => []
    | some f =>
      if uAt p (o + 16) 8 == 0 then []
      else
        let rows := if uAt p (o + 40) 8 == 0 then 1 else lpRows p
        [(o + 16, planeSpan rows (uAt p (o + 40) 8) (rowBytes f.fmt n), out)] ++ (if f.fmt.blockScaled then [(o + 24, rows * (n / 32), out)] else []) ++ (if f.esc then [(o + 32, rows * (n / 8), out)] else []) ++
        (if out then [(o + 48, lpRows p * lpSegs p * 64, true)] else [])
  ((List.range 4).map fun i => planes (lpIn i) false).flatten ++ ((List.range 2).map fun i => planes (lpOut i) true).flatten ++
  ((lpChannels p).filter fun c => uAt p (lpRed c.1) 8 != 0).map fun c => (lpRed c.1, lpRows p * 4, true)

/-- Draws per element: RND instructions and SR outputs (R181, R248). -/
def lpRnds (p : Bytes) : Nat := ((List.range (lpN p)).filter fun i => (laneWord p i).op == 8).length
def lpOutSr (p : Bytes) (o : Nat) : Bool := uAt p (lpOut o + 16) 8 != 0 && (fmtAt p (lpOut o)).any fun f => f.rnd == .sr
def lpPer (p : Bytes) : Nat := lpRnds p + b2n (lpOutSr p 0) + b2n (lpOutSr p 1)
def laneDraws (p : Bytes) : Nat := lpRows p * lpLen p * lpPer p

/-- The start checks of LANE_PROGRAM (R194): status, DETAIL, DETAIL2. -/
def laneFault (s : State) (p : Bytes) : Option (Nat × Nat × Nat) :=
  match regionsFault s p (laneRegions p) with
  | some (o, a) => some (0x0220, o, a)
  | none => if (enginesOf s 5 (uAt p 80 2)).isEmpty then some (0x0221, uAt p 80 2, 0) else none

/-- A started LANE_PROGRAM: its rows from RESUME_FROM dealt (R178); with none left it ends at once. -/
def laneBegin (s : State) (q c : Nat) (p : Bytes) : State :=
  let r0 := uAt p 64 8 / lpLen p
  if r0 == lpRows p then endCmd s q c 0 (uAt p 64 8) 0 0
  else
    let w : DealWork := { stream := q, counter := c, deal := newDeal (enginesOf s 5 (uAt p 80 2)) r0 (lpRows p), total := lpRows p, low := r0 }
    modCmd { s with comp := { s.comp with lanes := s.comp.lanes ++ [w] } } q c fun x => { x with cursor := uAt p 64 8 }

/-- LANE_PROGRAM (R192, R193): its packet at intake. -/
def execLaneProgram (s : State) : Reply := done (intakeWork s opLANE_PROGRAM (bodyChecks 784 laneChecks))

/-! ### An engine's position in its row (R182, R183) -/

/-- An engine's record put back; a register of its die says whether it is busy (R199). -/
def setEngine (s : State) (e : Nat) (v : Option VecEngine) : State :=
  let s := { s with comp := { s.comp with engines := match v with | some x => mapPut s.comp.engines e x | none => mapDel s.comp.engines e } }
  setBitF s (R.CDn_VEC_STATUS (e / 4)) F.CDn_VEC_STATUS_BUSY (e % 4) v.isSome

/-- The row an idle engine takes up: of the oldest accepted LANE_PROGRAM that has one for it (R178). -/
def nextRow (s : State) (e : Nat) : Option (Cmd × Nat) :=
  let cs := sortBy (fun a b => decide (a.order ≤ b.order)) (s.cmd.cmds.filter fun c => c.phase == .running && c.stop.isNone && c.hdr.opcode == opLANE_PROGRAM)
  cs.findSome? fun c =>
    match s.comp.lanes.find? (isWork c.q c.hdr.counter) with
    | none => none
    | some w => (dealFor w.deal e).map fun r => (c, r)

/-- The engine's record with a row begun. -/
def beginRow (c : Cmd) (r : Nat) : VecEngine :=
  { stream := c.q, counter := c.hdr.counter, row := some r, part := if lpSplit c.pkt == 0 then .apply else .reduce }

/-- An engine that runs a row, or takes one up. -/
def engineRow (s : State) (e : Nat) : Option (VecEngine × Cmd) :=
  match mapGet s.comp.engines e with
  | some v => (findCmd s v.stream v.counter).map fun c => (v, c)
  | none => (nextRow s e).map fun x => (beginRow x.1 x.2, x.1)

/-- Whether every channel of the program has its row result. -/
def redDone (p : Bytes) (v : VecEngine) : Bool := (lpChannels p).all fun c => (mapGet v.result c.1).isSome

/-- Virtual lanes at work: in the prologue those of the row's first wave, else those of the wave (R177). -/
def vecActive (p : Bytes) (v : VecEngine) : Nat := if v.part == .prologue then min (lpLen p) (lpWidth p) else min (lpWidth p) (lpLen p - v.wave * lpWidth p)

/-- The instruction due at an engine, if one is. -/
def vecDue (p : Bytes) (v : VecEngine) : Option Nat :=
  match v.part with
  | .reduce => if v.pc < lpSplit p then some v.pc else none
  | .prologue => if redDone p v && v.pc < lpSplit p + lpPre p then some v.pc else none
  | .apply => if v.wave < lpWaves p && v.pc < lpN p then some v.pc else none

/-- A finished row: the engine idle, the cursor moved on, the end of the command with its last row. -/
def rowDone (s : State) (e : Nat) (v : VecEngine) (c : Cmd) : State :=
  let s := setEngine s e none
  match s.comp.lanes.find? (isWork v.stream v.counter), v.row with
  | some w, some r =>
    let w := w.finish e r
    let s := { s with comp := { s.comp with lanes := s.comp.lanes.map fun (x : DealWork) => if isWork v.stream v.counter x then w else x } }
    let cur := w.low * lpLen c.pkt
    let s := modCmd s v.stream v.counter fun y => { y with cursor := cur }
    if w.low == w.total && c.stop.isNone then
      endCmd { s with comp := { s.comp with lanes := s.comp.lanes.filter fun x => !isWork v.stream v.counter x } } v.stream v.counter 0 cur 0 0
    else s
  | _, _ => s

/-- The apply waves opened once the prologue is over (R183); a program without a rest of section 1 has finished its row. -/
def openApply (s : State) (e : Nat) (v : VecEngine) (c : Cmd) : State :=
  let p := c.pkt
  let first := lpSplit p + lpPre p
  if v.part == .prologue && redDone p v && first ≤ v.pc then
    (if first == lpN p then rowDone s e v c else setEngine s e (some { v with part := .apply, pc := first, wave := 0, kept := v.lanes }))
  else setEngine s e (some v)

/-- The soundings record of output o for the segment that ends (R180). -/
def segRecord (p : Bytes) (r seg o : Nat) (k : Soundings) : MM Unit :=
  match fmtAt p (lpOut o) with
  | none => pure ()
  | some f => writeBytes (uAt p (lpOut o + 48) 8 + (r * lpSegs p + seg) * 64) (soundBytes (r * lpSegs p + seg) f.fmt false f.histBase k)

/-- Records at the end of a segment, for the outputs stored to. -/
def segEnd (s : State) (e : Nat) (v : VecEngine) (c : Cmd) : Except MemErr VecEngine × State :=
  let p := c.pkt
  let r := v.row.getD 0
  let stop := min (lpLen p) ((v.wave + 1) * lpWidth p)
  let seg := (stop - 1) / 16384
  if stop % 16384 != 0 && stop != lpLen p then (.ok v, s)
  else
    let k := fun o => { (if o = 0 then v.sound0 else v.sound1) with conflict := mapGetD 0 v.conflicts seg }
    let m : MM Unit := do for o in lpStores p do segRecord p r seg o (k o)
    let _ := e
    match runMM m s with
    | (.ok _, s) =>
      let s := (lpStores p).foldl (fun s o => noteSounds (staleRange s (uAt p (lpOut o + 48) 8 + (r * lpSegs p + seg) * 64) 64) (k o)) s
      (.ok { v with sound0 := {}, sound1 := {} }, s)
    | (.error er, s) => (.error er, s)

/-- A row that failed: the engine is idle again and the command stops (R270). -/
def rowFailed (s : State) (e : Nat) (v : VecEngine) (er : MemErr) : State := failMem (setEngine s e none) v.stream v.counter er

/-- A wave counted (R200). -/
def countWave (s : State) (e : Nat) : State := incF s (R.CDn_VEC_WAVES (e / 4) (e % 4)) F.CDn_VEC_WAVES_WAVES 1

/-- The engine moved past the instruction it has run. -/
def vecAdvance (s : State) (e : Nat) (v : VecEngine) (c : Cmd) : State :=
  let p := c.pkt
  let v := { v with pc := v.pc + 1 }
  match v.part with
  | .reduce =>
    if v.pc < lpSplit p then setEngine s e (some v)
    else
      let s := countWave s e
      if v.wave + 1 < lpWaves p then setEngine s e (some { v with wave := v.wave + 1, pc := 0, lanes := [] })
      else openApply s e { v with part := .prologue, pc := lpSplit p, wave := 0, lanes := [] } c
  | .prologue => openApply s e v c
  | .apply =>
    if v.pc < lpN p then setEngine s e (some v)
    else
      match segEnd (countWave s e) e v c with
      | (.error er, s) => rowFailed s e v er
      | (.ok v, s) =>
        let v := { v with wave := v.wave + 1, pc := lpSplit p + lpPre p, lanes := v.kept }
        if v.wave < lpWaves p then setEngine s e (some v)
        else if redDone p v then rowDone s e v c
        else setEngine s e (some v)

/-- What an instruction works on. -/
structure LaneCtx where
  p : Bytes
  v : VecEngine
  w : LaneWord
  pc : Nat
  die : Nat
  row : Nat
  c0 : Nat
  n : Nat
  key : Bytes
  window : Nat

/-- One instruction of an engine: run where the one due has this OP (R182, R275). -/
def laneStep (s : State) (engine : Nat) (ups : List Upset) (op : Nat) (body : LaneCtx → MM VecEngine) : State :=
  onlyIf (engine < 16 && engineOn s 5 engine) s fun s =>
    match engineRow s engine with
    | none => s
    | some (v, c) =>
      match vecDue c.pkt v with
      | none => s
      | some pc =>
        let w := laneWord c.pkt pc
        if w.op != op then s
        else inClass 0 s fun s => withUpsets ups s fun s => engineRun s 5 engine fun s =>
          let x : LaneCtx := { p := c.pkt, v := v, w := w, pc := pc, die := engine / 4, row := v.row.getD 0, c0 := if v.part == .prologue then 0 else v.wave * lpWidth c.pkt,
                               n := vecActive c.pkt v, key := trbKey s (rngStream (uAt c.pkt 88 4)), window := c.window }
          match runMM (body x) s with
          | (.ok v, s) => vecAdvance s engine v c
          | (.error er, s) => rowFailed s engine v er

/-! ### Registers of the lanes (R176) -/

/-- A register of a lane. -/
def laneReg (v : VecEngine) (lane r : Nat) : Nat := (mapGetD 0 v.lanes (lane * 32 + r)).toNat

/-- The half, or whole, of a register that a virtual lane has. -/
def vlaneReg (x : LaneCtx) (vl r : Nat) : Nat :=
  if lpBf x.p then (if vl % 2 = 0 then laneReg x.v (vl / 2) r % 65536 else laneReg x.v (vl / 2) r / 65536) else laneReg x.v vl r

/-- Lanes at work. -/
def laneCount (x : LaneCtx) : Nat := if lpBf x.p then cdiv x.n 2 else x.n

/-- Register D of every lane at work set from the lane. -/
def setLanes (x : LaneCtx) (f : Nat → Nat) : VecEngine :=
  { x.v with lanes := (List.range (laneCount x)).foldl (fun m l => mapPutD 0 m (l * 32 + x.w.d) (BitVec.ofNat 32 (f l))) x.v.lanes }

/-- Register D set half by half; the half of a virtual lane without an element is not written (DEDUCED, assumption log 20). -/
def setHalves (x : LaneCtx) (f : Nat → Nat) : VecEngine :=
  setLanes x fun l =>
    if lpBf x.p then
      let old := laneReg x.v l x.w.d
      (if 2 * l < x.n then f (2 * l) % 65536 else old % 65536) + 65536 * (if 2 * l + 1 < x.n then f (2 * l + 1) % 65536 else old / 65536)
    else f l

/-- A floating-point instruction: operands decoded, the exact result rounded once (R186). -/
def floatOp (x : LaneCtx) (f : XV → XV → XV → XV) : MM VecEngine :=
  let fm := lpFmt x.p
  pure (setHalves x fun vl => fRound fm (f (decodeElem fm (vlaneReg x vl x.w.a)) (decodeElem fm (vlaneReg x vl x.w.b)) (decodeElem fm (vlaneReg x vl x.w.c))))

/-- An instruction on the 32 bits of registers A and B. -/
def wordOp (x : LaneCtx) (f : Nat → Nat → Nat) : MM VecEngine := pure (setLanes x fun l => f (laneReg x.v l x.w.a) (laneReg x.v l x.w.b))

/-! ### The instructions (R185) -/

def execLaneNop (engine : Nat) (ups : List Upset) (s : State) : Reply := done (laneStep s engine ups 0x00 fun x => pure x.v)

def execMov (engine : Nat) (ups : List Upset) (s : State) : Reply := done (laneStep s engine ups 0x01 fun x => wordOp x fun a _ => a)

/-- LDC: constant IMM, rounded into both halves in BF16×2 mode. -/
def execLdc (engine : Nat) (ups : List Upset) (s : State) : Reply :=
  done (laneStep s engine ups 0x02 fun x =>
    let k := uAt x.p (96 + 4 * x.w.imm) 4
    let h := fRound .bf16 (decodeElem .fp32 k)
    pure (setLanes x fun _ => if lpBf x.p then h * 65537 else k))

def execLid (engine : Nat) (ups : List Upset) (s : State) : Reply :=
  done (laneStep s engine ups 0x03 fun x => pure (setHalves x fun vl => fRound .fp32 (.fin false (x.c0 + vl) 0)))

/-- LD (R179): the wave's columns of the row decoded and rounded into the lane format. -/
def laneLoad (x : LaneCtx) : MM VecEngine := do
  let o := lpIn x.w.imm
  match fmtAt x.p o with
  | none => pure x.v
  | some f =>
    let pitch := uAt x.p (o + 40) 8
    let op : Operand := { fmt := f, cfmt := f.fmt, qesc := false, trans := false, base := uAt x.p (o + 16) 8, pitch := pitch, scale := uAt x.p (o + 24) 8, esc := uAt x.p (o + 32) 8,
                          rows := lpRows x.p, cols := lpLen x.p }
    let fd ← readRow (some x.die) x.v.stream x.v.counter op (if pitch = 0 then 0 else x.row) x.c0 (x.c0 + x.n)
    let v := setHalves x fun vl => fRound (lpFmt x.p) (fd.vals.getD vl (.fin false 0 0))
    let seg := x.c0 / 16384
    pure { v with conflicts := mapPutD 0 v.conflicts seg (mapGetD 0 v.conflicts seg + fd.conflicts) }

def execLd (engine : Nat) (ups : List Upset) (s : State) : Reply := done (laneStep s engine ups 0x04 laneLoad)

/-- Draw x of the element of a virtual lane (R181, R248). -/
def laneDraw (x : LaneCtx) (k vl : Nat) : Nat := drawAt x.key x.window ((x.row * lpLen x.p + x.c0 + vl) * lpPer x.p + k)

/-- ST (R180): the wave's values converted and written, and counted in the segment's soundings. -/
def laneStore (x : LaneCtx) : MM VecEngine := do
  let o := lpOut x.w.imm
  match fmtAt x.p o with
  | none => pure x.v
  | some f =>
    let fm := lpFmt x.p
    let vals := (List.range x.n).map fun vl => xMul f.scaleX (decodeElem fm (vlaneReg x vl x.w.a))
    let draw := laneDraw x (lpRnds x.p + (if x.w.imm = 1 then b2n (lpOutSr x.p 0) else 0))
    let row := uAt x.p (o + 16) 8 + x.row * uAt x.p (o + 40) 8
    let k := if x.w.imm = 0 then x.v.sound0 else x.v.sound1
    if f.fmt.blockScaled then
      let es := (List.range (cdiv x.n 32)).map fun b => encodeBlock f.fmt f.rnd f.sat f.esc ((List.range 32).map fun i => if f.rnd == .sr then draw (32 * b + i) else 0) ((vals.drop (32 * b)).take 32)
      let b0 := x.c0 / 32
      writeBytes (row + b0 * (4 * f.fmt.width)) (es.map fun e => packBlock f.fmt.width e.codes).flatten
      writeBytes (uAt x.p (o + 24) 8 + x.row * (lpLen x.p / 32) + b0) (es.map fun e => BitVec.ofNat 8 e.scale)
      if f.esc then writeBytes (uAt x.p (o + 32) 8 + x.row * (lpLen x.p / 8) + 4 * b0) (es.map EncodedBlock.esc).flatten
      let k := (List.range (cdiv x.n 32)).foldl (fun k b => soundBlock f.fmt f.esc f.histBase ((vals.drop (32 * b)).take 32) [] k) k
      pure (if x.w.imm = 0 then { x.v with sound0 := k } else { x.v with sound1 := k })
    else
      let w := f.fmt.width / 8
      writeBytes (row + x.c0 * w) ((vals.zipIdx).map fun v => natLe w (convert f.fmt f.rnd f.sat (if f.rnd == .sr then draw v.2 else 0) v.1)).flatten
      let k := soundScalar f.fmt f.histBase vals k
      pure (if x.w.imm = 0 then { x.v with sound0 := k } else { x.v with sound1 := k })

/-- Stored bytes of a wave, for the parity of their unit (17 R504). -/
def laneStale (s : State) (x : LaneCtx) : State :=
  let o := lpOut x.w.imm
  match fmtAt x.p o with
  | none => s
  | some f => staleRange s (uAt x.p (o + 16) 8 + x.row * uAt x.p (o + 40) 8 + rowBytes f.fmt x.c0) (rowBytes f.fmt x.n)

def execSt (engine : Nat) (ups : List Upset) (s : State) : Reply :=
  done (laneStep s engine ups 0x05 fun x => do
    let v ← laneStore x
    modify fun s => laneStale s x
    pure v)

/-- The identity of a reduction operation and one step of it (R161, R188). -/
def redIdentity (op : Nat) : XV := if op = 0 then .fin false 0 0 else if op = 1 then .inf true else .inf false
def redCombine (op : Nat) (a b : XV) : XV := if op = 0 then a40Add a b else if op = 1 then xMax a b else xMin a b

/-- Code of an A40 value. -/
def a40Code (x : XV) : Nat := convert .a40 .rne false 0 x

/-- A virtual lane's accumulator of a channel. -/
def redAt (v : VecEngine) (ch op vl : Nat) : XV := match mapGet v.red (ch * 1024 + vl) with | some c => decodeElem .a40 c | none => redIdentity op

/-- RED (R188). -/
def execRed (engine : Nat) (ups : List Upset) (s : State) : Reply :=
  done (laneStep s engine ups 0x06 fun x =>
    let ch := x.w.imm % 4
    let op := x.w.imm / 4
    pure { x.v with red := (List.range x.n).foldl (fun m vl => mapPut m (ch * 1024 + vl) (a40Code (redCombine op (redAt x.v ch op vl) (decodeElem (lpFmt x.p) (vlaneReg x vl x.w.a))))) x.v.red })

/-- RDR (R186): the row result rounded, in both halves in BF16×2 mode. -/
def execRdr (engine : Nat) (ups : List Upset) (s : State) : Reply :=
  done (laneStep s engine ups 0x07 fun x =>
    let r := decodeElem .a40 (mapGetD 0 x.v.result x.w.imm)
    pure (setLanes x fun _ => if lpBf x.p then fRound .bf16 r * 65537 else fRound .fp32 r))

/-- RND (R181, R186): bits of the element's draw as a fraction. -/
def execRnd (engine : Nat) (ups : List Upset) (s : State) : Reply :=
  done (laneStep s engine ups 0x08 fun x =>
    let k := ((List.range x.pc).filter fun i => (laneWord x.p i).op == 8).length
    pure (setHalves x fun vl =>
      let d := laneDraw x k vl
      if lpBf x.p then fRound .bf16 (.fin false (bitsOf d 31 24) (-8)) else fRound .fp32 (.fin false (bitsOf d 31 8) (-24))))

def execFadd (engine : Nat) (ups : List Upset) (s : State) : Reply := done (laneStep s engine ups 0x10 fun x => floatOp x fun a b _ => xAdd a b)
def execFsub (engine : Nat) (ups : List Upset) (s : State) : Reply := done (laneStep s engine ups 0x11 fun x => floatOp x fun a b _ => xAdd a (xNeg b))
def execFmul (engine : Nat) (ups : List Upset) (s : State) : Reply := done (laneStep s engine ups 0x12 fun x => floatOp x fun a b _ => xMul a b)
def execFma (engine : Nat) (ups : List Upset) (s : State) : Reply := done (laneStep s engine ups 0x13 fun x => floatOp x fun a b c => xAdd (xMul a b) c)
def execFmax (engine : Nat) (ups : List Upset) (s : State) : Reply := done (laneStep s engine ups 0x14 fun x => floatOp x fun a b _ => xMax a b)
def execFmin (engine : Nat) (ups : List Upset) (s : State) : Reply := done (laneStep s engine ups 0x15 fun x => floatOp x fun a b _ => xMin a b)
def execFabs (engine : Nat) (ups : List Upset) (s : State) : Reply := done (laneStep s engine ups 0x16 fun x => floatOp x fun a _ _ => xAbs a)
def execFneg (engine : Nat) (ups : List Upset) (s : State) : Reply := done (laneStep s engine ups 0x17 fun x => floatOp x fun a _ _ => xNeg a)

/-- FSEL: a bit copy of A where C is not ±0, else of B. -/
def execFsel (engine : Nat) (ups : List Upset) (s : State) : Reply :=
  done (laneStep s engine ups 0x18 fun x =>
    pure (setHalves x fun vl => if vlaneReg x vl x.w.c % 2 ^ ((lpFmt x.p).width - 1) != 0 then vlaneReg x vl x.w.a else vlaneReg x vl x.w.b))

/-- The relation of FCMP: EQ, LT, LE, UNORDERED (R186). -/
def laneCompare (rel : Nat) (a b : XV) : Bool :=
  if xIsNan a || xIsNan b then rel = 3
  else if rel = 0 then !xLt false a b && !xLt false b a
  else if rel = 1 then xLt false a b
  else if rel = 2 then !xLt false b a
  else false

def execFcmp (engine : Nat) (ups : List Upset) (s : State) : Reply :=
  done (laneStep s engine ups 0x19 fun x => floatOp x fun a b _ => if laneCompare x.w.imm a b then .fin false 1 0 else .fin false 0 0)

/-- FRND: rounded to the value set of a narrower format, saturating. -/
def execFrnd (engine : Nat) (ups : List Upset) (s : State) : Reply :=
  done (laneStep s engine ups 0x1A fun x => floatOp x fun a _ _ => match fmtOfCode x.w.imm with | some f => roundTo f .rne true 0 a | none => a)

def execFrcp (engine : Nat) (ups : List Upset) (s : State) : Reply := done (laneStep s engine ups 0x20 fun x => floatOp x fun a _ _ => xRcp a)
def execFrsqrt (engine : Nat) (ups : List Upset) (s : State) : Reply := done (laneStep s engine ups 0x21 fun x => floatOp x fun a _ _ => xRsqrt a)
def execFsqrt (engine : Nat) (ups : List Upset) (s : State) : Reply := done (laneStep s engine ups 0x22 fun x => floatOp x fun a _ _ => xSqrt a)
def execFexp2 (engine : Nat) (ups : List Upset) (s : State) : Reply := done (laneStep s engine ups 0x23 fun x => floatOp x fun a _ _ => xExp2 a)
def execFlog2 (engine : Nat) (ups : List Upset) (s : State) : Reply := done (laneStep s engine ups 0x24 fun x => floatOp x fun a _ _ => xLog2 a)
def execFsigm (engine : Nat) (ups : List Upset) (s : State) : Reply := done (laneStep s engine ups 0x25 fun x => floatOp x fun a _ _ => xSigm a)
def execFtanh (engine : Nat) (ups : List Upset) (s : State) : Reply := done (laneStep s engine ups 0x26 fun x => floatOp x fun a _ _ => xTanh a)
def execFerf (engine : Nat) (ups : List Upset) (s : State) : Reply := done (laneStep s engine ups 0x27 fun x => floatOp x fun a _ _ => xErf a)

def execIadd (engine : Nat) (ups : List Upset) (s : State) : Reply := done (laneStep s engine ups 0x30 fun x => wordOp x fun a b => a + b)
def execIand (engine : Nat) (ups : List Upset) (s : State) : Reply := done (laneStep s engine ups 0x31 fun x => wordOp x fun a b => a &&& b)
def execIor (engine : Nat) (ups : List Upset) (s : State) : Reply := done (laneStep s engine ups 0x32 fun x => wordOp x fun a b => a ||| b)
def execIxor (engine : Nat) (ups : List Upset) (s : State) : Reply := done (laneStep s engine ups 0x33 fun x => wordOp x fun a b => a ^^^ b)
def execIshl (engine : Nat) (ups : List Upset) (s : State) : Reply := done (laneStep s engine ups 0x34 fun x => wordOp x fun a _ => a <<< x.w.imm)
def execIshr (engine : Nat) (ups : List Upset) (s : State) : Reply := done (laneStep s engine ups 0x35 fun x => wordOp x fun a _ => a >>> x.w.imm)

/-! ### The reduction unit (R188, R189) -/

/-- One level of the tree: neighbours combined. -/
def treeLevel (op : Nat) : List XV → List XV
  | a :: b :: r => redCombine op a b :: treeLevel op r
  | l => l

/-- The tree over W accumulators. -/
def treeAll (op : Nat) : Nat → List XV → XV
  | 0, l => l.headD (.fin false 0 0)
  | n + 1, l => treeAll op n (treeLevel op l)

/-- Levels of the tree (R188). -/
def treeDepth (p : Bytes) : Nat := if lpBf p then 10 else 9

/-- Whether an engine's waves that feed the channels of its row are over. -/
def redReady (p : Bytes) (v : VecEngine) : Bool := v.part == .prologue || (v.part == .apply && lpSplit p == 0 && lpWaves p ≤ v.wave)

/-- The row result of a channel: the tree, its value kept for RDR and written where RED_BASE names a place (R189). -/
def rowResult (s : State) (e : Nat) (v : VecEngine) (c : Cmd) (ch op : Nat) : State :=
  let p := c.pkt
  let x := treeAll op (treeDepth p) ((List.range (lpWidth p)).map fun vl => redAt v ch op vl)
  let base := uAt p (lpRed ch) 8
  let a := base + v.row.getD 0 * 4
  let m : MM Unit := if base = 0 then pure () else writeBytes a (natLe 4 (fRound .fp32 x))
  match runMM m s with
  | (.error er, s) => rowFailed s e v er
  | (.ok _, s) =>
    let s := if base = 0 then s else staleRange s a 4
    let v := { v with result := mapPut v.result ch (a40Code x) }
    if v.part == .prologue then openApply s e v c
    else if redDone p v then rowDone s e v c
    else setEngine s e (some v)

/-- REDUCTION_ROW_RESULT (R188): a channel of an engine whose waves are over gets its row result. -/
def execReductionRowResult (engine channel : Nat) (ups : List Upset) (s : State) : Reply :=
  done (onlyIf (engine < 16 && engineOn s 5 engine) s fun s =>
    match engineRow s engine with
    | none => s
    | some (v, c) =>
      match (lpChannels c.pkt).find? fun x => x.1 == channel with
      | none => s
      | some (_, op) =>
        if !redReady c.pkt v || (mapGet v.result channel).isSome then s
        else inClass 0 s fun s => withUpsets ups s fun s => engineRun s 5 engine fun s => rowResult s engine v c channel op)

end Sys2Proof.Machine
end

