-- ==== Sys2Proof/Machine/Ending.lean ====
section
/-!
DEFINITION. What leaves the engines when a command ends before its work does, and stand-ins (03 R63 to R68, 17 R513, R514).
-/
namespace Sys2Proof.Machine

/-! ### Work taken off the engines (R63, R67) -/

/-- A MATMUL's tiles and deal given up. -/
def dropMat (s : State) (q c : Nat) : State :=
  let s := (s.comp.tiles.filter fun (x : Tile) => x.stream == q && x.counter == c).foldl dropTile s
  { s with comp := { s.comp with mats := s.comp.mats.filter fun v => !isMat q c v } }

/-- A LANE_PROGRAM's rows and deal given up; its engines are idle. -/
def dropLanes (s : State) (q c : Nat) : State :=
  let s := (s.comp.engines.filter fun e => e.2.stream == q && e.2.counter == c && e.2.row.isSome).foldl (fun s e => setEngine s e.1 none) s
  { s with comp := { s.comp with lanes := s.comp.lanes.filter fun v => !isWork q c v } }

/-- An UPDATE's deal and reserved entries given up. -/
def dropUpdate (s : State) (q c : Nat) : State := freeEntries { s with comp := { s.comp with updates := s.comp.updates.filter fun v => !isWork q c v } } q c

/-- A stand-in's rebuild given up on its spare (17 R514). -/
def dropRebuild (s : State) (q c : Nat) : State :=
  if s.reck.standIns.any fun x => x.stream == q && x.counter == c && x.spare == myFid s then
    { s with reck := { s.reck with rebuildList := [], rebuildOff := 0, reads := s.reck.reads.filter fun w => w.purpose != .standIn,
                                   standIns := s.reck.standIns.filter fun x => !(x.stream == q && x.counter == c) } }
  else s

/-- Everything a started command holds on the engines given up (R63, R67); tell says whether the other members of an exchange hear of it (08 R212). -/
def dropWork (s : State) (x : Cmd) (tell : Bool) : State :=
  let q := x.q
  let c := x.hdr.counter
  let op := x.hdr.opcode
  if op == opMATMUL then dropMat s q c
  else if op == opLANE_PROGRAM then dropLanes s q c
  else if op == opUPDATE then dropUpdate s q c
  else if op == opEMB_GATHER || op == opEMB_SCATTER_ADD then
    match findExch s q c with
    | some e => dropExch (if tell then embTellStop s e x.gen else s) q c
    | none => s
  else if op == opRELAY then dropRelay s q c
  else if op == opFERRY_OUT || op == opDATA_IN || op == opDATA_OUT || op == opSNAPSHOT_OUT then dropFerry s q c
  else if op == opCOMMIT then commitStop s q c
  else if op == opSTAND_IN then dropRebuild s q c
  else s

/-- The cursor a started command has reached. -/
def cursorOf (s : State) (x : Cmd) : Nat := match findExch s x.q x.hdr.counter with | some e => max x.cursor (embCursor s e x.pkt) | none => x.cursor

/-- An unretired command completed by the module itself, with its cursor (13 R383, 19 R582, R583): its work is given up and its stream halts. -/
def cutCommand (s : State) (x : Cmd) (status detail detail2 : Nat) : State :=
  let cur := if x.phase == .queued then 0 else cursorOf s x
  let s := if x.phase == .running then dropWork s x false else s
  haltAt (endCmd s x.q x.hdr.counter status cur detail detail2) x.q x.hdr.counter

/-- The compute die whose Helm core owns a stream (R41). -/
def streamDie (q : Nat) : Nat := q % 32 / 8

/-! ### Stand-ins (17 R513, R514) -/

/-- STAND_IN's fields (R513). -/
def siSuspect (p : Bytes) : Nat := uAt p 64 2
def siSpare (p : Bytes) : Nat := uAt p 66 2
def siChain (p : Bytes) : Nat := uAt p 68 2
def siStep (p : Bytes) : Nat := uAt p 72 8

/-- Format checks of STAND_IN (R513): fabric IDs of modules, reserved fields. (DEDUCED, assumption log 67) -/
def standInChecks (p : Bytes) : List (Bool × Nat) :=
  [(siSuspect p != 0 && siSuspect p != 0xFFFF, 64), (siSpare p != 0 && siSpare p != 0xFFFF, 66), rsvOk p 70 2, rsvOk p 80 16]

/-- STAND_IN at intake (R513). -/
def execStandIn (s : State) : Reply := done (intakeWork s opSTAND_IN (bodyChecks 128 standInChecks))

/-- The number of the start check that fails, none where all pass (R513). (DEDUCED, assumption log 67) -/
def standInCheck (s : State) (p : Bytes) : Option Nat :=
  let a := s.fab.alloc
  let step := siStep p
  let named := match a with
    | some a => a.working.contains (siSuspect p) && a.spares.contains (siSpare p) && !(s.reck.standIns.any fun x => x.step == step && x.spare == siSpare p && x.suspect != siSuspect p)
    | none => false
  let here := if siSpare p == myFid s then escState s == 0 && s.esc.list.isEmpty else escState s == 4
  let chain := match s.fab.tables.bind fun t => mapGet t.chains (siChain p) with
    | some ms => ms.contains (siSuspect p) && !ms.contains (siSpare p)
    | none => false
  if !named then some 1 else if step != committedStep s + 1 then some 2 else if !here then some 3 else if !chain then some 4 else none

/-- The start check of STAND_IN as a record's fields. (DEDUCED, assumption log 67) -/
def standInStart (s : State) (p : Bytes) : Option (Nat × Nat × Nat) := (standInCheck s p).map fun n => (0x0447, n, 0)

/-- A started STAND_IN (R514): chains change at once; a working member has done with it, and the spare takes a neighbour's counters and rebuilds the suspect's data units. -/
def standInBegin (s : State) (q c : Nat) (p : Bytes) : State :=
  let x : StandIn := { suspect := siSuspect p, spare := siSpare p, chain := siChain p, stream := q, counter := c, step := siStep p, done := false }
  let keep := s.reck.standIns.filter fun y => y.step == x.step && y.suspect != x.suspect
  let s := { s with reck := { s.reck with standIns := keep ++ [x] } }
  if x.spare != myFid s then endCmd s q c 0 0 0 0
  else
    let (g, pos) := rebuildPlace s
    let l := unitsByStripe s g pos false
    let s := { s with reck := { s.reck with rebuildList := l, rebuildOff := 0, reads := s.reck.reads.filter fun w => w.purpose != .standIn } }
    let s := setF (resetReg s R.REL_RECKON_REBUILD) R.REL_RECKON_REBUILD F.REL_RECKON_REBUILD_TOTAL l.length
    if l.isEmpty then endCmd s q c 0 0 0 0 else askStreams s g pos

/-- A RELAY or embedding command reached a suspect member during a stand-in (R514). (DEDUCED, assumption log 80) -/
def suspectHere (s : State) : Bool := s.reck.standIns.any fun x => x.suspect == myFid s

end Sys2Proof.Machine
end

