-- ==== Sys2Proof/Machine/Fence.lean ====
section
/-!
DEFINITION. Dies taken out of service and reset: the fence of a compute or Rose die, and the compute-die reset (13 R382 to R385, 19 R582, 21 R632).
-/
namespace Sys2Proof.Machine

/-! ### What a compute die loses -/

/-- SOURCE number of an Arbor link (19 R567). -/
def linkSrc (l : Nat) : Nat := srcOf 2 l

/-- The link repair record written anew (13 R379). -/
def recordLinks (s : State) (f : LinkRepair → LinkRepair) : State :=
  { s with flash := { s.flash with links := flashPut s.flash.links (f ((flashGet s.flash.links).getD {})) } }

/-- The contents of a memory window dropped: bytes, side store, poison. -/
def wipeRange (s : State) (base n : Nat) : State :=
  let out := fun (a : Nat) => a < base || base + n ≤ a
  { s with mem := s.mem.filter fun c => out c.1, side := s.side.filter fun e => out e.1, poison := s.poison.filter out }

/-- A window whose side-store entries are all set to fail every check (19 R582, 21 R648). -/
def spoilRange (s : State) (base n : Nat) : State :=
  let s := wipeRange s base n
  let bad := (List.range (n / 4096)).map fun k => (base + k * 4096, noHallmark)
  { s with side := s.side.filter (fun e => e.1 < base) ++ bad ++ s.side.filter fun e => base + n ≤ e.1 }

/-- The arrays of a die. -/
def dieArrays (d : Nat) : List Nat := (List.range 24).map fun a => d * 24 + a

/-- Tiles in work on a die's arrays go back to the deal: third readings there are given up, and what was handed off, drained or held without release is computed again (R132, R383, item 2). -/
def redealTiles (s : State) (d : Nat) : State :=
  let here := s.comp.tiles.filter fun (x : Tile) => x.die == d
  let gone := fun (x : Tile) => x.third && (x.die == d || here.any fun y => !y.third && y.stream == x.stream && y.counter == x.counter && y.index == x.index)
  let s := (s.comp.tiles.filter gone).foldl dropTile s
  let s := { s with comp := { s.comp with tiles := s.comp.tiles.map fun (x : Tile) => if x.die == d then { x with stage := .computing } else x } }
  (dieArrays d).foldl redealArray s

/-- The engines of a die: kind and instance. -/
def dieEngines (d : Nat) : List (Nat × Nat) :=
  ((List.range 4).map fun i => (5, d * 4 + i)) ++ [(6, d)] ++ (List.range 8).map fun i => (7, d * 8 + i)

/-- An engine of a die that returns: what it had in work starts again from its beginning (R197, R217, R240). (DEDUCED, assumption log 72) -/
def restartEngine (s : State) (kind inst : Nat) : State :=
  if kind = 5 then
    setBitF { s with comp := { s.comp with engines := mapDel s.comp.engines inst } } (R.CDn_VEC_STATUS (inst / 4)) F.CDn_VEC_STATUS_BUSY (inst % 4) false
  else if kind = 6 then
    let f := fun (x : Exchange) =>
      let back := (x.bags.filter fun (b : BagWork) => b.engine == inst).map BagWork.bag
      { x with bags := x.bags.filter (fun (b : BagWork) => b.engine != inst),
               deal := x.deal.map fun (e : Deal) => if e.unit == inst then { e with extra := sortNat (e.extra ++ back) } else e }
    setBitF { s with fleet := { s.fleet with exchanges := s.fleet.exchanges.map f } } R.EMB_STATUS F.EMB_STATUS_BUSY inst false
  else s

/-- The open streams a die's Helm cores own (R41). -/
def dieStreams (s : State) (d : Nat) : List Nat :=
  (s.cmd.streams.filter fun e => e.1 < keyQueue && streamDie e.1 == d && e.2.state != .closed).map Prod.fst

/-- Every unretired command of the die's streams completes with a status, and each stream enters HALTED (R383 item 4, R582). (DEDUCED, assumption log 72) -/
def cutStreams (s : State) (qs : List Nat) (status detail detail2 : Nat) : State :=
  qs.foldl (fun s q =>
    let s := (s.cmd.cmds.filter fun x => x.q == q).foldl (fun s x => cutCommand s x status detail detail2) s
    let st := getStream s q
    setStream s q { st with state := if st.state == .clearing then .clearing else .halted }) s

/-- The step in progress is marked NOT_CLEAN (R383 item 5). -/
def stepNotClean (s : State) : State := if inStep s then { s with esc := { s.esc with notClean := true } } else s

/-! ### Fences (R382 to R385) -/

/-- Both directions of a link in a state code (R388). -/
def setLinkState (s : State) (l code : Nat) : State :=
  setF (setF s (R.ARB_LINK_STATUS l) F.ARB_LINK_STATUS_STATE_UP code) (R.ARB_LINK_STATUS l) F.ARB_LINK_STATUS_STATE_DN code

/-- The domains a fence of a die switches off (21 R632). -/
def dieDomains (d : Nat) : List Nat := if d < 4 then [5 + d, 9 + d] else [9 + d, 11 + d]

/-- What every fence of a die does: FENCED, the domains held off, the words read as zero, the link repair record, the event, the logbook and Bluvisen. (DEDUCED, assumption log 71) -/
def fenceMark (s : State) (d : Nat) : State :=
  let s := { setLinkState s d 4 with links := mapDel (mapDel s.links (2 * d)) (2 * d + 1) }
  let s := setBitF s R.ARB_LINK_EVENTS F.ARB_LINK_EVENTS_FENCED d true
  let s := (dieDomains d).foldl (fun s p => setBitF (setPd s p 0) R.PWR_DOMAIN_FAULT F.PWR_DOMAIN_FAULT_FENCED_OFF p true) s
  let s := resetReg (resetReg s (R.ARB_DIE_REV d)) (R.ARB_DIE_CAP d)
  let s := recordLinks s fun r => { r with dies := setIns d r.dies }
  tellBluvisen (noteAt s (linkSrc d) 0x02 clsFenced) 384 [d, getF s R.ARB_LINK_POLICY F.ARB_LINK_POLICY_WITHDRAW]

/-- A compute die fenced (R383). -/
def fenceCompute (s : State) (d : Nat) : State :=
  let qs := dieStreams s d
  let s := cutStreams (fenceMark s d) qs 0x0240 d 0
  let s := redealTiles s d
  let s := (dieEngines d).foldl (fun s e => redealWork s e.1 e.2) s
  let s := { s with comp := { s.comp with arrays := s.comp.arrays.filter fun e => e.1 / 24 != d } }
  let s := setF s (R.CDn_ARRAY_STATUS d) F.CDn_ARRAY_STATUS_ENABLED 0
  let s := wipeRange s (tileBase d) tileBytes
  let s := qs.foldl (fun s q =>
    let st := getStream s q
    setStream s q { st with fenced := some d, failed := if st.failed.isEmpty then [st.lastWork] else st.failed }) s
  stepNotClean s

/-- The ports of a Rose die. -/
def rosePorts (n : Nat) : List Nat := (List.range 16).map fun i => n * 16 + i

/-- A Rose die fenced (R385): its ports enter FENCED. -/
def fenceRose (s : State) (d : Nat) : State :=
  (rosePorts (d - 4)).foldl (fun s p => setPortState s p 8) (fenceMark s d)

/-- A die fenced, once. (DEDUCED, assumption log 71) -/
def fenceDie (s : State) (d : Nat) : State := if dieFenced s d then s else if d < 4 then fenceCompute s d else fenceRose s d

/-! ### Compute-die reset (19 R582) -/

/-- A compute-die reset: engines and Helm cores start again, tile memory is cleared, the die's commands end with DIE_RESET, the step is NOT_CLEAN. (DEDUCED, assumption log 72) -/
def resetDie (s : State) (d : Nat) : State :=
  let s := cutStreams s (dieStreams s d) 0x0710 d 0
  let s := redealTiles s d
  let s := (dieEngines d).foldl (fun s e => restartEngine s e.1 e.2) s
  let s := { s with comp := { s.comp with arrays := s.comp.arrays.filter fun e => e.1 / 24 != d } }
  stepNotClean (spoilRange s (tileBase d) tileBytes)

/-- Beats of a die's resets in the watch that now runs. -/
def resetsNow (s : State) (d : Nat) : List Nat := (mapGetD [] s.ladder.dieResets d).filter fun b => watchOf b == watchNow s

/-- Rung 3 for a die: its LADDER and LOST_WORK entries and the reset; the second of a die in a watch fences it (R581, R582, R584). (DEDUCED, assumption log 71) -/
def dieRung (s : State) (d : Nat) : State :=
  if dieFenced s d then s
  else
    let seen := resetsNow s d
    let s := { s with ladder := { s.ladder with dieResets := mapPut s.ladder.dieResets d (seen ++ [beatNow s]), tileErrors := mapDel s.ladder.tileErrors d } }
    let s := ladderRung s 3 (linkSrc d)
    let s := noteAt s (linkSrc d) 0x07 clsLostWork
    if seen.isEmpty then resetDie s d else fenceDie s d

end Sys2Proof.Machine
end

