-- ==== Sys2Proof/Machine/Arbor.lean ====
section
/-!
DEFINITION. The Arbor links: flits and their retries, credits, lane monitoring, sparing, half-muster and retraining (13 R369 to R382, R388 to R392). Direction up of link l is number 2 l, direction down 2 l + 1.
-/
namespace Sys2Proof.Machine

/-! ### Shapes of a link (R369, R370) -/

def linkGroups (l : Nat) : Nat := if l < 4 then 384 else 64
def dataLanes (l : Nat) : Nat := if l < 4 then 64 else 32
def flitBytes (l : Nat) : Nat := if l < 4 then 1024 else 512

/-- Physical lanes of a group: data, two spares, control. -/
def groupLanes (l : Nat) : Nat := dataLanes l + 3

/-- Number of a direction. -/
def dirNo (l : Nat) (up : Bool) : Nat := 2 * l + b2n (!up)

def getDir (s : State) (l : Nat) (up : Bool) : LinkDir := mapGetD {} s.links (dirNo l up)
def setDir (s : State) (l : Nat) (up : Bool) (x : LinkDir) : State := { s with links := mapPutD {} s.links (dirNo l up) x }
def getGroup (x : LinkDir) (g : Nat) : LaneGroup := mapGetD {} x.groups g
def setGroup (x : LinkDir) (g : Nat) (y : LaneGroup) : LinkDir := { x with groups := mapPutD {} x.groups g y }

/-- State code of a direction (R388). -/
def dirState (s : State) (l : Nat) (up : Bool) : Nat := getF s (R.ARB_LINK_STATUS l) (if up then F.ARB_LINK_STATUS_STATE_UP else F.ARB_LINK_STATUS_STATE_DN)
def setDirState (s : State) (l : Nat) (up : Bool) (v : Nat) : State := setF s (R.ARB_LINK_STATUS l) (if up then F.ARB_LINK_STATUS_STATE_UP else F.ARB_LINK_STATUS_STATE_DN) v

/-- Whether a direction carries flits: FULL or HALF_MUSTER. -/
def dirOn (s : State) (l : Nat) (up : Bool) : Bool := l < 6 && (dirState s l up == 2 || dirState s l up == 3)

/-! ### Lane maps (R378, R380) -/

/-- Physical lanes that carry the data lanes in order, then the control word, once the failed lanes in the order of their failing have moved to the lowest-numbered unused spare (R378). -/
def carriers (l : Nat) (failed : List Nat) : List Nat :=
  let d := dataLanes l
  failed.foldl (fun map f =>
    if map.contains f then
      match [d, d + 1].find? fun p => !map.contains p && !failed.contains p with
      | some p => map.map fun x => if x == f then p else x
      | none => map
    else map) (List.range d ++ [d + 2])

/-- Whether a group has an unused spare (R378). -/
def spareLeft (l : Nat) (failed : List Nat) : Bool := [dataLanes l, dataLanes l + 1].any fun p => !(carriers l failed).contains p && !failed.contains p

/-- The good lanes of a group, in ascending order. -/
def goodLanes (l : Nat) (failed : List Nat) : List Nat := (List.range (groupLanes l)).filter fun p => !failed.contains p

/-- Whether a group can carry half-muster: lanes for half the data and one for control (R380, R382). -/
def halfPossible (l : Nat) (failed : List Nat) : Bool := dataLanes l / 2 + 1 ≤ (goodLanes l failed).length

/-- Lanes of a group in half-muster: its lowest-numbered good lanes for data, and its control lane, or another good lane where that has failed (R380). -/
def halfCarriers (l : Nat) (failed : List Nat) : List Nat :=
  let n := dataLanes l / 2
  let good := goodLanes l failed
  let ctl := (carriers l failed).getLastD 0
  let data := (good.filter (· != ctl)).take n
  data ++ [if failed.contains ctl then (good.drop n).headD 0 else ctl]

/-- The physical lanes on which two copies of a flit differ, for control words as 16 bytes behind the payload (R370, R373, R380). -/
def lanesDiffering (l : Nat) (half : Bool) (failed : List Nat) (a b : Bytes) : List Nat :=
  let map := if half then halfCarriers l failed else carriers l failed
  let n := map.length - 1
  let per := if half then 32 else 16
  let at_ := fun (i : Nat) => if i < n then (i * per, per) else (flitBytes l, 16)
  (List.range (n + 1)).filterMap fun i =>
    let (o, len) := at_ i
    if sub a o len == sub b o len then none else map[i]?

/-! ### Registers shown (R388, R391) -/

/-- Groups of a direction that use at least one spare. -/
def sparedGroups (l : Nat) (x : LinkDir) : Nat := (x.groups.filter fun e => (carriers l e.2.failed).any fun p => p == dataLanes l || p == dataLanes l + 1).length

def showSpared (s : State) (l : Nat) (up : Bool) : State :=
  setF s (R.ARB_LINK_STATUS l) (if up then F.ARB_LINK_STATUS_SPARED_UP else F.ARB_LINK_STATUS_SPARED_DN) (sparedGroups l (getDir s l up))

/-- ARB_LANE_GROUP of the group selected: the failed lanes, and the lane with the highest count (R391). -/
def laneGroupWord (s : State) : Word :=
  let l := getF s R.ARB_LANE_SEL F.ARB_LANE_SEL_LINK
  let up := getF s R.ARB_LANE_SEL F.ARB_LANE_SEL_DIR == 0
  let g := getGroup (getDir s l up) (getF s R.ARB_LANE_SEL F.ARB_LANE_SEL_GROUP)
  let f := fun (i : Nat) => g.failed.getD i 0x7F
  let worst := g.counts.foldl (fun (b : Nat × Nat) e => if b.2 < e.2 then e else b) (0, 0)
  BitVec.ofNat 64 (f 2 * 2 ^ 48 + f 1 * 2 ^ 40 + f 0 * 2 ^ 32 + worst.1 * 2 ^ 16 + min 65535 worst.2)

/-! ### A lane to be spared (R377 to R382) -/

/-- A switch SEQ: ahead of what the receiver expects; the manual does not say by how much (DESIGN CHOICE, assumption log 6). (DEDUCED, assumption log 70) -/
def switchSeq (s : State) (g : LaneGroup) : Nat × State :=
  let (n, s) := takeFree s
  ((g.expect + n % 128) % 4096, s)

/-- A lane that is to be spared: SPARE_REQ, or HALF_REQ where the group has no unused spare; a fence where the direction is in half-muster already or a group could not carry it. -/
def laneOff (s : State) (l : Nat) (up : Bool) (gi lane : Nat) : State :=
  if !dirOn s l up then s
  else
    let x := getDir s l up
    let g := getGroup x gi
    if g.failed.contains lane then s
    else if dirState s l up == 3 then fenceDie s l
    else
      match g.switch with
      | some w => if w.half || w.lane == lane then s else s
      | none =>
        if spareLeft l g.failed then
          let (q, s) := switchSeq s g
          send (setDir s l up (setGroup x gi { g with switch := some ⟨false, lane, q⟩ })) .sparing l [b2n up, gi, lane, q, 0]
        else if !halfPossible l (g.failed ++ [lane]) || x.groups.any (fun e => !halfPossible l e.2.failed) then fenceDie s l
        else
          let (q, s) := switchSeq s g
          send (setDir s l up (setGroup x gi { g with switch := some ⟨true, lane, q⟩ })) .halfMuster l [b2n up, q, 0]

/-- A retry attributed to a lane: counted in the window and in its run; at 2 in the window or 8 in a row the lane is to be spared (R377). -/
def blameLanes (s : State) (l : Nat) (up : Bool) (gi : Nat) (lanes : List Nat) : State :=
  let x := getDir s l up
  let g := getGroup x gi
  let counts := lanes.foldl (fun m p => mapPut m p (mapGetD 0 m p + 1)) g.counts
  let runs := lanes.foldl (fun m p => mapPut m p (mapGetD 0 g.runs p + 1)) []
  let s := setDir s l up (setGroup x gi { g with counts := counts, runs := runs })
  lanes.foldl (fun s p => if mapGetD 0 counts p ≥ 2 || mapGetD 0 runs p ≥ 8 then laneOff s l up gi p else s) s

/-! ### Flits (R370 to R376) -/

/-- Index of the credit pool of a class (R371, R374): MEMORY requests and responses, COHERENCE, MESSAGE, DEBUG. -/
def poolOf (cls : Nat) (resp : Bool) : Nat := if cls = 0 then b2n resp else cls + 1

/-- Sizes of the five pools. -/
def poolSizes : List Nat := [1024, 1024, 64, 64, 16]

/-- The five counts of an ARG (R371). -/
def argPools (arg : Nat) : List Nat := [bitsOf arg 63 48, bitsOf arg 47 32, bitsOf arg 31 20, bitsOf arg 19 8, bitsOf arg 7 0]

/-- Whether a flit's check value agrees (R371). -/
def flitGood (payload : Bytes) (control : Nat) : Bool := crc32c (payload ++ natLe 12 control) == bitsOf control 127 96

/-- Flits taken back from the groups in the order dealt, while the next is there (R372); each frees its buffer entry. -/
def reassemble (fuel : Nat) (l : Nat) (x : LinkDir) : LinkDir :=
  match fuel with
  | 0 => x
  | k + 1 =>
    let gi := x.taken % linkGroups l
    let g := getGroup x gi
    match g.ready with
    | [] => x
    | (pool, _) :: r =>
      let x := setGroup x gi { g with ready := r }
      let free := if pool < 5 then modNth pool (· + 1) x.free else x.free
      reassemble k l { x with taken := x.taken + 1, free := free }

/-- What a flit says to the sender of the reverse direction: ACK frees its replay buffer, NAK asks for a replay from ACK + 1, and under OP 0 the credits come back (R371, R373). (DEDUCED, assumption log 69) -/
def takeReverse (s : State) (l : Nat) (up : Bool) (gi control : Nat) : State :=
  let x := getDir s l (!up)
  let g := getGroup x gi
  let ack := bitsOf control 83 72
  let kept := if (g.replay.any fun e => e.1 == ack) then (g.replay.dropWhile fun e => e.1 != ack).drop 1 else g.replay
  let g := { g with acked := ack, replay := kept }
  let credits := if bitsOf control 66 64 == 0 then ((x.credits.zip (argPools (bitsOf control 63 0))).zip poolSizes).map fun e => min e.2 (e.1.1 + e.1.2) else x.credits
  let s := setDir s l (!up) (setGroup { x with credits := credits } gi g)
  if control.testBit 71 then
    let s := incF s (R.ARB_LINK_COUNTS l) F.ARB_LINK_COUNTS_RETRIES kept.length
    kept.foldl (fun s e => send s .arborFlit l [b2n (!up), gi, e.1] e.2) s
  else s

/-- A flit discarded: its copy is kept where it is the first, and NAK goes out (R373). (DEDUCED, assumption log 69) -/
def discardFlit (s : State) (l : Nat) (up : Bool) (gi : Nat) (copy : Bytes) : State :=
  let x := getDir s l up
  let g := getGroup x gi
  let s := if g.firstBad.isNone then setDir s l up (setGroup x gi { g with firstBad := some copy }) else s
  send s .arborNak l [b2n up, gi, (g.expect + 4095) % 4096]

/-- A flit received in order: its place in the sender's replay buffer and the credit it took, its turn in the reassembly, and the lanes of a copy that failed before it (R372, R373, R377). (DEDUCED, assumption log 69) -/
def acceptFlit (s : State) (l : Nat) (up : Bool) (gi : Nat) (payload : Bytes) (control : Nat) : State :=
  let x := getDir s l up
  let g := getGroup x gi
  let seq := bitsOf control 95 84
  let copy := payload ++ natLe 16 control
  let valid := control.testBit 68
  let pool := if valid then poolOf (bitsOf control 70 69) (control.testBit 67) else 5
  let full := g.flits + 1 ≥ 2 ^ 30
  let lanes := match g.firstBad with | some b => if b.isEmpty then [] else lanesDiffering l (dirState s l up == 3) g.failed b copy | none => []
  let g' := { g with expect := (seq + 1) % 4096, sendSeq := (seq + 1) % 4096, firstBad := none, replay := lastN 128 (g.replay ++ [(seq, payload)]),
                     ready := g.ready ++ [(pool, payload)], flits := if full then 0 else g.flits + 1, counts := if full then [] else g.counts,
                     runs := if lanes.isEmpty then [] else g.runs }
  let x := { x with dealt := x.dealt + 1, credits := if valid then modNth pool (· - 1) x.credits else x.credits, free := if valid then modNth pool (· - 1) x.free else x.free }
  let s := setDir s l up (reassemble (linkGroups l) l (setGroup x gi g'))
  let s := send s .arborAck l [b2n up, gi, seq]
  if lanes.isEmpty then s else blameLanes s l up gi lanes

/-- FLIT (R373). -/
def execFlit (link : Nat) (up : Bool) (group : Nat) (payload : Bytes) (control : Nat) (s : State) : Reply :=
  done (onlyIf (dirOn s link up && group < linkGroups link && payload.length == flitBytes link) s fun s =>
    let g := getGroup (getDir s link up) group
    let seq := bitsOf control 95 84
    if !flitGood payload control then discardFlit s link up group (payload ++ natLe 16 control)
    else if seq != g.expect then discardFlit s link up group []
    else
      let s := acceptFlit s link up group payload control
      if dirOn s link (!up) then takeReverse s link up group control else s)

/-! ### Sparing and half-muster, as asked and answered (R378, R380) -/

/-- SPARE_REQ (R378): the sender answers, unless the direction is going into half-muster. -/
def execSpareReq (link : Nat) (up : Bool) (group lane seq : Nat) (s : State) : Reply :=
  done (onlyIf (dirOn s link up && group < linkGroups link && lane < groupLanes link && dirState s link up == 2 &&
                !((getDir s link up).groups.any fun e => match e.2.switch with | some w => w.half | none => false)) s fun s =>
    send s .sparing link [b2n up, group, lane, seq, 1])

/-- SPARE_ACK (R378): the lane's bits move to the lowest-numbered unused spare. (DEDUCED, assumption log 70) -/
def execSpareAck (link : Nat) (up : Bool) (group lane seq : Nat) (s : State) : Reply :=
  done (onlyIf (dirOn s link up && group < linkGroups link) s fun s =>
    let x := getDir s link up
    let g := getGroup x group
    if g.switch == some ⟨false, lane, seq⟩ then
      let s := setDir s link up (setGroup x group { g with failed := g.failed ++ [lane], switch := none, counts := mapDel g.counts lane, runs := mapDel g.runs lane })
      let s := showSpared s link up
      let s := setBitF s R.ARB_LINK_EVENTS F.ARB_LINK_EVENTS_SPARED link true
      let s := recordLinks s fun r => { r with lanes := r.lanes ++ [(link, b2n (!up), group, lane)] }
      noteAt s (linkSrc link) 0x02 clsDegraded
    else s)

/-- HALF_REQ (R380): the sender answers. -/
def execHalfReq (link : Nat) (up : Bool) (seq : Nat) (s : State) : Reply :=
  done (onlyIf (dirOn s link up && dirState s link up == 2) s fun s => send s .halfMuster link [b2n up, seq, 1])

/-- HALF_ACK (R380): the direction enters half-muster, and sparings asked for in it are dropped. (DEDUCED, assumption log 70) -/
def execHalfAck (link : Nat) (up : Bool) (seq : Nat) (s : State) : Reply :=
  done (onlyIf (dirOn s link up && dirState s link up == 2) s fun s =>
    let x := getDir s link up
    match x.groups.find? fun e => match e.2.switch with | some w => w.half && w.seq == seq | none => false with
    | none => s
    | some (gi, g) =>
      let lane := match g.switch with | some w => w.lane | none => 0
      let groups := x.groups.map fun e => (e.1, if e.1 == gi then { e.2 with failed := e.2.failed ++ [lane], switch := none } else { e.2 with switch := none })
      let s := setDirState (setDir s link up { x with groups := groups.filter fun e => e.2 != {} }) link up 3
      let s := setBitF s R.ARB_LINK_EVENTS F.ARB_LINK_EVENTS_HALF_MUSTER link true
      let s := recordLinks s fun r => { r with lanes := r.lanes ++ [(link, b2n (!up), gi, lane)] }
      tellBluvisen (noteAt s (linkSrc link) 0x02 clsDegraded) 381 [link, b2n (!up)])

/-! ### Credits and retraining (R376) -/

/-- CREDIT_TIMEOUT (R376): a class without credit for 1 µs has the sender probe. -/
def execCreditTimeout (link : Nat) (up : Bool) (cls : Nat) (s : State) : Reply :=
  done (onlyIf (dirOn s link up && cls < 5 && (getDir s link up).credits.getD cls 1 == 0 && (getDir s link up).probeNs.isNone) s fun s =>
    send (setDir s link up { getDir s link up with probeNs := some s.now }) .creditProbe link [b2n up])

/-- CREDIT_PROBE (R376): the receiver answers with its free entries of every pool. -/
def execCreditProbe (link : Nat) (up : Bool) (s : State) : Reply :=
  done (onlyIf (dirOn s link up) s fun s => send s .creditReport link (b2n up :: (getDir s link up).free))

/-- CREDIT_REPORT (R376): the sender takes the values and counts a resynchronisation. -/
def execCreditReport (link : Nat) (up : Bool) (free : List Nat) (s : State) : Reply :=
  done (onlyIf (dirOn s link up && (getDir s link up).probeNs.isSome && free.length == 5) s fun s =>
    let credits := (free.zip poolSizes).map fun e => min e.2 e.1
    incF (setDir s link up { getDir s link up with credits := credits, probeNs := none }) (R.ARB_LINK_COUNTS link) F.ARB_LINK_COUNTS_CREDIT_RESYNC 1)

/-- A direction retrains and replays what has not been acknowledged (R373, R376). -/
def retrainDir (s : State) (l : Nat) (up : Bool) : State :=
  let x := getDir s l up
  let s := setDir s l up { x with probeNs := none }
  let s := incF s (R.ARB_LINK_COUNTS l) F.ARB_LINK_COUNTS_RETRIES ((x.groups.map fun e => e.2.replay.length).sum)
  x.groups.foldl (fun s e => e.2.replay.foldl (fun s f => send s .arborFlit l [b2n up, e.1, f.1] f.2) s) s

/-- LINK_RETRAIN (R376): 1 µs after a probe without a report; the third retrain of the link in a watch fences the die (R382). -/
def execLinkRetrain (link : Nat) (up : Bool) (s : State) : Reply :=
  done (onlyIf (dirOn s link up && match (getDir s link up).probeNs with | some t => t + 1000 ≤ s.now | none => false) s fun s =>
    let s := retrainDir s link up
    let s := noteAt (incF s (R.ARB_LINK_COUNTS link) F.ARB_LINK_COUNTS_RETRAINS 1) (linkSrc link) 0x02 clsInfo
    let n := getF s (R.ARB_LINK_STATUS link) F.ARB_LINK_STATUS_RETRAINS_WATCH + 1
    if n ≥ 3 then fenceDie s link else setF s (R.ARB_LINK_STATUS link) F.ARB_LINK_STATUS_RETRAINS_WATCH n)

/-- RETRAINS_WATCH starts again with the watch. -/
def linkWatch (s : State) : State := (List.range 6).foldl (fun s l => setF s (R.ARB_LINK_STATUS l) F.ARB_LINK_STATUS_RETRAINS_WATCH 0) s

/-! ### Bring-up (R377, R379) -/

/-- The groups of a direction from the link repair record. -/
def groupsOf (r : LinkRepair) (l : Nat) (up : Bool) : SMap LaneGroup :=
  r.lanes.foldl (fun (m : SMap LaneGroup) e =>
    if e.1 == l && e.2.1 == b2n (!up) then mapPut m e.2.2.1 { mapGetD {} m e.2.2.1 with failed := (mapGetD {} m e.2.2.1).failed ++ [e.2.2.2] } else m) []

/-- A direction trained from the link repair record: FULL, HALF_MUSTER where a group has more failed carriers than spares, none where a group could not carry that. -/
def trainState (l : Nat) (groups : SMap LaneGroup) : Option Nat :=
  if groups.all fun e => (carriers l e.2.failed).all fun p => !e.2.failed.contains p then some 2
  else if groups.all fun e => halfPossible l e.2.failed then some 3 else none

/-- One direction of a link trained. -/
def trainDir (s : State) (l : Nat) (up : Bool) : Option State :=
  let groups := groupsOf ((flashGet s.flash.links).getD {}) l up
  (trainState l groups).map fun v => showSpared (setDirState (setDir s l up { groups := groups }) l up v) l up

/-- A link trained at bring-up, with lanes newly found faulty recorded first; the die behind one that does not train is fenced (20 R605 stage 6). -/
def trainLink (s : State) (l : Nat) (fails : Bool) (lanes : List (Nat × Nat × Nat × Nat)) : State :=
  let fresh := lanes.filter fun e => e.1 == l && !((flashGet s.flash.links).getD {}).lanes.contains e
  let s := if fresh.isEmpty then s else noteAt (recordLinks s fun r => { r with lanes := r.lanes ++ fresh }) (linkSrc l) 0x02 clsDegraded
  if dieFenced s l then setLinkState s l 4
  else if fails then fenceDie s l
  else
    match (trainDir s l true).bind fun s => trainDir s l false with
    | some t => t
    | none => fenceDie s l

end Sys2Proof.Machine
end

