-- ==== Sys2Proof/Machine/Restart.lean ====
section
/-!
DEFINITION. What a loss of PD0 leaves, and which registers a loss of everything outside PD0 leaves (20 R604, 21 R644, 22 R668, R683, 23 R690).
-/
namespace Sys2Proof.Machine

/-- Whether a control register lies in PD0 (23 R686, R689). (DEDUCED, assumption log 111) -/
def inPd0 (a : Nat) : Bool :=
  let b := (a - 0x20000000000) / 2 ^ 20
  ([2, 3, 4, 5, 6, 0xB] : List Nat).contains b || (R.LNT_STATUS ≤ a && a ≤ R.LNT_LINE 8)

/-- Registers of other blocks that are reloaded from PD0 (23 R690): Tourbillon registers, Escapement state, rings, tables, draws, chart, the reckoning position, and what the boot has found. (DEDUCED, assumption log 111) -/
def reloaded (a : Nat) : Bool :=
  let spans : List (Nat × Nat) := [(R.TRB_COUNTER 0, R.TRB_PER_STEP 63), (R.ARB_ESC_STATUS, R.ARB_ESC_STAGE), (R.CMD_RING_BASE 0, R.CMD_RING_CONSUMED 15), (R.DRD_CHART_EPOCH, R.DRD_TABLE_COUNTS),
    (R.RSEn_DRAW_STATUS 0, R.RSEn_DRAW_BEAT 0), (R.RSEn_DRAW_STATUS 1, R.RSEn_DRAW_BEAT 1), (R.REL_RECKON_STATUS, R.REL_RECKON_REBUILD), (R.REL_RECKON_STALE, R.REL_RECKON_STALE),
    (R.ARB_BOOT_STATUS, R.ARB_WITHHELD), (R.ARB_LINK_POLICY, R.ARB_LINK_POLICY)]
  spans.any fun p => p.1 ≤ a && a ≤ p.2

/-- Every register that neither lies in PD0 nor is reloaded from there returned to its reset value (23 R690). (DEDUCED, assumption log 111) -/
def dropRegs (s : State) : State := { s with regs := s.regs.filter fun e => inPd0 e.1 || reloaded e.1 }

/-- PWR_RATED_TIME and the trips kept in module flash, as they are shown (22 R681, R683). (DEDUCED, assumption log 85) -/
def showSaved (s : State) : State :=
  let s := setF (setF s R.PWR_RATED_TIME F.PWR_RATED_TIME_COUNTED_MS s.flash.counted) R.PWR_RATED_TIME F.PWR_RATED_TIME_EXCLUDED_S s.flash.excluded
  setF s R.PWR_THERMAL F.PWR_THERMAL_TRIPS (min 255 s.flash.trips)

/-- PWR_RATED_TIME saved to module flash (22 R683). (DEDUCED, assumption log 85) -/
def saveRated (s : State) : State :=
  { s with flash := { s.flash with counted := getF s R.PWR_RATED_TIME F.PWR_RATED_TIME_COUNTED_MS, excluded := getF s R.PWR_RATED_TIME F.PWR_RATED_TIME_EXCLUDED_S } }

/-- A loss of PD0 (20 R604): what remains is module flash, the supply and its blade pairs, and a fault or trip to be read after the next cold start (22 R679, R681); excluded says how the time until READY is classed (22 R677). (DEDUCED, assumption log 41) (DEDUCED, assumption log 85) (DEDUCED, assumption log 86) -/
def coldReset (s : State) (excluded : Bool) : State :=
  let t : State := { pending := s.pending, upsets := s.upsets, now := s.now, free := s.free, out := s.out, hostMem := s.hostMem, flash := s.flash,
                     pwr := { supplyOff := s.pwr.supplyOff, ratedNs := s.now, outExcluded := excluded } }
  let keep := fun (t : State) (f : RF) => setF t R.PWR_INPUT f (getF s R.PWR_INPUT f)
  let t := keep (keep (keep t F.PWR_INPUT_SINGLE_FEED) F.PWR_INPUT_FEED_A) F.PWR_INPUT_FEED_B
  let t := setF t R.PWR_INPUT F.PWR_INPUT_SUPPLY_FAULT (b2n s.pwr.supplyOff)
  let t := setF t R.PWR_THERMAL F.PWR_THERMAL_THERMAL_TRIP (b2n s.pwr.tripped)
  setF t R.PWR_RATED_STATUS F.PWR_RATED_STATUS_CLASS (if excluded then 2 else 1)

end Sys2Proof.Machine
end

