-- ==== Sys2Proof/Machine/Release.lean ====
section
/-!
DEFINITION. The memory a command reads or writes, the commands a release holds back, and the release of a step (10 R284, R290, 09 R236, R254).
-/
namespace Sys2Proof.Machine

/-! ### What a command reads or writes (R284) -/

/-- The shards of a table that a module of a chain of n holds: base and length, elements and scales. -/
def shardRanges (t : Bytes) (n : Nat) : List (Nat × Nat) :=
  let rows := cdiv (tbRows t) (tbShards t n)
  (tbStacks t).flatMap fun j =>
    let base := uAt t (64 + 8 * j) 8
    (base, planeSpan rows (tbPitch t) (rowSize t)) :: (if (tbFmt t).fmt.blockScaled then [(base + uAt t 56 8, rows * (tbDim t / 32))] else [])

/-- A table's shards on this module. -/
def tableShards (s : State) (t : Bytes) : List (Nat × Nat) := match chainMembers s (tbChain t) with | some ms => shardRanges t ms.length | none => []

/-- The table descriptor of an embedding command: as read at its start, else as it stands. -/
def tableSeen (s : State) (q c a : Nat) : Bytes :=
  match findExch s q c with
  | some e => e.table
  | none => match runMM (readRaw a 128) s with | (.ok t, _) => t | _ => []

/-- Regions given by descriptor offsets as address ranges. -/
def asRanges (p : Bytes) (rs : List (Nat × Nat)) : List (Nat × Nat) := rs.map fun r => (uAt p r.1 8, r.2)

/-- The ranges a command reads or writes; a plane of rows counts from its first byte to its last. (DEDUCED, assumption log 74) -/
def cmdRanges (s : State) (x : Cmd) : List (Nat × Nat) :=
  let p := x.pkt
  let op := x.hdr.opcode
  if op == opCOPY then [(uAt p 80 8, uAt p 72 8), (uAt p 88 8, uAt p 72 8)]
  else if op == opFILL then [(uAt p 72 8, uAt p 64 8)]
  else if op == opDATA_IN || op == opFERRY_OUT then [(uAt p 96 8, uAt p 88 8)]
  else if op == opDATA_OUT then [(uAt p 88 8, uAt p 80 8)]
  else if op == opSNAPSHOT_OUT then [(uAt p 80 8, uAt p 88 8)]
  else if op == opMATMUL then asRanges p ((mmRegions p).map fun r => (r.1, r.2.1))
  else if op == opLANE_PROGRAM then asRanges p ((laneRegions p).map fun r => (r.1, r.2.1))
  else if op == opUPDATE then asRanges p ((updRegions p).map fun r => (r.1, r.2.1))
  else if op == opEMB_GATHER || op == opEMB_SCATTER_ADD then
    let sc := op == opEMB_SCATTER_ADD
    let t := tableSeen s x.q x.hdr.counter (ebTable sc p)
    (ebTable sc p, 128) :: asRanges p ((embRegions sc p t).map fun r => (r.1, r.2.1)) ++ tableShards s t
  else if op == opRELAY then
    match chainMembers s (rlChain p), fmtAt p 104, fmtAt p 120 with
    | some ms, some a, some b =>
      let n := ms.length
      let q := (posIn s ms).getD 0
      (if rlReads p n q then [(uAt p 136 8, rlElems p * elemBytes a.fmt)] else []) ++ (if rlWrites p n q then [(uAt p 144 8, rlElems p * elemBytes b.fmt)] else [])
    | _, _, _ => []
  else if op == opCOMMIT then (if uAt p 80 8 == 0 then [] else [(uAt p 80 8, 4)])
  else if op == opSELF_TEST then (if uAt p 64 2 == 1 then [(uAt p 72 8, uAt p 80 8)] else [])
  else []

/-- Whether two lists of ranges meet. (DEDUCED, assumption log 74) -/
def rangesMeet (a b : List (Nat × Nat)) : Bool := a.any fun x => b.any fun y => overlaps x.1 x.2 y.1 y.2

/-- The entries a release is to write: those the list held at the decision, before it all of them (R283). -/
def dueEntries (s : State) : List StageEntry := match s.esc.work with | some w => if w.acted then s.esc.list.take w.entries else s.esc.list | none => s.esc.list

/-- The committed ranges on the release list. -/
def listRanges (s : State) : List (Nat × Nat) := (dueEntries s).map fun e => (e.dst, e.bytes)

/-- The places of the staged rows. -/
def stagedRanges (s : State) : List (Nat × Nat) := s.esc.rows.flatMap fun r => (r.elemAddr, r.elems.length) :: (if r.scales.isEmpty then [] else [(r.scaleAddr, r.scales.length)])

/-- The shards of the STATE tables that have staged rows. -/
def stateShards (s : State) : List (Nat × Nat) :=
  ((s.esc.rows.map StageRow.tableAddr).eraseDups).flatMap fun a => match runMM (readRaw a 128) s with | (.ok t, _) => tableShards s t | _ => []

/-- Whether a command works on a STATE table. -/
def onState (s : State) (x : Cmd) : Bool :=
  let sc := x.hdr.opcode == opEMB_SCATTER_ADD
  (sc || x.hdr.opcode == opEMB_GATHER) && tbState (tableSeen s x.q x.hdr.counter (ebTable sc x.pkt))

/-- Whether a command waits for the release or the end of a step that an earlier COMMIT decides (R284). -/
def releaseHolds (s : State) (x : Cmd) : Bool :=
  let due := (s.cmd.cmds.any fun y => y.hdr.opcode == opCOMMIT && y.order < x.order) || escState s == 3 || escState s == 4 || escState s == 5
  due && x.hdr.opcode != opCOMMIT && (onState s x || rangesMeet (cmdRanges s x) (listRanges s ++ stateShards s))

/-- Whether a release must wait for a command that has started (R284, 09 R254). (DEDUCED, assumption log 73) -/
def releaseWaits (s : State) : Bool :=
  let into := listRanges s ++ stagedRanges s
  s.cmd.cmds.any fun x => x.phase != .queued && x.hdr.opcode != opCOMMIT && rangesMeet (cmdRanges s x) into

/-! ### The release (R290) -/

/-- A block whose release fails: its target is poisoned and the failure entered once (R290). -/
def loseReleased (s : State) (e : MemErr) (a : Nat) : State :=
  let s := noteBlockErr s { e with detail := 3 } 0
  let s := match physOf s a with | some pb => poisonBlock s pb | none => s
  { s with esc := { s.esc with lost := s.esc.lost + 1 } }

/-- One block copied to its committed place, with the blocks lost so far (R290 step 1). -/
def releaseBlock (e : StageEntry) (s : State × List Nat) (a : Nat) : State × List Nat :=
  let n := e.bytesAt a
  match runMM (do let bs ← readFull (e.src + (a - e.dst)) 3; if n = 4096 then writeBlock a bs else writeBytes a (bs.take n)) s.1 with
  | (.ok _, t) => (t, s.2)
  | (.error x, t) => (loseReleased t x a, s.2 ++ [a])

/-- Whether a whole committed page is exchanged with its stage page (R290). -/
def swapsPage (e : StageEntry) (a : Nat) : Bool :=
  let b := e.src + (a - e.dst)
  a % pageBytes == 0 && b % pageBytes == 0 && a + pageBytes ≤ e.dst + e.bytes && a < 8 * stackBytes && b < 8 * stackBytes && a / stackBytes == b / stackBytes

/-- One entry of the release list: page by page exchanged, else block by block copied. -/
def releaseEntry (s : State × List Nat) (e : StageEntry) : State × List Nat :=
  (List.range (cdiv e.bytes 4096)).foldl (fun s i =>
    let a := e.dst + i * 4096
    let page := a / pageBytes * pageBytes
    if e.dst ≤ page && swapsPage e page then (if a == page then (exchangePages s.1 page (e.src + (page - e.dst)), s.2) else s)
    else releaseBlock e s a) s

/-- A staged row written into its shard (R290 step 2). -/
def releaseRow (s : State × List Nat) (r : StageRow) : State × List Nat :=
  match runMM (do writeBytes r.elemAddr r.elems; writeBytes r.scaleAddr r.scales) s.1 with
  | (.ok _, t) => (t, s.2)
  | (.error x, t) => (loseReleased t x (x.addr / 4096 * 4096), s.2 ++ [x.addr / 4096 * 4096])

/-- The step number and the draw counters rise in one (R249, R290). -/
def raiseStep (s : State) : State :=
  let s := wr (advanceDraws s) R.ARB_ESC_STEP (BitVec.ofNat 64 (committedStep s + 1))
  { s with esc := { s.esc with risen := true, lost := 0 } }

/-- What waited for the release to end (12 R344, R346, 17 R507, 18 R553). -/
def afterStep (s : State) : State :=
  let s := afterRelease (afterDecision s)
  if s.sec.releasing.any Releasing.waits then releaseGo s else s

/-- The writes of the release, and its end (R290). (DEDUCED, assumption log 73) -/
def releaseAll (s : State) (w : CommitWork) : State :=
  let (s, lost) := s.esc.rows.foldl releaseRow ((dueEntries s).foldl releaseEntry (s, []))
  let s := lost.foldl repairBlock (releaseParity s)
  let s := endCommit s w (if w.confirm == some true then 0x0421 else 0, s.esc.lost, committedStep s)
  let s := { s with esc := { s.esc with list := s.esc.list.drop w.entries, rows := [], applied := [], work := none } }
  afterStep (setEsc (showEsc s) 0)

/-- RELEASE (R290): on a decision to commit the step number rises; the staged writes go to their places once no started command reads or writes there. (DEDUCED, assumption log 73) -/
def execRelease (s : State) : Reply :=
  done (match s.esc.work with
    | none => s
    | some w =>
      if !w.acted || escState s != 3 then s
      else
        let s := if s.esc.risen then s else raiseStep s
        if releaseWaits s then s else inClass 3 s fun s => releaseAll s w)

end Sys2Proof.Machine
end

