-- ==== Sys2Proof/Machine/Lantern.lean ====
section
/-!
DEFINITION. Sweeps of rings, the Lantern bus, fades and spare lasers (15 R440 to R455, 20 R620).
-/
namespace Sys2Proof.Machine

/-! ### Sweeps (R441 to R446) -/

/-- A line of the Lantern, and a line changed. -/
def getLine (s : State) (k : Nat) : LanternLine := mapGetD {} s.rose.lines k
def modLine (s : State) (k : Nat) (f : LanternLine → LanternLine) : State := { s with rose := { s.rose with lines := mapPutD {} s.rose.lines k (f (getLine s k)) } }

/-- The laser that carries a line, and the state of its spare (R465). -/
def lineActive (s : State) (k : Nat) : Bool := flagF s (R.LNT_LINE k) F.LNT_LINE_ACTIVE
def spareState (s : State) (k : Nat) : Nat := getF s (R.LNT_LINE k) F.LNT_LINE_SPARE_STATE

/-- Whether a line is dark: the laser that carries it is not lit, as LINE_STATUS was last read (R441, R448). -/
def lineDark (s : State) (k : Nat) : Bool := if lineActive s k then !(getLine s k).status.testBit 2 else !(getLine s k).status.testBit 0

/-- Peaks as runs: a gap of 500 GHz or more begins a new one (R441). (DEDUCED, assumption log 57) -/
def peakRuns : List (Nat × Nat) → List (List (Nat × Nat))
  | [] => []
  | [p] => [[p]]
  | p :: q :: r =>
    match peakRuns (q :: r) with
    | [] => [[p]]
    | run :: more => if q.2 ≥ p.2 + 500 then [p] :: run :: more else (p :: run) :: more

/-- Whether peaks lie at the places of the lines they stand for, 200 GHz apart (R441). -/
def spaced : List ((Nat × Nat) × Nat) → Bool
  | a :: b :: r =>
    let want := (b.2 - a.2) * 200
    let got := b.1.2 - a.1.2
    decide (got ≤ want + Config.sweepTolerance) && decide (want ≤ got + Config.sweepTolerance) && spaced (b :: r)
  | _ => true

/-- The peaks of a sweep with their lines, where they form runs of the lit lines: the first run ends at λ8, each run after a gap begins at λ0, and only the first and the last may be parts (R441). (DEDUCED, assumption log 57) -/
def readSweep (lit : List Nat) (peaks : List (Nat × Nat)) : Option (List ((Nat × Nat) × Nat)) :=
  match peakRuns peaks with
  | first :: second :: more =>
    let runs := second :: more
    let head := first.zip (lastN first.length lit)
    let rest := runs.map fun r => r.zip lit
    let whole := runs.dropLast.all fun r => r.length == lit.length
    if first.length ≤ lit.length && runs.all (fun r => r.length ≤ lit.length) && whole && spaced head && rest.all spaced then some (head ++ rest.flatten) else none
  | _ => none

/-- The lowest heater code at which a ring meets its own line, with the peaks read (R441). (DESIGN CHOICE, assumption log 56) -/
def sweepTarget (s : State) (n : Nat) (peaks : List (Nat × Nat)) : Option Nat :=
  let lit := (List.range 9).filter fun k => !lineDark s k || k == ringWave n
  (readSweep lit peaks).bind fun l => (l.find? fun e => e.2 == ringWave n).map fun e => e.1.1

/-- The peak nearest to a heater code. (DESIGN CHOICE, assumption log 56) -/
def nearestPeak (code : Nat) (peaks : List (Nat × Nat)) : Option Nat :=
  (peaks.foldl (fun (acc : Option (Nat × Nat)) p =>
    let d := if p.1 ≤ code then code - p.1 else p.1 - code
    match acc with
    | some (b, _) => if d < b then some (d, p.1) else acc
    | none => some (d, p.1)) none).map Prod.snd

/-- Whether a dog watch of 32 beats or more is open (R444, R445). -/
def longWatch (s : State) : Bool := s.mer.dogEnd.isSome && dwLength s ≥ 32

/-- Whether the lane of a ring under the rotation of R445 has left its wavelength, so that the ring may sweep. -/
def clearOf (s : State) (n : Nat) : Bool :=
  let p := ringPort n
  if ringKind n == 2 then true else if !inService s p then true else !(lanesOf s p (ringKind n == 0)).contains (ringWave n)

/-- Whether a ring sweeps now (R442, R455): it is SWEEPING, or due in a dog watch of 32 beats or more. -/
def maySweep (s : State) (n : Nat) : Bool :=
  let r := getRing s n
  isRing n && !dieFenced s (4 + n / 1024) && flagF s R.LNT_STATUS F.LNT_STATUS_ENABLED && r.state != 5 && (r.state == 1 || (r.due && longWatch s && (!r.verify || clearOf s n)))

/-- A failed sweep: counted and logged; the ring stays out, and the fourth dog watch in a row makes it FAILED (R441, R444). -/
def sweepFailed (s : State) (n : Nat) : State :=
  let s := incF s (R.RSEn_BEARING_COUNTS (n / 1024)) F.RSEn_BEARING_COUNTS_SWEEP_FAILS 1
  let s := modRing s n fun r => { r with state := if r.fails + 1 ≥ 4 then 5 else 3, fails := r.fails + 1, due := false, verify := false, clean := 0 }
  noteAt s (lineSource (ringWave n)) 0x03 clsInfo

/-- A ring locked to its line in order 0 after a sweep (R441, R461). -/
def sweepLocked (s : State) (n code : Nat) : State :=
  modRing s n fun r => { r with state := 2, heater := code % 65536, order := 0, line := ringWave n, fails := 0, due := false, verify := false, clean := 0 }

/-- RING_SWEEP (R441, R444, R445): the sweep ends; a ring under the rotation was on its own line in order 0 where its old code stands nearest the target, and a receive lane then returns at once; otherwise it is a misbearing. -/
def execRingSweep (ring : Nat) (peaks : List (Nat × Nat)) (s : State) : Reply :=
  done (onlyIf (maySweep s ring) s fun s =>
    let r := getRing s ring
    let s := incF s (R.RSEn_BEARING_COUNTS (ring / 1024)) F.RSEn_BEARING_COUNTS_SWEEPS 1
    match sweepTarget s ring peaks with
    | none => sweepFailed s ring
    | some code =>
      let s := sweepLocked s ring code
      if !r.verify then s
      else if nearestPeak r.heater peaks == some code then
        (if ringKind ring == 1 && ringWave ring < 8 && inService s (ringPort ring) then bringBack s (ringPort ring) (ringWave ring) else s)
      else misbear s ring)

/-- Rings that wait for a sweep begin it at the opening of a dog watch of 32 beats or more: misbearings, and rings marked by a check (R443, R444). (DEDUCED, assumption log 57) (DEDUCED, assumption log 107) -/
def startRelocks (s : State) : State :=
  if !longWatch s then s
  else s.rose.rings.foldl (fun s e => if e.2.state == 3 || (e.2.due && !e.2.verify && e.2.state != 5) then modRing s e.1 fun r => { r with state := 1, due := true } else s) s

/-- Rings whose sweep the dog watch did not hold wait for the next one (R455). -/
def stopRelocks (s : State) : State :=
  s.rose.rings.foldl (fun s e => if e.2.state == 1 && e.2.due then modRing s e.1 fun r => { r with state := 3 } else s) s

/-- A ring marked for verification, where it is locked. -/
def markVerify (s : State) (n : Nat) : State := if (getRing s n).state == 2 then modRing s n fun r => { r with due := true, verify := true } else s

/-- The rotation of R445 for one direction of a port: a direction without a spare, or whose spare is in use, skips it. -/
def verifyDirection (s : State) (p : Nat) (tx : Bool) (k : Nat) : State :=
  let n := ringNo p (if tx then 0 else 1) k
  if (localWaves s (currentDraw s) p tx).length < 9 || (lanesOf s p tx).contains 8 || (getRing s n).state != 2 then s
  else if k == 8 then markVerify s n
  else if tx then markVerify s n
  else
    match (lanesOf s p false).idxOf? k with
    | some i => if spareFree s p false then markVerify (askChange s p true i 8) n else s
    | none => s

/-- The verification of wavelength k = (w div P) mod 9 in a dog watch of 32 beats or more; switch rings that the draw leaves unused are swept too (R445). -/
def startVerify (s : State) : State :=
  if !longWatch s then s
  else
    let k := watchNow s / dwPeriod s % 9
    allPorts.foldl (fun s p =>
      let s := if inService s p then verifyDirection (verifyDirection s p false k) p true k else s
      if (entryAt (drawWord s (roseOf p) (currentDraw s) (localOf p)) k).isNone then markVerify s (ringNo p 2 k) else s) s

/-- The check of R440 at a beat: rings the environment finds outside their window, with the line they hold; a misbearing filter takes its lane out (R444). -/
def bearingBeat (s : State) (rings : SMap Nat) : State :=
  rings.foldl (fun s e =>
    if isRing e.1 && (getRing s e.1).state == 2 then
      let s := modRing (misbear s e.1) e.1 fun r => { r with line := e.2 % 16 }
      if ringKind e.1 == 1 && inService s (ringPort e.1) then takeWaveOut s (ringPort e.1) (ringWave e.1) else s
    else s) s

/-! ### The Lantern bus (R447 to R449) -/

/-- Whether the Lantern's bus is lost, and whether there is a Lantern to speak to. (DEDUCED, assumption log 59) -/
def busLost (s : State) : Bool := flagF s R.LNT_STATUS F.LNT_STATUS_LOST
def busUp (s : State) : Bool := flagF s R.LNT_STATUS F.LNT_STATUS_PRESENT && !busLost s

/-- A register of the Lantern written (R448). -/
def lanternWrite (s : State) (reg value : Nat) : State := send s .lantern 0 [reg, value]

/-- LANTERN_BUS_TIMEOUT (R449): three retries, then LOST; while LOST the try of each watch fails without a retry. -/
def execLanternBusTimeout (s : State) : Reply :=
  done (onlyIf (flagF s R.LNT_STATUS F.LNT_STATUS_ENABLED && !busLost s) s fun s =>
    if s.rose.busTries < 3 then
      incF { s with rose := { s.rose with busTries := s.rose.busTries + 1 } } R.LNT_STATUS F.LNT_STATUS_BUS_ERRORS 1
    else
      let s := { s with rose := { s.rose with busTries := 0, lostWatch := watchNow s } }
      tellBluvisen (noteAt (setF s R.LNT_STATUS F.LNT_STATUS_LOST 1) (lineSource 15) 0x03 clsInfo) 449 [])

/-! ### Spare-ins (R452 to R454) -/

/-- LNT_LINE shows the beat of a spare-in set for one (R465). -/
def showSched (s : State) (k : Nat) : State := setF s (R.LNT_LINE k) F.LNT_LINE_SCHED_BEAT (((getLine s k).spare.bind SpareIn.beat).getD 0)

/-- A spare-in that cannot be: an entry and a report, and lanes go on until R410 takes them out (R454). -/
def spareFails (s : State) (k : Nat) : State := showSched (tellBluvisen (noteAt (modLine s k fun l => { l with spare := none }) (lineSource k) 0x03 clsInfo) 454 [k]) k

/-- SPARE_WARM set where the spare is dark and the bus works (R452, R454). (DEDUCED, assumption log 58) -/
def warmSpare (s : State) (k : Nat) : State :=
  if spareState s k == 0 && busUp s then
    let s := setF (lanternWrite s (0x10 + 2 * k) 2) (R.LNT_LINE k) F.LNT_LINE_SPARE_STATE 1
    modLine s k fun l => { l with spare := l.spare.map fun (x : SpareIn) => { x with warmNs := s.now } }
  else s

/-- The beat of the next dog watch to open, none without a chart (R452). -/
def nextDogWatch (s : State) : Option Nat := s.fab.chart.map fun c => nextOpen c (beatNow s + 1)

/-- A spare-in asked for: at once in place of a scheduled one, or in the next dog watch (R452, R454). (DEDUCED, assumption log 58) -/
def askSpare (s : State) (k : Nat) (atOnce : Bool) : State :=
  if lineActive s k || spareState s k == 4 then spareFails s k
  else
    match (getLine s k).spare with
    | some x => if atOnce && !x.atOnce then showSched (warmSpare (modLine s k fun l => { l with spare := some { x with atOnce := true, beat := none, goNs := none } }) k) k else s
    | none => showSched (warmSpare (modLine s k fun l => { l with spare := some { atOnce := atOnce, warmNs := s.now, beat := if atOnce then none else nextDogWatch s } }) k) k

/-- Whether a port is one that R435 holds for a redraw. -/
def redrawHolds (s : State) (p : Nat) : Bool := (inService s p || portState s p == 7) && isMember s (chartedPeer s p)

/-- SWITCH_ARM and the holds of a spare-in at beat b, during the beat before (R453); on a redraw beat it starts 42 µs later and one hold covers both (R437). -/
def armSpare (s : State) (k b : Nat) : State :=
  let redraw := match s.fab.redraw with | some (r, _) => r == b | none => false
  let s := lanternWrite s 0x70 (16 + k)
  let s := allPorts.foldl (fun s p =>
    if inService s p && (lanesOf s p true).contains k && !(redraw && redrawHolds s p) then sendHold s p b (if redraw then 242 else 200) 1 else s) s
  showSched (modLine s k fun l => { l with spare := l.spare.map fun (x : SpareIn) => { x with beat := some b, goNs := some (if redraw then 62000 else 20000) } }) k

/-- Whether another line is set for a beat (R454: one line is spared per beat). -/
def beatTaken (s : State) (k b : Nat) : Bool := (List.range 9).any fun j => j != k && (match (getLine s j).spare with | some x => x.beat == some b && x.goNs.isSome | none => false)

/-- A spare-in given a beat: armed now where that is the next one, else when the beat before it begins. (DEDUCED, assumption log 58) -/
def setSpareBeat (s : State) (k b : Nat) : State :=
  if b == beatNow s + 1 && !beatTaken s k b then armSpare s k b
  else showSched (modLine s k fun l => { l with spare := l.spare.map fun (x : SpareIn) => { x with beat := some b } }) k

/-- A scheduled spare-in that a beat does not hold takes the next beat of the dog watch, or waits for the next dog watch (R454, R455). -/
def laterBeat (s : State) (x : SpareIn) (b : Nat) : Option Nat :=
  if x.atOnce then some (b + 1)
  else if s.fab.chart.isSome && afterDogWatch s (b + 1) != b + 1 then some (b + 1) else nextDogWatch s

/-- A line's spare-in at the start of a beat: it warms, gives up, waits, takes a beat, or is armed for the next one (R453, R454). -/
def spareBeat (s : State) (k : Nat) : State :=
  match (getLine s k).spare with
  | none => s
  | some x =>
    if x.gone then s
    else if !busUp s || !locked s then showSched (modLine s k fun l => { l with spare := some { x with beat := if x.atOnce then none else x.beat, goNs := none } }) k
    else if spareState s k == 4 || lineActive s k then spareFails s k
    else if spareState s k == 0 then warmSpare s k
    else if spareState s k == 1 && s.now ≥ x.warmNs + 20000000 then spareFails s k
    else
      match x.beat with
      | none =>
        if spareState s k != 2 then s
        else if x.atOnce then setSpareBeat s k (beatNow s + 2)
        else match nextDogWatch s with | some b => setSpareBeat s k b | none => s
      | some b =>
        if b > beatNow s + 1 then s
        else if b == beatNow s + 1 && spareState s k == 2 && !beatTaken s k b then armSpare s k b
        else if b ≥ beatNow s && x.goNs.isSome then s
        else
          let y : SpareIn := { x with beat := laterBeat s x (max b (beatNow s + 1)), goNs := none }
          showSched (modLine s k fun l => { l with spare := some y }) k

/-- LASER_SPARE_IN (R453): at its time after the beat the armed line is switched, while scheduled events run and the bus works. -/
def execLaserSpareIn (line : Nat) (s : State) : Reply :=
  done (match (getLine s line).spare with
    | none => s
    | some x =>
      match x.beat, x.goNs with
      | some b, some d =>
        onlyIf (line < 9 && !x.gone && busUp s && locked s && b * 65536 + d ≤ countNow s) s fun s =>
          let s := lanternWrite s 0x72 1
          let s := setF (setF s (R.LNT_LINE line) F.LNT_LINE_ACTIVE 1) (R.LNT_LINE line) F.LNT_LINE_SPARE_STATE 3
          showSched (modLine s line fun l => { l with spare := some { x with gone := true, beat := none } }) line
      | _, _ => s)

/-- SPARE_STATE as LINE_STATUS says it (R448, R465). -/
def spareStateOf (s : State) (k st : Nat) : Nat :=
  if st.testBit 5 then 4 else if lineActive s k then 3 else if st.testBit 3 then 2 else if st.testBit 2 || spareState s k == 1 then 1 else 0

/-- The status of a line as read after an alert: PRIMARY_OFF once SWITCHING has cleared, and a spare found locked lets a spare-in that waits take the first beat 20 µs on (R452, R453). (DEDUCED, assumption log 59) -/
def lineAlert (s : State) (k st : Nat) : State :=
  let s := modLine s k fun l => { l with status := st }
  let s := setF s (R.LNT_LINE k) F.LNT_LINE_SPARE_STATE (spareStateOf s k st)
  match (getLine s k).spare with
  | none => s
  | some x =>
    if x.gone then (if st.testBit 6 then s else modLine (lanternWrite s (0x10 + 2 * k) 7) k fun l => { l with spare := none })
    else if spareState s k == 4 then spareFails s k
    else if x.atOnce && x.beat.isNone && spareState s k == 2 && locked s then setSpareBeat s k (cdiv (countNow s + 20000) 65536)
    else s

/-- Every ring in service waits for its first sweep (R442). -/
def firstSweeps (s : State) : State :=
  ([0, 1].filter fun d => !dieFenced s (4 + d)).foldl (fun s d => (ringsOf d).foldl (fun s n => modRing s n fun r => { r with state := 1 }) s) s

/-- LANTERN_ALERT (R447, R449): ALERT is read and cleared, the lines it names are read; a bus that answers is no longer LOST, and a Lantern that bring-up did not find is then there, so that the first sweeps run. -/
def execLanternAlert (alert : Nat) (status : List Nat) (s : State) : Reply :=
  done (onlyIf (flagF s R.LNT_STATUS F.LNT_STATUS_ENABLED && (flagF s R.LNT_STATUS F.LNT_STATUS_PRESENT || busLost s) && alert != 0) s fun s =>
    let s := if flagF s R.LNT_STATUS F.LNT_STATUS_PRESENT then s else firstSweeps (setF s R.LNT_STATUS F.LNT_STATUS_PRESENT 1)
    let s := setF (lanternWrite s 0x06 (alert % 1024)) R.LNT_STATUS F.LNT_STATUS_LOST 0
    let s := { s with rose := { s.rose with busTries := 0 } }
    (List.range 9).foldl (fun s k => if alert.testBit k then lineAlert s k (status.getD k 0 % 128) else s) s)

/-- The bus is tried again once per watch while LOST (R449): the ALERT register is read. -/
def busWatch (s : State) : State :=
  if busLost s && s.rose.lostWatch < watchNow s then send { s with rose := { s.rose with lostWatch := watchNow s } } .lantern 1 [0x06] else s

/-! ### Feed readings and fades (R450 to R452, R463, 20 R620) -/

/-- A value in two's complement, 16 bits. -/
def twos16 (x : Int) : Nat := (x % 65536).toNat

/-- The median of a list of readings: the middle one, or the mean of the middle two. -/
def median (l : List Int) : Int :=
  let q := sortBy (fun a b => decide (a ≤ b)) l
  let n := q.length
  if n = 0 then 0 else if n % 2 = 1 then q.getD (n / 2) 0 else (q.getD (n / 2 - 1) 0 + q.getD (n / 2) 0) / 2

/-- The feed register of reading i: fibre i / 9, line i mod 9. (DEDUCED, assumption log 59) -/
def feedReg (i : Nat) : Nat := R.RSEn_FEED (i / 36) (i % 36)

/-- Whether a commissioning value of each reading is held for the Lantern found (R450, 20 R620). -/
def commissioned (s : State) : Bool :=
  match flashGet s.flash.feed with
  | some r => r.readings.length == 72 && r.serial == s.rose.serial && !s.rose.rerecord
  | none => false

/-- A commissioning value, two's complement. -/
def commissionedAt (s : State) (i : Nat) : Int :=
  let v := getF s (feedReg i) F.RSEn_FEED_COMMISSIONED
  if v ≥ 32768 then (v : Int) - 65536 else v

/-- Commissioning values of the feed record shown in the registers, with LOW for those outside +8.0 to +11.0 dBm (R450, R463). -/
def showFeed (s : State) (readings : List Int) : State :=
  (readings.zipIdx.take 72).foldl (fun s e =>
    let s := setF s (feedReg e.2) F.RSEn_FEED_COMMISSIONED (twos16 e.1)
    setF (setF s (feedReg e.2) F.RSEn_FEED_LOW (b2n (decide (e.1 < 800) || decide (e.1 > 1100)))) (feedReg e.2) F.RSEn_FEED_FEED_FAULT 0) s

/-- The 72 readings recorded as commissioning values with the Lantern's SERIAL (R450); fades begin anew against them. (DEDUCED, assumption log 77) -/
def recordFeeds (s : State) (readings : List Int) : State :=
  let r : FeedRecord := { serial := s.rose.serial, readings := readings.map twos16 }
  let s := showFeed { s with flash := { s.flash with feed := flashPut s.flash.feed r }, rose := { s.rose with rerecord := false } } readings
  (List.range 9).foldl (fun s k => setF (modLine s k fun l => { l with recent := [], sum := 0, count := 0, acted := [] }) (R.LNT_LINE k) F.LNT_LINE_FADE_STATE 0) s

/-- Commissioning in a dog watch of 16 beats or more: under a chart that lists the module, not in a step, with no record for this Lantern (R450, 20 R620). (DEDUCED, assumption log 107) -/
def feedDue (s : State) : Bool := s.mer.dogEnd.isSome && dwLength s ≥ 16 && (ownEntry s).isSome && !inStep s && flagF s R.LNT_STATUS F.LNT_STATUS_PRESENT && !commissioned s

/-- Thresholds of R452 that have acted and not recovered, as FADE_STATE shows the highest. -/
def setActed (s : State) (k : Nat) (l : List Nat) : State :=
  setF (modLine s k fun x => { x with acted := l }) (R.LNT_LINE k) F.LNT_LINE_FADE_STATE (l.foldl max 0)

/-- A threshold against an average: what acts now, and what has recovered by 0.5 dB (R452). -/
def threshold (s : State) (k t : Nat) (avg : Int) : Bool × State :=
  let lim : Int := -100 * (t : Int)
  let a := (getLine s k).acted
  if decide (avg ≤ lim) && !a.contains t then (true, setActed s k (a ++ [t]))
  else if decide (avg ≥ lim + 50) && a.contains t then (false, setActed s k (a.filter (· != t)))
  else (false, s)

/-- FADE_CHECK at the end of a watch: the watch averages, −1.0 dB and −2.0 dB (R452). -/
def fadeWatch (s : State) (k : Nat) : State :=
  let l := getLine s k
  if l.count == 0 then s
  else
    let avg := l.sum / (l.count : Int)
    let s := modLine s k fun x => { x with sum := 0, count := 0 }
    let (hit, s) := threshold s k 1 avg
    let s := if hit then noteAt s (lineSource k) 0x03 clsInfo else s
    let (hit, s) := threshold s k 2 avg
    if hit then tellBluvisen (noteAt (askSpare s k false) (lineSource k) 0x03 clsInfo) 452 [k] else s

/-- FADE_CHECK at a beat: the average of the last 16 fades, −3.0 dB (R452). -/
def fadeBeat (s : State) (k : Nat) (fade : Int) : State :=
  let s := modLine s k fun x => { x with recent := lastN 16 (x.recent ++ [fade]), sum := x.sum + fade, count := x.count + 1 }
  let l := getLine s k
  if l.recent.length < 16 then s
  else
    let (hit, s) := threshold s k 3 (l.recent.sum / 16)
    if hit then askSpare s k true else s

/-- The fade of a line at a beat, and the feed faults of its fibres (R451). -/
def lineBeat (s : State) (readings : List Int) (k : Nat) : State :=
  let fibres := (List.range 8).filter fun f => !dieFenced s (4 + f / 4)
  let diffs := fibres.map fun f => (f * 9 + k, readings.getD (f * 9 + k) 0 - commissionedAt s (f * 9 + k))
  let fade := median (diffs.map Prod.snd)
  let s := diffs.foldl (fun s d =>
    let off := decide (d.2 - fade > 100) || decide (fade - d.2 > 100)
    let was := flagF s (feedReg d.1) F.RSEn_FEED_FEED_FAULT
    let s := setF (setF s (feedReg d.1) F.RSEn_FEED_FADE (twos16 fade)) (feedReg d.1) F.RSEn_FEED_FEED_FAULT (b2n off)
    if off && !was then noteAt s (lineSource k) 0x03 clsInfo else s) s
  if fibres == [] then s else fadeBeat s k fade

/-- The watch averages of the feeds shown, and a new watch begun (R463). -/
def feedWatch (s : State) : State :=
  let s := if s.rose.feedCount == 0 then s
    else (s.rose.feedSum.zipIdx.take 72).foldl (fun s e => setF s (feedReg e.2) F.RSEn_FEED_NOW (twos16 (e.1 / (s.rose.feedCount : Int)))) s
  let s := { s with rose := { s.rose with feedSum := [], feedCount := 0 } }
  if commissioned s then (List.range 9).foldl fadeWatch s else s

/-- The feeds at the start of a beat: the readings are added, the fades checked, the watch closed at its last beat, and commissioning runs where it is due (R450 to R452, 20 R620). -/
def feedBeatStart (s : State) (newWatch : Bool) (readings : List Int) : State :=
  let s := if newWatch then busWatch (feedWatch s) else s
  let s := if readings.length < 72 then s
    else
      let sum := (List.range 72).map fun i => s.rose.feedSum.getD i 0 + readings.getD i 0
      let s := { s with rose := { s.rose with feedSum := sum, feedCount := s.rose.feedCount + 1 } }
      let s := if commissioned s then (List.range 9).foldl (fun s k => lineBeat s readings k) s else s
      let s := if beatNow s % 16384 == 16383 then feedWatch s else s
      if feedDue s then recordFeeds s (readings.take 72) else s
  (List.range 9).foldl spareBeat s

end Sys2Proof.Machine
end

