-- ==== Sys2Proof/Machine/Tests.lean ====
section
/-!
DEFINITION. Self-tests and calibrations: background tests, and disruptive ones deferred to a dog watch (19 R586 to R591).
-/
namespace Sys2Proof.Machine

/-! ### The packet (R586, R587) -/

/-- CODE and TARGET. -/
def tsCode (p : Bytes) : Nat := uAt p 64 2
def tsTarget (p : Bytes) : Nat := uAt p 66 2

/-- Number of targets of a listed code; one, numbered 0, where the code names none (R587). -/
def testTargets (cal : Bool) (code : Nat) : Option Nat :=
  match cal, code with
  | false, 0x01 => some 1
  | false, 0x02 => some 96
  | false, 0x03 => some 16
  | false, 0x04 => some 6
  | false, 0x10 => some 96
  | false, 0x11 => some 5
  | true, 0x01 => some 1
  | true, 0x10 => some 32
  | true, 0x11 => some 1
  | true, 0x12 => some 8
  | true, 0x13 => some 6
  | _, _ => none

/-- Dog-watch beats a disruptive code needs; none for a background one (R587). -/
def testBeats (cal : Bool) (code : Nat) : Option Nat :=
  match cal, code with
  | false, 0x10 => some 16
  | false, 0x11 => some 64
  | true, 0x10 => some 32
  | true, 0x11 => some 16
  | true, 0x12 => some 64
  | true, 0x13 => some 16
  | _, _ => none

/-- Whether a packet is a MEM_SCAN. -/
def isScan (cal : Bool) (p : Bytes) : Bool := !cal && tsCode p == 1

/-- Format checks of SELF_TEST and CALIBRATE (R586). (DEDUCED, assumption log 76) -/
def testChecks (cal : Bool) (p : Bytes) : List (Bool × Nat) :=
  let n := testTargets cal (tsCode p)
  let range := if isScan cal p then [alignOk p 72 8 4096, (uAt p 80 8 % 4096 == 0 && uAt p 80 8 ≤ 2 ^ 40, 80)] else [rsvOk p 72 8, rsvOk p 80 8]
  [(n.isSome, 64), (n.all fun n => tsTarget p < n, 66), rsvOk p 68 4] ++ range ++ [rsvOk p 88 8]

/-! ### Targets and outcomes -/

/-- The unit a test is for, as a source number: array, vector engine, link, memory, stack or port; the module where the code names none. -/
def testSource (cal : Bool) (code target : Nat) : Nat :=
  match cal, code with
  | false, 0x02 => srcOf 3 target
  | false, 0x03 => srcOf 5 target
  | false, 0x04 => srcOf 2 target
  | false, 0x10 => srcOf 3 target
  | false, 0x11 => srcOf 0xE target
  | true, 0x10 => srcOf 9 target
  | true, 0x12 => srcOf 1 target
  | true, 0x13 => srcOf 2 target
  | _, _ => srcOf 0 0

/-- Whether an array is enabled. -/
def testArrayOn (s : State) (g : Nat) : Bool := arrayOn s (g / 24) (g % 24)

/-- Whether the target is there and not fenced (R591). (DEDUCED, assumption log 76) -/
def targetOn (s : State) (cal : Bool) (code target : Nat) : Bool :=
  match cal, code with
  | false, 0x02 => testArrayOn s target
  | false, 0x03 => engineOn s 5 target
  | false, 0x04 => !dieFenced s target
  | false, 0x10 => testArrayOn s target
  | false, 0x11 => target ≥ 4 || !dieFenced s target
  | true, 0x10 => !dieFenced s (roseOf target + 4)
  | true, 0x11 => flagF s R.LNT_STATUS F.LNT_STATUS_PRESENT && !flagF s R.LNT_STATUS F.LNT_STATUS_LOST
  | true, 0x12 => !stackFailed s target
  | true, 0x13 => !dieFenced s target
  | _, _ => true

/-- One strike against a unit in which a test found a fault (R281, R591): an array, a Vernier or an engine. -/
def strikeUnit (s : State) (src : Nat) : State :=
  let kind := src / 4096
  let inst := src % 4096
  if kind == 3 then strikeArray s inst 4
  else if kind == 4 then strikeVernier s inst 4
  else if kind == 5 || kind == 6 || kind == 7 then
    let due := strikeFences s src
    let s := strike s src 4
    if due then fenceEngine s kind inst else s
  else s

/-- The entry of an outcome (R572, R590). -/
def testEntry (s : State) (src code status unit : Nat) : State := logEvent s src 0x07C0 (if status == 0 then clsInfo else clsDegraded) code status unit

/-- STATUS, DETAIL and DETAIL2 of a test that found a fault in a unit (R593). (DEDUCED, assumption log 76) -/
def testFailed (code src : Nat) : Nat × Nat × Nat := (0x0701, code, src % 4096)

/-- A command of a test ended with an outcome and its entry. -/
def endTest (s : State) (q c src code : Nat) (o : Nat × Nat × Nat) : State :=
  testEntry (endCmd s q c o.1 0 o.2.1 o.2.2) src code o.1 o.2.2

/-! ### Background tests (R588) -/

/-- The blocks of a range read in order until one fails. -/
def scanBlocks : List Nat → MM Unit
  | [] => pure ()
  | a :: r => do
    let _ ← readFull a 0
    scanBlocks r

/-- MEM_SCAN: a block that fails makes TEST_FAILED with the memory that holds it; a place without memory is a missing target. -/
def runScan (s : State) (q c : Nat) (p : Bytes) : State :=
  let base := uAt p 72 8
  match runMM (scanBlocks ((List.range (uAt p 80 8 / 4096)).map fun i => base + i * 4096)) s with
  | (.ok _, s) => endTest s q c (srcOf 0 0) 1 (0, 0, 0)
  | (.error e, s) =>
    if isBlockErr e then
      let src := match physOf s e.addr with | some pa => memSource pa | none => srcOf 1 0
      endTest (blockFailed s e 0) q c src 1 (testFailed 1 src)
    else endTest s q c (srcOf 0 0) 1 (0x0702, 1, 0)

/-- The unit in which an upset shows itself to a known-answer test: the Vernier of an array for its own sums, else the unit tested. -/
def faultOf (s : State) (src : Nat) : Option Nat :=
  s.upsets.findSome? fun u => match u with
    | .mismatch _ => some src
    | .accFlip _ _ _ => some src
    | .vernFlip _ _ _ => if src / 4096 == 3 then some (srcOf 4 (src % 4096)) else some src
    | .blockSum _ => if src / 4096 == 3 then some (srcOf 4 (src % 4096)) else some src
    | _ => none

/-- A background test other than MEM_SCAN and OSC_TRIM. -/
def runKat (s : State) (q c : Nat) (p : Bytes) : State :=
  let code := tsCode p
  let src := testSource false code (tsTarget p)
  match faultOf s src with
  | none => endTest s q c src code (0, 0, 0)
  | some f => endTest (strikeUnit s f) q c src code (testFailed code f)

/-- The work of a running background test. -/
def testWork (s : State) (q c : Nat) : State :=
  match findCmd s q c with
  | none => s
  | some x => if isScan false x.pkt then runScan s q c x.pkt else runKat s q c x.pkt

/-- SELF_TEST (R586 to R588): its packet at intake, or the work of a running background test. -/
def execSelfTest (a : CmdArg) (s : State) : Reply :=
  done (match a with
    | .intake => intakeWork s opSELF_TEST (bodyChecks 128 (testChecks false))
    | .work q c ups => onlyIf (isRunning s q c opSELF_TEST) s fun s => inClass 4 s fun s => withUpsets ups s fun s => testWork s q c)

/-- The reference a measurement of the fast oscillator takes (21 R636): XIN_A (1), else markers of the upstream port in UP or DEGRADED (2), else none (0). (DEDUCED, assumption log 77) -/
def oscReference (s : State) : Nat :=
  if !flagF s R.CLK_XIN_STATUS F.CLK_XIN_STATUS_XIN_A_LOST then 1
  else match upstream s with
    | some (p, _) => if portState s p == 5 || portState s p == 6 then 2 else 0
    | none => 0

/-- A measurement of the fast oscillator started (21 R636); without a reference the code is held and REF reads 0. -/
def startOsc (s : State) : State :=
  let r := oscReference s
  let s := setF s R.CLK_OSC F.CLK_OSC_REF r
  { s with pwr := { s.pwr with oscRef := if r = 0 then none else some r } }

/-- A running OSC_TRIM for which no measurement runs has ended (21 R636). (DEDUCED, assumption log 77) -/
def trimWork (s : State) (q c : Nat) : State := if s.pwr.oscRef.isNone then endTest s q c (srcOf 0 0) 1 (0, 0, 0) else s

/-- CALIBRATE (R586 to R589): its packet at intake, or the work of a running OSC_TRIM. -/
def execCalibrate (a : CmdArg) (s : State) : Reply :=
  done (match a with
    | .intake => intakeWork s opCALIBRATE (bodyChecks 128 (testChecks true))
    | .work q c _ => onlyIf (isRunning s q c opCALIBRATE) s fun s => trimWork s q c)

/-! ### Disruptive tests (R589, R590) -/

/-- The beat by which a request must have begun. -/
def deferralEnd (s : State) (acceptBeat : Nat) : Nat := acceptBeat + dwDeferral s * 16384

/-- Whether a dog watch long enough opens before the deferral of a request ends (R589). (DEDUCED, assumption log 107) -/
def deferralHolds (s : State) (need acceptBeat : Nat) : Bool :=
  match s.fab.chart with
  | some c => need ≤ dwLength s && nextOpen c (beatNow s) < deferralEnd s acceptBeat
  | none => false

/-- The start of a SELF_TEST or CALIBRATE (R588, R589): a background test begins, a disruptive one is deferred. -/
def testBegin (s : State) (x : Cmd) : State :=
  let cal := x.hdr.opcode == opCALIBRATE
  let code := tsCode x.pkt
  let target := tsTarget x.pkt
  let src := testSource cal code target
  match testBeats cal code with
  | some need =>
    if deferralHolds s need x.acceptBeat then
      let s := endCmd s x.q x.hdr.counter 0x0030 0 0 0
      let t : DeferredTest := { record := mkRec x.hdr x.key true 0 0 0 0, code := code, target := target, acceptBeat := x.acceptBeat, order := x.order }
      { s with ladder := { s.ladder with tests := s.ladder.tests ++ [t] } }
    else endTest s x.q x.hdr.counter src code (0x0031, 0, 0)
  | none =>
    if !targetOn s cal code target then endTest s x.q x.hdr.counter src code (0x0702, code, target)
    else if cal then trimWork (startOsc s) x.q x.hdr.counter
    else s

/-- Whether a deferred test is a CALIBRATE. -/
def isCal (t : DeferredTest) : Bool := t.record.opcode == opCALIBRATE

/-- What a disruptive request does to its target as it begins: RING_SWEEP sweeps every ring of the port, FEED_RECORD has the readings recorded (R587). -/
def beginDeferred (s : State) (t : DeferredTest) : State :=
  if !isCal t then s
  else if t.code == 0x10 then (List.range 3).foldl (fun s kind => (List.range 9).foldl (fun s k => modRing s (ringNo t.target kind k) fun r => if r.state == 5 then r else { r with state := 1 }) s) s
  else if t.code == 0x11 then { s with rose := { s.rose with rerecord := true } }
  else s

/-- A request changed in place. -/
def modTest (s : State) (order : Nat) (f : DeferredTest → DeferredTest) : State :=
  { s with ladder := { s.ladder with tests := s.ladder.tests.map fun t => if t.order == order then f t else t } }

/-- A request takes its place in the dog watch that has opened, if it fits: after the ones before it (R589); a target that is fenced or missing ends it (R591). -/
def placeTest (s : State) (t : DeferredTest) : State :=
  let need := (testBeats (isCal t) t.code).getD 0
  if t.running || s.mer.dogEnd.all fun e => e < s.ladder.testsEnd + need then s
  else
    let s := { s with ladder := { s.ladder with testsEnd := s.ladder.testsEnd + need } }
    if targetOn s (isCal t) t.code t.target then beginDeferred (modTest s t.order fun t => { t with running := true }) t
    else modTest s t.order fun t => { t with running := true, outcome := some (0x0702, t.code, t.target) }

/-- Deferred requests at the opening of a dog watch, in acceptance order, behind the module's own sweeps, which take 32 beats where a ring sweeps; none while the module is in a step (02 R33, R589). -/
def placeTests (s : State) : State :=
  if inStep s then s
  else
    let own := if s.rose.rings.any fun r => maySweep s r.1 then 32 else 0
    let s := { s with ladder := { s.ladder with testsEnd := beatNow s + own } }
    s.ladder.tests.foldl placeTest s

/-- The follow-up record and the entry of a deferred request (R590). -/
def followUp (s : State) (t : DeferredTest) (o : Nat × Nat × Nat) : State :=
  let s := { s with ladder := { s.ladder with tests := s.ladder.tests.filter fun u => u.order != t.order } }
  let s := testEntry s (testSource (isCal t) t.code t.target) t.code o.1 o.2.2
  if (getStream s t.record.stream).key == t.record.key && sliceState s == 2 && mySlice s == t.record.sliceTag then
    emitRecord s { t.record with status := o.1, detailStatus := 0x0030, detail := o.2.1 % 65536, detail2 := o.2.2 }
  else s

/-- A request by its order of acceptance. -/
def testAt (s : State) (order : Nat) : Option DeferredTest := s.ladder.tests.find? fun t => t.order == order

/-- DEFERRED_FOLLOW_UP (R590, R591): a request that runs ends, with the unit in which it found a fault. -/
def execDeferredFollowUp (order : Nat) (fault : Option Nat) (s : State) : Reply :=
  done (match testAt s order with
    | none => s
    | some t =>
      if !t.running then s
      else match t.outcome, fault with
        | some o, _ => followUp s t o
        | none, none => followUp s t (0, 0, 0)
        | none, some f => followUp (strikeUnit s f) t (testFailed t.code f))

/-- DEFERRED_TIMEOUT (R589, R590): the deferral of a request that has not run has passed. -/
def execDeferredTimeout (order : Nat) (s : State) : Reply :=
  done (match testAt s order with
    | none => s
    | some t => if t.running || beatNow s < deferralEnd s t.acceptBeat then s else followUp s t (0x0031, 0, 0))

end Sys2Proof.Machine
end

