-- ==== Sys2Proof/Machine/Start.lean ====
section
/-!
DEFINITION. The start of an accepted command: its conditions, its start checks in their order, and the beginning of its work; waits, and work that runs again (02 R28 to R34, 03 R56 to R61, R699, 10 R276, R284).
-/
namespace Sys2Proof.Machine

/-! ### When a command may start (R28, R30, R34, R56, R284) -/

/-- The beat at which a command's start falls due: the first after the dog watch that holds it, else its START_BEAT (02 R28). (DEDUCED, assumption log 75) -/
def dueBeat (x : Cmd) : Option Nat := match x.heldBeat with | some b => some b | none => if x.hdr.atBeat then some x.hdr.startBeat else none

/-- Whether an event that comes before command starts on the beat now running is still to be acted on (02 R30). -/
def eventsDue (s : State) : Bool :=
  let b := beatNow s
  let opens := match s.fab.chart with | some c => opensAt c b && s.mer.dogEnd.isNone && locked s | none => false
  let closes := match s.mer.dogEnd with | some e => e ≤ b | none => false
  let redraw := match s.fab.redraw with | some (r, _) => r ≤ b | none => false
  opens || closes || s.fab.waiting.any (docDue s) || redraw || s.fab.settling.isSome

/-- Whether the engines of a command take another one: 32 relays (06 R164), eight exchanges (08 R209). -/
def unitFree (s : State) (op : Nat) : Bool :=
  if op == opRELAY then s.fleet.relays.length < 32
  else if op == opEMB_GATHER || op == opEMB_SCATTER_ADD then s.fleet.exchanges.length < 8
  else true

/-- Every start condition but the wait fence and the order of streams. -/
def mayStart (s : State) (x : Cmd) : Bool :=
  let pred := if opClass x.hdr.opcode == 2 then predRetired s x.q x.hdr.counter else predIssued s x.q x.hdr.counter
  let due := match dueBeat x with | some b => b * 65536 ≤ countNow s && (b != beatNow s || !eventsDue s) | none => true
  x.phase == .queued && pred && due && unitFree s x.hdr.opcode && !releaseHolds s x

/-- Whether a command still waits on its fence (R58). -/
def fenceLow (s : State) (x : Cmd) : Bool := x.hdr.wait && mapGetD 0 s.cmd.fences x.hdr.waitFence < x.hdr.waitValue

/-- Whether a command of a lower stream is to start first on the beat on which this one falls due (02 R30, order 6). (DEDUCED, assumption log 80) -/
def behindStream (s : State) (x : Cmd) : Bool :=
  (dueBeat x).isSome && s.cmd.cmds.any fun y => y.q < x.q && dueBeat y == dueBeat x && mayStart s y && !fenceLow s y

/-- The moment from which a command's wait limit runs (R60). -/
def noteWait (s : State) (x : Cmd) : Cmd := if x.waitNs.isNone && fenceLow s x && mayStart s x then { x with waitNs := some s.now } else x

/-- Waits that begin now, over every command with a wait fence. -/
def noteWaits (s : State) : State :=
  if s.cmd.cmds.any fun x => x.phase == .queued && x.waitNs.isNone && fenceLow s x then { s with cmd := { s.cmd with cmds := s.cmd.cmds.map (noteWait s) } } else s

/-! ### Start checks (R699) -/

/-- DIE_FENCED on a module withdrawn (13 R384). (DEDUCED, assumption log 68) -/
def withdrawnFault (s : State) : Option (Nat × Nat × Nat) :=
  if flagF s R.ARB_LINK_POLICY F.ARB_LINK_POLICY_WITHDRAW then ((List.range 6).find? fun d => dieFenced s d).map fun d => (0x0240, d, 0) else none

/-- FEATURE_WITHHELD: the features of a compute die that a MATMUL needs (20 R613). (DEDUCED, assumption log 68) -/
def featureFault (s : State) (x : Cmd) : Option (Nat × Nat × Nat) :=
  let held := fun (n : Nat) => bitF s R.ARB_WITHHELD F.ARB_WITHHELD_COMPUTE n
  if x.hdr.opcode != opMATMUL then none
  else if held 0 && cfmtAt x.pkt 78 == some .p2 then some (0x0720, 0x100, 78)
  else if held 1 && mmSplit x.pkt > 1 then some (0x0720, 0x101, 77)
  else if held 2 && cfmtAt x.pkt 78 == some .fp64 then some (0x0720, 0x102, 78)
  else none

/-- The first field of a SET_STREAM outside its range (R55). -/
def setStreamFault (p : Bytes) : Nat :=
  if !(1 ≤ uAt p 64 4 && uAt p 64 4 ≤ 3600000) then 64 else if !(1 ≤ uAt p 68 4 && uAt p 68 4 ≤ 3600000) then 68 else 72

/-- The start checks of an opcode's own chapter, in its order; t is the table of an embedding command. -/
def ownFault (s : State) (x : Cmd) (t : Bytes) : Option (Nat × Nat × Nat) :=
  let p := x.pkt
  let op := x.hdr.opcode
  let suspect := fun (f : Option (Nat × Nat × Nat)) => if suspectHere s then some (0x0447, 5, 0) else f
  if op == opSET_STREAM then (if setStreamOk p then none else some (0x0013, setStreamFault p, 0))
  else if op == opCOPY then (copyStart s p).map fun f => (0x0113, f.1, f.2)
  else if op == opFILL then (fillStart s p).map fun f => (0x0113, f.1, f.2)
  else if op == opDATA_IN then dataInStart s p
  else if op == opDATA_OUT then dataOutStart s p
  else if op == opMATMUL then matmulFault s p
  else if op == opLANE_PROGRAM then laneFault s p
  else if op == opEMB_GATHER then suspect (embFault s false p t)
  else if op == opEMB_SCATTER_ADD then suspect (embFault s true p t)
  else if op == opRELAY then suspect (relayFault s p)
  else if op == opUPDATE then
    match updateStart s p with
    | some f => some (0x0413, f.1, f.2)
    | none => if (enginesOf s 7 (uAt p 120 4)).isEmpty then some (0x0221, uAt p 120 4, 0) else none
  else if op == opCOMMIT then commitStart s p
  else if op == opSNAPSHOT_OUT then snapStart s p
  else if op == opFERRY_OUT then ferryStart s p
  else if op == opSTAND_IN then standInStart s p
  else none

/-- The regions a command writes, at its work or at the release of what it stages: descriptor offset, address, length. (DEDUCED, assumption log 79) -/
def writtenRanges (s : State) (x : Cmd) (t : Bytes) : List (Nat × Nat × Nat) :=
  let p := x.pkt
  let op := x.hdr.opcode
  let at_ := fun (off n : Nat) => (off, uAt p off 8, n)
  if op == opCOPY then [at_ 88 (uAt p 72 8)]
  else if op == opFILL then [at_ 72 (uAt p 64 8)]
  else if op == opDATA_IN then [at_ 96 (uAt p 88 8)]
  else if op == opMATMUL then ((mmRegions p).filter fun r => r.2.2.1).map fun r => at_ r.1 r.2.1
  else if op == opLANE_PROGRAM then ((laneRegions p).filter fun r => r.2.2).map fun r => at_ r.1 r.2.1
  else if op == opUPDATE then ((updRegions p).filter fun r => r.2.2 || r.1 ≤ 152).map fun r => at_ r.1 r.2.1
  else if op == opEMB_GATHER then ((embRegions false p t).filter fun r => r.2.2).map fun r => at_ r.1 r.2.1
  else if op == opEMB_SCATTER_ADD then (tableShards s t).map fun r => (72, r.1, r.2)
  else if op == opRELAY then
    match chainMembers s (rlChain p), fmtAt p 120 with
    | some ms, some b => if rlWrites p ms.length ((posIn s ms).getD 0) then [at_ 144 (rlElems p * elemBytes b.fmt)] else []
    | _, _ => []
  else []

/-- RECKON_RANGE: a write into a parity or parity-stage extent (17 R504). (DEDUCED, assumption log 79) -/
def parityFault (s : State) (x : Cmd) (t : Bytes) : Option (Nat × Nat × Nat) :=
  (writtenRanges s x t).findSome? fun r => (parityHit s r.2.1 r.2.2).map fun a => (0x0440, r.1, a)

/-- The RNG field of a command and the number of draws it takes; wide says that a scatter-add's positions exceed 2^32 (09 R248, R250). -/
def drawsOf (s : State) (x : Cmd) (t : Bytes) : Option (Nat × Nat × Bool) :=
  let p := x.pkt
  let op := x.hdr.opcode
  if op == opMATMUL then some (uAt p 80 4, mmDraws p, false)
  else if op == opLANE_PROGRAM then some (uAt p 88 4, laneDraws p, false)
  else if op == opRELAY then some (uAt p 100 4, relayDraws p, false)
  else if op == opEMB_GATHER then some (uAt p 168 4, embDraws s false p t, false)
  else if op == opEMB_SCATTER_ADD then some (uAt p 100 4, embDraws s true p t, 2 ^ 32 < ebLookups true p * tbDim t)
  else if op == opUPDATE then some (uAt p 76 4, updDraws p, false)
  else none

/-- ESC_LIST_FULL: too few entries of the release list (10 R283). -/
def listFault (s : State) (x : Cmd) : Option (Nat × Nat × Nat) :=
  if x.hdr.opcode == opUPDATE && !listRoom s (updEntries x.pkt) then some (0x0435, 0, 0) else none

/-- The first of a list of checks that fails. -/
def firstOf (l : List (Option (Nat × Nat × Nat))) : Option (Nat × Nat × Nat) := l.findSome? id

/-- The first start check that fails, in the order of R699, behind DIE_FENCED: status, DETAIL, DETAIL2. (DEDUCED, assumption log 75) -/
def startFault (s : State) (x : Cmd) (t : Bytes) : Option (Nat × Nat × Nat) :=
  let draws := match drawsOf s x t with | some (r, n, w) => drawFault s r n w | none => none
  firstOf [featureFault s x, ownFault s x t, parityFault s x t, draws, listFault s x]

/-! ### The beginning of a command's work -/

/-- Work of a command begun, each opcode by its own chapter; the general commands have none and end at once. -/
def beginWork (s : State) (x : Cmd) (t : Bytes) : State :=
  let q := x.q
  let c := x.hdr.counter
  let p := x.pkt
  let op := x.hdr.opcode
  if op == opDATA_IN then dataInBegin s q c p
  else if op == opDATA_OUT then dataOutBegin s q c p
  else if op == opMATMUL then matmulBegin s q c p
  else if op == opLANE_PROGRAM then laneBegin s q c p
  else if op == opEMB_GATHER then embBegin s q c false p t
  else if op == opEMB_SCATTER_ADD then embBegin s q c true p t
  else if op == opRELAY then relayBegin s q c p
  else if op == opUPDATE then updateBegin s q c p
  else if op == opCOMMIT then commitBegin s q c x.gen p
  else if op == opSNAPSHOT_OUT then snapBegin s q c p
  else if op == opFERRY_OUT then ferryBegin s q c p
  else if op == opSTAND_IN then standInBegin s q c p
  else if op == opATTEST then attestRun s q c p
  else if op == opSLICE_RELEASE then beginRelease s 0 (some (q, c))
  else if op == opSELF_TEST || op == opCALIBRATE then testBegin s x
  else if op == opCOPY then modCmd s q c fun y => { y with cursor := uAt p 64 8 }
  else if op == opFILL then s
  else endCmd s q c 0 0 0 0

/-- A failed start check: the entry of a skew, and the end of the command (09 R250, R699). (DEDUCED, assumption log 78) -/
def failCheck (s : State) (x : Cmd) (t : Bytes) (f : Nat × Nat × Nat) : State :=
  let s := match f.1 == 0x0410, drawsOf s x t with | true, some (r, _, _) => noteSkew s x.q r | _, _ => s
  failStart s x.q x.hdr.counter f.1 f.2.1 f.2.2

/-- The table of an embedding command as its start reads it, empty for any other (08 R205). (DEDUCED, assumption log 110) -/
def tableFor (s : State) (x : Cmd) : Except MemErr Bytes × State :=
  if x.hdr.opcode == opEMB_GATHER then tableAt s x.q x.hdr.counter (ebTable false x.pkt)
  else if x.hdr.opcode == opEMB_SCATTER_ADD then tableAt s x.q x.hdr.counter (ebTable true x.pkt)
  else (.ok [], s)

/-- A command whose conditions hold starts: it enters a step if it begins one (02 R33), takes its window (09 R247), passes its start checks and begins its work. (DEDUCED, assumption log 78) -/
def startNow (s : State) (x : Cmd) : State :=
  match withdrawnFault s with
  | some f => failStart s x.q x.hdr.counter f.1 f.2.1 f.2.2
  | none =>
    let s := if isStepOp x.hdr.opcode then setF s R.ARB_ESC_STATUS F.ARB_ESC_STATUS_IN_STEP 1 else s
    match tableFor s x with
    | (.error e, s) => failStart (blockFailed s e x.hdr.counter) x.q x.hdr.counter e.status e.detail (if isBlockErr e then e.addr / 4096 * 4096 else e.addr)
    | (.ok t, s) =>
      match startFault s x t with
      | some f => failCheck s x t f
      | none =>
        let w := match drawsOf s x t with | some (r, n, _) => if n = 0 then 0 else windowOf s r | none => 0
        let y := { x with phase := .running, startedNs := s.now, gen := (s.fab.tables.map TableSet.epoch).getD 0, window := w }
        beginWork (modCmd s x.q x.hdr.counter fun _ => y) y t

/-! ### Work that runs again (10 R276) -/

/-- Whether a tainted command is to run again: nothing but its own work or data has ended it. (DEDUCED, assumption log 81) -/
def runsAgain (x : Cmd) : Bool :=
  let st : Nat := match x.stop with | some k => k.status | none => if x.phase == CmdPhase.ended then x.status else 0
  x.rerun && !(([0x0001, 0x0020, 0x0021, 0x0240, 0x0710, 0x0711] : List Nat).contains st)

/-- Whether the tiles that tainted a command have settled. (DEDUCED, assumption log 81) -/
def taintSettled (s : State) (x : Cmd) : Bool := !(s.comp.tiles.any fun t => t.stream == x.q && t.counter < x.hdr.counter && t.stage == .held)

/-- A tainted command begun again from its start, with the same window. (DEDUCED, assumption log 81) -/
def restart (s : State) (x : Cmd) : State :=
  let s := dropWork s x false
  let y := { x with phase := .running, issued := false, rerun := false, stop := none, cursor := 0, status := 0, detail := 0, detail2 := 0 }
  let s := modCmd s x.q x.hdr.counter fun _ => y
  match tableFor s y with
  | (.error e, s) => failMem s x.q x.hdr.counter e
  | (.ok t, s) => beginWork s y t

/-! ### The rows -/

/-- An accepted command in its turn: NOT_STARTED_PREDECESSOR behind a failed one (R62), MERIDIAN_ADRIFT at a beat without the lock (02 R28), FENCE_BROKEN (R59), else its start. (DEDUCED, assumption log 78) -/
def startTurn (s : State) (x : Cmd) : State :=
  let q := x.q
  let c := x.hdr.counter
  match haltOf (getStream s q) c with
  | some f => endCmd s q c 0x0003 0 0 f
  | none =>
    if !mayStart s x || behindStream s x then s
    else if (dueBeat x).isSome && !locked s then failStart s q c 0x0340 0 ((dueBeat x).getD 0)
    else if x.hdr.wait && s.cmd.broken.contains x.hdr.waitFence then failStart s q c 0x0023 x.hdr.waitFence 0
    else if fenceLow s x then modCmd s q c (noteWait s)
    else startNow s x

/-- COMMAND_START (R56, 10 R276): an accepted command whose turn has come starts; a tainted one runs again once the tiles that tainted it have settled. -/
def execCommandStart (stream counter : Nat) (s : State) : Reply :=
  done (match findCmd s stream counter with
    | none => s
    | some x =>
      if x.phase == .queued then startTurn s x
      else onlyIf (runsAgain x && taintSettled s x && predIssued s stream counter) s fun s => restart s x)

/-- WAIT_TIMEOUT (R60): a command has waited on its fence beyond its limit. -/
def execWaitTimeout (stream counter : Nat) (s : State) : Reply :=
  done (match findCmd s stream counter with
    | none => s
    | some x =>
      match x.waitNs with
      | none => s
      | some t =>
        onlyIf (x.phase == .queued && fenceLow s x && (haltOf (getStream s stream) counter).isNone && t + x.waitMs * 1000000 < s.now) s fun s =>
          failStart s stream counter 0x0024 x.hdr.waitFence (mapGetD 0 s.cmd.fences x.hdr.waitFence))

end Sys2Proof.Machine
end

