-- ==== Sys2Proof/Machine/Retire.lean ====
section
/-!
DEFINITION. The end of a command: its stop, its timeout, its retirement, and the third reading of a held tile (03 R57 to R68, 09 R251, 10 R276 to R283).
-/
namespace Sys2Proof.Machine

/-! ### Stops and timeouts (R63 to R68, 10 R278) -/

/-- Whether a third reading of one of a command's tiles is still to settle (10 R278). -/
def holdsTile (s : State) (q c : Nat) : Bool := s.comp.tiles.any fun t => t.stream == q && t.counter == c && t.stage == .held

/-- COMMAND_STOP (R63, R65, R67, 10 R278): a stopped command ends at its next cursor unit boundary and keeps its cursor. -/
def execCommandStop (stream counter : Nat) (s : State) : Reply :=
  done (match findCmd s stream counter with
    | none => s
    | some x =>
      match x.stop with
      | none => s
      | some k =>
        onlyIf (x.phase == .running && !holdsTile s stream counter && !runsAgain x) s fun s =>
          endCmd (dropWork s x true) stream counter k.status (cursorOf s x) k.detail k.detail2)

/-- COMMAND_TIMEOUT (R68): the timeout of a started command expires before its retirement begins. -/
def execCommandTimeout (stream counter : Nat) (s : State) : Reply :=
  done (match findCmd s stream counter with
    | none => s
    | some x =>
      onlyIf (x.phase != .queued && x.startedNs != 0 && !beyondStop s x && x.startedNs + x.timeoutMs * 1000000 < s.now) s fun s =>
        if x.phase == .running then haltAt (askStop s stream counter 0x0020 0 0) stream counter
        else haltAt (endCmd s stream counter 0x0020 x.cursor 0 0) stream counter)

/-! ### Retirement (R57 to R62) -/

/-- The release-list entries of an UPDATE: committed base, stage base, bytes (10 R283). -/
def updStaged (p : Bytes) : List StageEntry :=
  let n := updPlane p
  let e := fun (d t : Nat) => StageEntry.mk (uAt p d 8) (uAt p t 8) n
  [e 128 168, e 136 176, e 144 184] ++ (if updOpt p == 1 then [e 152 192] else [])

/-- An UPDATE retires: with OK its entries join the list, each folded into the parity behind those before it; its reservation ends (10 R283, 17 R505). -/
def retireUpdate (s : State) (x : Cmd) : State :=
  let s := if x.status = 0 then
      (updStaged x.pkt).foldl (fun s e =>
        let s := foldEntry s s.esc.list e
        { s with esc := { s.esc with list := s.esc.list ++ [e] } }) s
    else s
  showEsc (freeEntries s x.q x.hdr.counter)

/-- The effects that an opcode's chapter places at retirement, and the command with the outcome they give it (R57). -/
def retireEffect (s : State) (x : Cmd) : State × Cmd :=
  let op := x.hdr.opcode
  if op == opUPDATE then (retireUpdate s x, x)
  else if x.status != 0 then (s, x)
  else if op == opSET_DRAW_COUNTER then
    let (s, d) := retireDraw s x.pkt
    (s, { x with detail := d })
  else if op == opKEY_INSTALL then
    let (s, st, d, d2) := keyEffect s x.pkt
    (s, { x with status := st, detail := d, detail2 := d2 })
  else (s, x)

/-- Statuses with which a signal fence is set (R58). -/
def setsFence (status : Nat) : Bool := status == 0 || status == 0x0030 || status == 0x0421

/-- The signal fence of a retiring command set, or marked broken (R58, R59). -/
def signalFence (s : State) (x : Cmd) : State :=
  if !x.hdr.signal then s
  else
    let f := x.hdr.signalFence
    if setsFence x.status then
      { s with cmd := { s.cmd with fences := mapPutD 0 s.cmd.fences f (max (mapGetD 0 s.cmd.fences f) x.hdr.signalValue), broken := setDel f s.cmd.broken } }
    else { s with cmd := { s.cmd with broken := setIns f s.cmd.broken } }

/-- Whether a record says that its command failed in its own right (R62): not a success, not SUSPECT_CONFIRMED, not a stop or refusal for a predecessor. -/
def ownFailure (r : Rec) : Bool := !(setsFence r.status || r.status == 0x0420 || r.status == 0x0003 || (r.status == 0x0001 && r.detail == 1))

/-- The three parts of a retirement, and what waited for it (R57, R62, R64). (DEDUCED, assumption log 109) -/
def retire (s : State) (x : Cmd) : State :=
  let (s, x) := retireEffect s x
  let s := signalFence s x
  let r := recordOf x
  let s := writeRecord s x r
  let s := if ownFailure r then haltAt s x.q x.hdr.counter else s
  let s := dropCmd s x.q x.hdr.counter
  let s := settleClears ((getStream s x.q).clears.length + 1) s x.q
  let s := pruneTables s
  if x.hdr.opcode == opSLICE_RELEASE && s.sec.releasing.any fun r => r.cmd == some (x.q, x.hdr.counter) then endRelease s (x.status == 0x0609) else s

/-- COMMAND_RETIRE (R57): a command whose work has ended retires once its predecessor has and the pilot holds a place for its record. (DEDUCED, assumption log 109) -/
def execCommandRetire (stream counter : Nat) (placeHeld : Bool) (s : State) : Reply :=
  done (match findCmd s stream counter with
    | none => s
    | some x =>
      onlyIf (x.phase == .ended && !runsAgain x && predRetired s stream counter && hasPlace s x.hdr.ring (x.hdr.sliceTag % 4096) placeHeld) s fun s => retire s x)

/-! ### The third reading (10 R279, R280) -/

/-- The third reading of a held tile, if it has begun. -/
def thirdOf (s : State) (t : Tile) : Option Tile := findTile s t.stream t.counter t.index true

/-- THIRD_READING (10 R279): the lowest-numbered enabled arrays of the next die that has enough take the held tile. -/
def execThirdReading (stream counter tile : Nat) (s : State) : Reply :=
  done (match findTile s stream counter tile false with
    | none => s
    | some t =>
      if t.stage != .held || (thirdOf s t).isSome then s
      else match thirdDie s t with
        | none => s
        | some d =>
          let ms := ((arraysOf s d).take t.members.length).map fun a => Member.mk a 0 0 0 [] [] [] [] false false false 0 0
          let x : Tile := { stream := stream, counter := counter, index := tile, die := d, third := true, promo := t.promo, members := ms }
          { s with comp := { s.comp with tiles := s.comp.tiles ++ [x] } })

/-- Whether a third reading can give no verdict: an operand of it could not be read, which has stopped its command (10 R270, R278). -/
def thirdLost (s : State) (t3 : Tile) : Bool :=
  t3.clean.isNone && match findCmd s t3.stream t3.counter with
    | some x => (match x.stop with | some k => k.status == stHallmark || k.status == stUncorrected || k.status == stPoisoned | none => false)
    | none => false

/-- THIRD_READING_SETTLED (10 R276, R280): the outcome of the third reading, or of its absence, fixes the tile kept. -/
def execThirdReadingSettled (stream counter tile : Nat) (ups : List Upset) (s : State) : Reply :=
  done (match findTile s stream counter tile false with
    | none => s
    | some t =>
      if t.stage != .held then s
      else withUpsets ups s fun s =>
        match thirdOf s t with
        | some x => if x.clean.isSome then settleThird s t (some x) else if thirdLost s x then settleThird (dropTile s x) t none else s
        | none => if (thirdDie s t).isNone then settleThird s t none else s)

end Sys2Proof.Machine
end

