-- ==== Sys2Proof/Machine/Logbook.lean ====
section
/-!
DEFINITION. The logbook through Bluvisen, the management core, and the ladder's timeouts and die resets (19 R569 to R592).
-/
namespace Sys2Proof.Machine

/-! ### Entries as bytes (R571) -/

/-- FLAGS of an entry. -/
def entryFlags (e : LogEntry) : Nat := b2n e.opened + 2 * b2n e.alarmed + 4 * b2n (e.count == 2 ^ 32 - 1)

/-- Bytes 0 to 55 of an entry. -/
def entryBody (e : LogEntry) : Bytes :=
  natLe 8 e.time ++ natLe 8 e.lastTime ++ natLe 4 e.seq ++ natLe 4 e.count ++ natLe 2 e.source ++ natLe 2 e.code ++ natLe 1 e.cls ++ natLe 1 (entryFlags e) ++
  natLe 2 (e.slice % 4096) ++ natLe 8 e.a0 ++ natLe 8 e.a1 ++ natLe 8 e.a2

/-- The 64 bytes of an entry, with its CHECK. -/
def entryBytes (e : LogEntry) : Bytes := entryBody e ++ natLe 8 (crc64 0 (entryBody e))

/-- The newest entry of a ring slot (R603). -/
def entrySlot (s : State) (i : Nat) : Option LogEntry := (s.log.entries.filter fun e => e.seq % 4096 == i).getLast?

/-- The entries that are open close (R573). -/
def closeEntries (s : State) : State := { s with log := { s.log with entries := s.log.entries.map fun e => { e with opened := false } } }

/-! ### Streaming, snapshots and heartbeats (R575 to R578) -/

/-- How many entries may still be sent in this second (R575). -/
def entryQuota (s : State) : Nat := 1000 - (if s.log.rateSecond == s.now / 1000000000 then s.log.rateCount else 0)

/-- A signed message of up to 16 entries, each noted as sent now. -/
def sendEntries (s : State) (es : List LogEntry) : State :=
  let b := (es.map entryBytes).flatten
  let (sig, s) := signWith s b
  let sec := s.now / 1000000000
  let n := if s.log.rateSecond == sec then s.log.rateCount else 0
  bluvisen { s with log := { s.log with sent := es.foldl (fun m e => mapPut m e.seq s.now) s.log.sent, rateSecond := sec, rateCount := n + es.length } } .entries (es.map LogEntry.seq) (b ++ sig)

/-- A list cut into pieces of n. -/
def pieces {α : Type} (n : Nat) : Nat → List α → List (List α)
  | 0, _ => []
  | _ + 1, [] => []
  | k + 1, l => l.take n :: pieces n k (l.drop n)

/-- Entries sent in SEQ order, as many as the second allows. -/
def streamThese (s : State) (es : List LogEntry) : State :=
  if bluvisenOn s then (pieces 16 63 (es.take (entryQuota s))).foldl sendEntries s else s

/-- Closed entries that have not been sent (R575). -/
def streamEntries (s : State) : State := streamThese s (s.log.entries.filter fun e => !e.opened && (mapGet s.log.sent e.seq).isNone)

/-- The counter snapshot of a watch (R576): every source's counters, oldest and newest SEQ, the count. (DEDUCED, assumption log 83) -/
def sendSnapshot (s : State) : State :=
  let one := fun (src : Nat) => natLe 2 src ++ natLe 6 (mapGetD 0 s.log.events src) ++ natLe 6 (mapGetD 0 s.log.lost src)
  let srcs := (List.range 65536).filter isSource
  let oldest := match s.log.entries.head? with | some e => e.seq | none => s.log.nextSeq
  let b := (srcs.map one).flatten ++ natLe 4 oldest ++ natLe 4 (s.log.nextSeq + 2 ^ 32 - 1) ++ natLe 8 (countNow s)
  let (sig, s) := signWith s b
  bluvisen s .snapshot [] (b ++ sig)

/-- What a heartbeat carries (R578): SERIAL_DIGEST, fabric ID, newest SEQ, LOG_STATUS, the states of ports and dies. (DEDUCED, assumption log 83) -/
def heartbeatBody (s : State) : Bytes :=
  ownDigest ++ natLe 2 (myFid s) ++ natLe 4 (s.log.nextSeq + 2 ^ 32 - 1) ++ natLe 8 (rd s R.LOG_STATUS).toNat ++ (allPorts.map fun p => natLe 1 (portState s p)).flatten ++
  ((List.range 6).map fun d => natLe 1 (b2n (dieFenced s d))).flatten

/-- Whether heartbeats are sent: from stage 5 on, and in the recovery loader (20 R606, R609). -/
def beating (s : State) : Bool := s.boot.stage ≥ 3 && s.ladder.mgmtDownUntil.isNone && (s.boot.stage ≥ 5 || getF s R.ARB_BOOT_STATUS F.ARB_BOOT_STATUS_STATE == 1)

/-- HEARTBEAT (R578): every 100 ms one is sent, and the watchdog is kicked. -/
def execHeartbeat (s : State) : Reply :=
  done (onlyIf (beating s && s.ladder.lastKickNs + 100000000 ≤ s.now) s fun s =>
    let b := heartbeatBody s
    let (sig, s) := signWith { s with ladder := { s.ladder with lastKickNs := s.now } } b
    bluvisen (incF s R.LOG_MGMT F.LOG_MGMT_HEARTBEATS 1) .heartbeat [] (b ++ sig))

/-- COLLECTOR_ACK (R574, 20 R610): the entry of a SEQ that has been sent is freed; an OVERRUN entry follows once 64 slots are free. A cold start that an update order asks for begins when no entry is left. (DEDUCED, assumption log 83) -/
def execCollectorAck (seq : Nat) (s : State) : Reply :=
  done (onlyIf (bluvisenOn s) s fun s =>
    let s := setF s R.LOG_STATUS F.LOG_STATUS_COLLECTOR_UP 1
    match s.log.entries.find? fun e => e.seq % 2 ^ 32 == seq % 2 ^ 32 && (mapGet s.log.sent e.seq).isSome with
    | none => s
    | some e =>
      let s := placeOverrun (logStatus { s with log := { s.log with entries := s.log.entries.filter fun x => x.seq != e.seq, sent := mapDel s.log.sent e.seq } })
      if s.boot.restartBy.isSome && s.log.entries.isEmpty then coldReset s true else s)

/-- LOG_RESEND_TIMEOUT (R575): entries sent a second ago and not acknowledged are sent again. -/
def execLogResendTimeout (s : State) : Reply :=
  done (
    let late := s.log.entries.filter fun e => match mapGet s.log.sent e.seq with | some t => t + 1000000000 ≤ s.now | none => false
    if late.isEmpty || !bluvisenOn s then s else streamThese (setF s R.LOG_STATUS F.LOG_STATUS_COLLECTOR_UP 0) late)

/-! ### The management core (R592) -/

/-- The management core restarted: silent while it restarts, at most 300 ms; a second restart in a watch calls for a module warm restart. (DEDUCED, assumption log 84) -/
def restartMgmt (s : State) (cause : Nat) : State :=
  let w := watchNow s
  let n := if s.ladder.restartWatch == w then getF s R.LOG_MGMT F.LOG_MGMT_RESTARTS_WATCH else 0
  let s := setF (setF (incF s R.LOG_MGMT F.LOG_MGMT_RESTARTS 1) R.LOG_MGMT F.LOG_MGMT_RESTARTS_WATCH (min 2 (n + 1))) R.LOG_MGMT F.LOG_MGMT_HEARTBEATS 0
  let s := logEvent s (srcOf 0xF 0) 0x07C2 clsRecovered cause (n + 1) 0
  { s with ladder := { s.ladder with restartWatch := w, mgmtDownUntil := some (s.now + 300000000), warmDue := s.ladder.warmDue || n + 1 ≥ 2 } }

/-- MGMT_WATCHDOG (R592): no kick for 100 ms, or a digest of its code that differs from the one the ROM fixed. (DEDUCED, assumption log 84) -/
def execMgmtWatchdog (digestDiffers : Bool) (s : State) : Reply :=
  done (onlyIf (beating s && (digestDiffers || s.ladder.lastKickNs + 100000000 < s.now)) s fun s => restartMgmt s (b2n digestDiffers))

/-! ### Engine timeouts and die resets (R581, R582) -/

/-- A unit the ladder fences (R581): an array, an engine, or the relay engine, whose commands end (R69). -/
def fenceUnit (s : State) (src : Nat) : State :=
  let kind := src / 4096
  let inst := src % 4096
  if kind == 3 then fenceArray s inst
  else if kind == 5 || kind == 6 || kind == 7 then fenceEngine s kind inst
  else s.fleet.relays.foldl (fun s x => fencedOut s src x.stream x.counter) s

/-- Whether a source is a unit whose operations the ladder watches, and it is in service. -/
def watched (s : State) (src : Nat) : Bool :=
  let kind := src / 4096
  let inst := src % 4096
  isSource src && (if kind == 3 then testArrayOn s inst else if kind == 5 || kind == 6 || kind == 7 then engineOn s kind inst else kind == 0xB)

/-- ENGINE_OPERATION_TIMEOUT (R581): an operation beyond 10 ms is retried, then runs again after an engine reset, then its unit is fenced. -/
def execEngineOperationTimeout (source : Nat) (s : State) : Reply :=
  done (onlyIf (watched s source) s fun s =>
    let n := mapGetD 0 s.ladder.rung source
    let set := fun (s : State) (v : Nat) => { s with ladder := { s.ladder with rung := mapPut s.ladder.rung source v } }
    if n == 0 then set (ladderRung s 1 source) 1
    else if n == 1 then set (ladderRung s 2 source) 2
    else fenceUnit (endTimeout s source) source)

/-- COMPUTE_DIE_RESET (R581, R582): rung 3 for a compute die. -/
def execComputeDieReset (die : Nat) (s : State) : Reply := done (onlyIf (die < 4 && s.boot.stage ≥ 6) s fun s => dieRung s die)

end Sys2Proof.Machine
end

