-- ==== Sys2Proof/Machine/Rated.lean ====
section
/-!
DEFINITION. Rated service and its time (22 R676, R677, R682, R683).
-/
namespace Sys2Proof.Machine

/-- Whether the chart has withdrawn this module, whose time then no longer counts (R677). -/
def withdrawnHere (s : State) : Bool := (ownEntry s).isNone && match s.fab.chart with | some c => c.modules.any fun e => e.withdrawn && e.digest == ownDigest | none => false

/-- The time since the last account added in the class that has been in force (R677, R683). (DEDUCED, assumption log 103) -/
def account (s : State) : State :=
  let d := s.now - s.pwr.ratedNs
  let cls := getF s R.PWR_RATED_STATUS F.PWR_RATED_STATUS_CLASS
  let s := { s with pwr := { s.pwr with ratedNs := s.now } }
  if withdrawnHere s then s
  else if cls == 1 then
    let n := s.pwr.countedNs + d
    incF { s with pwr := { s.pwr with countedNs := n % 1000000 } } R.PWR_RATED_TIME F.PWR_RATED_TIME_COUNTED_MS (n / 1000000)
  else if cls == 2 then
    let n := s.pwr.excludedNs + d
    incF { s with pwr := { s.pwr with excludedNs := n % 1000000000 } } R.PWR_RATED_TIME F.PWR_RATED_TIME_EXCLUDED_S (n / 1000000000)
  else s

/-- Enabled matrix arrays (R676). -/
def arraysEnabled (s : State) : Nat := (((List.range 4).filter fun d => !dieFenced s d).map fun d => getF s (R.CDn_ARRAY_STATUS d) F.CDn_ARRAY_STATUS_ENABLED).sum

/-- Whether a port is rated: UP with eight lanes each way, or PASS with its rings in order (R676). (DEDUCED, assumption log 103) -/
def portRated (s : State) (p : Nat) : Bool :=
  (portState s p == 5 && lanesTx s p ≥ 8 && lanesRx s p ≥ 8) ||
  (portState s p == 7 && (List.range 27).all fun i => let st := (getRing s (ringNo p (i / 9) (i % 9))).state; st != 3 && st != 5)

/-- In-use ports that are not rated (R676, R682). -/
def portsNotRated (s : State) : List Nat := allPorts.filter fun p => (ownEntry s).isSome && !(portRec s p).unused && !portRated s p

/-- PWR_RATED_STATUS as the module stands, and the class from now on (R676, R677). (DEDUCED, assumption log 103) -/
def reclass (s : State) : State :=
  let ports := portsNotRated s
  let arrays := arraysEnabled s
  let up := isReady s && anchorState s ≤ 2 && arrays ≥ 92
  let rated := up && ports.isEmpty
  let was := flagF s R.PWR_RATED_STATUS F.PWR_RATED_STATUS_IN_RATED_SERVICE
  let dog := !rated && s.mer.dogEnd.isSome && (s.pwr.outDog || was)
  let s := { s with pwr := { s.pwr with outDog := dog } }
  let dark := up && ports.all fun p => (mapGetD {} s.ports p).lit == []
  let cls := if rated then 0 else if anchorState s ≥ 3 || s.pwr.outExcluded || dog || dark then 2 else 1
  let a := R.PWR_RATED_STATUS
  setF (setF (setF (setF s a F.PWR_RATED_STATUS_PORTS_NOT_RATED (ports.map fun p => 2 ^ p).sum) a F.PWR_RATED_STATUS_ARRAYS arrays) a F.PWR_RATED_STATUS_CLASS cls) a F.PWR_RATED_STATUS_IN_RATED_SERVICE (b2n rated)

end Sys2Proof.Machine
end

