-- ==== Sys2Proof/Machine/Boot.lean ====
section
/-!
DEFINITION. Bring-up: the firmware image and its checks, die words and the revision outcome, flash records, the stages of a cold start, the recovery loader, updates, and the host port's pins (15 R442, R449, 20 R604 to R628, 21 R629 to R638, 22 R660).
-/
namespace Sys2Proof.Machine

/-! ### Loops and domains (21 R630, R637) -/

/-- Reference of a loop: XIN_A (0) for the management and security-island loops, XIN_B (1) for the others; the fast oscillator (2) for the first two while XIN_A is lost (21 R634, R637). -/
def loopRef (s : State) (i : Nat) : Nat := if i ≥ 10 then (if flagF s R.CLK_XIN_STATUS F.CLK_XIN_STATUS_XIN_A_LOST then 2 else 0) else 1

/-- Output of a loop in MHz at its setting; that of the host port's loop is a value the manual does not give (21 R637). -/
def loopFreq (s : State) (i : Nat) : Nat × State :=
  if i < 7 then (getF s (R.CLK_SET i) F.CLK_SET_FREQ_MHZ, s)
  else if i < 9 then (3500, s)
  else if i = 9 then takeFree s
  else if i = 10 then (500, s) else (250, s)

/-- A loop locked at its setting; none is pending then. -/
def lockLoop (s : State) (i : Nat) : State :=
  let (f, s) := loopFreq (setF s (R.CLK_LOOP i) F.CLK_LOOP_PENDING 0) i
  setF (setF (setF s (R.CLK_LOOP i) F.CLK_LOOP_FREQ_MHZ f) (R.CLK_LOOP i) F.CLK_LOOP_LOCKED 1) (R.CLK_LOOP i) F.CLK_LOOP_REF (loopRef s i)

/-- A loop switched off with its domain. -/
def stopLoop (s : State) (i : Nat) : State := setF (setF s (R.CLK_LOOP i) F.CLK_LOOP_FREQ_MHZ 0) (R.CLK_LOOP i) F.CLK_LOOP_LOCKED 0

/-- The loop of a domain, where it has one. -/
def loopOfDomain (d : Nat) : Option Nat :=
  if d = 1 then some 4 else if d = 2 then some 5 else if d = 3 then some 6 else if d = 4 then some 9
  else if 9 ≤ d && d ≤ 12 then some (d - 9) else if d = 13 then some 7 else if d = 14 then some 8 else none

/-- A domain switched on, and its loop with it; the domains of a fenced die are skipped (21 R630). -/
def domainOn (s : State) (d : Nat) : State :=
  if bitF s R.PWR_DOMAIN_FAULT F.PWR_DOMAIN_FAULT_FENCED_OFF d then s
  else match loopOfDomain d with | some i => lockLoop (setPd s d 2) i | none => setPd s d 2

/-- A domain switched off, and its loop with it. -/
def domainOff (s : State) (d : Nat) : State := match loopOfDomain d with | some i => stopLoop (setPd s d 0) i | none => setPd s d 0

/-- The domains of the dies and their order (21 R630): each die's PD9 + n before its PD5 + n. -/
def dieOrder : List Nat := [9, 5, 10, 6, 11, 7, 12, 8, 13, 14]

/-! ### The firmware image (R607, R608) -/

/-- Fields of an image. -/
def imgLength (b : Bytes) : Nat := uAt b 12 4
def imgVersion (b : Bytes) : Nat := uAt b 16 8
def imgSigner (b : Bytes) : Bytes := sub b 64 1952

/-- The first check of R607 that an image fails: 1 its head, 2 the signer, 3 the signature, 4 the floor. (DEDUCED, assumption log 88) -/
def imageFault (s : State) (b : Bytes) : Option Nat :=
  let n := imgLength b
  let head := sub b 0 8 == ascii [73, 90, 57, 70, 87, 73, 77, 71] && uAt b 8 4 == 1 && 8192 ≤ n && n ≤ 2 ^ 27 && b.length == n && uAt b 30 1 < 2 && uAt b 31 1 == 0 && allZero (sub b 40 24)
  if !head then some 1
  else if shake256 (imgSigner b) 32 != Config.signerDigest then some 2
  else if !Config.dsaVerify (imgSigner b) (b.take (n - 3309)) (b.drop (n - 3309)) then some 3
  else if imgVersion b < s.flash.floor then some 4
  else none

/-- ARB_FW_INFO and the versions of DRD_STATUS for the running image (R624, 14 R412). -/
def showImage (s : State) (b : Bytes) : State :=
  let s := setF (setF s R.ARB_FW_INFO F.ARB_FW_INFO_SEC_VERSION (imgVersion b)) R.ARB_FW_INFO F.ARB_FW_INFO_RELEASE (uAt b 24 4)
  let s := setF (setF s R.ARB_FW_INFO F.ARB_FW_INFO_VER_MIN (uAt b 28 1)) R.ARB_FW_INFO F.ARB_FW_INFO_VER_MAX (uAt b 29 1)
  setF (setF s R.DRD_STATUS F.DRD_STATUS_VER_MIN (uAt b 28 1)) R.DRD_STATUS F.DRD_STATUS_VER_MAX (uAt b 29 1)

/-- The fuses blown so far, shown in ARB_FW_INFO (R608). -/
def showFloor (s : State) : State := setF s R.ARB_FW_INFO F.ARB_FW_INFO_FLOOR s.flash.floor

/-- STATE of ARB_BOOT_STATUS. -/
def setBoot (s : State) (v : Nat) : State := setF s R.ARB_BOOT_STATUS F.ARB_BOOT_STATUS_STATE v

/-- Entries of the compatibility table of an image (R612). -/
def compatTable (b : Bytes) : List Bytes := (List.range (uAt b 36 4 / 16)).map fun i => sub b (uAt b 32 4 + 16 * i) 16

/-- A checked image measured and started (R605 stage 3, R607). -/
def runImage (s : State) (b : Bytes) : State :=
  let boot : Boot := { s.boot with stage := 3, mFirmware := digest32 (izName [70, 87, 77] ++ b), codeDigest := digest32 (sub b 2016 (b.length - 5325)), raiseFloor := (uAt b 30 1).testBit 0, compat := compatTable b }
  setBoot (showImage { s with boot := boot, ladder := { s.ladder with lastKickNs := s.now } } b) 2

/-- The recovery loader takes over (R609). -/
def enterRecovery (s : State) : State := setBoot (domainOn { s with boot := { s.boot with stage := 3, mgmtImage := [] }, ladder := { s.ladder with lastKickNs := s.now } } 1) 1

/-! ### Die words and the revision outcome (R611 to R613) -/

/-- Fields of a revision word. -/
def revKind (w : Nat) : Nat := bitsOf w 63 56
def revMajor (w : Nat) : Nat := bitsOf w 55 48
def revMinor (w : Nat) : Nat := bitsOf w 47 40


/-- Whether an entry is the single entry of a revision word. -/
def singleFor (w : Nat) (e : Bytes) : Bool := uAt e 0 1 == revKind w && uAt e 1 1 == revMajor w && uAt e 2 1 == revMinor w && uAt e 3 1 == 0

/-- Whether an entry lists two revisions of one kind, in either order. -/
def pairFor (v w : Nat) (e : Bytes) : Bool :=
  let ord := fun (a b : Nat) => uAt e 1 1 == revMajor a && uAt e 2 1 == revMinor a && uAt e 3 1 == revMajor b && uAt e 4 1 == revMinor b
  uAt e 0 1 == revKind v && uAt e 3 1 != 0 && (ord v w || ord w v)

/-- The feature bits of a kind (R613). -/
def featureBits (kind : Nat) : Nat := if kind = 1 then 7 else if kind = 2 then 3 else if kind = 3 then 1 else 0

/-- What one finding of the table says: the outcome, and withheld bits by kind. (DEDUCED, assumption log 88) -/
def compatFinding (kind : Nat) (e : Option Bytes) : Nat × Nat × Nat := match e with | some e => (min 2 (uAt e 5 1), kind, uAt e 12 4 % 256) | none => (2, kind, 0)

/-- The findings of one die: its entry, the bits it must have, the features it lacks (R612 rules 1 and 2). -/
def dieFindings (tbl : List Bytes) (d : Nat × Nat) : List (Nat × Nat × Nat) :=
  let e := tbl.find? (singleFor d.1)
  let need := match e with | some e => uAt e 8 4 | none => 0
  let k := revKind d.1
  [compatFinding k e, (if need &&& d.2 == need then 0 else 2, k, featureBits k - (featureBits k &&& d.2))]

/-- The findings of every two dies of a kind whose revisions differ (R612 rule 3). -/
def pairFindings (tbl : List Bytes) : List (Nat × Nat) → List (Nat × Nat × Nat)
  | [] => []
  | d :: r =>
    ((r.filter fun e => revKind e.1 == revKind d.1 && (revMajor e.1 != revMajor d.1 || revMinor e.1 != revMinor d.1)).map fun e => compatFinding (revKind d.1) (tbl.find? (pairFor d.1 e.1))) ++ pairFindings tbl r

/-- The module outcome and the withheld masks of compute, Rose and Arbor (R612 rule 4). (DEDUCED, assumption log 88) -/
def moduleOutcome (tbl : List Bytes) (dies : List (Nat × Nat)) : Nat × Nat × Nat × Nat :=
  let fs := dies.flatMap (dieFindings tbl) ++ pairFindings tbl dies
  let mask := fun (k : Nat) => (fs.filter fun f => f.2.1 == k).foldl (fun m f => m ||| f.2.2) 0
  let worst := fs.foldl (fun o f => max o f.1) 0
  (if worst == 0 && (mask 1 != 0 || mask 2 != 0 || mask 3 != 0) then 1 else worst, mask 1, mask 2, mask 3)

/-- A die whose fence the link repair record keeps, held off at bring-up (13 R383, 21 R632). -/
def holdFenced (s : State) (d : Nat) : State :=
  let s := (dieDomains d).foldl (fun s p => setBitF s R.PWR_DOMAIN_FAULT F.PWR_DOMAIN_FAULT_FENCED_OFF p true) (setLinkState s d 4)
  if d < 4 then setF s (R.CDn_ARRAY_STATUS d) F.CDn_ARRAY_STATUS_ENABLED 0 else (rosePorts (d - 4)).foldl (fun s p => setPortState s p 8) s

/-- Dies that a link repair record names as fenced. -/
def recordedDies (s : State) : List Nat := match flashGet s.flash.links with | some r => r.dies | none => []

/-- The words of die d as read; zero where they do not arrive or the die is fenced (R605, R611). -/
def dieWords (s : State) (ws : List (Option (Nat × Nat))) (d : Nat) : Nat × Nat :=
  if d < 6 && dieFenced s d then (0, 0) else match ws.getD d none with | some w => w | none => (0, 0)

/-- Stage 4: Arbor, the link PHYs and debug on, die words read, the outcome decided (R605, R611, R612). (DESIGN CHOICE, assumption log 87) -/
def stage4 (s : State) (x : BringUp) : State :=
  let s := [1, 17, 18, 19].foldl domainOn { s with boot := { s.boot with stage := 4 } }
  let s := (recordedDies s).foldl holdFenced s
  let s := (List.range 6).foldl (fun s d => if (x.words.getD d none).isNone then fenceDie s d else s) s
  let words := (List.range 7).map fun d => dieWords s x.words d
  let s := words.zipIdx.foldl (fun s w => wr (wr s (R.ARB_DIE_REV w.2) (BitVec.ofNat 64 w.1.1)) (R.ARB_DIE_CAP w.2) (BitVec.ofNat 64 w.1.2)) s
  let live := (words.zipIdx.filter fun w => w.2 == 6 || !dieFenced s w.2).map Prod.fst
  let (o, c, r, a) := moduleOutcome s.boot.compat live
  let s := setF s R.ARB_BOOT_STATUS F.ARB_BOOT_STATUS_OUTCOME o
  let s := setF (setF (setF s R.ARB_WITHHELD F.ARB_WITHHELD_COMPUTE c) R.ARB_WITHHELD F.ARB_WITHHELD_ROSE r) R.ARB_WITHHELD F.ARB_WITHHELD_ARBOR a
  let dies := digest32 (izName [68, 73, 69] ++ (words.map fun w => natLe 8 w.1 ++ natLe 8 w.2).flatten)
  let sub := if o == 1 then digest32 (izName [83, 85, 66] ++ natLe 8 (rd s R.ARB_WITHHELD).toNat) else zeros 32
  { s with boot := { s.boot with mDies := dies, mSubset := sub } }

/-! ### Flash records (R615) -/

/-- DIAG_CAUSE 2 where a record fails. -/
def recordFault (s : State) (ok : Bool) : State := if ok then s else setF s R.ARB_BOOT_STATUS F.ARB_BOOT_STATUS_DIAG_CAUSE 2

/-- A stored chart in effect again, if it still verifies (R615, 16 R467). -/
def loadChart (s : State) (d : Bytes) : State :=
  match readChart d with
  | some c =>
    if docSigned s d && uAt d 8 8 == (authRecord s).installation && docKind d == 1 && (docFault s 1 d none).isNone then
      wr { s with fab := { s.fab with chart := some c, mChart := digest32 (izName [67, 72, 84] ++ d) } } R.DRD_CHART_EPOCH (BitVec.ofNat 64 c.epoch)
    else s
  | none => s

/-- A stored amendment in effect again on the chart it follows. -/
def loadAmend (s : State) (d : Bytes) : State :=
  match s.fab.chart.bind fun c => amend c d with
  | some c =>
    if docSigned s d && uAt d 8 8 == (authRecord s).installation && docKind d == 2 && docBase d == chartEpoch s && (docFault s 2 d s.fab.chart).isNone then
      wr { s with fab := { s.fab with chart := some c, mChart := digest32 (s.fab.mChart ++ d), recent := lastN 64 (s.fab.recent ++ [d]) } } R.DRD_CHART_EPOCH (BitVec.ofNat 64 c.epoch)
    else s
  | none => s

/-- The chart store checked again and taken (R615). -/
def loadCharts (s : State) : State :=
  match flashGet s.flash.charts with
  | some (c, as) => if c == [] then s else (sortBy (fun a b => decide (docEpoch a ≤ docEpoch b)) as).foldl loadAmend (loadChart s c)
  | none => s

/-- Stage 5: the boot count, the records and the chart (R615). -/
def stage5 (s : State) : State :=
  let s := { s with boot := { s.boot with stage := 5 } }
  let s := match flashGet s.flash.boots with
    | some n => setF { s with flash := { s.flash with boots := flashPut s.flash.boots (n + 1) } } R.ARB_BOOT_STATUS F.ARB_BOOT_STATUS_BOOT_COUNT (n + 1)
    | none => s
  let f := s.flash
  let s := recordFault s ((flashGet f.authority).isSome && (flashGet f.links).isSome && (flashGet f.fences).isSome && (flashGet f.retired).isSome && (flashGet f.boots).isSome)
  let s := setF s R.SEC_STATUS F.SEC_STATUS_AUTHORITY_SET (b2n (authKey s != []))
  afterChart (loadCharts s) [] []

/-! ### Dies, memory and light (R605 stages 6 to 8) -/

/-- The unit fence record loaded into a die's registers (05 R137, R605 stage 6). (DEDUCED, assumption log 90) -/
def loadFences (s : State) (d : Nat) : State :=
  let r := (flashGet s.flash.fences).getD {}
  let words := (List.range 24).map fun a => (mapGet r.maps (d * 24 + a)).getD (regReset (R.CDn_ARRAY_MAP d a)).toNat
  let s := words.zipIdx.foldl (fun s w => wr s (R.CDn_ARRAY_MAP d w.2) (BitVec.ofNat 64 w.1)) s
  let st := R.CDn_ARRAY_STATUS d
  let out := (words.zipIdx.filter fun w => bitsOf w.1 2 0 == 2).map Prod.snd
  let bits := fun (l : List Nat) => (l.map fun a => 2 ^ a).sum
  let s := setF (setF s st F.CDn_ARRAY_STATUS_FENCED (bits out)) st F.CDn_ARRAY_STATUS_ENABLED (24 - out.length)
  let s := setF s st F.CDn_ARRAY_STATUS_SPARE_IN_USE (b2n (words.any fun w => bitsOf w 12 8 == getF s st F.CDn_ARRAY_STATUS_SPARE_SLOT))
  let s := setF s st F.CDn_ARRAY_STATUS_SPARE_FENCED (b2n (r.units.contains (spareSrc d)))
  let s := setF s (R.CDn_VRN_STATUS d) F.CDn_VRN_STATUS_FENCED (bits ((List.range 24).filter fun a => r.units.contains (srcOf 4 (d * 24 + a))))
  let s := setF s (R.CDn_VRN_STATUS d) F.CDn_VRN_STATUS_BORROWING (bits ((words.zipIdx.filter fun w => bitsOf w.1 2 0 == 1).map Prod.snd))
  (dieEngines d).foldl (fun s e => let (a, f, n) := fenceBit e.1 e.2; setBitF s a f n (r.units.contains (srcOf e.1 e.2))) s

/-- Stage 6: die domains on, the links trained, unit fences loaded (R605). -/
def stage6 (s : State) (x : BringUp) : State :=
  let s := dieOrder.foldl domainOn { s with boot := { s.boot with stage := 6 } }
  let s := (List.range 6).foldl (fun s l => trainLink s l (x.links.contains l) x.lanes) s
  ((List.range 4).filter fun d => !dieFenced s d).foldl loadFences s

/-- The page map of a stack with retired frames (12 R336): pages upward onto the frames that are left, the top ones unbacked. -/
def mapStack (rs : List (Nat × Nat)) (k : Nat) : SMap (Option Nat) :=
  let mine := (rs.filter fun r => r.1 == k).map Prod.snd
  if mine.isEmpty then []
  else
    let frames := ((List.range 32704).filter fun f => !mine.contains f).map some ++ mine.map fun _ => none
    (frames.zipIdx.filter fun e => e.1 != some e.2).map fun e => (k * 32768 + e.2, e.1)

/-- Whether a release scrub is due at bring-up, and the binding it ends (18 R552 case 3, R615): a bind with no release after it, a bind record that is lost, or a scrub that failed. (DEDUCED, assumption log 90) -/
def scrubDue (s : State) : Option (Nat × Nat) :=
  match flashGet s.flash.bind with
  | none => some (0, 0)
  | some r => match r.bind with | some b => some b | none => if uAt (fit 128 r.scrub) 3 1 == 0 then none else some (uAt r.scrub 8 8, uAt r.scrub 0 2)

/-- The release scrub of bring-up under reason 3 (18 R552, R554). (DEDUCED, assumption log 90) -/
def bootScrub (s : State) : State :=
  match scrubDue s with
  | none => s
  | some (bindId, tag) =>
    let s := setSlice { s with sec := { s.sec with releasing := some { reason := 3, tag := tag, bindId := bindId, start := countNow s } } } 3 tag
    scrubRun (setF s R.SEC_SCRUB F.SEC_SCRUB_REASON 3) []

/-- Stage 7: stacks trained, page maps built, the release scrub (R605). -/
def stage7 (s : State) (x : BringUp) : State :=
  let s := [2, 3].foldl domainOn { s with boot := { s.boot with stage := 7 } }
  let rs := (flashGet s.flash.retired).getD []
  let s := { s with hbm := { s.hbm with retired := rs, pages := (List.range 8).flatMap (mapStack rs) } }
  let s := (List.range 8).foldl (fun s k => showRetired (setF s (R.HBM_STACK_STATUS k) F.HBM_STACK_STATUS_STATE (if x.hbm.contains k then 4 else 2)) k) s
  bootScrub s

/-- The first lock sweeps: rings in service lock, at a heater code the manual does not fix, but for those whose sweep fails (15 R441, R442). -/
def lockRings (s : State) (fails : List Nat) : State :=
  ([0, 1].filter fun d => !dieFenced s (4 + d)).foldl (fun s d =>
    (ringsOf d).foldl (fun s n =>
      let s := incF s (R.RSEn_BEARING_COUNTS d) F.RSEn_BEARING_COUNTS_SWEEPS 1
      if fails.contains n then noteAt (incF (modRing s n fun r => { r with state := 5 }) (R.RSEn_BEARING_COUNTS d) F.RSEn_BEARING_COUNTS_SWEEP_FAILS 1) (lineSource (ringWave n)) 0x03 clsInfo
      else
        let (h, s) := takeFree s
        sweepLocked s n h) s) s

/-- A number of 16 bits read as two's complement. -/
def signed16 (v : Nat) : Int := if v % 65536 ≥ 32768 then (v % 65536 : Int) - 65536 else v % 65536

/-- The commissioning values of the feed record shown, where they are those of the Lantern found (15 R450, 20 R615). -/
def showRecord (s : State) : State :=
  match flashGet s.flash.feed with
  | some r => if commissioned s then showFeed s (r.readings.map signed16) else s
  | none => s

/-- The Lantern as it answers (15 R448, R449): refused, taken with its lines, or silent, which is LOST after three retries. -/
def meetLantern (s : State) (x : BringUp) : State :=
  match x.lantern with
  | none =>
    let s := incF (setF { s with rose := { s.rose with lostWatch := watchNow s } } R.LNT_STATUS F.LNT_STATUS_LOST 1) R.LNT_STATUS F.LNT_STATUS_BUS_ERRORS 3
    tellBluvisen (noteAt s (lineSource 15) 0x03 clsInfo) 449 []
  | some l =>
    if l.ident != 0x0109 || l.rev < 1 then setF (setF s R.LNT_STATUS F.LNT_STATUS_ENABLED 0) R.LNT_STATUS F.LNT_STATUS_PRESENT 0
    else
      let s := setF { s with rose := { s.rose with serial := l.serial } } R.LNT_STATUS F.LNT_STATUS_PRESENT 1
      let s := (List.range 9).foldl (fun s k =>
        let s := modLine s k fun y => { y with status := l.status.getD k 0 % 128 }
        setF s (R.LNT_LINE k) F.LNT_LINE_SPARE_STATE (spareStateOf s k (l.status.getD k 0 % 128))) s
      showRecord (if l.ready then lockRings s x.sweepFails else firstSweeps s)

/-- Stage 8: heaters on, LNT_EN raised, the Lantern checked and the first sweeps (R605). -/
def stage8 (s : State) (x : BringUp) : State :=
  let s := [15, 16].foldl domainOn { s with boot := { s.boot with stage := 8 } }
  meetLantern (setF s R.LNT_STATUS F.LNT_STATUS_ENABLED 1) x

/-- The cause of DIAGNOSTIC, 0 for none (R614, R623). (DEDUCED, assumption log 89) -/
def diagCause (s : State) : Nat :=
  if bootOutcome s == 2 then 1 else if getF s R.ARB_BOOT_STATUS F.ARB_BOOT_STATUS_DIAG_CAUSE == 2 then 2 else if identityFault s then 3 else 0

/-- The floor raised to the version of an image that asks for it (R608). (DESIGN CHOICE, assumption log 91) -/
def raiseFloor (s : State) : State :=
  let v := min 255 (getF s R.ARB_FW_INFO F.ARB_FW_INFO_SEC_VERSION)
  if s.boot.raiseFloor && v > s.flash.floor then showFloor { s with flash := { s.flash with floor := v } } else s

/-- What of the module is missing from rated service at bring-up is reported (R605). -/
def reportMissing (s : State) : State :=
  let dies := (List.range 6).filter (dieFenced s)
  let fails := (List.range 8).filter (stackFailed s)
  if dies.isEmpty && fails.isEmpty then s else tellBluvisen s 605 [(dies.map fun d => 2 ^ d).sum, (fails.map fun k => 2 ^ k).sum]

/-- Stage 9: READY, or DIAGNOSTIC (R605, R608, R614, R619, R621). (DEDUCED, assumption log 89) -/
def stage9 (s : State) : State :=
  let why := diagCause s
  let s := setF (setBoot { s with boot := { s.boot with stage := 9 } } (if why == 0 then 4 else 3)) R.ARB_BOOT_STATUS F.ARB_BOOT_STATUS_DIAG_CAUSE why
  let s := account s
  let s := reclass { s with pwr := { s.pwr with outExcluded := false } }
  let s := reportMissing (pilotCheck s)
  if why == 0 then discover (bootReport (raiseFloor s)) else s

/-! ### Cold start and reset (R604, R605) -/

/-- Stages 1 and 2: PD0, its loops, the identity key and the strap (R605, 18 R532). -/
def stage12 (s : State) (x : BringUp) : State :=
  let s := [10, 11].foldl lockLoop (setPd s 0 2)
  let feeds := getF s R.PWR_INPUT F.PWR_INPUT_FEED_A + getF s R.PWR_INPUT F.PWR_INPUT_FEED_B
  let s := if feeds == 0 then setF (setF s R.PWR_INPUT F.PWR_INPUT_FEED_A 1) R.PWR_INPUT F.PWR_INPUT_FEED_B 1 else s
  let s := showFloor (showSaved s)
  let pub := Config.dsaPublic Config.pufSeed
  let s := { s with sec := { s.sec with seed := Config.pufSeed, pub := pub }, boot := { s.boot with stage := 2, strap := x.pilotSel, strapSeen := true } }
  let same := match flashGet s.flash.chain with | some c => Config.chainKey c == pub | none => false
  let s := setF s R.SEC_STATUS F.SEC_STATUS_IDENTITY_FAULT (b2n !same)
  let s := setF s R.ARB_BOOT_STATUS F.ARB_BOOT_STATUS_PILOT_SEL (b2n x.pilotSel)
  pilotCheck (if x.pilotSel then domainOn s 4 else s)

/-- Stages 3 to 9 (R605): without an image that passes, the recovery loader. (DESIGN CHOICE, assumption log 87) (DEDUCED, assumption log 89) -/
def bringUp (s : State) (x : BringUp) : State :=
  match s.flash.image with
  | none => enterRecovery s
  | some b =>
    if (imageFault s b).isSome then enterRecovery s
    else
      let s := runImage s b
      let s := if identityFault s then tellBluvisen s 532 [] else s
      stage9 (stage8 (stage7 (stage6 (stage5 (stage4 s x)) x) x) x)

/-- COLD_START (R604, R605): the stages in order; without the XIN_A loops the module stays at stage 1. (DEDUCED, assumption log 86) (DESIGN CHOICE, assumption log 87) -/
def execColdStart (x : BringUp) (s : State) : Reply :=
  done (onlyIf (s.boot.stage ≤ 1 && !s.pwr.supplyOff && !s.pwr.tripped) s fun s =>
    if x.xinA then bringUp (stage12 s x) x else setPd { s with boot := { s.boot with stage := 1 } } 0 2)

/-- Whether a pulse of MOD_RESET_N counts (22 R660): from 10 µs on; below 1 µs it does not; between them the manual leaves it open. -/
def resetCounts (s : State) (lowUs : Nat) : Bool × State :=
  if lowUs ≥ 10 then (true, s)
  else if lowUs < 1 then (false, s)
  else
    let (n, s) := takeFree s
    (n % 2 == 1, s)

/-- MOD_RESET (R604): a loss of PD0, from which a cold start follows. (DESIGN CHOICE, assumption log 91) -/
def execModReset (lowUs : Nat) (s : State) : Reply :=
  done (onlyIf (!s.pwr.supplyOff) s fun s =>
    let (yes, s) := resetCounts s lowUs
    if yes then coldReset s true else s)

/-! ### Recovery and update (R609, R610) -/

/-- Whether the recovery loader runs (R609). (DEDUCED, assumption log 92) -/
def inRecovery (s : State) : Bool := getF s R.ARB_BOOT_STATUS F.ARB_BOOT_STATUS_STATE == 1 && s.boot.stage == 3

/-- An image completed on either route (R609): what was staged by the other is discarded; it is checked, written, and a cold start begins; a failing check is reported, a failed write leaves the slot invalid. (DEDUCED, assumption log 92) -/
def takeImage (s : State) (b : Bytes) (written : Bool) : State :=
  let s := { s with boot := { s.boot with mgmtImage := [] } }
  match imageFault s b with
  | some n => tellBluvisen s 609 [n]
  | none =>
    if written then coldReset { s with flash := { s.flash with image := some b } } s.pwr.outExcluded
    else { s with flash := { s.flash with image := none } }

/-- RECOVERY_IMAGE_LENGTH (R609): an image written into BAR2, which exists only in RECOVERY; bytes the host has not written read as zero. (DEDUCED, assumption log 92) -/
def execRecoveryImageLength (length : Nat) (image : Bytes) (written : Bool) (s : State) : Reply :=
  done (onlyIf (inRecovery s && flagF s R.ARB_BOOT_STATUS F.ARB_BOOT_STATUS_PILOT_SEL && pdState s 4 == 2) s fun s =>
    if length > 0x8000000 then takeImage s [] written else takeImage s (fit length image) written)

/-- RECOVERY_CHUNK (R609): up to 1,024 bytes of an image at their offset. -/
def execRecoveryChunk (offset : Nat) (data : Bytes) (s : State) : Reply :=
  done (onlyIf (inRecovery s && data.length ≤ 1024 && offset + data.length ≤ 0x8000000) s fun s =>
    { s with boot := { s.boot with mgmtImage := data.zipIdx.foldl (fun m e => mapPut m (offset + e.2) e.1) s.boot.mgmtImage } })

/-- RECOVERY_DONE (R609): LENGTH closes the image that the chunks have brought. -/
def execRecoveryDone (length : Nat) (written : Bool) (s : State) : Reply :=
  done (onlyIf (inRecovery s) s fun s =>
    let m := s.boot.mgmtImage
    if length > 0x8000000 then takeImage s [] written else takeImage s ((List.range length).map fun i => mapGetD 0 m i) written)

/-- What an update order is signed over: its fields in order (DESIGN CHOICE, assumption log 10). -/
def updateBytes (o : UpdateOrder) : Bytes := o.serial ++ o.digest ++ natLe 1 (b2n o.cold)

/-- Why an update order is refused, numbered in the order of R610: 1 not UNBOUND, 2 signature, digest or serial, 3 the image, 4 the floor; 5 not awake (21 R645). (DESIGN CHOICE, assumption log 93) -/
def updateRefusal (s : State) (o : UpdateOrder) : Option Nat :=
  if anchorState s ≥ 2 then some 5
  else if sliceState s != 0 then some 1
  else if !underAuthority s (updateBytes o) o.sig || o.serial != ownDigest || digest32 o.image != o.digest then some 2
  else match imageFault s o.image with
    | some n => some (if n == 4 then 4 else 3)
    | none => none

/-- A cold start that an update order asks for: when the logbook holds no unacknowledged entry, or after 10 s (R610). -/
def restartFor (s : State) : State := if s.log.entries.isEmpty then coldReset s true else { s with boot := { s.boot with restartBy := some (s.now + 10000000000) } }

/-- FIRMWARE_UPDATE_ORDER (R610). -/
def execFirmwareUpdateOrder (o : UpdateOrder) (s : State) : Reply :=
  done (onlyIf (bluvisenOn s && s.boot.stage == 9 && authKey s != []) s fun s =>
    match updateRefusal s o with
    | some n => tellBluvisen s 610 [n]
    | none =>
      let s := { s with flash := { s.flash with image := if o.written then some o.image else none } }
      if o.cold && o.written then restartFor s else s)

/-- UPDATE_RESTART_WAIT_EXPIRY (R610): 10 s after the order. -/
def execUpdateRestartWaitExpiry (s : State) : Reply :=
  done (onlyIf (match s.boot.restartBy with | some t => decide (t ≤ s.now) | none => false) s fun s => coldReset s true)

/-! ### The host port's pins (R616, 22 R660) -/

/-- PILOT_SEL_CHANGE (R616, R700): a level that two samples agree on takes effect; with the strap the host port is powered, without it the link is not kept. (DEDUCED, assumption log 94) -/
def execPilotSelChange (asserted : Bool) (s : State) : Reply :=
  done (onlyIf (s.boot.stage ≥ 2 && s.boot.strapSeen && s.boot.strap == asserted && flagF s R.ARB_BOOT_STATUS F.ARB_BOOT_STATUS_PILOT_SEL != asserted) s fun s =>
    let s := setF s R.ARB_BOOT_STATUS F.ARB_BOOT_STATUS_PILOT_SEL (b2n asserted)
    pilotCheck (if asserted && anchorState s != 3 && pdState s 4 == 0 then domainOn s 4 else s))

/-- PCIE_RESET (22 R660): the host-port function returns to D0; module state, streams and rings are unchanged. (DEDUCED, assumption log 94) -/
def execPcieReset (s : State) : Reply := done (onlyIf (pdState s 4 == 2) s fun s => { s with boot := { s.boot with d3hot := false } })

end Sys2Proof.Machine
end

