-- ==== Sys2Proof/Machine/Warm.lean ====
section
/-!
DEFINITION. What lies outside PD0 reset: the parts a warm restart and Anchor share, and the module warm restart (19 R581, R583, R584, 20 R606, 21 R648, 23 R690).
-/
namespace Sys2Proof.Machine

/-! ### What a warm restart and Anchor share -/

/-- The ports reset: link states of ports in service stored, frames not acknowledged discarded, and nothing kept but the stored states, from which a port trains quickly (15 R436, R583 step 4, 21 R644). -/
def restPorts (s : State) : State :=
  let s := (allPorts.filter (inService s)).foldl storeLink s
  let s := allPorts.foldl discardStore s
  { s with ports := (s.ports.map fun e => (e.1, ({ stored := e.2.stored, quick := !e.2.stored.isEmpty } : Port))).filter fun e => e.2 != {} }

/-- What the fabric core, the links, the ports and the engines hold beside their registers, where it is not reloaded (23 R690): slots and records on their way, exchanges of keys, markers, frames that wait, relays and embedding exchanges. -/
def dropFabric (s : State) : State :=
  { s with links := [], inbox := [], upsets := [],
           cmd := { s.cmd with slots := [], intake := [], ringWait := [], msix := [], fullBeat := [], regWait := none },
           comp := { strikes := s.comp.strikes }, fleet := { ferryIds := s.fleet.ferryIds },
           sec := { s.sec with exchanges := [] }, mer := { s.mer with markers := [] },
           fab := { s.fab with gathers := [], noRoute := [], chosen := [], settling := none },
           ladder := { s.ladder with rung := [], tests := s.ladder.tests.map fun (t : DeferredTest) => { t with running := false } } }

/-- Tile memories and the fabric buffer without data: every side-store entry fails until its block is written whole (19 R582, 21 R648). -/
def spoilTiles (s : State) : State := spoilRange ((List.range 4).foldl (fun s d => spoilRange s (tileBase d) tileBytes) s) fabricBase fabricBytes

/-- Ports that a draw passes through whole are in PASS (14 R419). (DEDUCED, assumption log 96) -/
def passPorts (s : State) : State := (allPorts.filter fun p => portState s p == 0 && passesAll s (currentDraw s) p).foldl (fun s p => setPortState s p 7) s

/-- Registers outside PD0 at their reset values, with those shown again that follow what is kept (23 R690); a FENCED port stays fenced (14 R419). -/
def renewRegs (s : State) : State :=
  let fenced := allPorts.filter fun p => portState s p == 8
  let s := dropRegs s
  let s := setF (setF s R.DRD_STATUS F.DRD_STATUS_VER_MIN (getF s R.ARB_FW_INFO F.ARB_FW_INFO_VER_MIN)) R.DRD_STATUS F.DRD_STATUS_VER_MAX (getF s R.ARB_FW_INFO F.ARB_FW_INFO_VER_MAX)
  let s := fenced.foldl (fun s p => setF s (R.DRD_PORT_STATUS p) F.DRD_PORT_STATUS_STATE 8) s
  showPorts (showEsc (showRelay (showStreams (showPolicy (unitsTake s (sliceState s == 2))))))

/-- Loops 5 and 6 at their settings, as the stacks train again (21 R638). -/
def hbmLoops (s : State) : State := [5, 6].foldl (fun s i => if pdState s (i - 3) == 2 then lockLoop s i else s) s

/-- Readings this module still needs, asked for again (17 R508). -/
def askReads (s : State) : State :=
  let ws := s.reck.reads.filter fun w => w.purpose != .fold && w.purpose != .audit
  ws.foldl (fun s w => startRead s w.purpose w.group w.pos w.stripe w.offset w.asked w.lost) { s with reck := { s.reck with reads := [] } }

/-! ### Module warm restart (R583) -/

/-- This module's own reckoning position marked not intact (R583, 10 R292). -/
def markOwn (s : State) : State := if rkHeld s then showReckon (setBitF s R.REL_RECKON_STATUS F.REL_RECKON_STATUS_NOT_INTACT (rkPos s) true) else s

/-- The Escapement before a restart (R583): a running release is waited for, and one that cannot end leaves the position not intact; a vote given whose decision is not known leaves it so too, and the decision is asked for as in IN_DOUBT (10 R292). (DEDUCED, assumption log 95) -/
def settleEsc (s : State) : State :=
  match s.esc.work with
  | none => s
  | some w =>
    if escState s == 3 then
      let s := if s.esc.risen then s else raiseStep s
      if releaseWaits s then markOwn s else inClass 3 s fun s => releaseAll s w
    else if w.voted && !w.acted then
      let a : AskWork := s.esc.ask.getD { step := w.step, members := w.members, pos := w.pos, since := beatNow s }
      { markOwn s with esc := { (markOwn s).esc with ask := some { a with slow := true }, doubtAbandon := true } }
    else s

/-- The Escapement after a restart (R583 step 2): staged writes gone, the decisions kept. (DEDUCED, assumption log 95) -/
def resetEsc (s : State) : State :=
  let s := setEsc (dropStage s) 0
  { s with esc := { decisions := s.esc.decisions, keptDigests := s.esc.keptDigests, ask := if s.esc.doubtAbandon then s.esc.ask else none, doubtAbandon := s.esc.doubtAbandon },
           reck := { s.reck with heldReads := [], auditLeft := 0, auditOff := 0 } }

/-- Commands that a restart ends, with the cursors they had reached: the unretired commands of every stream, and those of the key counter. -/
def cutAll (s : State) (d2 : Nat) : State :=
  let qs := ((s.cmd.streams.filter fun e => e.1 < keyQueue && e.2.state != .closed).map Prod.fst)
  let s := cutStreams s qs 0x0711 0 d2
  (s.cmd.cmds.filter fun x => x.q ≥ keyQueue).foldl (fun s x => cutCommand s x 0x0711 0 d2) s

/-- Cursors fixed in the commands before the engines lose their work. -/
def fixCursors (s : State) : State :=
  { s with cmd := { s.cmd with cmds := s.cmd.cmds.map fun x => { x with cursor := cursorOf s x } } }

/-- A module warm restart (R583, 20 R606): everything outside PD0 reset, stages 4, 6, 8 and 9 again with the stacks out of self-refresh, then the commands end with WARM_RESTART. (DEDUCED, assumption log 95) -/
def warmRestart (s : State) (x : BringUp) : State :=
  let at_ := countNow s
  let s := ladderRung s 4 (srcOf 0 0)
  let s := noteAt s (srcOf 0 0) 0x07 clsLostWork
  let s := bluvisen s .alarm [srcOf 0 0, 0x07FF, clsLostWork]
  let s := { s with ladder := { s.ladder with warmDue := false }, boot := { s.boot with d3hot := false } }
  let s := fixCursors (settleEsc s)
  let s := resetEsc (restPorts s)
  let s := dropFabric { s with comp := {} }
  let s := { s with rose := { s.rose with rings := [] } }
  let s := { s with sec := { s.sec with releasing := s.sec.releasing.map fun (r : Releasing) => { r with cmd := none } } }
  let s := setBoot (renewRegs (spoilTiles s)) 2
  let s := hbmLoops (stage6 (stage4 s x) x)
  let s := if pdState s 4 == 2 then lockLoop s 9 else s
  let s := passPorts (stage9 (stage8 s x))
  let s := cutAll s at_
  askReads s

/-- Whether the input clock a restart needs is there: XIN_B not lost, or back within range for 10 ms (21 R634). (DEDUCED, assumption log 96) -/
def clockBack (s : State) : Bool :=
  !flagF s R.CLK_XIN_STATUS F.CLK_XIN_STATUS_XIN_B_LOST || match s.pwr.xinBBack with | some t => decide (t + 10000000 ≤ s.now) | none => false

/-- MODULE_WARM_RESTART (R581, R583): rung 4 of the ladder. -/
def execModuleWarmRestart (x : BringUp) (s : State) : Reply :=
  done (onlyIf (s.boot.stage == 9 && anchorState s ≤ 2 && clockBack s) s fun s =>
    let s := if flagF s R.CLK_XIN_STATUS F.CLK_XIN_STATUS_XIN_B_LOST then { setF s R.CLK_XIN_STATUS F.CLK_XIN_STATUS_XIN_B_LOST 0 with pwr := { s.pwr with xinBBack := none } } else s
    warmRestart s x)

end Sys2Proof.Machine
end

