-- ==== Sys2Proof/Machine/Anchor.lean ====
section
/-!
DEFINITION. The Anchor state: orders, entry and waking (21 R641 to R648).
-/
namespace Sys2Proof.Machine

/-- The Anchor state set (21 R652). -/
def setAnchor (s : State) (v : Nat) : State := setF s R.PWR_ANCHOR_STATUS F.PWR_ANCHOR_STATUS_STATE v

/-! ### Orders (R641) -/

/-- What an ANCHOR order is signed over: its fields in order (DESIGN CHOICE, assumption log 10). -/
def anchorBytes (o : AnchorOrder) : Bytes := o.serial ++ natLe 8 o.orderId ++ natLe 8 o.enterBeat ++ natLe 8 o.wakeBeat

/-- The first reason of R641 that refuses an order as it arrives. (DEDUCED, assumption log 97) -/
def anchorRefusal (s : State) (o : AnchorOrder) : Option Nat :=
  if !underAuthority s (anchorBytes o) o.sig || o.serial != ownDigest || o.orderId ≤ s.pwr.lastOrder then some 1
  else if o.enterBeat ≤ beatNow s || beatNow s + 2 ^ 20 < o.enterBeat then some 2
  else if o.wakeBeat != 0 && o.wakeBeat < o.enterBeat + 64 then some 3
  else if !isReady s || sliceState s == 3 then some 7
  else none

/-- An order refused: counted, shown and reported (R641, R652). (DEDUCED, assumption log 97) -/
def refuseAnchor (s : State) (reason : Nat) : State :=
  let s := setF (incF s R.PWR_ANCHOR_STATUS F.PWR_ANCHOR_STATUS_REFUSALS 1) R.PWR_ANCHOR_STATUS F.PWR_ANCHOR_STATUS_REFUSE_REASON reason
  tellBluvisen s 641 [reason]

/-- An order found wanting after its acceptance: the module returns to AWAKE (R641, reasons 4 to 6). -/
def dropAnchor (s : State) (reason : Nat) : State := refuseAnchor (setAnchor { s with pwr := { s.pwr with order := none, wakeAsked := false } } 0) reason

/-- ANCHOR_ORDER (R641): checked, and kept in place of an earlier one. (DEDUCED, assumption log 97) -/
def execAnchorOrder (o : AnchorOrder) (s : State) : Reply :=
  done (onlyIf (bluvisenOn s && anchorState s ≤ 2) s fun s =>
    match anchorRefusal s o with
    | some n => refuseAnchor s n
    | none =>
      let s := { s with pwr := { s.pwr with order := some (o.enterBeat, o.wakeBeat), lastOrder := o.orderId, wakeAsked := false } }
      let s := setF (setF s R.PWR_ANCHOR_ENTER F.PWR_ANCHOR_ENTER_BEAT o.enterBeat) R.PWR_ANCHOR_WAKE F.PWR_ANCHOR_WAKE_BEAT o.wakeBeat
      setAnchor s 1)

/-! ### Entry (R642 to R644) -/

/-- Reasons 4 and 5 at ENTER_BEAT (R641). -/
def enterRefusal (s : State) : Option Nat :=
  if isPilot s && !s.boot.d3hot then some 4
  else if inStep s || escState s != 0 || !s.esc.list.isEmpty || !s.esc.rows.isEmpty then some 5
  else none

/-- ANCHOR_ENTER_BEAT (R642): the module is ENTERING from now on, or the order is refused. -/
def execAnchorEnterBeat (s : State) : Reply :=
  done (match s.pwr.order with
    | some (enter, _) => onlyIf (anchorState s == 1 && enter ≤ beatNow s) s fun s =>
        match enterRefusal s with
        | some n => dropAnchor s n
        | none => setAnchor s 2
    | none => s)

/-- Whether a switch of lanes is under way on any link (R643, 13 R379). -/
def sparing (s : State) : Bool := s.links.any fun e => e.2.groups.any fun g => g.2.switch.isSome

/-- Whether dog-watch work of 15 R455 runs: a sweep in it, or a scheduled spare-in armed. -/
def dogWork (s : State) : Bool :=
  (s.rose.rings.any fun e => e.2.state == 1 && e.2.due) || (s.rose.lines.any fun e => match e.2.spare with | some x => !x.atOnce && x.goNs.isSome && !x.gone | none => false)

/-- The conditions of entry (R643). -/
def entryReady (s : State) : Bool :=
  s.cmd.cmds.isEmpty && !sparing s && s.hbm.flashWrite.isNone && !s.hbm.retireWait && !s.hbm.donateWait && !dogWork s && allPorts.all fun p => (getPort s p).store.isEmpty

/-- Rings hold their heater codes (R644 step 3, 15 R446); one that was not locked is marked for a sweep at wake. -/
def holdRings (s : State) : State :=
  { s with rose := { s.rose with rings := s.rose.rings.map fun e => (e.1, if 1 ≤ e.2.state && e.2.state ≤ 3 then { e.2 with state := 4, due := e.2.state != 2, verify := false } else e.2) } }

/-- A domain kept in retention, with its loop off (R629, R644). -/
def domainHold (s : State) (d : Nat) : State :=
  if pdState s d != 2 then s
  else match loopOfDomain d with | some i => stopLoop (setPd s d 3) i | none => setPd s d 3

/-- Every port that is not fenced goes dark (R644). -/
def darkPorts (s : State) : State :=
  let s := (allPorts.filter fun p => portState s p != 8).foldl (fun s p => setPortState s p 0) s
  { s with ports := s.ports.map fun e => (e.1, { e.2 with leftNs := none }) }

/-- The steps of entry (R644). -/
def enterAnchor (s : State) : State :=
  let s := dropFabric (darkPorts (restPorts s))
  let s := holdRings s
  let s := (List.range 8).foldl (fun s k => if getF s (R.HBM_STACK_STATUS k) F.HBM_STACK_STATUS_STATE == 2 then setF s (R.HBM_STACK_STATUS k) F.HBM_STACK_STATUS_STATE 3 else s) s
  let s := [2, 3, 15, 16].foldl domainHold s
  let s := [19, 5, 6, 7, 8, 9, 10, 11, 12, 17, 13, 14, 18, 4, 1].foldl domainOff s
  let s := incF (setAnchor (pilotCheck s) 3) R.PWR_ANCHOR_STATUS F.PWR_ANCHOR_STATUS_ENTRIES 1
  noteAt s (srcOf 0 0) 0x07 clsInfo

/-- ANCHOR_ENTRY (R643, R644): within 64 beats of ENTER_BEAT, once the conditions hold. -/
def execAnchorEntry (s : State) : Reply :=
  done (match s.pwr.order with
    | some (enter, _) => onlyIf (anchorState s == 2 && beatNow s ≤ enter + 64 && entryReady s) s enterAnchor
    | none => s)

/-- ANCHOR_ENTRY_TIMEOUT (R643): refused under reason 6. -/
def execAnchorEntryTimeout (s : State) : Reply :=
  done (match s.pwr.order with
    | some (enter, _) => onlyIf (anchorState s == 2 && enter + 64 ≤ beatNow s && (!entryReady s || enter + 64 < beatNow s)) s fun s => dropAnchor s 6
    | none => s)

/-! ### Waking (R646 to R648) -/

/-- Rings at wake (R647 step 5, 15 R446): a held ring locks from its code; one marked sweeps, and one whose sweep fails stays out. -/
def wakeRings (s : State) (fails : List Nat) : State :=
  let s := (s.rose.rings.filter fun e => e.2.state == 4).foldl (fun s e => modRing s e.1 fun r => { r with state := if r.due then 1 else 2, due := false }) s
  fails.foldl (fun s n => if isRing n && (getRing s n).state == 2 then sweepFailed (incF s (R.RSEn_BEARING_COUNTS (n / 1024)) F.RSEn_BEARING_COUNTS_SWEEPS 1) n else s) s

/-- The wake sequence (R647, R648); a firmware digest that differs begins a cold start. -/
def wakeUp (s : State) (x : BringUp) : State :=
  let s := dropFabric (setAnchor { s with pwr := { s.pwr with order := none, wakeAsked := false } } 4)
  let s := renewRegs (spoilTiles s)
  let s := [1, 17, 18, 19, 9, 10, 11, 12, 5, 6, 7, 8, 13, 14, 2, 3, 15, 16].foldl domainOn s
  let s := if flagF s R.ARB_BOOT_STATUS F.ARB_BOOT_STATUS_PILOT_SEL then domainOn s 4 else s
  let s := (recordedDies s).foldl holdFenced s
  let s := (List.range 6).foldl (fun s l => trainLink s l (x.links.contains l) x.lanes) s
  let s := ((List.range 4).filter fun d => !dieFenced s d).foldl loadFences s
  let s := (List.range 8).foldl (fun s k =>
    if getF s (R.HBM_STACK_STATUS k) F.HBM_STACK_STATUS_STATE == 3 then setF s (R.HBM_STACK_STATUS k) F.HBM_STACK_STATUS_STATE (if x.hbm.contains k then 4 else 2) else s) s
  let s := showRecord (wakeRings (hbmLoops s) x.sweepFails)
  if !x.codeOk then coldReset s false
  else
    let (us, s) := takeFree (passPorts (pilotCheck { s with boot := { s.boot with d3hot := false } }))
    let s := setAnchor (setF s R.PWR_ANCHOR_STATUS F.PWR_ANCHOR_STATUS_LAST_WAKE_US (us % 25001)) 0
    bootReport (askReads (noteAt s (srcOf 0 0) 0x07 clsInfo))

/-- Whether a WAKE order is signed by the installation authority (R646). (DEDUCED, assumption log 98) -/
def wakeSigned (s : State) (order : Option (Bytes × Bytes)) : Bool := match order with | some (m, g) => bluvisenOn s && underAuthority s m g | none => false

/-- Whether WAKE_BEAT has begun (R646). (DEDUCED, assumption log 98) -/
def wakeBegun (s : State) : Bool := match s.pwr.order with | some (_, w) => w != 0 && w ≤ beatNow s | none => false

/-- WAKE (R646, R647): on an order or at WAKE_BEAT; while ENTERING it takes effect when entry ends. (DEDUCED, assumption log 98) -/
def execWake (order : Option (Bytes × Bytes)) (x : BringUp) (s : State) : Reply :=
  done (
    let asked := wakeSigned s order
    if anchorState s == 2 then (if asked then { s with pwr := { s.pwr with wakeAsked := true } } else s)
    else onlyIf (anchorState s == 3 && (asked || s.pwr.wakeAsked || wakeBegun s)) s fun s => wakeUp s x)

end Sys2Proof.Machine
end

