-- ==== Sys2Proof/Machine/Power.lean ====
section
/-!
DEFINITION. Power domains that fail, input clocks, the fast oscillator and the loops, the supply and its cap, temperature, and the baseboard's buses (21 R631 to R638, 22 R665 to R675).
-/
namespace Sys2Proof.Machine

/-! ### Domains (21 R631) -/

/-- The dies that a failed domain takes out of service (R631). (DEDUCED, assumption log 99) -/
def failedDies (d : Nat) : List Nat :=
  if 5 ≤ d && d ≤ 12 then [(d - 5) % 4]
  else if 13 ≤ d && d ≤ 16 then [4 + (d - 13) % 2]
  else if d = 17 then [0, 1, 2, 3]
  else if d = 18 then [4, 5]
  else []

/-- What follows a failed domain (R631). (DEDUCED, assumption log 99) -/
def domainAct (s : State) (d : Nat) : State :=
  if d = 1 then setBoot { s with boot := { s.boot with stage := 4 } } 2
  else if d = 2 || d = 3 then
    ((List.range 4).map fun i => (d - 2) * 4 + i).foldl (fun s k => setF s (R.HBM_STACK_STATUS k) F.HBM_STACK_STATUS_STATE 4) s
  else if d = 4 then (if isPilot s then tellBluvisen (pilotCheck s) 631 [4] else pilotCheck s)
  else (failedDies d).foldl fenceDie s

/-- POWER_DOMAIN_FAIL (R631): a domain that is on is not good; without PD0 the module is down. (DEDUCED, assumption log 99) -/
def execPowerDomainFail (domain : Nat) (s : State) : Reply :=
  done (onlyIf (domain < 20 && pdState s domain != 0) s fun s =>
    if domain = 0 then coldReset s false
    else
      let s := setBitF s R.PWR_DOMAIN_FAULT F.PWR_DOMAIN_FAULT_FAILED domain true
      let s := note s (srcOf 0 0) 0x07 clsInfo domain s.boot.stage 0
      domainAct (domainOff s domain) domain)

/-! ### Input clocks (21 R634) -/

/-- Whether a measured input counts as lost, and whether it is accepted (R634). -/
def xinLost (ppm : Option Int) : Bool := match ppm with | some p => decide (p > 200) || decide (p < -200) | none => true
def xinGood (ppm : Option Int) : Bool := match ppm with | some p => decide (p ≤ 100) && decide (p ≥ -100) | none => false

/-- The measured offset shown, two's complement, at the limit where it lies beyond 16 bits (R657). -/
def ppm16 (p : Int) : Nat := twos16 (max (-32768) (min 32767 p))
def showPpm (s : State) (f : RF) (ppm : Option Int) : State := match ppm with | some p => setF s R.CLK_XIN_STATUS f (ppm16 p) | none => s

/-- The loops on XIN_A moved to the fast oscillator, or back (R634, R655). (DEDUCED, assumption log 100) -/
def moveLoops (s : State) : State := [10, 11].foldl (fun s i => setF s (R.CLK_LOOP i) F.CLK_LOOP_REF (loopRef s i)) s

/-- XIN_A lost (R634). (DEDUCED, assumption log 100) -/
def loseXinA (s : State) : State :=
  let s := moveLoops (setF s R.CLK_XIN_STATUS F.CLK_XIN_STATUS_XIN_A_LOST 1)
  tellBluvisen (noteAt s (srcOf 0 0) 0x07 clsInfo) 634 [0]

/-- XIN_B lost: every loop that takes it loses lock (R634, R655). (DEDUCED, assumption log 100) -/
def loseXinB (s : State) : State :=
  let s := setF { s with pwr := { s.pwr with xinBBack := none } } R.CLK_XIN_STATUS F.CLK_XIN_STATUS_XIN_B_LOST 1
  (List.range 10).foldl (fun s i =>
    if flagF s (R.CLK_LOOP i) F.CLK_LOOP_LOCKED then incF (setF s (R.CLK_LOOP i) F.CLK_LOOP_LOCKED 0) (R.CLK_LOOP i) F.CLK_LOOP_UNLOCKS 1 else s) s

/-- XIN_A_LOST (R634). -/
def execXinALost (ppm : Option Int) (s : State) : Reply :=
  done (onlyIf (s.boot.stage ≥ 1 && xinLost ppm && !flagF s R.CLK_XIN_STATUS F.CLK_XIN_STATUS_XIN_A_LOST) s fun s => loseXinA (showPpm s F.CLK_XIN_STATUS_XIN_A_PPM ppm))

/-- XIN_B_LOST (R634); the warm restart is a command of its own. -/
def execXinBLost (ppm : Option Int) (s : State) : Reply :=
  done (onlyIf (s.boot.stage ≥ 1 && xinLost ppm && !flagF s R.CLK_XIN_STATUS F.CLK_XIN_STATUS_XIN_B_LOST) s fun s => loseXinB (showPpm s F.CLK_XIN_STATUS_XIN_B_PPM ppm))

/-- The inputs as each beat measures them (R634): XIN_A back within range takes its loops again, XIN_B back within range is timed for the restart. -/
def xinBeat (s : State) (a b : Option Int) : State :=
  let s := showPpm (showPpm s F.CLK_XIN_STATUS_XIN_A_PPM a) F.CLK_XIN_STATUS_XIN_B_PPM b
  let lostA := flagF s R.CLK_XIN_STATUS F.CLK_XIN_STATUS_XIN_A_LOST
  let lostB := flagF s R.CLK_XIN_STATUS F.CLK_XIN_STATUS_XIN_B_LOST
  let s := if !lostA && xinLost a then loseXinA s else if lostA && xinGood a then moveLoops (setF s R.CLK_XIN_STATUS F.CLK_XIN_STATUS_XIN_A_LOST 0) else s
  if !lostB && xinLost b then loseXinB s
  else if lostB then
    { s with pwr := { s.pwr with xinBBack := if xinGood b then (match s.pwr.xinBBack with | some t => some t | none => some s.now) else none } }
  else s

/-! ### The fast oscillator (21 R636) -/

/-- The trim code, two's complement of 10 bits (R658). -/
def trimCode (s : State) : Int :=
  let v := getF s R.CLK_OSC F.CLK_OSC_TRIM
  if v ≥ 512 then (v : Int) - 1024 else v

/-- A measurement that ends with an error above 0.05 % moves the code by whole steps of 0.02 %, within ±6 % (R636). -/
def trimOsc (s : State) (ppm : Int) : State :=
  if decide (ppm > 500) || decide (ppm < -500) then
    let code := max (-300) (min 300 (trimCode s - (ppm + (if ppm ≥ 0 then 100 else -100)).tdiv 200))
    incF (setF s R.CLK_OSC F.CLK_OSC_TRIM (code % 1024).toNat) R.CLK_OSC F.CLK_OSC_TRIMS 1
  else s

/-- OSC_TRIM_MEASUREMENT (R636): a measurement against the reference there is ends, and with it a CALIBRATE OSC_TRIM that asked for it. -/
def execOscTrimMeasurement (ppm : Int) (s : State) : Reply :=
  done (
    let r := oscReference s
    if s.boot.stage < 1 then s
    else if r == 0 then
      let s := setF { s with pwr := { s.pwr with oscRef := none } } R.CLK_OSC F.CLK_OSC_REF 0
      s.cmd.cmds.foldl (fun s x => if isRunning s x.q x.hdr.counter opCALIBRATE then trimWork s x.q x.hdr.counter else s) s
    else
      let s := setF (setF { s with pwr := { s.pwr with oscRef := none } } R.CLK_OSC F.CLK_OSC_REF r) R.CLK_OSC F.CLK_OSC_ERROR_PPM (ppm16 ppm)
      let s := trimOsc s ppm
      s.cmd.cmds.foldl (fun s x => if isRunning s x.q x.hdr.counter opCALIBRATE then trimWork s x.q x.hdr.counter else s) s)

/-! ### Loops (21 R637, R638) -/

/-- Range of a settable loop in MHz (R637). -/
def loopRange (i : Nat) : Nat × Nat := if i < 5 then (475, 1900) else (650, 1300)

/-- A write of CLK_SET (R638): refused outside the loop's range, else pending. -/
def writeClkSet (s : State) (i : Nat) (v : Word) (how : How := (R.CLK_SET i, 8, v.toNat)) : State :=
  let f := fld v 15 0
  let (lo, hi) := loopRange i
  if lo ≤ f && f ≤ hi then setF (setF s (R.CLK_SET i) F.CLK_SET_FREQ_MHZ f) (R.CLK_LOOP i) F.CLK_LOOP_PENDING 1
  else refuseAs s how

/-- CLK_SET_WRITE (R638). -/
def execClkSetWrite (loop : Nat) (value : Word) (s : State) : Reply := done (onlyIf (loop < 7 && s.boot.stage ≥ 1) s fun s => writeClkSet s loop value)

/-- Pending changes of loops 0 to 4 at a beat (R638); a loop that is off has nothing to move. -/
def loopBeat (s : State) : State :=
  (List.range 5).foldl (fun s i =>
    if !flagF s (R.CLK_LOOP i) F.CLK_LOOP_PENDING then s
    else if flagF s (R.CLK_LOOP i) F.CLK_LOOP_LOCKED then lockLoop s i
    else setF s (R.CLK_LOOP i) F.CLK_LOOP_PENDING 0) s

/-! ### The supply (22 R668, R670) -/

/-- Whether an input voltage in mV, held for a time in µs, is a supply fault (R668). -/
def supplyBad (volt us : Nat) : Bool := volt < 42000 || volt > 63000 || ((volt < 46000 || volt > 60000) && us > 10000)

/-- SUPPLY_FAULT (R668): everything is switched off, PD0 included, once the fault is noted, alarmed and the rated time saved. (DEDUCED, assumption log 101) -/
def execSupplyFault (volt durationUs : Nat) (s : State) : Reply :=
  done (onlyIf (!s.pwr.supplyOff && s.boot.stage ≥ 1 && supplyBad volt durationUs) s fun s =>
    let s := saveRated (account (noteAt s (srcOf 0 0) 0x07 clsOut))
    coldReset { s with pwr := { s.pwr with supplyOff := true } } true)

/-- SUPPLY_RECOVERY (R668): input back in range for 100 ms; a cold start follows. -/
def execSupplyRecovery (volt : Nat) (s : State) : Reply :=
  done (onlyIf (s.pwr.supplyOff && 46000 ≤ volt && volt ≤ 60000) s fun s => { s with pwr := { s.pwr with supplyOff := false } })

/-- The bit of a blade pair, and of the other one (R679). -/
def feedBit (pairB : Bool) : RF := if pairB then F.PWR_INPUT_FEED_B else F.PWR_INPUT_FEED_A

/-- SINGLE_FEED (R668): one pair is below 40 V while the other is within range. -/
def execSingleFeed (pairB : Bool) (s : State) : Reply :=
  done (onlyIf (s.boot.stage ≥ 1 && flagF s R.PWR_INPUT (feedBit pairB) && flagF s R.PWR_INPUT (feedBit (!pairB))) s fun s =>
    let s := setF (setF s R.PWR_INPUT (feedBit pairB) 0) R.PWR_INPUT F.PWR_INPUT_SINGLE_FEED 1
    tellBluvisen (noteAt s (srcOf 0 0) 0x07 clsInfo) 668 [b2n pairB])

/-- BLADE_PAIR_RESTORED (R668, R679). -/
def execBladePairRestored (pairB : Bool) (s : State) : Reply :=
  done (onlyIf (s.boot.stage ≥ 1 && !flagF s R.PWR_INPUT (feedBit pairB) && flagF s R.PWR_INPUT (feedBit (!pairB))) s fun s =>
    setF (setF s R.PWR_INPUT (feedBit pairB) 1) R.PWR_INPUT F.PWR_INPUT_SINGLE_FEED 0)

/-- The power cap in force, in W (R670, R675). -/
def capNow (s : State) : Nat :=
  min (min (getF s R.PWR_CAP F.PWR_CAP_LIMIT_W) (min 2600 s.pwr.thermalCap)) (if flagF s R.PWR_INPUT F.PWR_INPUT_SINGLE_FEED then 1450 else 2600)

/-- The mean of a list of samples. -/
def mean (l : List Nat) : Nat := if l.isEmpty then 0 else l.sum / l.length

/-- POWER_CAP_SAMPLE (R670, R679, R680): power is averaged over 100 ms and 1 ms; while an average exceeds what the cap allows, idle cycles are inserted. -/
def execPowerCapSample (watts current volt : Nat) (s : State) : Reply :=
  done (onlyIf (s.boot.stage ≥ 1) s fun s =>
    let l := (watts :: s.pwr.samples).take 1000
    let s := { s with pwr := { s.pwr with samples := l } }
    let s := setF (setF (setF s R.PWR_INPUT F.PWR_INPUT_POWER_W (min 65535 (mean l))) R.PWR_INPUT F.PWR_INPUT_CURRENT (min 65535 current)) R.PWR_INPUT F.PWR_INPUT_VOLTAGE (min 65535 volt)
    let cap := capNow s
    let on := mean l > cap || mean (l.take 10) * 50 > cap * 51
    let us := s.pwr.throttleUs + (if on then 100 else 0)
    let s := setF { s with pwr := { s.pwr with throttleUs := us % 1000 } } R.PWR_CAP F.PWR_CAP_THROTTLED (b2n on)
    incF s R.PWR_CAP F.PWR_CAP_THROTTLE_MS (us / 1000))

/-- A write of PWR_CAP (R680): refused outside 1,000 to 2,600 W. -/
def writePwrCap (s : State) (v : Word) (how : How := (R.PWR_CAP, 8, v.toNat)) : State :=
  let w := fld v 11 0
  if 1000 ≤ w && w ≤ 2600 then setF s R.PWR_CAP F.PWR_CAP_LIMIT_W w else refuseAs s how

/-! ### Temperature (22 R674, R675) -/

/-- The hottest of a list, in °C, as 8 bits hold it. -/
def hottest (l : List Int) : Nat := (min 255 (l.foldl max 0)).toNat

/-- Whether a coolant reading in 0.1 °C lies outside R674. -/
def coolantBad (inlet outlet : Int) : Bool := decide (inlet < 200) || decide (inlet > 400) || decide (outlet > 530)

/-- THERMAL_TRIP (R675): the trip is noted, alarmed and counted, every domain but PD0 goes off, and with it HBM contents and everything outside PD0. (DEDUCED, assumption log 101) -/
def thermalTrip (s : State) (inlet outlet : Int) : State :=
  let n := min 255 (s.flash.trips + 1)
  let s := noteAt (account s) (srcOf 0 0) 0x07 clsOut
  let s := setF (setF s R.PWR_THERMAL F.PWR_THERMAL_THERMAL_TRIP 1) R.PWR_THERMAL F.PWR_THERMAL_TRIPS n
  let s := dropFabric { s with comp := {}, fleet := {}, cmd := {}, esc := {}, reck := {}, ports := [], mem := [], side := [], poison := [] }
  let s := { s with rose := { s.rose with rings := [] }, fab := { s.fab with redraw := none, settling := none } }
  let s := (List.range 19).foldl (fun s i => domainOff s (i + 1)) s
  let s := (List.range 8).foldl (fun s k => setF s (R.HBM_STACK_STATUS k) F.HBM_STACK_STATUS_STATE 0) s
  let s := { s with regs := s.regs.filter fun e => inPd0 e.1 }
  reclass { s with flash := { s.flash with trips := n }, boot := { s.boot with stage := 5, restartBy := none },
                   pwr := { s.pwr with tripped := true, coolSince := none, outExcluded := coolantBad inlet outlet, order := none, wakeAsked := false, hotStacks := [] } }

/-- Whether every die lies 20 °C below its throttle point (R675). -/
def dieCool (logic hbm : List Int) : Bool := logic.all (fun t => decide (t ≤ 80)) && hbm.all fun t => decide (t ≤ 75)

/-- Temperatures at a beat (R675, R357, R681): shown, acted on at the throttle points, and a trip. (DEDUCED, assumption log 101) -/
def thermalBeat (s : State) (logic hbm : List Int) (inlet outlet : Int) : State :=
  let t := R.PWR_THERMAL
  let s := setF (setF s t F.PWR_THERMAL_OUTLET (twos16 outlet)) t F.PWR_THERMAL_INLET (twos16 inlet)
  let s := setF (setF s t F.PWR_THERMAL_HOTTEST_LOGIC (hottest logic)) t F.PWR_THERMAL_HOTTEST_HBM (hottest hbm)
  let s := hbm.zipIdx.foldl (fun s e => if e.2 < 8 then setF s (R.HBM_STACK_STATUS e.2) F.HBM_STACK_STATUS_TEMP (hottest [e.1]) else s) s
  if s.pwr.tripped then
    { s with pwr := { s.pwr with coolSince := if dieCool logic hbm then (match s.pwr.coolSince with | some c => some c | none => some s.now) else none } }
  else if logic.any (fun t => decide (t ≥ 110)) || hbm.any (fun t => decide (t ≥ 105)) then thermalTrip s inlet outlet
  else
    let hot := (hbm.zipIdx.filter fun e => decide (e.1 ≥ 95)).map Prod.snd
    let cap := if logic.any fun t => decide (t ≥ 100) then capNow s - 50 else min 2600 (s.pwr.thermalCap + 50)
    setF { s with pwr := { s.pwr with hotStacks := hot, thermalCap := cap } } t F.PWR_THERMAL_HBM_THROTTLE (b2n !hot.isEmpty)

/-- THERMAL_TRIP_RECOVERY (R675): after 10 s with every die cool a cold start begins, as though MOD_RESET_N had been asserted. -/
def execThermalTripRecovery (s : State) : Reply :=
  done (match s.pwr.coolSince with
    | some t => onlyIf (s.pwr.tripped && t + 10000000000 ≤ s.now) s fun s => coldReset (account s) s.pwr.outExcluded
    | none => s)

/-! ### Baseboard buses (22 R665, R666) -/

/-- I2C_BUS_TIMEOUT (R666): the bus is released and the target logic reset, which holds nothing that a read does not take from the registers. (DESIGN CHOICE, assumption log 102) -/
def execI2cBusTimeout (s : State) : Reply := done (onlyIf (s.boot.stage ≥ 1) s fun s => send s .i2c 0 [])

/-- MGMT_LINK_SPEED (R665): at any speed but 1,000 Mb/s the management port is held down. (DESIGN CHOICE, assumption log 102) -/
def execMgmtLinkSpeed (mbps : Nat) (s : State) : Reply :=
  done (onlyIf (s.boot.stage ≥ 1) s fun s =>
    if mbps == 1000 then { s with pwr := { s.pwr with mgmtDown := false } }
    else if s.pwr.mgmtDown then s
    else { noteAt s (srcOf 0xF 0) 0x07 clsInfo with pwr := { s.pwr with mgmtDown := true } })

end Sys2Proof.Machine
end

