-- ==== Sys2Proof/Machine/Registers.lean ====
section
/-!
DEFINITION. Register accesses (00 R6 to R10, 23 R684 to R698), the registers that show what the machine holds elsewhere, the registers with rules of their own, and the register path (23 R693 to R697).
-/
namespace Sys2Proof.Machine

/-- First address of the control blocks (R684). -/
def ctrlBase : Nat := 0x20000000000

/-- The block of an address (R686). -/
def blockOf (a : Nat) : Nat := (a - ctrlBase) / 2 ^ 20

/-- The offset of an address inside its block. -/
def blockOff (a : Nat) : Nat := (a - ctrlBase) % 2 ^ 20

/-- The die that holds a block (R691). -/
def blockDie (b : Nat) : Nat := if b = 7 then 4 else if b = 8 then 5 else if b ≥ 14 then b - 14 else 6

/-- The power domain of a block (R686). -/
def blockDomain (b : Nat) : Nat :=
  if b = 7 then 13 else if b = 8 then 14 else if b ≥ 14 then b - 5 else if ([2, 3, 4, 5, 6, 0xB] : List Nat).contains b then 0 else 1

/-- Whether the die that holds a block is fenced. -/
def blockFenced (s : State) (b : Nat) : Bool := blockDie b < 6 && dieFenced s (blockDie b)

/-- Whether an offset is that of BLK_IDENT or BLK_STATUS (R691, R692). -/
def isBlk (a : Nat) : Bool := blockOff a == 0xFFF00 || blockOff a == 0xFFF08

/-- Whether the registers at an address answer (R689). -/
def answers (s : State) (a : Nat) : Bool :=
  inPd0 a || (if isBlk a then pdState s 1 == 2 else pdState s (blockDomain (blockOf a)) == 2 && !blockFenced s (blockOf a))

/-- The register at an aligned address, where one is listed and answers (R687, R689). -/
def regHere (s : State) (a : Nat) : Option RegRow := if ctrlBase ≤ a && answers s a then (regAt a).map Prod.fst else none

/-- Whether an access counts as the host's (R306): one through a BAR or over the register path. -/
def fromHost : Requester → Bool
  | .host => true
  | .regPath => true
  | _ => false

/-- The check-value unit whose register an address is. -/
def unitOf (a : Nat) : Option Nat := if blockOf a == 0xA && blockOff a < 0x400 then some (blockOff a / 0x80) else none

/-- Whether an access meets a unit that the IZ9 holds (R306). -/
def heldUnit (s : State) (req : Requester) (a : Nat) : Bool := fromHost req && ((unitOf a).map (unitHeld s)).getD false

/-! ### What a read returns -/

/-- HBM_MAP_ENTRY of the page selected (R364). -/
def mapEntry (s : State) : Nat :=
  let k := getF s R.HBM_MAP_SEL F.HBM_MAP_SEL_STACK
  match if stackFailed s k then none else frameOf s k (getF s R.HBM_MAP_SEL F.HBM_MAP_SEL_PAGE) with
  | some f => 2 ^ 16 + f
  | none => 0x7FFF

/-- RSEn_RING of the ring selected (15 R461). -/
def ringWord (s : State) (n : Nat) : Nat :=
  let sel := R.RSEn_RING_SEL n
  let r := getRing s (n * 1024 + getF s sel F.RSEn_RING_SEL_KIND * 256 + getF s sel F.RSEn_RING_SEL_PORT * 16 + getF s sel F.RSEn_RING_SEL_WAVELENGTH)
  r.heater * 2 ^ 48 + r.order * 2 ^ 36 + r.line * 2 ^ 32 + min 65535 (r.clean / 32) * 2 ^ 16 + min 255 r.misbearings * 2 ^ 8 + r.state

/-- RSEn_ROUTE of the draw and port selected (15 R459). -/
def routeWord (s : State) (n : Nat) : Nat :=
  drawWord s n (getF s (R.RSEn_ROUTE_SEL n) F.RSEn_ROUTE_SEL_DRAW) (getF s (R.RSEn_ROUTE_SEL n) F.RSEn_ROUTE_SEL_PORT)

/-- DRD_ROUTE_ALT(a) of the destination and draw selected (16 R496). -/
def altWord (s : State) (a : Nat) : Nat :=
  match routeOf s 0 (getF s R.DRD_ROUTE_SEL F.DRD_ROUTE_SEL_DEST_FID) (getF s R.DRD_ROUTE_SEL F.DRD_ROUTE_SEL_DRAW) with
  | none => 0
  | some r =>
    let (ports, hops) := r.alts.getD a (0, 0)
    let active := match chosenAlt s r with | some c => c.1 == a | none => false
    b2n active * 2 ^ 48 + (allPorts.filter fun p => ports.testBit p && inService s p).length * 2 ^ 40 + hops * 2 ^ 32 + ports

/-- LOG_TESTS (19 R601). -/
def testsWord (s : State) : Nat :=
  let running := s.cmd.cmds.filter fun x => x.phase == .running && (x.hdr.opcode == opSELF_TEST || x.hdr.opcode == opCALIBRATE)
  min 255 running.length * 256 + min 255 (s.ladder.tests.filter fun t => !t.running && t.outcome.isNone).length

/-- Words of LOG_ENTRY (19 R603); a slot that holds no entry reads zero. -/
def logWord (s : State) (off : Nat) : Nat := match entrySlot s (off / 64) with | some e => uAt (entryBytes e) (off % 64) 8 | none => 0

/-- The registers of the logbook that show what it holds (R597, R598, R601, R603). -/
def logView (s : State) (a : Nat) : Nat :=
  let sel := getF s R.LOG_CTR_SEL F.LOG_CTR_SEL_SOURCE
  if a == R.LOG_CTR then mapGetD 0 s.log.events sel
  else if a == R.LOG_CTR_LOST then mapGetD 0 s.log.lost sel
  else if a == R.LOG_TESTS then testsWord s
  else if R.LOG_ENTRY 0 ≤ a && a < R.LOG_ENTRY 32768 then logWord s (a - R.LOG_ENTRY 0)
  else (rd s a).toNat

/-- The registers of a check-value unit, whose values are cut to WIDTH (11 R308, R313). -/
def unitView (s : State) (u a : Nat) : Nat :=
  if a == R.CRC_RESULT u then unitResult s u
  else if a == R.CRC_DATA u then 0
  else if a == R.CRC_POLY u || a == R.CRC_INIT u || a == R.CRC_XOROUT u || a == R.CRC_VALUE u || a == R.CRC_EXPECT u then unitReg s u a
  else (rd s a).toNat

/-- The units that the IZ9 holds, as bits of CRC_EVENTS that a host reads as zero (R331). -/
def heldEvents (s : State) : Nat := getF s R.CRC_HELD F.CRC_HELD_IZ9 * 257

/-- Bits of x that y does not have. -/
def bitsWithout (x y : Nat) : Nat := x - (x &&& y)

/-- The value a register shows to a requester. -/
def regView (s : State) (req : Requester) (a : Nat) : Nat :=
  if blockOff a == 0xFFF08 then b2n (blockFenced s (blockOf a)) * 2 + b2n (pdState s (blockDomain (blockOf a)) == 2)
  else if a == R.MER_COUNT then countNow s
  else if a == R.CMD_SLOT_BUSY then (s.cmd.slots.map fun e => 2 ^ e.1).sum
  else if a == R.CMD_BOOT_STATUS then (rd s R.ARB_BOOT_STATUS).toNat &&& 0x237
  else if a == R.REL_STATUS then (setFld (rd s a) 42 32 (match s.fab.tables with | some t => if sliceState s == 2 then t.chains.length else 0 | none => 0)).toNat
  else if a == R.ARB_LANE_GROUP then (laneGroupWord s).toNat
  else if a == R.HBM_MAP_ENTRY then mapEntry s
  else if a == R.RSEn_ROUTE 0 then routeWord s 0
  else if a == R.RSEn_ROUTE 1 then routeWord s 1
  else if a == R.RSEn_RING 0 then ringWord s 0
  else if a == R.RSEn_RING 1 then ringWord s 1
  else if R.DRD_ROUTE_ALT 0 ≤ a && a ≤ R.DRD_ROUTE_ALT 3 then altWord s ((a - R.DRD_ROUTE_ALT 0) / 8)
  else if blockOf a == 5 then logView s a
  else if a == R.CRC_EVENTS then (if fromHost req then bitsWithout (rd s a).toNat (heldEvents s) else (rd s a).toNat)
  else match unitOf a with
    | some u => unitView s u a
    | none => (rd s a).toNat

/-- Whether an access is 64 or 32 bits wide and aligned (R6, R7). (DEDUCED, assumption log 105) -/
def goodAccess (addr width : Nat) : Bool := (width == 8 && addr % 8 == 0) || (width == 4 && addr % 4 == 0)

/-- The half of a register that a 32-bit access reaches (R6). (DEDUCED, assumption log 105) -/
def halfOf (v addr width : Nat) : Nat := if width == 4 then v / 2 ^ (8 * (addr % 8)) % 2 ^ 32 else v

/-- A register read (R6, R7, R21, R306, R687): what it returns, with the entry of an access that is refused. (DEDUCED, assumption log 105) -/
def regRead (s : State) (req : Requester) (addr width : Nat) : Nat × State :=
  let a := addr / 8 * 8
  if !goodAccess addr width then (0, logAccess s addr width false 0 0 0)
  else if (regHere s a).isNone then (0, logAccess s addr width false 1 0 0)
  else if a == R.MER_COUNT && width == 4 then merCountRead s req (addr != a)
  else if heldUnit s req a then (0, logAccess s addr width false 2 0 0)
  else (halfOf (regView s req a) addr width, s)

/-! ### Writes -/

/-- Bits of a register that hold what was last written (R8: RW). -/
def rwMask (r : RegRow) : Nat := (r.fields.map fun f => if f.acc == .rw then (2 ^ (f.hi + 1 - f.lo) - 1) * 2 ^ f.lo else 0).sum

/-- What a write puts to a whole register (R6): a 32-bit write leaves the RW bits of the other half as they are, and writes no other bit there. -/
def placed (s : State) (r : RegRow) (a addr width value : Nat) : Word :=
  if width == 4 then
    let sh := 8 * (addr % 8)
    let other := bitsWithout ((rd s a).toNat &&& rwMask r) ((2 ^ 32 - 1) * 2 ^ sh)
    BitVec.ofNat 64 (other + value % 2 ^ 32 * 2 ^ sh)
  else BitVec.ofNat 64 value

/-- A write by the access codes (R8): RW fields are set, W1C bits cleared, the others ignored. -/
def putFields (s : State) (r : RegRow) (a : Nat) (v : Word) : State :=
  r.fields.foldl (fun s f =>
    match f.acc with
    | .rw => wr s a (setFld (rd s a) f.hi f.lo (fld v f.hi f.lo))
    | .w1c => wr s a (setFld (rd s a) f.hi f.lo (bitsWithout (fld (rd s a) f.hi f.lo) (fld v f.hi f.lo)))
    | _ => s) s

/-- A write that its register's rule leaves unchanged unless a condition holds. -/
def putIf (ok : Bool) (s : State) (r : RegRow) (a : Nat) (v : Word) (how : How) : State := if ok then putFields s r a v else refuseAs s how

/-- Whether a write of ARB_ESC_STAGE may be taken (10 R300). -/
def stageOk (s : State) (v : Word) : Bool :=
  let pages := fld v 63 45
  let base := fld v 26 0 * pageBytes
  getF s R.ARB_ESC_STATUS F.ARB_ESC_STATUS_STATE == 0 && s.esc.rows.isEmpty &&
    (pages == 0 || (base / stackBytes < 8 && base % stackBytes + pages * pageBytes ≤ 32704 * pageBytes))

/-- A write to a check-value unit's register other than CRC_CTRL and CRC_DATA (R308, R314): on a busy unit only the W1C bits of STATUS act; values are cut to WIDTH. -/
def putUnit (s : State) (r : RegRow) (u a : Nat) (v : Word) (how : How) : State :=
  if a == R.CRC_STATUS u then putFields s r a v
  else if unitBusy s u then refuseAs s how
  else
    let t := putFields s r a v
    if a == R.CRC_POLY u || a == R.CRC_INIT u || a == R.CRC_XOROUT u || a == R.CRC_VALUE u || a == R.CRC_EXPECT u then wr t a (BitVec.ofNat 64 (unitReg t u a)) else t

/-- A write to a completion ring's registers (03 R78 to R83). -/
def putRing (s : State) (r : RegRow) (j a : Nat) (v : Word) (how : How) : State :=
  if a == R.CMD_RING_CTRL j then writeRingCtrl s j v how
  else if a == R.CMD_RING_CONSUMED j then writeRingConsumed s j v how
  else if a == R.CMD_RING_BASE j then (if flagF s (R.CMD_RING_CTRL j) F.CMD_RING_CTRL_ENABLE then s else putFields s r a v)
  else s

/-- Whether a draw is installed (15 R456). -/
def drawInstalled (s : State) (n d : Nat) : Bool := bitF s (R.RSEn_DRAW_STATUS n) F.RSEn_DRAW_STATUS_INSTALLED d

/-- Whether the register path is busy (23 R694). -/
def pathBusy (s : State) : Bool := getF s R.CMD_REG_CTRL F.CMD_REG_CTRL_RESULT == 1

/-- A write to one of the three registers of the register path (R694 to R697): none has effect while RESULT is BUSY. GO is answered elsewhere. -/
def putPath (s : State) (r : RegRow) (a : Nat) (v : Word) (how : How) : State := putIf (!pathBusy s) s r a v how

/-- A write to the HBM block (12 R344 to R350, R363, R367). (DEDUCED, assumption log 104) -/
def putHbm (s : State) (r : RegRow) (a : Nat) (v : Word) (how : How) : State :=
  if a == R.HBM_RETIRE then inClass 4 s fun s => writeRetire s v
  else if a == R.HBM_DONATE then writeDonate s v
  else if a == R.HBM_MAP_SEL then putIf (fld v 14 0 < 32704) s r a v how
  else if a == R.HBM_SCRUB then putIf (10 ≤ fld v 12 8 && fld v 12 8 ≤ 20) s r a v how
  else if R.HBM_GOV 0 ≤ a && a ≤ R.HBM_GOV 5 then writeGov s ((a - R.HBM_GOV 0) / 8) v how
  else putFields s r a v

/-- A write to a Rose die's block (15 R458, R460). -/
def putRose (s : State) (r : RegRow) (n a : Nat) (v : Word) (how : How) : State :=
  if a == R.RSEn_ROUTE_SEL n then putIf (drawInstalled s n (fld v 7 4)) s r a v how
  else if a == R.RSEn_RING_SEL n then putIf (fld v 9 8 < 3 && fld v 3 0 ≤ 8) s r a v how
  else putFields s r a v

/-- A write to the CRC block. -/
def putCrc (s : State) (r : RegRow) (fw : Bool) (a : Nat) (v : Word) (how : How) : State :=
  let u := (unitOf a).getD 0
  if (unitOf a).isNone then putFields s r a v
  else if a == R.CRC_CTRL u then
    let taken := if unitBusy s u && bitW v 1 then takeFree s else (0, s)
    inClass 4 taken.2 fun s => writeCrcCtrl s u v taken.1 how fw
  else if a == R.CRC_DATA u then writeCrcData s u how.2.1 v how fw
  else putUnit s r u a v how

/-- A write to a register, by the rule of its own where it has one, else by the access codes. -/
def putReg (s : State) (r : RegRow) (fw : Bool) (a : Nat) (v : Word) (how : How) : State :=
  match blockOf a with
  | 0x0 =>
    if a == R.ARB_ESC_STAGE then putIf (stageOk s v) s r a v how
    else if a == R.ARB_LANE_SEL then putIf (fld v 15 13 ≤ 5 && fld v 8 0 < linkGroups (fld v 15 13)) s r a v how
    else putFields s r a v
  | 0x1 =>
    if R.CMD_RING_BASE 0 ≤ a && a ≤ R.CMD_RING_CONSUMED 15 then putRing s r ((a - R.CMD_RING_BASE 0) / 0x20) a v how
    else if R.CMD_REG_TARGET ≤ a && a ≤ R.CMD_REG_CTRL then putPath s r a v how
    else putFields s r a v
  | 0x3 => if a == R.PWR_CAP then writePwrCap s v how else putFields s r a v
  | 0x4 => if R.CLK_SET 0 ≤ a && a ≤ R.CLK_SET 6 then writeClkSet s ((a - R.CLK_SET 0) / 8) v how else putFields s r a v
  | 0x5 => if a == R.LOG_CTR_SEL then putIf (isSource (fld v 15 0)) s r a v how else putFields s r a v
  | 0x6 => putHbm s r a v how
  | 0x7 => putRose s r 0 a v how
  | 0x8 => putRose s r 1 a v how
  | 0x9 =>
    if a == R.DRD_REPLAY_REGION then writeReplayRegion s v how
    else if a == R.DRD_ROUTE_SEL then putIf (drawInstalled s 0 (fld v 19 16)) s r a v how
    else putFields s r a v
  | 0xA => putCrc s r fw a v how
  | 0xD => if a == R.REL_HOLD then putIf (fld v 63 32 ≤ 0x40000) s r a v how else putFields s r a v
  | _ => putFields s r a v

/-- A register write (R6 to R8, R306, R687), short of an access that GO of the register path starts. -/
def regPut (s : State) (req : Requester) (addr width value : Nat) : State :=
  let a := addr / 8 * 8
  if !goodAccess addr width then logAccess s addr width true 0 value 0
  else match regHere s a with
    | none => logAccess s addr width true 1 value 0
    | some r => if heldUnit s req a then logAccess s addr width true 2 value 0 else putReg s r (!fromHost req) a (placed s r a addr width value) (addr, width, value)

/-! ### The register path (R694) -/

/-- The end of a register-path access with a RESULT. -/
def pathEnd (s : State) (result : Nat) : State := setF (setF s R.CMD_REG_CTRL F.CMD_REG_CTRL_GO 0) R.CMD_REG_CTRL F.CMD_REG_CTRL_RESULT result

/-- The module and address that CMD_REG_TARGET names. -/
def pathFid (s : State) : Nat := getF s R.CMD_REG_TARGET F.CMD_REG_TARGET_FID
def pathAddr (s : State) : Nat := getF s R.CMD_REG_TARGET F.CMD_REG_TARGET_ADDR

/-- Whether the access that runs is a write. -/
def pathWrite (s : State) : Bool := flagF s R.CMD_REG_CTRL F.CMD_REG_CTRL_WRITE

/-- A register-path access that failed: RESULT names why, CMD_REG_DATA stays, and the access is logged. -/
def pathFail (s : State) (result : Nat) : State :=
  logAccess (pathEnd { s with cmd := { s.cmd with regWait := none } } result) (pathAddr s) 8 (pathWrite s) 3 (rd s R.CMD_REG_DATA).toNat (pathFid s)

/-- RESULT of an answer: an OK read places its value, a denied write is a failure. -/
def pathDone (s : State) (status : Nat) (data : Word) : State :=
  if status != 0 then pathFail s 5
  else
    let s := { s with cmd := { s.cmd with regWait := none } }
    pathEnd (if pathWrite s then s else wr s R.CMD_REG_DATA data) 0

/-- The access a target makes: its status (0 made, 5 refused while SCRUBBING), and the value read. -/
def pathServe (s : State) (write : Bool) (addr : Nat) (data : Word) : Nat × Word × State :=
  if write then
    if sliceState s == 3 then (5, 0, s) else (0, 0, regPut s .regPath addr 8 data.toNat)
  else (0, BitVec.ofNat 64 (regRead s .regPath addr 8).1, (regRead s .regPath addr 8).2)

/-- GO on the pilot (R694): the two checks, then the access itself or its request. -/
def pathGo (s : State) : State :=
  let s := setF (setF s R.CMD_REG_CTRL F.CMD_REG_CTRL_GO 1) R.CMD_REG_CTRL F.CMD_REG_CTRL_RESULT 1
  let a := pathAddr s
  let fid := pathFid s
  let data := rd s R.CMD_REG_DATA
  if a % 8 != 0 || a < ctrlBase || a > 0x200011FFFFF then pathFail s 2
  else if fid == 0 || ((ownEntry s).isSome && fid == myFid s) then
    let (st, v, s) := pathServe s (pathWrite s) a data
    pathDone s st v
  else if (homePort s fid false).isNone then pathFail s 3
  else sendInst { s with cmd := { s.cmd with regWait := some (s.now, fid) } } 0 fid .regRequest [b2n (pathWrite s), a, data.toNat]

/-- A register write with all it starts: GO of the register path acts on a pilot, where no access runs (R694). -/
def regWrite (s : State) (req : Requester) (addr width value : Nat) : State :=
  let go := addr / 8 * 8 == R.CMD_REG_CTRL && goodAccess addr width && addr % 8 == 0 && value.testBit 0 && (regHere s R.CMD_REG_CTRL).isSome && !pathBusy s && isPilot s
  let t := regPut s req addr width value
  if go then pathGo t else t

/-! ### The commands -/

/-- Whether a requester reaches an address (R685, R693): firmware every control register, the host of the pilot what its BARs show. -/
def mayReach (s : State) (req : Requester) (addr : Nat) : Bool :=
  s.boot.stage ≥ 1 && ctrlBase ≤ addr && addr < 2 ^ 48 &&
  match req with
  | .mgmt => true
  | .regPath => true
  | .helm k => pdState s (5 + k.val / 8) == 2 && !dieFenced s (k.val / 8)
  | .host => isPilot s && ((blockOf addr == 1 && blockOff addr < 0x80000) || (blockOf addr == 5 && blockOff addr < 0x20000) || (blockOf addr == 0xA && blockOff addr < 0x1000))

/-- REGISTER_WRITE (R8). -/
def execRegisterWrite (req : Requester) (addr width : Nat) (value : Word) (s : State) : Reply :=
  done (onlyIf (mayReach s req addr) s fun s => regWrite s req addr width value.toNat)

/-- REGISTER_READ (R7): the value goes to the requester. -/
def execRegisterRead (req : Requester) (addr width : Nat) (s : State) : Reply :=
  done (onlyIf (mayReach s req addr) s fun s => readAnswer (regRead s req addr width).2 req addr (regRead s req addr width).1)

/-- REG_PATH_READ (R694): CMD_REG_CTRL written with GO set and WRITE clear. -/
def execRegPathRead (value : Word) (s : State) : Reply :=
  done (onlyIf (mayReach s .host R.CMD_REG_CTRL && bitW value 0 && !bitW value 1) s fun s => regWrite s .host R.CMD_REG_CTRL 8 value.toNat)

/-- REG_PATH_WRITE (R694): CMD_REG_CTRL written with GO and WRITE set. -/
def execRegPathWrite (value : Word) (s : State) : Reply :=
  done (onlyIf (mayReach s .host R.CMD_REG_CTRL && bitW value 0 && bitW value 1) s fun s => regWrite s .host R.CMD_REG_CTRL 8 value.toNat)

/-- REG_PATH_REQUEST (R694): the target makes one access and answers; a module in Anchor, or one that no route joins to the pilot, does not. -/
def execRegPathRequest (src : Nat) (write : Bool) (addr : Nat) (data : Word) (s : State) : Reply :=
  done (onlyIf (s.boot.stage ≥ 1 && anchorState s < 3 && (homePort s src false).isSome) s fun s =>
    sendInst (pathServe s write addr data).2.2 0 src .regAnswer [(pathServe s write addr data).1, (pathServe s write addr data).2.1.toNat])

/-- REG_PATH_ANSWER (R694): the answer of the module asked. -/
def execRegPathAnswer (src status : Nat) (data : Word) (s : State) : Reply :=
  done (match s.cmd.regWait with
    | some (_, fid) => onlyIf (fid == src) s fun s => pathDone s status data
    | none => s)

/-- REG_PATH_TIMEOUT (R694): no answer within 1 ms. -/
def execRegPathTimeout (s : State) : Reply :=
  done (match s.cmd.regWait with
    | some (t, _) => onlyIf (t + 1000000 ≤ s.now) s fun s => pathFail s 4
    | none => s)

end Sys2Proof.Machine
end

