-- ==== Sys2Proof/Machine/Beat.lean ====
section
/-!
DEFINITION. The start of a beat, and the opening and closing of a dog watch (02 R23, R30 to R34, 14 R404).
-/
namespace Sys2Proof.Machine

/-- A management core that has restarted runs again (19 R592). (DEDUCED, assumption log 84) -/
def mgmtBack (s : State) : State :=
  match s.ladder.mgmtDownUntil with
  | some t => if t ≤ s.now then { s with ladder := { s.ladder with mgmtDownUntil := none, lastKickNs := s.now } } else s
  | none => s

/-- PILOT_SEL and the power state of the host port as sampled at the beat (20 R616, 21 R641, 22 R660). (DEDUCED, assumption log 94) -/
def samplePins (s : State) (x : BeatIn) : State :=
  { s with boot := { s.boot with strapSeen := x.pilotSel == s.boot.strap, strap := x.pilotSel, d3hot := x.d3hot } }

/-- Clocks, temperatures, governors and pins at a beat: what PD0 does whatever the power state (21 R634 to R638, 22 R675, 12 R350). (DEDUCED, assumption log 108) -/
def islandBeat (s : State) (x : BeatIn) : State :=
  let s := mgmtBack (account s)
  let s := sendMarkers (merBeat s)
  let s := loopBeat (xinBeat s x.xinA x.xinB)
  samplePins (govBeat (thermalBeat s x.logic x.hbm x.inlet x.outlet)) x

/-- The redraw of the next beat: scheduled, and its holds sent (15 R435, R437, 16 R488). -/
def redrawBeat (s : State) : State :=
  let s := scheduleBeat s
  match s.fab.redraw with
  | some (b, _) =>
    if b == beatNow s + 1 && locked s then holdForRedraw s b ((List.range 9).any fun k => ((getLine s k).spare.bind SpareIn.beat) == some b) else s
  | none => s

/-- What begins anew with a watch: port and link counts, key exchanges, the counter snapshot, and PWR_RATED_TIME saved (14 R403, R427, 13 R376, 18 R545, R546, 19 R576, 22 R683). -/
def watchStart (s : State) : State :=
  let s := linkWatch (allPorts.foldl portWatch s)
  let s := startFerryKeys (rotationWatch s)
  saveRated (sendSnapshot s)

/-- Links, rings and lines at a beat, outside Anchor (14 R404, R413, 15 R440, R451 to R454, 20 R620). -/
def fabricBeat (s : State) (x : BeatIn) (newWatch : Bool) : State :=
  let s := redrawBeat (bindBeat s)
  let s := allPorts.foldl (fun s p => portBeat s p (mapGetD 0 x.lights p)) s
  feedBeatStart (bearingBeat s x.rings) newWatch x.feeds

/-- A beat whose start has not been run yet. (DEDUCED, assumption log 108) -/
def beatStart (s : State) (x : BeatIn) : State :=
  let newWatch := watchOf s.mer.beatSeen != watchNow s
  let s := { s with mer := { s.mer with beatSeen := beatNow s } }
  let s := islandBeat s x
  let s := if newWatch then watchStart s else s
  let s := if s.boot.stage ≥ 9 && anchorState s < 3 then fabricBeat s x newWatch else s
  reclass (streamEntries (closeEntries (discoverLate s)))

/-- BEAT_START (R404): once at each beat. -/
def execBeatStart (x : BeatIn) (s : State) : Reply := done (onlyIf (s.boot.stage ≥ 1 && s.mer.beatSeen != beatNow s) s fun s => beatStart s x)

/-! ### Dog watches (R32 to R34) -/

/-- Queued commands whose start beat lies in the dog watch wait for its end (R34). (DEDUCED, assumption log 109) -/
def holdStarts (s : State) (b e : Nat) : State :=
  { s with cmd := { s.cmd with cmds := s.cmd.cmds.map fun x => if x.phase == .queued && x.hdr.atBeat && b ≤ x.hdr.startBeat && x.hdr.startBeat < e then { x with heldBeat := some e } else x } }

/-- A dog watch opened for length L: starts are held, a master takes its role back, and the work that runs only in dog watches begins (R23, R34, 15 R443 to R445, 17 R516, 19 R589). -/
def openDogWatch (s : State) (len : Nat) : State :=
  let b := beatNow s
  let s := setF { s with mer := { s.mer with dogEnd := some (b + len) } } R.MER_STATUS F.MER_STATUS_IN_DOG_WATCH 1
  let s := holdStarts (showDogWatch s (b + 1)) b (b + len)
  let s := if merRole s == 1 && !sourcing s then setSourcing s true else s
  let s := placeTests (startVerify (startRelocks s))
  auditBegin s

/-- DOG_WATCH_OPEN (R32): at its beat, while scheduled events run. -/
def execDogWatchOpen (s : State) : Reply :=
  done (match s.fab.chart with
    | some c => onlyIf (locked s && opensAt c (beatNow s) && s.mer.dogEnd.isNone) s fun s => openDogWatch s c.length
    | none => s)

/-- A dog watch closed: audits and sweeps it did not hold wait, and the commands it held fall due (R34, 15 R455, 17 R516). -/
def closeDogWatch (s : State) : State :=
  let s := account s
  let s := setF { s with mer := { s.mer with dogEnd := none } } R.MER_STATUS F.MER_STATUS_IN_DOG_WATCH 0
  let s := stopRelocks { s with reck := { s.reck with auditLeft := 0 } }
  reclass { s with pwr := { s.pwr with outDog := false } }

/-- DOG_WATCH_CLOSE (R34). -/
def execDogWatchClose (s : State) : Reply :=
  done (match s.mer.dogEnd with
    | some e => onlyIf (e ≤ beatNow s) s closeDogWatch
    | none => s)

end Sys2Proof.Machine
end

