-- ==== Sys2Proof/Machine/Dispatch.lean ====
section
/-!
DEFINITION. One arm per command: a direct call of its meaning.
-/
namespace Sys2Proof.Machine

def exec (i : Instr) (s : State) : Host.Outcome State Fault Refusal :=
  match i with
  | .registerWrite req addr width value => Sys2Proof.Machine.execRegisterWrite req addr width value s
  | .merCountRead req upper => Sys2Proof.Machine.execMerCountRead req upper s
  | .beatStart x => Sys2Proof.Machine.execBeatStart x s
  | .superframeMarker m => Sys2Proof.Machine.execSuperframeMarker m s
  | .holdoverEntry => Sys2Proof.Machine.execHoldoverEntry s
  | .adriftEntry => Sys2Proof.Machine.execAdriftEntry s
  | .deputyTakeover => Sys2Proof.Machine.execDeputyTakeover s
  | .merPpsEdge count => Sys2Proof.Machine.execMerPpsEdge count s
  | .refLost lost => Sys2Proof.Machine.execRefLost lost s
  | .dogWatchOpen => Sys2Proof.Machine.execDogWatchOpen s
  | .dogWatchClose => Sys2Proof.Machine.execDogWatchClose s
  | .commandSlotWrite offset data => Sys2Proof.Machine.execCommandSlotWrite offset data s
  | .slotTimeout slot => Sys2Proof.Machine.execSlotTimeout slot s
  | .slotQuietExpiry slot => Sys2Proof.Machine.execSlotQuietExpiry slot s
  | .nop => Sys2Proof.Machine.execNop s
  | .fenceOnly => Sys2Proof.Machine.execFenceOnly s
  | .setStream => Sys2Proof.Machine.execSetStream s
  | .abort => Sys2Proof.Machine.execAbort s
  | .clearStream => Sys2Proof.Machine.execClearStream s
  | .queryStream => Sys2Proof.Machine.execQueryStream s
  | .commandStart stream counter => Sys2Proof.Machine.execCommandStart stream counter s
  | .waitTimeout stream counter => Sys2Proof.Machine.execWaitTimeout stream counter s
  | .commandRetire stream counter placeHeld => Sys2Proof.Machine.execCommandRetire stream counter placeHeld s
  | .ringFullWait ring => Sys2Proof.Machine.execRingFullWait ring s
  | .commandStop stream counter => Sys2Proof.Machine.execCommandStop stream counter s
  | .commandTimeout stream counter => Sys2Proof.Machine.execCommandTimeout stream counter s
  | .cmdRingCtrlWrite ring value => Sys2Proof.Machine.execCmdRingCtrlWrite ring value s
  | .cmdRingConsumedWrite ring value => Sys2Proof.Machine.execCmdRingConsumedWrite ring value s
  | .copy a => Sys2Proof.Machine.execCopy a s
  | .fill a => Sys2Proof.Machine.execFill a s
  | .dataIn a => Sys2Proof.Machine.execDataIn a s
  | .dataOut a => Sys2Proof.Machine.execDataOut a s
  | .matmul => Sys2Proof.Machine.execMatmul s
  | .load array ups => Sys2Proof.Machine.execLoad array ups s
  | .pass array ups => Sys2Proof.Machine.execPass array ups s
  | .tileHandoff stream counter tile third member => Sys2Proof.Machine.execTileHandoff stream counter tile third member s
  | .tileDrain stream counter tile ups => Sys2Proof.Machine.execTileDrain stream counter tile ups s
  | .vernierVerdict stream counter tile third => Sys2Proof.Machine.execVernierVerdict stream counter tile third s
  | .thirdReading stream counter tile => Sys2Proof.Machine.execThirdReading stream counter tile s
  | .thirdReadingSettled stream counter tile ups => Sys2Proof.Machine.execThirdReadingSettled stream counter tile ups s
  | .laneProgram => Sys2Proof.Machine.execLaneProgram s
  | .laneNop engine ups => Sys2Proof.Machine.execLaneNop engine ups s
  | .mov engine ups => Sys2Proof.Machine.execMov engine ups s
  | .ldc engine ups => Sys2Proof.Machine.execLdc engine ups s
  | .lid engine ups => Sys2Proof.Machine.execLid engine ups s
  | .ld engine ups => Sys2Proof.Machine.execLd engine ups s
  | .st engine ups => Sys2Proof.Machine.execSt engine ups s
  | .red engine ups => Sys2Proof.Machine.execRed engine ups s
  | .rdr engine ups => Sys2Proof.Machine.execRdr engine ups s
  | .rnd engine ups => Sys2Proof.Machine.execRnd engine ups s
  | .fadd engine ups => Sys2Proof.Machine.execFadd engine ups s
  | .fsub engine ups => Sys2Proof.Machine.execFsub engine ups s
  | .fmul engine ups => Sys2Proof.Machine.execFmul engine ups s
  | .fma engine ups => Sys2Proof.Machine.execFma engine ups s
  | .fmax engine ups => Sys2Proof.Machine.execFmax engine ups s
  | .fmin engine ups => Sys2Proof.Machine.execFmin engine ups s
  | .fabs engine ups => Sys2Proof.Machine.execFabs engine ups s
  | .fneg engine ups => Sys2Proof.Machine.execFneg engine ups s
  | .fsel engine ups => Sys2Proof.Machine.execFsel engine ups s
  | .fcmp engine ups => Sys2Proof.Machine.execFcmp engine ups s
  | .frnd engine ups => Sys2Proof.Machine.execFrnd engine ups s
  | .frcp engine ups => Sys2Proof.Machine.execFrcp engine ups s
  | .frsqrt engine ups => Sys2Proof.Machine.execFrsqrt engine ups s
  | .fsqrt engine ups => Sys2Proof.Machine.execFsqrt engine ups s
  | .fexp2 engine ups => Sys2Proof.Machine.execFexp2 engine ups s
  | .flog2 engine ups => Sys2Proof.Machine.execFlog2 engine ups s
  | .fsigm engine ups => Sys2Proof.Machine.execFsigm engine ups s
  | .ftanh engine ups => Sys2Proof.Machine.execFtanh engine ups s
  | .ferf engine ups => Sys2Proof.Machine.execFerf engine ups s
  | .iadd engine ups => Sys2Proof.Machine.execIadd engine ups s
  | .iand engine ups => Sys2Proof.Machine.execIand engine ups s
  | .ior engine ups => Sys2Proof.Machine.execIor engine ups s
  | .ixor engine ups => Sys2Proof.Machine.execIxor engine ups s
  | .ishl engine ups => Sys2Proof.Machine.execIshl engine ups s
  | .ishr engine ups => Sys2Proof.Machine.execIshr engine ups s
  | .reductionRowResult engine channel ups => Sys2Proof.Machine.execReductionRowResult engine channel ups s
  | .embGather => Sys2Proof.Machine.execEmbGather s
  | .embScatterAdd => Sys2Proof.Machine.execEmbScatterAdd s
  | .embRequest port xid source digest lookup row ups => Sys2Proof.Machine.execEmbRequest port xid source digest lookup row ups s
  | .embResponse xid source digest a ups => Sys2Proof.Machine.execEmbResponse xid source digest a ups s
  | .embContribution port xid digest c ups => Sys2Proof.Machine.execEmbContribution port xid digest c ups s
  | .embEnd port xid source digest count => Sys2Proof.Machine.execEmbEnd port xid source digest count s
  | .embStop port xid source digest => Sys2Proof.Machine.execEmbStop port xid source digest s
  | .embStalled stream counter pos => Sys2Proof.Machine.execEmbStalled stream counter pos s
  | .relay a => Sys2Proof.Machine.execRelay a s
  | .relayFrame port f ups => Sys2Proof.Machine.execRelayFrame port f ups s
  | .heldFrameExpiry index => Sys2Proof.Machine.execHeldFrameExpiry index s
  | .hopTimeout stream counter => Sys2Proof.Machine.execHopTimeout stream counter s
  | .update => Sys2Proof.Machine.execUpdate s
  | .updateBlock engine ups => Sys2Proof.Machine.execUpdateBlock engine ups s
  | .setDrawCounter => Sys2Proof.Machine.execSetDrawCounter s
  | .ferryOut a => Sys2Proof.Machine.execFerryOut a s
  | .ferryBlock f => Sys2Proof.Machine.execFerryBlock f s
  | .ferryVoid port ferryId => Sys2Proof.Machine.execFerryVoid port ferryId s
  | .commit => Sys2Proof.Machine.execCommit s
  | .escapementSeal ups => Sys2Proof.Machine.execEscapementSeal ups s
  | .voteFrame v => Sys2Proof.Machine.execVoteFrame v s
  | .decisionFrame d answer => Sys2Proof.Machine.execDecisionFrame d answer s
  | .commitBeat => Sys2Proof.Machine.execCommitBeat s
  | .release => Sys2Proof.Machine.execRelease s
  | .inDoubtEntry => Sys2Proof.Machine.execInDoubtEntry s
  | .decisionRequest => Sys2Proof.Machine.execDecisionRequest s
  | .escInDoubt => Sys2Proof.Machine.execEscInDoubt s
  | .crcGo unit value => Sys2Proof.Machine.execCrcGo unit value s
  | .crcStop unit value taken ups => Sys2Proof.Machine.execCrcStop unit value taken ups s
  | .crcCheck unit value => Sys2Proof.Machine.execCrcCheck unit value s
  | .crcData unit width value => Sys2Proof.Machine.execCrcData unit width value s
  | .crcScanEnd unit stall ups => Sys2Proof.Machine.execCrcScanEnd unit stall ups s
  | .scrubRead ups => Sys2Proof.Machine.execScrubRead ups s
  | .hbmRetire value ups => Sys2Proof.Machine.execHbmRetire value ups s
  | .hbmDonate value => Sys2Proof.Machine.execHbmDonate value s
  | .hbmGovWrite cls value => Sys2Proof.Machine.execHbmGovWrite cls value s
  | .flit link up group payload control => Sys2Proof.Machine.execFlit link up group payload control s
  | .spareReq link up group lane seq => Sys2Proof.Machine.execSpareReq link up group lane seq s
  | .spareAck link up group lane seq => Sys2Proof.Machine.execSpareAck link up group lane seq s
  | .halfReq link up seq => Sys2Proof.Machine.execHalfReq link up seq s
  | .halfAck link up seq => Sys2Proof.Machine.execHalfAck link up seq s
  | .creditProbe link up => Sys2Proof.Machine.execCreditProbe link up s
  | .creditReport link up free => Sys2Proof.Machine.execCreditReport link up free s
  | .creditTimeout link up cls => Sys2Proof.Machine.execCreditTimeout link up cls s
  | .linkRetrain link up => Sys2Proof.Machine.execLinkRetrain link up s
  | .darendFrame port f => Sys2Proof.Machine.execDarendFrame port f s
  | .ack port a => Sys2Proof.Machine.execAck port a s
  | .align port a => Sys2Proof.Machine.execAlign port a s
  | .hello0 port b => Sys2Proof.Machine.execHello0 port b s
  | .hello1 port b => Sys2Proof.Machine.execHello1 port b s
  | .hold port beat durationUs reason => Sys2Proof.Machine.execHold port beat durationUs reason s
  | .laneChange port action logical wavelength atMarker => Sys2Proof.Machine.execLaneChange port action logical wavelength atMarker s
  | .laneRestripe port tx logical => Sys2Proof.Machine.execLaneRestripe port tx logical s
  | .replayTimeout port => Sys2Proof.Machine.execReplayTimeout port s
  | .portLostTimeout port => Sys2Proof.Machine.execPortLostTimeout port s
  | .holdResumeTimeout port => Sys2Proof.Machine.execHoldResumeTimeout port s
  | .trainingTimeout port => Sys2Proof.Machine.execTrainingTimeout port s
  | .identityResend port => Sys2Proof.Machine.execIdentityResend port s
  | .keyRotation => Sys2Proof.Machine.execKeyRotation s
  | .oldKeyExpiry => Sys2Proof.Machine.execOldKeyExpiry s
  | .drdReplayRegionWrite value => Sys2Proof.Machine.execDrdReplayRegionWrite value s
  | .redraw => Sys2Proof.Machine.execRedraw s
  | .redrawSettled changed => Sys2Proof.Machine.execRedrawSettled changed s
  | .ringSweep ring peaks => Sys2Proof.Machine.execRingSweep ring peaks s
  | .lanternAlert alert status => Sys2Proof.Machine.execLanternAlert alert status s
  | .lanternBusTimeout => Sys2Proof.Machine.execLanternBusTimeout s
  | .laserSpareIn line => Sys2Proof.Machine.execLaserSpareIn line s
  | .chart doc => Sys2Proof.Machine.execChart doc s
  | .chartAmendment doc => Sys2Proof.Machine.execChartAmendment doc s
  | .sliceAllocation doc => Sys2Proof.Machine.execSliceAllocation doc s
  | .sliceTableSet doc => Sys2Proof.Machine.execSliceTableSet doc s
  | .chartEffect => Sys2Proof.Machine.execChartEffect s
  | .chartAmendmentEffect => Sys2Proof.Machine.execChartAmendmentEffect s
  | .sliceAllocationEffect => Sys2Proof.Machine.execSliceAllocationEffect s
  | .sliceTableSetEffect => Sys2Proof.Machine.execSliceTableSetEffect s
  | .chartReq port epoch => Sys2Proof.Machine.execChartReq port epoch s
  | .chartChunk port kind epoch index count data => Sys2Proof.Machine.execChartChunk port kind epoch index count data s
  | .parityDelta d => Sys2Proof.Machine.execParityDelta d s
  | .parityDeltaAck fid unit offset stale => Sys2Proof.Machine.execParityDeltaAck fid unit offset stale s
  | .readingRequest fid stripe offset step ask ups => Sys2Proof.Machine.execReadingRequest fid stripe offset step ask ups s
  | .reading fid stripe offset body ups => Sys2Proof.Machine.execReading fid stripe offset body ups s
  | .snapshotOut a => Sys2Proof.Machine.execSnapshotOut a s
  | .standIn => Sys2Proof.Machine.execStandIn s
  | .attest => Sys2Proof.Machine.execAttest s
  | .keyInstall => Sys2Proof.Machine.execKeyInstall s
  | .sliceRelease a => Sys2Proof.Machine.execSliceRelease a s
  | .selfTest a => Sys2Proof.Machine.execSelfTest a s
  | .calibrate a => Sys2Proof.Machine.execCalibrate a s
  | .deferredFollowUp order fault => Sys2Proof.Machine.execDeferredFollowUp order fault s
  | .deferredTimeout order => Sys2Proof.Machine.execDeferredTimeout order s
  | .attestationRequest nonce => Sys2Proof.Machine.execAttestationRequest nonce s
  | .enrolment key installation collector sig => Sys2Proof.Machine.execEnrolment key installation collector sig s
  | .authorityHandover key sig => Sys2Proof.Machine.execAuthorityHandover key sig s
  | .debugUnlock sig => Sys2Proof.Machine.execDebugUnlock sig s
  | .bindRequest nonce => Sys2Proof.Machine.execBindRequest nonce s
  | .bindOfferExpiry => Sys2Proof.Machine.execBindOfferExpiry s
  | .bindAcceptance doc => Sys2Proof.Machine.execBindAcceptance doc s
  | .kxHello port ferry h => Sys2Proof.Machine.execKxHello port ferry h s
  | .kxCt port ferry ct sig => Sys2Proof.Machine.execKxCt port ferry ct sig s
  | .keySetupTimeout port => Sys2Proof.Machine.execKeySetupTimeout port s
  | .sliceKeyConfirmation port mac => Sys2Proof.Machine.execSliceKeyConfirmation port mac s
  | .collectorAck seq => Sys2Proof.Machine.execCollectorAck seq s
  | .logResendTimeout => Sys2Proof.Machine.execLogResendTimeout s
  | .heartbeat => Sys2Proof.Machine.execHeartbeat s
  | .mgmtWatchdog digestDiffers => Sys2Proof.Machine.execMgmtWatchdog digestDiffers s
  | .engineOperationTimeout source => Sys2Proof.Machine.execEngineOperationTimeout source s
  | .computeDieReset die => Sys2Proof.Machine.execComputeDieReset die s
  | .moduleWarmRestart x => Sys2Proof.Machine.execModuleWarmRestart x s
  | .coldStart x => Sys2Proof.Machine.execColdStart x s
  | .modReset lowUs => Sys2Proof.Machine.execModReset lowUs s
  | .recoveryImageLength length image written => Sys2Proof.Machine.execRecoveryImageLength length image written s
  | .recoveryChunk offset data => Sys2Proof.Machine.execRecoveryChunk offset data s
  | .recoveryDone length written => Sys2Proof.Machine.execRecoveryDone length written s
  | .firmwareUpdateOrder o => Sys2Proof.Machine.execFirmwareUpdateOrder o s
  | .pilotSelChange asserted => Sys2Proof.Machine.execPilotSelChange asserted s
  | .pcieReset => Sys2Proof.Machine.execPcieReset s
  | .anchorOrder o => Sys2Proof.Machine.execAnchorOrder o s
  | .anchorEnterBeat => Sys2Proof.Machine.execAnchorEnterBeat s
  | .anchorEntry => Sys2Proof.Machine.execAnchorEntry s
  | .anchorEntryTimeout => Sys2Proof.Machine.execAnchorEntryTimeout s
  | .wake order x => Sys2Proof.Machine.execWake order x s
  | .powerDomainFail domain => Sys2Proof.Machine.execPowerDomainFail domain s
  | .xinALost ppm => Sys2Proof.Machine.execXinALost ppm s
  | .xinBLost ppm => Sys2Proof.Machine.execXinBLost ppm s
  | .oscTrimMeasurement ppm => Sys2Proof.Machine.execOscTrimMeasurement ppm s
  | .clkSetWrite loop value => Sys2Proof.Machine.execClkSetWrite loop value s
  | .supplyFault volt durationUs => Sys2Proof.Machine.execSupplyFault volt durationUs s
  | .supplyRecovery volt => Sys2Proof.Machine.execSupplyRecovery volt s
  | .singleFeed pairB => Sys2Proof.Machine.execSingleFeed pairB s
  | .powerCapSample watts current volt => Sys2Proof.Machine.execPowerCapSample watts current volt s
  | .thermalTripRecovery => Sys2Proof.Machine.execThermalTripRecovery s
  | .i2cBusTimeout => Sys2Proof.Machine.execI2cBusTimeout s
  | .mgmtLinkSpeed mbps => Sys2Proof.Machine.execMgmtLinkSpeed mbps s
  | .regPathRead value => Sys2Proof.Machine.execRegPathRead value s
  | .regPathWrite value => Sys2Proof.Machine.execRegPathWrite value s
  | .regPathRequest src write addr data => Sys2Proof.Machine.execRegPathRequest src write addr data s
  | .regPathAnswer src status data => Sys2Proof.Machine.execRegPathAnswer src status data s
  | .regPathTimeout => Sys2Proof.Machine.execRegPathTimeout s
  | .registerRead req addr width => Sys2Proof.Machine.execRegisterRead req addr width s
  | .ptpMessage offsetPs => Sys2Proof.Machine.execPtpMessage offsetPs s
  | .laneOut port logical fault => Sys2Proof.Machine.execLaneOut port logical fault s
  | .helloResend port => Sys2Proof.Machine.execHelloResend port s
  | .decisionRequestReceipt fid step => Sys2Proof.Machine.execDecisionRequestReceipt fid step s
  | .digestFetchRequest fid step => Sys2Proof.Machine.execDigestFetchRequest fid step s
  | .digestFetchAnswer step digest => Sys2Proof.Machine.execDigestFetchAnswer step digest s
  | .retirementEnd ok => Sys2Proof.Machine.execRetirementEnd ok s
  | .debugAccess addr len write => Sys2Proof.Machine.execDebugAccess addr len write s
  | .updateRestartWaitExpiry => Sys2Proof.Machine.execUpdateRestartWaitExpiry s
  | .bladePairRestored pairB => Sys2Proof.Machine.execBladePairRestored pairB s
  | .embLookup engine ups => Sys2Proof.Machine.execEmbLookup engine ups s

end Sys2Proof.Machine
end

