-- ==== Sys2Proof/Machine/Tick.lean ====
section
/-!
DEFINITION. What passes with time alone: one nanosecond of an empty queue (DESIGN CHOICE, assumption log 3).
-/
namespace Sys2Proof.Machine

/-- The Meridian count one nanosecond on: held still while R27 holds it (02 R19, R27). -/
def tickCount (m : Meridian) : Meridian := if m.hold = 0 then { m with count := m.count + 1 } else { m with hold := m.hold - 1 }

/-- Ring vectors whose 2 µs have passed are raised (22 R664). -/
def tickRings (s : State) : State :=
  s.cmd.msix.foldl (fun s e =>
    if e.2.2 && e.2.1 + 2000 ≤ s.now then msix { s with cmd := { s.cmd with msix := mapPut s.cmd.msix e.1 (s.now, false) } } (2 + e.1) else s) s

/-- Ports whose hold ends now send what waited (14 R409). -/
def tickHolds (s : State) : State :=
  s.ports.foldl (fun s e => match e.2.hold with | some h => if h.endNs == s.now then pump s e.1 else s | none => s) s

/-- One nanosecond; waits on fences that hold at its beginning count from it (03 R60). -/
def tick (s : State) : State := tickHolds (tickRings { noteWaits s with now := s.now + 1, mer := tickCount s.mer })

end Sys2Proof.Machine
end

