-- ==== Sys2Proof/Safety.lean ====
section
/-!
DEFINITION. What a safe run of the block is, in the terms the claims use: every step answers a state, and memory and registers keep their canonical forms.
-/
namespace Sys2Proof.Machine

/-- Registers in canonical form: listed addresses strictly rise, and no listed value is the one the address reads as unlisted, its reset value (DESIGN CHOICE, assumption log 1). -/
abbrev regsWf (m : SMap Word) : Prop := mapSorted m = true ∧ ∀ e ∈ m, e.2 ≠ regReset e.1

/-- The forms every reachable state has: memory lists only bytes that are not 0 and registers only values that are not the reset ones, each in rising order of address, so equal contents are equal data. -/
abbrev Inv (s : State) : Prop := memWf s.mem = true ∧ regsWf s.regs

/-- A state whose queue is `q`, whose time is `n`, whose memory meets `M` and whose registers have the form of `Inv`: with `M` the canonical form, what a command leaves that takes no time and sends nothing to its own queue; with `M` equality to one memory, what a command leaves that writes no byte. -/
structure Stays (q : List Instr) (n : Nat) (M : List Host.Cell → Prop) (s : State) : Prop where
  pend : s.pending = q
  time : s.now = n
  mem : M s.mem
  regs : regsWf s.regs

/-- A reply that is a next state as `Stays` says. -/
def StaysReply (q : List Instr) (n : Nat) (M : List Host.Cell → Prop) (r : Reply) : Prop := ∃ t, r = .next t ∧ Stays q n M t

/-- A condition on memory that every operation over memory keeps, as its canonical form is one. -/
structure MemOk (M : List Host.Cell → Prop) : Prop where
  nil : M []
  write : ∀ m a bs, M m → M (memWrite m a bs)
  copy : ∀ m a b k, M m → M (memCopy m a b k)
  move : ∀ m a b k, M m → M (memMove m a b k)
  filter : ∀ m (f : Host.Cell → Bool), M m → M (m.filter f)

/-- The command answers a next state, and that state is as P says. -/
def Completes (c : Instr) (s : State) (P : State → Prop) : Prop := ∃ t, exec c s = .next t ∧ P t

/-- Every register but those listed reads in t as in s. -/
def OnlyRegs (l : List Nat) (s t : State) : Prop := ∀ a, a ∉ l → rd t a = rd s a

/-- The state once the packet at the head of the intake has been taken from it. -/
def taken (s : State) : State := { s with cmd := { s.cmd with intake := s.cmd.intake.drop 1 } }

/-- The packet p at the head of the intake carries the opcode and passes every check of the intake but those of its body: the module is not in Anchor, the header has no fault, slice and stream are its own, its tag and counter are the ones expected, and its stream is not full (03 R47 to R52). -/
def admitted (s : State) (op : Nat) (p : Bytes) : Bool :=
  let h := parseHeader p
  let q := queueOf h
  let st := getStream (taken s) q
  let ctl := isControl h.opcode
  s.cmd.intake.head? == some p && h.opcode == op && opListed op && anchorState s != 2 && anchorState s != 3 && headerFault p == none &&
    authorised (taken s) h && packetTag p == kmac256 (packetKey (taken s) h) (taggedPart p) 32 (izName [67, 77, 68]) &&
    h.counter == lastOf st ctl + 1 && (ctl || q == keyQueue || unretired (taken s) q < 512)

/-- The packet is admitted. -/
abbrev Admitted (s : State) (op : Nat) (p : Bytes) : Prop := admitted s op p = true

/-- The commands that may write a byte of memory; every other command leaves each byte as it is. -/
def mayWriteMemory : Instr → Bool
  | .registerWrite _ _ _ _ => true
  | .beatStart _ => true
  | .commandStart _ _ => true
  | .copy _ => true
  | .fill _ => true
  | .dataIn _ => true
  | .dataOut _ => true
  | .load _ _ => true
  | .pass _ _ => true
  | .tileDrain _ _ _ _ => true
  | .thirdReadingSettled _ _ _ _ => true
  | .laneNop _ _ => true
  | .mov _ _ => true
  | .ldc _ _ => true
  | .lid _ _ => true
  | .ld _ _ => true
  | .st _ _ => true
  | .red _ _ => true
  | .rdr _ _ => true
  | .rnd _ _ => true
  | .fadd _ _ => true
  | .fsub _ _ => true
  | .fmul _ _ => true
  | .fma _ _ => true
  | .fmax _ _ => true
  | .fmin _ _ => true
  | .fabs _ _ => true
  | .fneg _ _ => true
  | .fsel _ _ => true
  | .fcmp _ _ => true
  | .frnd _ _ => true
  | .frcp _ _ => true
  | .frsqrt _ _ => true
  | .fsqrt _ _ => true
  | .fexp2 _ _ => true
  | .flog2 _ _ => true
  | .fsigm _ _ => true
  | .ftanh _ _ => true
  | .ferf _ _ => true
  | .iadd _ _ => true
  | .iand _ _ => true
  | .ior _ _ => true
  | .ixor _ _ => true
  | .ishl _ _ => true
  | .ishr _ _ => true
  | .reductionRowResult _ _ _ => true
  | .embRequest _ _ _ _ _ _ _ => true
  | .embResponse _ _ _ _ _ => true
  | .embContribution _ _ _ _ _ => true
  | .embEnd _ _ _ _ _ => true
  | .embStop _ _ _ _ => true
  | .relay _ => true
  | .relayFrame _ _ _ => true
  | .updateBlock _ _ => true
  | .ferryOut _ => true
  | .ferryBlock _ => true
  | .escapementSeal _ => true
  | .release => true
  | .crcStop _ _ _ _ => true
  | .crcScanEnd _ _ _ => true
  | .scrubRead _ => true
  | .hbmRetire _ _ => true
  | .flit _ _ _ _ _ => true
  | .linkRetrain _ _ => true
  | .parityDelta _ => true
  | .readingRequest _ _ _ _ _ _ => true
  | .reading _ _ _ _ _ => true
  | .snapshotOut _ => true
  | .sliceRelease _ => true
  | .selfTest _ => true
  | .collectorAck _ => true
  | .computeDieReset _ => true
  | .moduleWarmRestart _ => true
  | .coldStart _ => true
  | .modReset _ => true
  | .recoveryImageLength _ _ _ => true
  | .recoveryDone _ _ => true
  | .firmwareUpdateOrder _ => true
  | .wake _ _ => true
  | .powerDomainFail _ => true
  | .supplyFault _ _ => true
  | .thermalTripRecovery => true
  | .regPathRead _ => true
  | .regPathWrite _ => true
  | .regPathRequest _ _ _ _ => true
  | .debugAccess _ _ _ => true
  | .updateRestartWaitExpiry => true
  | .embLookup _ _ => true
  | _ => false

/-! ### Vector engines (07 R176 to R187) -/

/-- An engine that is on, in the reduce waves of a row of a command c, whose due instruction carries the OP and is not the last of its wave. -/
def LaneDue (s : State) (e op : Nat) (v : VecEngine) (c : Cmd) : Prop :=
  e < 16 ∧ engineOn s 5 e = true ∧ mapGet s.comp.engines e = some v ∧ findCmd s v.stream v.counter = some c ∧ v.part = .reduce ∧
    v.pc + 1 < lpSplit c.pkt ∧ (laneWord c.pkt v.pc).op = op ∧ mapSorted v.lanes = true

/-- What virtual lane vl has of register r: a half in BF16×2 mode, else the whole (R176). -/
def laneVal (p : Bytes) (v : VecEngine) (vl r : Nat) : Nat :=
  if lpBf p then (if vl % 2 = 0 then laneReg v (vl / 2) r % 65536 else laneReg v (vl / 2) r / 65536) else laneReg v vl r

/-- Lanes at work in the wave. -/
def lanesBusy (p : Bytes) (v : VecEngine) : Nat := if lpBf p then cdiv (vecActive p v) 2 else vecActive p v

/-- What the due instruction of an engine works on. -/
def laneCtx (s : State) (e : Nat) (v : VecEngine) (c : Cmd) : LaneCtx :=
  { p := c.pkt, v := v, w := laneWord c.pkt v.pc, pc := v.pc, die := e / 4, row := v.row.getD 0, c0 := v.wave * lpWidth c.pkt, n := vecActive c.pkt v,
    key := trbKey s (rngStream (uAt c.pkt 88 4)), window := c.window }

/-- The engine has gone on to the next instruction, its registers are those of w, and no byte of memory has changed. -/
def LaneWent (s : State) (e : Nat) (v w : VecEngine) (t : State) : Prop :=
  mapGet t.comp.engines e = some w ∧ w = { v with pc := v.pc + 1, lanes := w.lanes } ∧ t.mem = s.mem

end Sys2Proof.Machine
end

