-- ==== Sys2Proof/Certificates/Slice0/Obligations.lean ====
section
/-!
DEFINITION. The statements for the provers: one proposition per obligation of OBLIGATIONS.json, each with the rules of spec/ it rests on.
-/
set_option maxRecDepth 4000
open Sys2Proof Sys2Proof.Machine

/-- With a command c at the front of the queue, a step answers exactly what exec answers for c on the state whose queue is the rest. (spec/opcode_table.json, 95_what_each_step_holds.md) -/
def Obligations.StepRunsFrontCommand : Prop :=
  ∀ (s : State) (c : Instr) (rest : List Instr), s.pending = c :: rest → step s = exec c { s with pending := rest }

/-- On an empty queue a step answers a next state: the queue stays empty, the time is one nanosecond later, no byte of memory changes, and the state keeps its canonical forms. That an empty queue is a nanosecond is the model's choice (assumption log 3). (R19, 02_meridian_time.md) -/
def Obligations.EmptyQueueIsOneNanosecond : Prop :=
  ∀ s : State, Inv s → s.pending = [] → ∃ t, step s = .next t ∧ t.pending = [] ∧ t.now = s.now + 1 ∧ t.mem = s.mem ∧ Inv t

/-- Inv holds at State.reset: memory and registers are in canonical form, and the queue is empty. (R698, 23_address_and_register_index.md) -/
def Obligations.ResetHoldsInvariant : Prop :=
  Inv State.reset ∧ State.reset.pending = []

/-- From every state with Inv, whatever command stands at the front of the queue and whatever its operands, if the step answers a next state then that state has Inv: memory lists no zero byte and registers list no reset value, each in strictly rising order of address. (R6, R333, R698) -/
def Obligations.EveryStepKeepsInvariant : Prop :=
  ∀ s t : State, Inv s → step s = .next t → Inv t

/-- For every command with any operands, in every state with Inv, exec answers a next state (never a fault, never a refusal) in which the queue and the time are as before and Inv holds. That a command takes no time is the model's choice (assumption log 3). (95_what_each_step_holds.md, spec/opcode_table.json) -/
def Obligations.EveryCommandGoesOn : Prop :=
  ∀ (c : Instr) (s : State), Inv s → Completes c s fun t => t.pending = s.pending ∧ t.now = s.now ∧ Inv t

/-- A frame with an uncorrectable codeword is counted and answered with a NAK of the last frame in order, and nothing else happens. A good frame first frees what its trailer acknowledges; then, in order, admitted by its scope and opened under one of the port's keys, its body is taken; in order but of a scope the port does not admit it is counted FOREIGN and its place taken; a failed tag is counted and refused; out of order it is only acknowledged or refused. An ACK block frees what it acknowledges. (R402, R403, R405) -/
def Obligations.DarendFramesReceived : Prop :=
  (∀ (s : State) (p : Nat) (f : FrameIn), Inv s → p < 32 → inService s p = true → f.good = false → Completes (.darendFrame p f) s fun t =>
    t.out = s.out ++ [⟨.ack, p, [((getPort s p).rxNext + 2 ^ 64 - 1) % 2 ^ 32, (getPort s p).freed.getD 0 0, (getPort s p).freed.getD 1 0, (getPort s p).freed.getD 2 0, 1], [], some (p, 0)⟩] ∧
      getF t (R.DRD_PORT_FEC p) F.DRD_PORT_FEC_UNCORRECTABLE = satAdd 32 (getF s (R.DRD_PORT_FEC p) F.DRD_PORT_FEC_UNCORRECTABLE) 1 ∧ OnlyRegs [R.DRD_PORT_FEC p] s t ∧
      t = { s with regs := t.regs, out := t.out }) ∧
  (∀ (s u : State) (p : Nat) (f : FrameIn), p < 32 → inService s p = true → f.good = true → u = takeAck (cleanBlock s p) p f.trailer → hdSeq f.header ≠ (getPort u p).rxNext % 2 ^ 32 →
    exec (.darendFrame p f) s = .next (sendAck u p (!seqLe (hdSeq f.header) (getPort u p).rxNext))) ∧
  (∀ (s u : State) (p : Nat) (f : FrameIn), p < 32 → inService s p = true → f.good = true → u = takeAck (cleanBlock s p) p f.trailer → hdSeq f.header = (getPort u p).rxNext % 2 ^ 32 →
    admits u p (hdScope f.header) = false ∨ (restricted u p = true ∧ ¬ (hdScope f.header = 0 ∧ hdClass f.header = 0)) →
    exec (.darendFrame p f) s = .next (noteAt (incF (acceptSeq u p (hdClass f.header) (cdiv (hdLength f.header) 64) true) (R.DRD_PORT_ERRORS p) F.DRD_PORT_ERRORS_FOREIGN 1) (portSource p) 0x03 clsInfo)) ∧
  (∀ (s u : State) (p : Nat) (f : FrameIn), p < 32 → inService s p = true → f.good = true → u = takeAck (cleanBlock s p) p f.trailer → hdSeq f.header = (getPort u p).rxNext % 2 ^ 32 →
    admits u p (hdScope f.header) = true → restricted u p = false → openFrame u p f = none → exec (.darendFrame p f) s = .next (tagFailed u p)) ∧
  (∀ (s u : State) (p : Nat) (f : FrameIn) (g : KeyGen) (body : Bytes), p < 32 → inService s p = true → f.good = true → u = takeAck (cleanBlock s p) p f.trailer → hdSeq f.header = (getPort u p).rxNext % 2 ^ 32 →
    admits u p (hdScope f.header) = true → restricted u p = false → openFrame u p f = some (g, body) → (getPort u p).keys = [g] → exec (.darendFrame p f) s = .next (takeBody u p f body)) ∧
  (∀ (s : State) (p : Nat) (a : AckIn), p < 32 → inService s p = true → exec (.ack p a) s = .next (takeAck (cleanBlock s p) p a))

/-- A well-formed ALIGN on its own wavelength counts for that filter while the port trains, another starts the count again. A first identity half is kept; with the second, in the phases of training, the peer is shown in the port's registers. Unanswered blocks are sent again; eight tries, or training that takes too long, leave the port dark; after a hold without a block the port trains again. (R404, R409, R412, R413) -/
def Obligations.PortTraining : Prop :=
  (∀ (s : State) (p : Nat) (a : AlignIn), p < 32 → a.filter < 9 → portState s p = 1 → (getPort s p).phase ≠ 2 → a.formed = false → mapSorted s.ports = true → mapSorted (getPort s p).aligns = true →
    Completes (.align p a) s fun t => mapGet (getPort t p).aligns a.filter = none ∧ t = { s with ports := t.ports }) ∧
  (∀ (s : State) (p : Nat) (a : AlignIn), p < 32 → a.filter < 9 → portState s p = 1 → (getPort s p).phase ≠ 2 → (getPort s p).hold = none → a.formed = true → a.wavelength = a.filter → Completes (.align p a) s fun t =>
    mapGetD 0 (getPort t p).aligns a.filter = mapGetD 0 (getPort s p).aligns a.filter + 1 ∧ (getPort t p).markerCount = a.marker ∧ t = { s with ports := t.ports }) ∧
  (∀ (s : State) (p : Nat) (b : Bytes), p < 32 → b.length = 31 → 1 ≤ portState s p → portState s p ≤ 6 → Completes (.hello0 p b) s fun t =>
    (getPort t p).hello0 = some b ∧ t = { s with ports := t.ports }) ∧
  (∀ (s : State) (p : Nat) (h b : Bytes), Inv s → p < 32 → b.length = 31 → h.length = 31 → (getPort s p).hello0 = some h → portState s p = 1 → (getPort s p).phase < 4 → Completes (.hello1 p b) s fun t =>
    (getPort t p).peer = some (h ++ b) ∧ (getPort t p).hello0 = none ∧ (getPort t p).peerTwice = decide ((getPort s p).peer = some (h ++ b)) ∧
      getF t (R.DRD_PORT_STATUS p) F.DRD_PORT_STATUS_PEER_FID = idFid (h ++ b) ∧ getF t (R.DRD_PORT_STATUS p) F.DRD_PORT_STATUS_PEER_PORT = idPort (h ++ b) % 256 ∧
      portState t p = 1 ∧ OnlyRegs [R.DRD_PORT_STATUS p, R.DRD_PORT_PEER p, R.DRD_PORT_PEER_INFO p] s t ∧ t = { s with regs := t.regs, ports := t.ports }) ∧
  (∀ (s : State) (p : Nat), p < 32 → portState s p = 1 → (getPort s p).phase = 4 → (getPort s p).identNs + 10000 ≤ s.now → s.now < (getPort s p).helloNs + 100000 →
    exec (.helloResend p) s = .next (sendHello s p)) ∧
  (∀ (s : State) (p : Nat), p < 32 → portState s p = 1 → (getPort s p).phase = 4 → (getPort s p).identNs + 10000 ≤ s.now → (getPort s p).helloNs + 100000 ≤ s.now → 8 ≤ (getPort s p).tries →
    exec (.helloResend p) s = .next (setPortState s p 0)) ∧
  (∀ (s : State) (p : Nat), p < 32 → portState s p = 2 ∨ portState s p = 3 ∨ portState s p = 4 → (getPort s p).identNs + 1000000 ≤ s.now → exec (.identityResend p) s = .next (sendHello s p)) ∧
  (∀ (s : State) (p : Nat), p < 32 → portState s p = 1 → (getPort s p).phase ≤ 5 → 2000000 < counted s p (getPort s p).trainNs → exec (.trainingTimeout p) s = .next (setPortState s p 0)) ∧
  (∀ (s : State) (p : Nat) (h : PortHold), p < 32 → inService s p = true → (getPort s p).hold = some h → h.endNs + 100000 ≤ s.now → exec (.holdResumeTimeout p) s = .next (setPortState s p 1))

/-- A LANE_CHANGE asked for is answered and, on a port in training, made at once; an answer to a request of the port's own marks it. A change due restripes the lane map. Two missing markers, 4 bad codewords, more than 2,048 corrected symbols or more than 64 ns of skew take a lane out. A HOLD is kept; a store unacknowledged for the round trip and 2 us is replayed; what a port out of service for 2 ms holds is discarded. A replay region inside the fabric buffer is taken while no port uses one, another is refused. (R407, R408, R409, R410, R411, R430) -/
def Obligations.PortLanesAndReplay : Prop :=
  (∀ (s : State) (p a i w m : Nat), Inv s → p < 32 → i < 8 → w ≤ 8 ∨ w = 15 → portState s p = 1 → a < 2 → Completes (.laneChange p a i w m) s fun t =>
    lanesOf t p true = modNth i (fun _ => w) (lanesOf s p true) ∧ t.out = s.out ++ [⟨.laneChange, p, [a + 2, i, w, m], [], some (p, 0)⟩] ∧ OnlyRegs [R.DRD_PORT_LANES p, R.DRD_PORT_STATUS p] s t ∧
      t = { s with regs := t.regs, out := t.out }) ∧
  (∀ (s : State) (p a i w m : Nat), p < 32 → i < 8 → w ≤ 8 ∨ w = 15 → mapSorted s.ports = true → portState s p = 1 ∨ inService s p = true → a = 2 ∨ a = 3 → Completes (.laneChange p a i w m) s fun t => t = { s with ports := t.ports } ∧
    ∀ c ∈ (getPort t p).changes, c.tx = false → c.logical = i → c.wavelength = w → c.atMarker = m → c.takeOut = decide (a = 2) → c.echoed = true) ∧
  (∀ (s : State) (p i : Nat) (tx : Bool) (c : LaneChange), (getPort s p).changes.find? (fun c => c.tx == tx && c.logical == i) = some c → c.echoed = false →
    exec (.laneRestripe p tx i) s = .next (askChange (modPort s p fun x => { x with markerCount := max x.markerCount c.atMarker }) p c.takeOut c.logical c.wavelength)) ∧
  (∀ (s : State) (p i : Nat) (tx : Bool) (c : LaneChange), p < 32 → i < 8 → (getPort s p).changes.find? (fun c => c.tx == tx && c.logical == i) = some c → c.echoed = true → tx = true ∨ c.takeOut = true →
    exec (.laneRestripe p tx i) s = .next (lanesChanged (setLaneMap (modPort s p fun x => { x with changes := x.changes.erase c }) p tx (modNth i (fun _ => c.wavelength) (lanesOf s p tx))) p)) ∧
  (∀ (s : State) (p i n : Nat), p < 32 → i < 8 → inService s p = true → holding s (getPort s p) = false → exec (.laneOut p i (.missing (n + 2))) s = .next (takeLaneOut s p i) ∧ exec (.laneOut p i (.skew (n + 65))) s = .next (takeLaneOut s p i) ∧
    exec (.laneOut p i (.codewords (n + 4))) s = .next (takeLaneOut (incF s (R.DRD_PORT_FEC p) F.DRD_PORT_FEC_UNCORRECTABLE (n + 4)) p i) ∧
    exec (.laneOut p i (.symbols (n + 2049))) s = .next (takeLaneOut (incF s (R.DRD_PORT_FEC p) F.DRD_PORT_FEC_CORRECTED (n + 2049)) p i)) ∧
  (∀ (s : State) (p b us r : Nat), p < 32 → us ≤ 256 → portState s p = 1 ∨ inService s p = true ∨ portState s p = 7 → exec (.hold p b us r) s = .next (putHold s p b us r)) ∧
  (∀ (s : State) (p : Nat), p < 32 → inService s p = true → (getPort s p).store ≠ [] → holding s (getPort s p) = false → roundTrip s p + 2000 ≤ counted s p (getPort s p).ackNs →
    exec (.replayTimeout p) s = .next (replayAll s p)) ∧
  (∀ (s : State) (p b : Nat), p < 32 → (getPort s p).leftNs = some b → inService s p = false → 2000000 < counted s p b →
    exec (.portLostTimeout p) s = .next (modPort (discardStore s p) p fun y => { y with leftNs := none })) ∧
  (∀ (s : State) (v : Word), Inv s → (∀ p, p < 32 → (getPort s p).extension = 0) → fld v 54 48 ≤ 64 → fld v 54 48 = 0 ∨ (fabricBase ≤ fld v 47 20 * 2 ^ 20 ∧ (fld v 47 20 + fld v 54 48) * 2 ^ 20 ≤ fabricBase + fabricBytes) →
    Completes (.drdReplayRegionWrite v) s fun t => rd t R.DRD_REPLAY_REGION = BitVec.ofNat 64 (fld v 54 48 * 2 ^ 48 + fld v 47 20 * 2 ^ 20) ∧ OnlyRegs [R.DRD_REPLAY_REGION] s t ∧ t = { s with regs := t.regs }) ∧
  (∀ (s : State) (v : Word), 64 < fld v 54 48 → Completes (.drdReplayRegionWrite v) s fun t => t = refuseAs s (R.DRD_REPLAY_REGION, 8, v.toNat))

/-- At the end with the higher digest, a hello whose chain is valid, whose serial has the peer's digest and whose signature verifies is kept; any other fails the exchange. A ciphertext whose signature verifies gives the secret from which the keys of the port come; any other fails the exchange. An exchange open for 5 ms ends, and the port leaves training for DARK. The model's signature and KEM operations are opaque. (R543) -/
def Obligations.LinkKeyExchange : Prop :=
  (∀ (s : State) (p : Nat) (h : HelloIn) (k : KeyExchange) (peer : Bytes), p < 32 → portState s p = 1 → (getPort s p).phase = 6 → getKx s p false = some k → (getPort s p).peer = some peer → lowerThan ownDigest (idDigest peer) = false → 
    exec (.kxHello p false h) s = .next (if Config.chainValid h.chain && shake256 (izName [83, 69, 82] ++ Config.chainSerial h.chain) 24 == idDigest peer &&
        Config.dsaVerify (Config.chainKey h.chain) (helloFields h.chain h.ek h.nonce ++ peer) h.sig
      then putKx s p false { k with peerHello := some (helloFields h.chain h.ek h.nonce ++ h.sig ++ h.report), peerChain := h.chain } else kxFail s p false)) ∧
  (∀ (s : State) (p : Nat) (ct sig hello : Bytes) (k : KeyExchange) (peer : Bytes), getKx s p false = some k → (getPort s p).peer = some peer → lowerThan ownDigest (idDigest peer) = false → k.peerHello = some hello →
    exec (.kxCt p false ct sig) s = .next (if Config.dsaVerify (Config.chainKey k.peerChain) (hello ++ k.hello ++ ct) sig
      then (match Config.kemDecap k.draw ct with | some ss => installKeys s p false k ss (hello ++ k.hello ++ ct) | none => kxFail s p false) else kxFail s p false)) ∧
  (∀ (s : State) (p : Nat) (k : KeyExchange), p < 32 → getKx s p true = none → getKx s p false = some k → k.startNs + 5000000 ≤ s.now → portState s p = 1 → (getPort s p).phase = 6 →
    exec (.keySetupTimeout p) s = .next (setPortState (dropKx s p false) p 0)) ∧
  (∀ (s : State) (p : Nat), (∀ f k, getKx s p f = some k → s.now < k.startNs + 5000000) → exec (.keySetupTimeout p) s = .next s)

/-- At a beat that starts a rotation, NEXT_BEAT of SEC_ROTATION is the beat of the next one. Keys past their life are gone from every port. A confirmation with the MAC of the slice key over the peer's digest sets SLICE_CONFIRMED of the port; one with another MAC is counted and sets the event. (R418, R544, R545) -/
def Obligations.LinkKeyLife : Prop :=
  (∀ s : State, Inv s → watchNow s % 16384 = 0 → beatNow s % 16384 = 0 → Completes .keyRotation s fun t =>
    getF t R.SEC_ROTATION F.SEC_ROTATION_NEXT_BEAT = ((watchNow s / 16384 + 1) * 2 ^ 28) % 2 ^ (F.SEC_ROTATION_NEXT_BEAT.hi + 1 - F.SEC_ROTATION_NEXT_BEAT.lo) ∧ t.mem = s.mem) ∧
  (∀ s : State, mapSorted s.ports = true → Completes .oldKeyExpiry s fun t => t.mem = s.mem ∧ ∀ p, p < 32 → (getPort t p).keys = (getPort s p).keys.filter fun g => !genExpired s g) ∧
  (∀ (s : State) (p : Nat) (mac : Bytes) (g : KeyGen) (peer : Bytes), p < 32 → inService s p = true → ((getPort s p).keys.find? fun g => g.slice != []) = some g → (getPort s p).peer = some peer →
    kmac256 g.slice (idDigest peer) 32 nmSlc = mac → confirmed s p = false →
    exec (.sliceKeyConfirmation p mac) s = .next (retryRoutes (pump (sendConfirm (showKeys (setBitF s R.SEC_LINK_KEYS F.SEC_LINK_KEYS_SLICE_CONFIRMED p true) p) p) p))) ∧
  (∀ (s : State) (p : Nat) (mac : Bytes) (g : KeyGen) (peer : Bytes), Inv s → p < 32 → inService s p = true → ((getPort s p).keys.find? fun g => g.slice != []) = some g → (getPort s p).peer = some peer →
    kmac256 g.slice (idDigest peer) 32 nmSlc ≠ mac → Completes (.sliceKeyConfirmation p mac) s fun t =>
      getF t R.SEC_COUNTS F.SEC_COUNTS_CONFIRM_FAIL = satAdd (F.SEC_COUNTS_CONFIRM_FAIL.hi + 1 - F.SEC_COUNTS_CONFIRM_FAIL.lo) (getF s R.SEC_COUNTS F.SEC_COUNTS_CONFIRM_FAIL) 1 ∧
      getF t R.SEC_EVENTS F.SEC_EVENTS_CONFIRM_FAIL = 1 ∧ t.ports = s.ports ∧ t.mem = s.mem)

/-- A redraw due at its beat takes place in LOCKED or HOLDOVER and else falls away. Forty microseconds after it, ports whose peer or lanes are others train. A ring sweep that finds its line locks the ring to the code found, in order 0, with no failure; one that does not leaves it MISBEARING, or FAILED at the fourth failure. (R436, R441, R442, R489) -/
def Obligations.RedrawsAndRings : Prop :=
  (∀ (s : State) (b d : Nat), s.fab.redraw = some (b, d) → b ≤ beatNow s → exec .redraw s = .next (if locked s then redrawNow (putRedraw s none) d else putRedraw s none)) ∧
  (∀ (s : State) (changed own : List Nat) (b : Nat), s.fab.settling = some (b, own) → b + 40000 ≤ s.now → (∀ p, p < 32 → portState s p = 0 ∨ ((inService s p = true ∨ portState s p = 1) ∧ p ∉ changed ∧ p ∉ own)) →
    exec (.redrawSettled changed) s = .next { s with fab := { s.fab with settling := none } }) ∧
  (∀ (s : State) (r : Nat) (peaks : List (Nat × Nat)), Inv s → maySweep s r = true → (getRing s r).verify = false → Completes (.ringSweep r peaks) s fun t => t.mem = s.mem ∧
    match sweepTarget s r peaks with
    | some code => getRing t r = { getRing s r with state := 2, heater := code % 65536, order := 0, line := ringWave r, fails := 0, due := false, verify := false, clean := 0 } ∧
        OnlyRegs [R.RSEn_BEARING_COUNTS (r / 1024)] s t
    | none => getRing t r = { getRing s r with state := if (getRing s r).fails + 1 ≥ 4 then 5 else 3, fails := (getRing s r).fails + 1, due := false, verify := false, clean := 0 }) ∧
  (∀ (s : State) (r : Nat) (peaks : List (Nat × Nat)), maySweep s r = false → exec (.ringSweep r peaks) s = .next s)

/-- An alert for one line keeps the status given for it and shows the state of its spare, and clears LOST. A transaction without an answer is counted three times; after that LOST is set and the module says so. At the beat of a spare-in, in LOCKED or HOLDOVER with the bus up, the IZ9 writes SPARE_GO and the line's spare is shown in use. (R448, R449, R453) -/
def Obligations.LanternEvents : Prop :=
  (∀ (s : State) (k st : Nat) (w : List Nat), Inv s → k < 9 → flagF s R.LNT_STATUS F.LNT_STATUS_ENABLED = true → flagF s R.LNT_STATUS F.LNT_STATUS_PRESENT = true → (getLine s k).spare = none → w.getD k 0 = st → st < 128 → 0 < st →
    Completes (.lanternAlert (2 ^ k) w) s fun t => (getLine t k).status = st ∧ spareState t k = spareStateOf s k st ∧ busLost t = false ∧ t.out = s.out ++ [⟨.lantern, 0, [6, 2 ^ k], [], none⟩] ∧
      OnlyRegs [R.LNT_STATUS, R.LNT_LINE k] s t ∧ t = { s with regs := t.regs, out := t.out, rose := t.rose }) ∧
  (∀ s : State, Inv s → flagF s R.LNT_STATUS F.LNT_STATUS_ENABLED = true → busLost s = false → s.rose.busTries < 3 → Completes .lanternBusTimeout s fun t =>
    t.rose = { s.rose with busTries := s.rose.busTries + 1 } ∧ busLost t = false ∧ OnlyRegs [R.LNT_STATUS] s t ∧ t = { s with regs := t.regs, rose := t.rose }) ∧
  (∀ s : State, Inv s → flagF s R.LNT_STATUS F.LNT_STATUS_ENABLED = true → busLost s = false → 3 ≤ s.rose.busTries → Completes .lanternBusTimeout s fun t =>
    busLost t = true ∧ t.rose = { s.rose with busTries := 0, lostWatch := watchNow s } ∧ t.mem = s.mem) ∧
  (∀ (s : State) (k b d : Nat) (x : SpareIn), Inv s → k < 9 → (getLine s k).spare = some x → x.beat = some b → x.goNs = some d → x.gone = false → busUp s = true → locked s = true → b * 65536 + d ≤ countNow s →
    Completes (.laserSpareIn k) s fun t => t.out = s.out ++ [⟨.lantern, 0, [0x72, 1], [], none⟩] ∧ getF t (R.LNT_LINE k) F.LNT_LINE_ACTIVE = 1 ∧ spareState t k = 3 ∧
      getF t (R.LNT_LINE k) F.LNT_LINE_SCHED_BEAT = 0 ∧ (getLine t k).spare = some { x with gone := true, beat := none } ∧ OnlyRegs [R.LNT_LINE k] s t ∧ t = { s with regs := t.regs, out := t.out, rose := t.rose })

/-- Each of the four kinds of document, heard by a module that holds an authority key, goes through the checks of R467. One whose signature does not verify is refused under reason code 1: REFUSE_REASON shows it, and the charts, tables and waiting documents stay. (R467) -/
def Obligations.DocumentsHeard : Prop :=
  (∀ e ∈ ([(1, .chart), (2, .chartAmendment), (3, .sliceAllocation), (4, .sliceTableSet)] : List (Nat × (Bytes → Instr))), ∀ (s : State) (d : Bytes), docHeard s = true → docKind d = e.1 →
    exec (e.2 d) s = .next (takeDoc s e.1 d none)) ∧
  (∀ e ∈ ([(1, .chart), (2, .chartAmendment), (3, .sliceAllocation), (4, .sliceTableSet)] : List (Nat × (Bytes → Instr))), ∀ (s : State) (d : Bytes), Inv s → docHeard s = true → docKind d = e.1 → docSigned s d = false →
    Completes (e.2 d) s fun t => getF t R.DRD_CHART_STATUS F.DRD_CHART_STATUS_REFUSE_REASON = 1 ∧ t.fab = s.fab ∧ t.mem = s.mem)

/-- A chart due replaces the chart, its EPOCH is shown, and ports are checked again. An amendment of PORT records due that still fits the chart in effect does so with the measurement M_CHART extended by it. An allocation that names the module allocates it if it is of no slice; one that does not name it changes nothing but the list of waiting documents. A table set due for the module's slice and position replaces the set in effect. (R472, R474, R477, R482, R538) -/
def Obligations.DocumentsTakeEffect : Prop :=
  (∀ (s : State) (w : Waiting) (c : Chart), s.fab.waiting.find? (fun w => w.kind == 1 && docDue s w) = some w → readChart w.raw = some c → ownEntry s = none →
    exec .chartEffect s = .next (afterChart (storeChart (wr (showHeld { s with fab := { s.fab with chart := some c, waiting := s.fab.waiting.filter fun x => x.kind > 2 || (x.kind == 1 && x.epoch > w.epoch) } })
      R.DRD_CHART_EPOCH (BitVec.ofNat 64 c.epoch))) (ownPorts s) [])) ∧
  (∀ (s : State) (w : Waiting) (c d : Chart) (rs : List Bytes), (heldAmends s).find? (fun w => docBase w.raw == chartEpoch s && docDue s w) = some w → s.fab.chart = some c → amend c w.raw = some d → docFault s 2 w.raw (some c) = none →
    docChanges w.raw = some rs → rs.all (fun r => chKind r == 1) = true →
    exec .chartAmendmentEffect s = .next (afterChart (storeChart (wr (showHeld { s with fab := { s.fab with
        chart := some d, waiting := (s.fab.waiting.filter fun x => !(x.kind == 2 && x.epoch == w.epoch)).map (fun (x : Waiting) => if x.kind == 2 then { x with beat := max x.beat (beatNow s + 1) } else x),
        mChart := digest32 (s.fab.mChart ++ w.raw) } }) R.DRD_CHART_EPOCH (BitVec.ofNat 64 d.epoch))) (ownPorts s) (namedPorts s (myFid s) rs))) ∧
  (∀ (s : State) (w : Waiting) (a : Alloc), s.fab.waiting.find? (fun w => w.kind == 3 && docDue s w) = some w → readAlloc w.raw = some a → sliceState s = 0 → myFid s ∈ a.working ++ a.spares → myFid s ≠ 0 →
    exec .sliceAllocationEffect s = .next (allocateHere (showPolicy { s with fab := { s.fab with
      waiting := s.fab.waiting.filter fun x => !(x.kind == 3 && x.slice == w.slice && x.epoch == w.epoch), alloc := some a } }) a)) ∧
  (∀ (s : State) (w : Waiting) (a : Alloc), s.fab.waiting.find? (fun w => w.kind == 3 && docDue s w) = some w → readAlloc w.raw = some a → sliceState s = 0 → myFid s ∉ a.working ++ a.spares →
    exec .sliceAllocationEffect s = .next { s with fab := { s.fab with waiting := s.fab.waiting.filter fun x => !(x.kind == 3 && x.slice == w.slice && x.epoch == w.epoch) } }) ∧
  (∀ (s u : State) (w : Waiting) (x : TableSet), s.fab.waiting.find? (fun w => w.kind == 4 && docDue s w) = some w → readTables w.raw = some x → sliceState s = 2 → x.tag = mySlice s → x.target = myFid s → s.fab.tables = none → s.esc.decisions = [] →
    u = { s with fab := { s.fab with waiting := s.fab.waiting.filter fun x => !(x.kind == 4 && x.slice == w.slice && x.epoch == w.epoch) } } →
    exec .sliceTableSetEffect s = .next (startFerryKeys (retryRoutes (showPorts (retune u
      (setOrigin (putRedraw (showTables (pruneTables { u with fab := { u.fab with tables := some x, chosen := [] } }) x) none) w.beat) x.initialDraw)))))

/-- A module asked by a peer of a lower EPOCH sends the amendments it lacks if it keeps them all. A chunk of a newer document that is not yet whole is kept; the last one gives the document to the checks of R467, from that port. (R475, R476) -/
def Obligations.ChartSpread : Prop :=
  (∀ (s : State) (p e : Nat) (need : List Bytes), p < 32 → inService s p = true → e < chartEpoch s →
    need = ((List.range (chartEpoch s - e)).filterMap fun i => s.fab.recent.find? fun a => docEpoch a == e + 1 + i) → need.length = chartEpoch s - e →
    exec (.chartReq p e) s = .next (need.foldl (fun s a => sendDoc s p a) s)) ∧
  (∀ (s : State) (p k e i n : Nat) (b : Bytes), p < 32 → inService s p = true → k = 1 ∨ k = 2 → i < n → 1 < n → b.length ≤ 1984 → authKey s ≠ [] → chartEpoch s < e →
    s.fab.gathers.find? (fun g => g.port == p && g.kind == k && g.epoch == e) = none → Completes (.chartChunk p k e i n b) s fun t =>
      t = { s with fab := { s.fab with gathers := s.fab.gathers.filter (fun g => !(g.port == p && g.kind == k && g.epoch == e)) ++ [⟨p, k, e, n, [(i, b)]⟩] } }) ∧
  (∀ (s : State) (p k e : Nat) (b : Bytes), p < 32 → inService s p = true → k = 1 ∨ k = 2 → b.length ≤ 1984 → authKey s ≠ [] → chartEpoch s < e → s.fab.gathers = [] →
    exec (.chartChunk p k e 0 1 b) s = .next (takeDoc s k b (some p)))

/-- A member of a reckoning group in a BOUND module takes a delta in traffic class ESCAPEMENT and the answer to its own; a request for a reading of a block or a fold is answered, or kept while a release runs; one for the streams is answered with them and the committed step; a reading that comes goes to the rebuild that waits for it. (R506, R507, R508) -/
def Obligations.ReckoningFrames : Prop :=
  (∀ (s : State) (d : DeltaIn), sliceState s = 2 → rkHeld s = true → exec (.parityDelta d) s = .next (inClass 3 s fun s => takeDelta s d)) ∧
  (∀ (s : State) (f u o : Nat) (b : Bool), sliceState s = 2 → rkHeld s = true → exec (.parityDeltaAck f u o b) s = .next (sealTry (takeDeltaAck s f u o b))) ∧
  (∀ (s : State) (f x o n : Nat) (k : ReadingAsk) (ups : List Upset), sliceState s = 2 → rkHeld s = true → isMember s f = true → k = .block ∨ k = .fold → releasing s = false →
    exec (.readingRequest f x o n k ups) s = .next (inClass 1 s fun s => withUpsets ups s fun s => answerReading s f x o n (k == .fold))) ∧
  (∀ (s : State) (f x o n : Nat) (k : ReadingAsk), sliceState s = 2 → rkHeld s = true → isMember s f = true → k = .block ∨ k = .fold → releasing s = true → Completes (.readingRequest f x o n k []) s fun t =>
    t = { s with reck := { s.reck with heldReads := s.reck.heldReads ++ [⟨f, x, o, n, k == .fold⟩] }, hbm := { s.hbm with cls := 0 }, upsets := [] }) ∧
  (∀ (s : State) (f x o n : Nat) (ups : List Upset), sliceState s = 2 → rkHeld s = true → isMember s f = true →
    exec (.readingRequest f x o n .streams ups) s = .next (inClass 1 s fun s => withUpsets ups s fun s => sendReading s f x o 6 (committedStep s) (streamsData s))) ∧
  (∀ (s : State) (f x o : Nat) (b : ReadingBody) (ups : List Upset), sliceState s = 2 → exec (.reading f x o b ups) s = .next (inClass 1 s fun s => withUpsets ups s fun s => standInDone (sealTry (takeReading s f x o b))))

/-- At most ten reports a second answer requests for attestation. An empty authority record takes the key, the installation and the collector that are signed under that key; a handover signed by the authority replaces the key and nothing else of the record; anything not so signed changes nothing. Signatures are opaque in the model (log 9). (R534, R535, R537) -/
def Obligations.IdentityAndAuthority : Prop :=
  (∀ (s : State) (nonce : Bytes), bluvisenOn s = true → s.ladder.attSecond ≠ s.now / 1000000000 ∨ s.ladder.attCount < 10 →
    exec (.attestationRequest nonce) s = .next (sendReport { s with ladder := { s.ladder with attSecond := s.now / 1000000000, attCount := if s.ladder.attSecond = s.now / 1000000000 then s.ladder.attCount + 1 else 1 } } nonce)) ∧
  (∀ (s : State) (nonce : Bytes), bluvisenOn s = true → s.ladder.attSecond = s.now / 1000000000 → 10 ≤ s.ladder.attCount → Completes (.attestationRequest nonce) s fun t =>
    t = { s with out := s.out ++ [⟨.bluvisen, 0, [537], [], none⟩] }) ∧
  (∀ (s : State) (key col sig : Bytes) (n : Nat), bluvisenOn s = true → flashGet s.flash.authority ≠ none → authKey s = [] → key ≠ [] →
    exec (.enrolment key n col sig) s = .next (if Config.dsaVerify key (enrolBytes key n col) sig then setAuthority s { key := key, installation := n, collector := col } else s)) ∧
  (∀ (s : State) (key col sig : Bytes) (n : Nat), authKey s ≠ [] → exec (.enrolment key n col sig) s = .next s) ∧
  (∀ (s : State) (key sig : Bytes), bluvisenOn s = true → key ≠ [] →
    exec (.authorityHandover key sig) s = .next (if underAuthority s key sig then setAuthority s { authRecord s with key := key } else s))

/-- An unlock signed under Omwethen's key over the serial unlocks an UNALLOCATED module. Access by an unlocked UNALLOCATED module writes the bytes given, and is else refused with an entry. A bind request of an ALLOCATED module leaves an offer that lives OFFER_WATCHES; past that it is gone. An acceptance is checked in the order of R540 and, good, binds at the next beat. (R530, R540, R541, R542) -/
def Obligations.DebugAndBinding : Prop :=
  (∀ (s : State) (sig : Bytes), sliceState s = 0 → exec (.debugUnlock sig) s = .next (if Config.dsaVerify Config.omwethenKey Config.serial sig then setF s R.SEC_STATUS F.SEC_STATUS_DEBUG_UNLOCKED 1 else s)) ∧
  (∀ (s : State) (sig : Bytes), sliceState s ≠ 0 → exec (.debugUnlock sig) s = .next s) ∧
  (∀ (s : State) (a n : Nat) (bs : Bytes), debugUnlocked s = true → sliceState s = 0 → exec (.debugAccess a n (some bs)) s = .next (runMM (writeBytes a bs) s).2) ∧
  (∀ (s u : State) (a n : Nat) (bs : Bytes), debugUnlocked s = true → sliceState s = 0 → runMM (readRaw a n) s = (.ok bs, u) → exec (.debugAccess a n none) s = .next { u with out := u.out ++ [⟨.arborFlit, 3, [a], bs, none⟩] }) ∧
  (∀ (s : State) (a n : Nat) (w : Option Bytes), debugUnlocked s = false ∨ sliceState s ≠ 0 → exec (.debugAccess a n w) s = .next (noteAt s srcSec 0x06 clsInfo)) ∧
  (∀ (s : State) (nonce : Bytes) (a : Alloc), sliceState s = 1 → bluvisenOn s = true → s.fab.alloc = some a → Completes (.bindRequest nonce) s fun t =>
    (∃ dg, t.sec.offer = some ⟨s.free, dg, beatNow s + a.offerWatches * 16384⟩) ∧ t.mem = s.mem) ∧
  (∀ (s : State) (o : Offer), s.sec.offer = some o → Completes .bindOfferExpiry s fun t => t = { s with sec := { s.sec with offer := if o.untilBeat ≤ beatNow s then none else some o } }) ∧
  (∀ (s : State) (d : Bytes), bluvisenOn s = true → sliceState s ≠ 1 → exec (.bindAcceptance d) s = .next (refuseBind s 1)) ∧
  (∀ (s : State) (d : Bytes) (a : Alloc) (o : Offer), bluvisenOn s = true → sliceState s = 1 → debugUnlocked s = false → s.fab.alloc = some a → s.sec.offer = some o → beatNow s < o.untilBeat →
    exec (.bindAcceptance d) s = .next (
      if !Config.dsaVerify (sub d 1656 1952) (sub d 0 3896) (sub d 3896 3309) then refuseBind s 2
      else if digest32 (sub d 1656 1952) != a.tenantDigest then refuseBind s 3
      else if sub d 8 24 != ownDigest || uAt d 32 2 != mySlice s || uAt d 40 8 != a.epoch then refuseBind s 4
      else if o.digest != sub d 56 32 then refuseBind s 5
      else match (Config.kemDecap o.draw (sub d 88 1568)).bind fun ss => gcmOpen (bundleKey ss (sub d 56 32) (uAt d 48 8)) (sub d 3608 12) (sub d 0 88) (sub d 3624 256) (sub d 3880 16) with
      | none => refuseBind { s with sec := { s.sec with offer := none } } 6
      | some b =>
        if uAt d 48 8 == 0 || uAt b 128 4 == 0 || uAt b 128 4 ≥ 2 ^ 28 || uAt b 128 4 == s.sec.lastEpoch || !allZero (sub b 132 124) || !allZero (sub d 34 6) || !allZero (sub d 3620 4) then refuseBind s 7
        else { s with
          flash := { s.flash with bind := flashPut s.flash.bind { (flashGet s.flash.bind).getD {} with bind := some (uAt d 48 8, mySlice s) } },
          sec := { s.sec with offer := none, pendingBind := some (beatNow s + 1, { kCtl := sub b 0 32, kFab := sub b 32 32, seed := sub b 64 32, kSnap := sub b 96 32, epoch := uAt b 128 4, bindId := uAt d 48 8, offerDigest := sub d 56 32 }, digest32 d) } }))

/-- When a running test or calibration ends its follow-up goes out: with its own outcome if it has one, with OK, or after a strike with TEST_FAILED and the unit at fault. One that has not run by its maximum deferral ends with DEFERRED_TIMEOUT (0x0031). No follow-up, no change. (R590, R591) -/
def Obligations.FollowUpsOfTests : Prop :=
  (∀ (s : State) (o : Nat) (x : DeferredTest) (r : Nat × Nat × Nat) (f : Option Nat), testAt s o = some x → x.running = true → x.outcome = some r → exec (.deferredFollowUp o f) s = .next (followUp s x r)) ∧
  (∀ (s : State) (o : Nat) (x : DeferredTest), testAt s o = some x → x.running = true → x.outcome = none → exec (.deferredFollowUp o none) s = .next (followUp s x (0, 0, 0))) ∧
  (∀ (s : State) (o f : Nat) (x : DeferredTest), testAt s o = some x → x.running = true → x.outcome = none → exec (.deferredFollowUp o (some f)) s = .next (followUp (strikeUnit s f) x (0x0701, x.code, f % 4096))) ∧
  (∀ (s : State) (o : Nat) (x : DeferredTest), testAt s o = some x → x.running = false → deferralEnd s x.acceptBeat ≤ beatNow s → exec (.deferredTimeout o) s = .next (followUp s x (0x0031, 0, 0))) ∧
  (∀ (s : State) (o : Nat) (f : Option Nat), testAt s o = none → exec (.deferredFollowUp o f) s = .next s ∧ exec (.deferredTimeout o) s = .next s)

/-- An acknowledgement frees the entry of its SEQ and shows the collector up. Entries sent a second ago and not acknowledged are sent again, and the collector is shown down. Each 100 ms a heartbeat is counted. (R574, R575, R578) -/
def Obligations.LogbookTraffic : Prop :=
  (∀ (s : State) (q : Nat) (e : LogEntry), Inv s → bluvisenOn s = true → (s.log.entries.find? fun e => e.seq % 2 ^ 32 == q % 2 ^ 32 && (mapGet s.log.sent e.seq).isSome) = some e → s.boot.restartBy = none → s.log.lostNow = 0 →
    Completes (.collectorAck q) s fun t => t.log = { s.log with entries := s.log.entries.filter fun x => x.seq != e.seq, sent := mapDel s.log.sent e.seq } ∧
      getF t R.LOG_STATUS F.LOG_STATUS_COLLECTOR_UP = 1 ∧ getF t R.LOG_STATUS F.LOG_STATUS_USED = t.log.entries.length % 2 ^ (F.LOG_STATUS_USED.hi + 1 - F.LOG_STATUS_USED.lo) ∧ OnlyRegs [R.LOG_STATUS] s t ∧ t = { s with regs := t.regs, log := t.log }) ∧
  (∀ (s : State) (l : List LogEntry), bluvisenOn s = true → l = (s.log.entries.filter fun e => match mapGet s.log.sent e.seq with | some t => t + 1000000000 ≤ s.now | none => false) → l ≠ [] →
    exec .logResendTimeout s = .next (streamThese (setF s R.LOG_STATUS F.LOG_STATUS_COLLECTOR_UP 0) l)) ∧
  (∀ s : State, Inv s → beating s = true → s.ladder.lastKickNs + 100000000 ≤ s.now → Completes .heartbeat s fun t =>
    getF t R.LOG_MGMT F.LOG_MGMT_HEARTBEATS = satAdd (F.LOG_MGMT_HEARTBEATS.hi + 1 - F.LOG_MGMT_HEARTBEATS.lo) (getF s R.LOG_MGMT F.LOG_MGMT_HEARTBEATS) 1 ∧ t.ladder = { s.ladder with lastKickNs := s.now } ∧
      t.log = s.log ∧ OnlyRegs [R.LOG_MGMT] s t ∧ t.mem = s.mem)

/-- A management core that has not kicked for 100 ms restarts and is silent for 300 ms. An engine that does not end is retried, then reset, then fenced. A die reset takes its rung, and a second one fences the die; a fenced die is left. A warm restart of a serving module takes it through its bring-up again. (R578, R580, R581, R582, R583) -/
def Obligations.RecoveryLadder : Prop :=
  (∀ (s : State) (d : Bool), beating s = true → d = true ∨ s.ladder.lastKickNs + 100000000 < s.now → Completes (.mgmtWatchdog d) s fun t => t = restartMgmt s (b2n d) ∧ t.ladder.mgmtDownUntil = some (s.now + 300000000) ∧ t.mem = s.mem) ∧
  (∀ (s : State) (e : Nat), watched s e = true → mapGetD 0 s.ladder.rung e = 0 → Completes (.engineOperationTimeout e) s fun t =>
    mapGet t.ladder.rung e = some 1 ∧ t = { ladderRung s 1 e with ladder := t.ladder }) ∧
  (∀ (s : State) (e : Nat), watched s e = true → mapGetD 0 s.ladder.rung e = 1 → Completes (.engineOperationTimeout e) s fun t =>
    mapGet t.ladder.rung e = some 2 ∧ t = { ladderRung s 2 e with ladder := t.ladder }) ∧
  (∀ (s : State) (e : Nat), watched s e = true → 2 ≤ mapGetD 0 s.ladder.rung e → exec (.engineOperationTimeout e) s = .next (fenceUnit (endTimeout s e) e)) ∧
  (∀ (s : State) (d : Nat), d < 4 → 6 ≤ s.boot.stage → exec (.computeDieReset d) s = .next (dieRung s d)) ∧
  (∀ (s : State) (d : Nat), dieFenced s d = true → exec (.computeDieReset d) s = .next s) ∧
  (∀ (s : State) (x : BringUp), s.boot.stage = 9 → anchorState s ≤ 2 → flagF s R.CLK_XIN_STATUS F.CLK_XIN_STATUS_XIN_B_LOST = false → exec (.moduleWarmRestart x) s = .next (warmRestart s x))

/-- A cold start runs the bring-up; without XIN_A it stays in ROM with PD0 up; without an image it ends in RECOVERY. MOD_RESET_N low for 10 us or more is a loss of PD0: memory lists nothing, registers and queues of work are those of a cold module, and flash stays. In RECOVERY chunks are staged and a whole image is checked and written; in service an update order that names a module of a slice is refused under 1 and flash stays. A restart due, or PERST, acts as R604 and R616 say. (R604, R605, R609, R610, R616, R700) -/
def Obligations.ColdStartsAndImages : Prop :=
  (∀ (s : State) (x : BringUp), s.boot.stage ≤ 1 → s.pwr.supplyOff = false → s.pwr.tripped = false → x.xinA = true → exec (.coldStart x) s = .next (bringUp (stage12 s x) x)) ∧
  (∀ (s : State) (x : BringUp), Inv s → s.boot.stage ≤ 1 → s.pwr.supplyOff = false → s.pwr.tripped = false → x.xinA = true → s.flash.image = none → Completes (.coldStart x) s fun t => inRecovery t = true ∧ t.flash.image = none) ∧
  (∀ (s : State) (x : BringUp), Inv s → s.boot.stage ≤ 1 → s.pwr.supplyOff = false → s.pwr.tripped = false → x.xinA = false → Completes (.coldStart x) s fun t =>
    t.boot = { s.boot with stage := 1 } ∧ pdState t 0 = 2 ∧ OnlyRegs [R.PWR_DOMAIN_STATE] s t ∧ t = { s with regs := t.regs, boot := t.boot }) ∧
  (∀ (s : State) (us : Nat), s.pwr.supplyOff = false → 10 ≤ us → Completes (.modReset us) s fun t => t = coldReset s true ∧ t.mem = [] ∧ t.boot.stage = 0 ∧ t.cmd = {} ∧ t.flash = s.flash ∧ t.out = s.out) ∧
  (∀ s : State, s.pwr.supplyOff = false → exec (.modReset 0) s = .next s) ∧
  (∀ (s : State) (n : Nat) (b : Bytes) (w : Bool), inRecovery s = true → flagF s R.ARB_BOOT_STATUS F.ARB_BOOT_STATUS_PILOT_SEL = true → pdState s 4 = 2 → n ≤ 0x8000000 →
    exec (.recoveryImageLength n b w) s = .next (takeImage s (fit n b) w)) ∧
  (∀ (s : State) (o : Nat) (b : Bytes), inRecovery s = true → b.length ≤ 1024 → o + b.length ≤ 0x8000000 → Completes (.recoveryChunk o b) s fun t =>
    (∀ i, i < b.length → mapGet t.boot.mgmtImage (o + i) = b[i]?) ∧ t = { s with boot := { s.boot with mgmtImage := t.boot.mgmtImage } }) ∧
  (∀ (s : State) (n : Nat) (w : Bool), inRecovery s = true → n ≤ 0x8000000 → exec (.recoveryDone n w) s = .next (takeImage s ((List.range n).map fun i => mapGetD 0 s.boot.mgmtImage i) w)) ∧
  (∀ (s : State) (o : UpdateOrder), bluvisenOn s = true → s.boot.stage = 9 → authKey s ≠ [] → exec (.firmwareUpdateOrder o) s = .next (match updateRefusal s o with
    | some n => { s with out := s.out ++ [⟨.bluvisen, 0, [610, n], [], none⟩] }
    | none => if o.cold && o.written then restartFor { s with flash := { s.flash with image := some o.image } } else { s with flash := { s.flash with image := if o.written then some o.image else none } })) ∧
  (∀ (s : State) (o : UpdateOrder), bluvisenOn s = true → s.boot.stage = 9 → authKey s ≠ [] → anchorState s < 2 → sliceState s ≠ 0 → Completes (.firmwareUpdateOrder o) s fun t => t = { s with out := s.out ++ [⟨.bluvisen, 0, [610, 1], [], none⟩] }) ∧
  (∀ (s : State) (n : Nat), s.boot.restartBy = some n → n ≤ s.now → exec .updateRestartWaitExpiry s = .next (coldReset s true)) ∧
  (∀ (s : State) (b : Bool), Inv s → 2 ≤ s.boot.stage → s.boot.strapSeen = true → s.boot.strap = b → flagF s R.ARB_BOOT_STATUS F.ARB_BOOT_STATUS_PILOT_SEL ≠ b → Completes (.pilotSelChange b) s fun t =>
    flagF t R.ARB_BOOT_STATUS F.ARB_BOOT_STATUS_PILOT_SEL = b ∧ t.mem = s.mem) ∧
  (∀ s : State, pdState s 4 = 2 → exec .pcieReset s = .next { s with boot := { s.boot with d3hot := false } })

/-- An ANCHOR order is refused for the first cause that holds, and the state stays; else it is kept and the state is PENDING. At ENTER_BEAT the module is ENTERING or drops the order with its reason. When everything is at rest it is ANCHORED; 64 beats after ENTER_BEAT it drops the order with reason 6. At the wake beat it wakes. (R641, R642, R643, R644, R646) -/
def Obligations.AnchorAndWake : Prop :=
  (∀ (s : State) (o : AnchorOrder), Inv s → bluvisenOn s = true → anchorState s ≤ 2 → Completes (.anchorOrder o) s fun t => t.mem = s.mem ∧ match anchorRefusal s o with
    | some n => getF t R.PWR_ANCHOR_STATUS F.PWR_ANCHOR_STATUS_REFUSE_REASON = n ∧ anchorState t = anchorState s ∧ t.pwr = s.pwr
    | none => anchorState t = 1 ∧ t.pwr = { s.pwr with order := some (o.enterBeat, o.wakeBeat), lastOrder := o.orderId, wakeAsked := false }) ∧
  (∀ (s : State) (a b : Nat), Inv s → s.pwr.order = some (a, b) → anchorState s = 1 → a ≤ beatNow s → Completes .anchorEnterBeat s fun t => t.mem = s.mem ∧ match enterRefusal s with
    | some n => anchorState t = 0 ∧ t.pwr.order = none ∧ getF t R.PWR_ANCHOR_STATUS F.PWR_ANCHOR_STATUS_REFUSE_REASON = n
    | none => anchorState t = 2 ∧ OnlyRegs [R.PWR_ANCHOR_STATUS] s t ∧ t = { s with regs := t.regs }) ∧
  (∀ (s : State) (a b : Nat), Inv s → s.pwr.order = some (a, b) → anchorState s = 2 → beatNow s ≤ a + 64 → entryReady s = true → Completes .anchorEntry s fun t => t = enterAnchor s ∧ anchorState t = 3) ∧
  (∀ (s : State) (a b : Nat), Inv s → s.pwr.order = some (a, b) → anchorState s = 2 → a + 64 ≤ beatNow s → entryReady s = false → Completes .anchorEntryTimeout s fun t =>
    anchorState t = 0 ∧ t.pwr.order = none ∧ getF t R.PWR_ANCHOR_STATUS F.PWR_ANCHOR_STATUS_REFUSE_REASON = 6 ∧ t.mem = s.mem) ∧
  (∀ (s : State) (o : Option (Bytes × Bytes)) (x : BringUp), anchorState s = 3 → s.pwr.wakeAsked = true ∨ wakeBegun s = true → exec (.wake o x) s = .next (wakeUp s x)) ∧
  (∀ (s : State) (o : Option (Bytes × Bytes)) (x : BringUp), anchorState s = 2 → exec (.wake o x) s = .next (if wakeSigned s o then { s with pwr := { s.pwr with wakeAsked := true } } else s))

/-- A domain that fails is shown so and switched off; PD0 takes the module to a cold reset; an HBM domain fails its four stacks. A supply out of range ends in a cold reset with SUPPLY_FAULT shown, memory lost; the supply back, a cold start may follow. The loss of a blade pair is shown as SINGLE_FEED until it is back. Ten seconds cool after a trip end it in a cold reset. (R631, R668, R675) -/
def Obligations.SuppliesAndDomains : Prop :=
  (∀ s : State, pdState s 0 ≠ 0 → Completes (.powerDomainFail 0) s fun t => t = coldReset s false ∧ t.mem = [] ∧ t.boot.stage = 0) ∧
  (∀ (s : State) (d k : Nat), Inv s → d = 2 ∨ d = 3 → pdState s d ≠ 0 → k < 4 → Completes (.powerDomainFail d) s fun t => bitF t R.PWR_DOMAIN_FAULT F.PWR_DOMAIN_FAULT_FAILED d = true ∧ pdState t d = 0 ∧
    getF t (R.HBM_STACK_STATUS ((d - 2) * 4 + k)) F.HBM_STACK_STATUS_STATE = 4 ∧ t.mem = s.mem) ∧
  (∀ (s : State) (d : Nat), 0 < d → d < 20 → pdState s d ≠ 0 → exec (.powerDomainFail d) s =
    .next (domainAct (domainOff (note (setBitF s R.PWR_DOMAIN_FAULT F.PWR_DOMAIN_FAULT_FAILED d true) (srcOf 0 0) 0x07 clsInfo d s.boot.stage 0) d) d)) ∧
  (∀ (s : State) (v us : Nat), s.pwr.supplyOff = false → 1 ≤ s.boot.stage → supplyBad v us = true → Completes (.supplyFault v us) s fun t => t.pwr.supplyOff = true ∧ t.mem = [] ∧ t.boot.stage = 0 ∧
    flagF t R.PWR_INPUT F.PWR_INPUT_SUPPLY_FAULT = true ∧ t.flash.image = s.flash.image) ∧
  (∀ (s : State) (v : Nat), s.pwr.supplyOff = true → 46000 ≤ v → v ≤ 60000 → exec (.supplyRecovery v) s = .next { s with pwr := { s.pwr with supplyOff := false } }) ∧
  (∀ (s : State) (b : Bool), Inv s → 1 ≤ s.boot.stage → flagF s R.PWR_INPUT F.PWR_INPUT_FEED_A = true → flagF s R.PWR_INPUT F.PWR_INPUT_FEED_B = true → Completes (.singleFeed b) s fun t =>
    flagF t R.PWR_INPUT (feedBit b) = false ∧ flagF t R.PWR_INPUT (feedBit (!b)) = true ∧ flagF t R.PWR_INPUT F.PWR_INPUT_SINGLE_FEED = true ∧ t.mem = s.mem) ∧
  (∀ (s : State) (b : Bool), Inv s → 1 ≤ s.boot.stage → flagF s R.PWR_INPUT (feedBit b) = false → flagF s R.PWR_INPUT (feedBit (!b)) = true → Completes (.bladePairRestored b) s fun t =>
    flagF t R.PWR_INPUT (feedBit b) = true ∧ flagF t R.PWR_INPUT F.PWR_INPUT_SINGLE_FEED = false ∧ OnlyRegs [R.PWR_INPUT] s t ∧ t = { s with regs := t.regs }) ∧
  (∀ (s : State) (n : Nat), s.pwr.coolSince = some n → s.pwr.tripped = true → n + 10000000000 ≤ s.now → Completes .thermalTripRecovery s fun t => t = coldReset (account s) s.pwr.outExcluded ∧
    flagF t R.PWR_THERMAL F.PWR_THERMAL_THERMAL_TRIP = true ∧ t.boot.stage = 0)

/-- A lost XIN_A is shown and announced; a lost XIN_B is shown and unlocks loops 0 to 9. The oscillator is trimmed by the nearest steps where its error exceeds 500 ppm. A loop setting in range is pending, another is refused. The cap is exceeded by the 100 ms mean, or by more than 2 % over 1 ms. A stuck I2C bus is released. The management port is down at any speed but 1,000 Mb/s. (R634, R636, R638, R665, R666, R670) -/
def Obligations.ClocksCapsAndBuses : Prop :=
  (∀ (s : State) (p : Option Int), Inv s → 1 ≤ s.boot.stage → xinLost p = true → flagF s R.CLK_XIN_STATUS F.CLK_XIN_STATUS_XIN_A_LOST = false → Completes (.xinALost p) s fun t =>
    flagF t R.CLK_XIN_STATUS F.CLK_XIN_STATUS_XIN_A_LOST = true ∧ t.mem = s.mem) ∧
  (∀ (s : State) (p : Option Int) (i : Nat), Inv s → 1 ≤ s.boot.stage → xinLost p = true → flagF s R.CLK_XIN_STATUS F.CLK_XIN_STATUS_XIN_B_LOST = false → i < 10 → Completes (.xinBLost p) s fun t =>
    flagF t R.CLK_XIN_STATUS F.CLK_XIN_STATUS_XIN_B_LOST = true ∧ flagF t (R.CLK_LOOP i) F.CLK_LOOP_LOCKED = false ∧ t = { s with regs := t.regs, pwr := { s.pwr with xinBBack := none } }) ∧
  (∀ (s : State) (e : Int), Inv s → 1 ≤ s.boot.stage → oscReference s ≠ 0 → s.cmd.cmds = [] → Completes (.oscTrimMeasurement e) s fun t =>
    getF t R.CLK_OSC F.CLK_OSC_REF = oscReference s ∧ getF t R.CLK_OSC F.CLK_OSC_ERROR_PPM = ppm16 e ∧
    getF t R.CLK_OSC F.CLK_OSC_TRIM = (if 500 < e ∨ e < -500 then (max (-300) (min 300 (trimCode s - (e + (if e ≥ 0 then 100 else -100)).tdiv 200)) % 1024).toNat else getF s R.CLK_OSC F.CLK_OSC_TRIM) ∧
    OnlyRegs [R.CLK_OSC] s t ∧ t = { s with regs := t.regs, pwr := { s.pwr with oscRef := none } }) ∧
  (∀ (s : State) (i : Nat) (v : Word), Inv s → i < 7 → 1 ≤ s.boot.stage → (loopRange i).1 ≤ fld v 15 0 → fld v 15 0 ≤ (loopRange i).2 → Completes (.clkSetWrite i v) s fun t =>
    getF t (R.CLK_SET i) F.CLK_SET_FREQ_MHZ = fld v 15 0 ∧ getF t (R.CLK_LOOP i) F.CLK_LOOP_PENDING = 1 ∧ OnlyRegs [R.CLK_SET i, R.CLK_LOOP i] s t ∧ t = { s with regs := t.regs }) ∧
  (∀ (s : State) (i : Nat) (v : Word), i < 7 → 1 ≤ s.boot.stage → fld v 15 0 < (loopRange i).1 ∨ (loopRange i).2 < fld v 15 0 → Completes (.clkSetWrite i v) s fun t => t = refuseAs s (R.CLK_SET i, 8, v.toNat) ∧ rd t (R.CLK_SET i) = rd s (R.CLK_SET i)) ∧
  (∀ (s : State) (w a v : Nat) (l : List Nat), Inv s → 1 ≤ s.boot.stage → l = (w :: s.pwr.samples).take 1000 → Completes (.powerCapSample w a v) s fun t =>
    getF t R.PWR_INPUT F.PWR_INPUT_POWER_W = min 65535 (mean l) ∧ flagF t R.PWR_CAP F.PWR_CAP_THROTTLED = (mean l > capNow s || mean (l.take 10) * 50 > capNow s * 51) ∧
    OnlyRegs [R.PWR_INPUT, R.PWR_CAP] s t ∧ t.pwr.samples = l ∧ t = { s with regs := t.regs, pwr := t.pwr }) ∧
  (∀ s : State, 1 ≤ s.boot.stage → exec .i2cBusTimeout s = .next { s with out := s.out ++ [⟨.i2c, 0, [], [], none⟩] }) ∧
  (∀ (s : State) (m : Nat), 1 ≤ s.boot.stage → Completes (.mgmtLinkSpeed m) s fun t => t.pwr = { s.pwr with mgmtDown := decide (m ≠ 1000) } ∧ t.mem = s.mem)

/-- A register write that is neither 64 bits wide at a multiple of 8 nor 32 bits wide at a multiple of 4 changes no register but the logbook's own (LOG_STATUS, LOG_HOST_EVENTS, LOG_LOST_TOTAL); a read of that form answers zero. Each leaves an open REGISTER_ACCESS entry of the module's own source, or, where the logbook has no place, one more in that source's lost counter. (R7) -/
def Obligations.RegisterAccessForm : Prop :=
  (∀ (s : State) (req : Requester) (a w : Nat) (v : Word), mayReach s req a = true → ¬ (w = 8 ∧ a % 8 = 0) → ¬ (w = 4 ∧ a % 4 = 0) → Completes (.registerWrite req a w v) s fun t =>
    OnlyRegs [R.LOG_STATUS, R.LOG_HOST_EVENTS, R.LOG_LOST_TOTAL] s t ∧ t = { s with regs := t.regs, log := t.log, out := t.out } ∧ ((∃ e ∈ t.log.entries, e.opened = true ∧ e.source = 0 ∧ e.code = 0x00C1) ∨ ((4096 ≤ s.log.entries.length ∨ s.log.lostNow ≠ 0) ∧ mapGetD 0 t.log.lost 0 = min (2 ^ 48 - 1) (mapGetD 0 s.log.lost 0 + 1)))) ∧
  (∀ (s : State) (req : Requester) (a w : Nat), mayReach s req a = true → ¬ (w = 8 ∧ a % 8 = 0) → ¬ (w = 4 ∧ a % 4 = 0) → Completes (.registerRead req a w) s fun t =>
    t.out.getLast? = some ⟨.readValue, requesterNo req, [a, 0], [], none⟩ ∧ OnlyRegs [R.LOG_STATUS, R.LOG_HOST_EVENTS, R.LOG_LOST_TOTAL] s t ∧ t = { s with regs := t.regs, log := t.log, out := t.out } ∧ ((∃ e ∈ t.log.entries, e.opened = true ∧ e.source = 0 ∧ e.code = 0x00C1) ∨ ((4096 ≤ s.log.entries.length ∨ s.log.lostNow ≠ 0) ∧ mapGetD 0 t.log.lost 0 = min (2 ^ 48 - 1) (mapGetD 0 s.log.lost 0 + 1))))

/-- An aligned read of a register that is there, not held by the IZ9 against its requester, answers its view, or the half asked for; a write of such a register goes through its rule. An offset without a register reads zero and a write to it changes no register but the logbook's own. A read changes nothing but what it sends. (R6, R306, R687, R689) -/
def Obligations.RegisterReadsAndAbsentRegisters : Prop :=
  (∀ (s : State) (req : Requester) (a w : Nat), mayReach s req a = true → goodAccess a w = true → (regHere s (a / 8 * 8)).isSome = true → heldUnit s req (a / 8 * 8) = false → a / 8 * 8 ≠ R.MER_COUNT ∨ w = 8 →
    exec (.registerRead req a w) s = .next { s with out := s.out ++ [⟨.readValue, requesterNo req, [a, halfOf (regView s req (a / 8 * 8)) a w], [], none⟩] }) ∧
  (∀ (s : State) (req : Requester) (a w : Nat) (r : RegRow) (v : Word), mayReach s req a = true → goodAccess a w = true → regHere s (a / 8 * 8) = some r → heldUnit s req (a / 8 * 8) = false → a / 8 * 8 ≠ R.CMD_REG_CTRL →
    exec (.registerWrite req a w v) s = .next (putReg s r (!fromHost req) (a / 8 * 8) (placed s r (a / 8 * 8) a w v.toNat) (a, w, v.toNat))) ∧
  (∀ (s : State) (req : Requester) (a w : Nat) (v : Word), mayReach s req a = true → goodAccess a w = true → regHere s (a / 8 * 8) = none → a / 8 * 8 ≠ R.CMD_REG_CTRL →
    (Completes (.registerWrite req a w v) s fun t => OnlyRegs [R.LOG_STATUS, R.LOG_HOST_EVENTS, R.LOG_LOST_TOTAL] s t ∧ t = { s with regs := t.regs, log := t.log, out := t.out }) ∧
    (Completes (.registerRead req a w) s fun t => t.out.getLast? = some ⟨.readValue, requesterNo req, [a, 0], [], none⟩ ∧ OnlyRegs [R.LOG_STATUS, R.LOG_HOST_EVENTS, R.LOG_LOST_TOTAL] s t ∧ t = { s with regs := t.regs, log := t.log, out := t.out }))

/-- An aligned 64-bit write by the management core to any register of the MER, SEC and EMB blocks or of a compute or Rose die's own block: each RW field takes the bits of the value written, each W1C field loses the bits written 1, each RO field and every bit of no field stays, no other register changes and nothing else of the state does. (R6, R8) -/
def Obligations.RegisterFieldsWritten : Prop :=
  ∀ (s : State) (a : Nat) (v : Word) (r : RegRow), Inv s → a % 8 = 0 → blockOf a = 2 ∨ blockOf a = 11 ∨ blockOf a = 12 ∨ 14 ≤ blockOf a → mayReach s .mgmt a = true → regHere s a = some r →
    Completes (.registerWrite .mgmt a 8 v) s fun t => OnlyRegs [a] s t ∧ t = { s with regs := t.regs } ∧
      (∀ f ∈ r.fields, (f.acc = .rw → getF t a ⟨f.hi, f.lo⟩ = fld v f.hi f.lo) ∧ (f.acc = .w1c → getF t a ⟨f.hi, f.lo⟩ = getF s a ⟨f.hi, f.lo⟩ - (getF s a ⟨f.hi, f.lo⟩ &&& fld v f.hi f.lo)) ∧
        (f.acc = .ro → getF t a ⟨f.hi, f.lo⟩ = getF s a ⟨f.hi, f.lo⟩)) ∧
      ∀ i, i < 64 → (∀ f ∈ r.fields, i < f.lo ∨ f.hi < i) → (rd t a).getLsbD i = (rd s a).getLsbD i

/-- GO on a pilot whose path is idle starts the access; an address of the wrong alignment ends it with ADDRESS and leaves CMD_REG_DATA. A target makes the access and answers. An OK answer to a read places its value and gives RESULT OK; no answer within 1 ms gives TIMEOUT and leaves CMD_REG_DATA. (R694, R697) -/
def Obligations.RegisterPath : Prop :=
  (∀ (s : State) (v : Word), isPilot s = true → pathBusy s = false → mayReach s .host R.CMD_REG_CTRL = true → (regHere s R.CMD_REG_CTRL).isSome = true → bitW v 0 = true →
    (bitW v 1 = false → exec (.regPathRead v) s = .next (pathGo (regPut s .host R.CMD_REG_CTRL 8 v.toNat))) ∧ (bitW v 1 = true → exec (.regPathWrite v) s = .next (pathGo (regPut s .host R.CMD_REG_CTRL 8 v.toNat)))) ∧
  (∀ (s : State) (v : Word), Inv s → isPilot s = true → pathBusy s = false → mayReach s .host R.CMD_REG_CTRL = true → (regHere s R.CMD_REG_CTRL).isSome = true → bitW v 0 = true → pathAddr s % 8 ≠ 0 → bitW v 1 = false →
    Completes (.regPathRead v) s fun t => getF t R.CMD_REG_CTRL F.CMD_REG_CTRL_RESULT = 2 ∧ getF t R.CMD_REG_CTRL F.CMD_REG_CTRL_GO = 0 ∧ rd t R.CMD_REG_DATA = rd s R.CMD_REG_DATA ∧ t.mem = s.mem) ∧
  (∀ (s : State) (src a : Nat) (w : Bool) (d : Word), 1 ≤ s.boot.stage → anchorState s < 3 → (homePort s src false).isSome = true →
    exec (.regPathRequest src w a d) s = .next (sendInst (pathServe s w a d).2.2 0 src .regAnswer [(pathServe s w a d).1, (pathServe s w a d).2.1.toNat])) ∧
  (∀ (s : State) (n src : Nat) (d : Word), Inv s → s.cmd.regWait = some (n, src) → pathWrite s = false → Completes (.regPathAnswer src 0 d) s fun t =>
    rd t R.CMD_REG_DATA = d ∧ getF t R.CMD_REG_CTRL F.CMD_REG_CTRL_RESULT = 0 ∧ getF t R.CMD_REG_CTRL F.CMD_REG_CTRL_GO = 0 ∧ OnlyRegs [R.CMD_REG_DATA, R.CMD_REG_CTRL] s t ∧
      t = { s with regs := t.regs, cmd := { s.cmd with regWait := none } }) ∧
  (∀ (s : State) (n src : Nat), Inv s → s.cmd.regWait = some (n, src) → n + 1000000 ≤ s.now → Completes .regPathTimeout s fun t => t.cmd = { s.cmd with regWait := none } ∧
    getF t R.CMD_REG_CTRL F.CMD_REG_CTRL_RESULT = 4 ∧ rd t R.CMD_REG_DATA = rd s R.CMD_REG_DATA ∧ t.mem = s.mem)

/-- Of the 226 commands, 138 (all but those listed by mayWriteMemory: data movement, array and lane work, drains, releases, restarts, register writes, scans, and their kin) leave every byte of memory as it was, in every state with Inv and for any operands. (95_what_each_step_holds.md, spec/opcode_table.json) -/
def Obligations.CommandsThatWriteNoByte : Prop :=
  ∀ (c : Instr) (s : State), mayWriteMemory c = false → Inv s → Completes c s fun t => t.mem = s.mem ∧ ∀ a, memByte t.mem a = memByte s.mem a

/-- An event adds one to its source's event counter (48 bits, saturating) and changes nothing of the state but the logbook, three of its registers and the outbox. With an open entry of its SOURCE and CODE the entry's COUNT rises, saturating, and its LAST_TIME is the count now, its arguments stay and no entry is added. Without one, an event of another class than CORRECTED, with a place free and none lost, gets an entry with the fields of R571 and the next SEQ; with no place free it adds one to its source's lost counter and adds no entry. (R569, R571, R573, R574) -/
def Obligations.EventsOfTheLogbook : Prop :=
  ∀ (s t : State) (source code cls a0 a1 a2 : Nat), t = logEvent s source code cls a0 a1 a2 →
    mapGetD 0 t.log.events source = min (2 ^ 48 - 1) (mapGetD 0 s.log.events source + 1) ∧ OnlyRegs [R.LOG_STATUS, R.LOG_HOST_EVENTS, R.LOG_LOST_TOTAL] s t ∧ t = { s with regs := t.regs, log := t.log, out := t.out } ∧
    (∀ (l r : List LogEntry) (e : LogEntry), s.log.entries = l ++ e :: r → (∀ x ∈ l, ¬ (x.opened = true ∧ x.source = source ∧ x.code = code)) → e.opened = true → e.source = source → e.code = code →
      t.log.entries = l ++ { e with count := min (2 ^ 32 - 1) (e.count + 1), lastTime := countNow s } :: r) ∧
    (openEntry s.log source code = false → cls ≠ clsCorrected → s.log.lostNow = 0 → s.log.entries.length < 4096 → ∃ alarmed : Bool,
      t.log.entries = s.log.entries ++ [{ time := countNow s, lastTime := countNow s, seq := s.log.nextSeq, count := 1, source := source, code := code, cls := cls, opened := true, alarmed := alarmed, slice := logSlice s, a0 := a0 % 2 ^ 64, a1 := a1 % 2 ^ 64, a2 := a2 % 2 ^ 64 }] ∧ t.log.nextSeq = s.log.nextSeq + 1) ∧
    (openEntry s.log source code = false → cls ≠ clsCorrected → 4096 ≤ s.log.entries.length → t.log.entries = s.log.entries ∧
      mapGetD 0 t.log.lost source = min (2 ^ 48 - 1) (mapGetD 0 s.log.lost source + 1))

/-- At State.reset the registers named read what the manual gives them: the markers' source and hops unknown, completion rings of 4,096 slots closed, REL_HOLD with 16,384 for its limit, the check-value units set to the hallmark's CRC-64 with 8 bytes fed, the shares of the HBM governor, the lanes of a port in order, the loops at 1,900, 1,200 and 1,300 MHz, and the cap of 2,600 W. (R690, R698) -/
def Obligations.ResetRegisterValues : Prop :=
  rd State.reset R.MER_STATUS = 0xFFFF00000000 ∧ (∀ n < 16, rd State.reset (R.CMD_RING_CTRL n) = 0xC00) ∧ rd State.reset R.REL_HOLD = 0x400000000000 ∧
    (∀ u < 8, rd State.reset (R.CRC_CFG u) = 0x40 ∧ rd State.reset (R.CRC_POLY u) = 0x42F0E1EBA9EA3693 ∧ rd State.reset (R.CRC_CTRL u) = 0x800) ∧
    (List.range 6).map (fun c => rd State.reset (R.HBM_GOV c)) = [0x4020, 0x4008, 0x4004, 0x4008, 0x401, 0x801] ∧ rd State.reset R.HBM_RETIRE = 0x7FFF0000 ∧ rd State.reset R.HBM_SCRUB = 0x1001 ∧
    (∀ p < 32, rd State.reset (R.DRD_PORT_STATUS p) = 0xFF0000000000 ∧ rd State.reset (R.DRD_PORT_LANES p) = 0x7654321076543210) ∧
    (List.range 7).map (fun i => rd State.reset (R.CLK_SET i)) = [1900, 1900, 1900, 1900, 1200, 1300, 1300] ∧ rd State.reset R.PWR_CAP = 2600

/-- A 64-bit read of MER_COUNT answers the count. A 32-bit read at +0 sends the lower half and latches the upper half; the next +4 read of the same requester sends the latched half whatever the count has become, and a further +4 read, or one without a +0 read before, sends the live half. The latches of other requesters (the management core, each Helm core, the register path), the registers and all else stay. (R21) -/
def Obligations.MeridianCountReads : Prop :=
  (∀ (s : State) (req : Requester), mayReach s req R.MER_COUNT = true → (regHere s R.MER_COUNT).isSome = true → exec (.registerRead req R.MER_COUNT 8) s =
    .next { s with out := s.out ++ [⟨.readValue, requesterNo req, [R.MER_COUNT, countNow s], [], none⟩] }) ∧
  (∀ (s : State) (req : Requester), Completes (.merCountRead req false) s fun t =>
    t = { s with out := s.out ++ [⟨.readValue, requesterNo req, [R.MER_COUNT, countNow s % 2 ^ 32], [], none⟩], mer := t.mer } ∧ t.mer.count = s.mer.count ∧
    (∀ r : Requester, r ≠ req → t.mer.latch.find? (fun e => e.1 == r) = s.mer.latch.find? (fun e => e.1 == r)) ∧
    ∀ c : BitVec 64, Completes (.merCountRead req true) { t with mer := { t.mer with count := c } } fun u =>
      u.out = t.out ++ [⟨.readValue, requesterNo req, [R.MER_COUNT + 4, countNow s / 2 ^ 32], [], none⟩] ∧
      (∀ r : Requester, r ≠ req → u.mer.latch.find? (fun e => e.1 == r) = s.mer.latch.find? (fun e => e.1 == r)) ∧
      ∀ d : BitVec 64, Completes (.merCountRead req true) { u with mer := { u.mer with count := d } } fun v =>
        v.out = u.out ++ [⟨.readValue, requesterNo req, [R.MER_COUNT + 4, d.toNat / 2 ^ 32], [], none⟩]) ∧
  (∀ (s : State) (req : Requester), s.mer.latch.find? (fun e => e.1 == req) = none → Completes (.merCountRead req true) s fun t =>
    t.out = s.out ++ [⟨.readValue, requesterNo req, [R.MER_COUNT + 4, countNow s / 2 ^ 32], [], none⟩])

/-- With no upstream marker for four beats a LOCKED module that sources none enters HOLDOVER; after more than 64 beats of HOLDOVER, or four beats outside the band, it is ADRIFT; a deputy that has met no marker of higher rank for 16 beats sources markers. Only MER_STATUS changes among the registers, and only the Meridian beside them. (R23, R27) -/
def Obligations.MeridianLockStates : Prop :=
  (∀ s : State, Inv s → lockState s = 2 → sourcing s = false → 4 ≤ s.mer.missed → Completes .holdoverEntry s fun t =>
    lockState t = 3 ∧ flagF t R.MER_STATUS F.MER_STATUS_STATE_CHANGED = true ∧ OnlyRegs [R.MER_STATUS] s t ∧ t = { s with regs := t.regs, mer := t.mer }) ∧
  (∀ s : State, Inv s → (lockState s = 3 ∧ 64 < s.mer.holdover) ∨ ((lockState s = 2 ∨ lockState s = 3) ∧ 4 ≤ s.mer.outBand) → Completes .adriftEntry s fun t =>
    lockState t = 4 ∧ flagF t R.MER_STATUS F.MER_STATUS_STATE_CHANGED = true ∧ OnlyRegs [R.MER_STATUS] s t ∧ t = { s with regs := t.regs, mer := t.mer }) ∧
  (∀ s : State, Inv s → 2 ≤ merRole s → sourcing s = false → 16 ≤ s.mer.rankMissed → Completes .deputyTakeover s fun t =>
    sourcing t = true ∧ getF t R.MER_STATUS F.MER_STATUS_SOURCE_FID = myFid s ∧ getF t R.MER_STATUS F.MER_STATUS_HOPS = 0 ∧ OnlyRegs [R.MER_STATUS] s t ∧
    t = { s with regs := t.regs, mer := t.mer })

/-- A PPS edge that a module in FREE or ACQUIRING before its first lock follows sets the count to the second it marks; in LOCKED or HOLDOVER an edge, and a PTP message, only leave the offset to be slewed. REF_LOST takes the value given and is counted as an event of the Meridian source. A marker that passes its checks is kept with delay and offset from its four timestamps; one that fails its MAC on a keyed port is only counted. (R20, R22, R24, R27) -/
def Obligations.MeridianMeasurements : Prop :=
  (∀ (s : State) (n : Nat), Inv s → followsReference s 1 = true → n % 1000000000 = 0 → n < 2 ^ 64 → lockState s ≤ 1 → s.mer.firstLock = false →
    Completes (.merPpsEdge n) s fun t => t.mer.count.toNat = n ∧ t.mem = s.mem) ∧
  (∀ (s : State) (n : Nat), followsReference s 1 = true → n % 1000000000 = 0 → lockState s = 2 ∨ lockState s = 3 →
    Completes (.merPpsEdge n) s fun t => t = { s with mer := { s.mer with offset := some (1000 * ((countNow s : Int) - (n : Int))) } }) ∧
  (∀ (s : State) (x : Int), followsReference s 2 = true → lockState s = 2 ∨ lockState s = 3 →
    Completes (.ptpMessage x) s fun t => t = { s with mer := { s.mer with offset := some x } }) ∧
  (∀ (s : State) (lost : Bool), Inv s → merRole s ≠ 0 → flagF s R.MER_STATUS F.MER_STATUS_REF_LOST ≠ lost → Completes (.refLost lost) s fun t =>
    flagF t R.MER_STATUS F.MER_STATUS_REF_LOST = lost ∧ mapGetD 0 t.log.events merSource = min (2 ^ 48 - 1) (mapGetD 0 s.log.events merSource + 1) ∧
    OnlyRegs [R.MER_STATUS, R.LOG_STATUS, R.LOG_HOST_EVENTS, R.LOG_LOST_TOTAL] s t ∧ t = { s with regs := t.regs, log := t.log, out := t.out }) ∧
  (∀ (s : State) (m : MarkerIn), m.port < 32 → 1 ≤ portState s m.port → portState s m.port ≤ 6 → (getPort s m.port).keys = [] ∨ m.good = true →
    Completes (.superframeMarker m) s fun t => (mapGet t.mer.markers m.port).map (fun k => (k.sourceFid, k.hops, k.peerFid, k.delayPs, k.offsetPs, k.beat)) =
      some (m.sourceFid, m.hops, m.peerFid, ((((m.t2 : Int) - m.t1) + ((m.t4 : Int) - m.t3)) / 2).toNat, (((m.t2 : Int) - m.t1) - ((m.t4 : Int) - m.t3)) / 2, beatNow s)) ∧
  (∀ (s : State) (m : MarkerIn), m.port < 32 → 1 ≤ portState s m.port → portState s m.port ≤ 6 → (getPort s m.port).keys ≠ [] → m.good = false →
    Completes (.superframeMarker m) s fun t => t = incF s (R.DRD_PORT_ERRORS m.port) F.DRD_PORT_ERRORS_TAG_FAIL 1)

/-- From stage 1 a beat that has not been started runs the start of a beat; while scheduled events run, the beat at which the chart opens a dog watch opens one for the chart's length, and the first beat after its end closes it. (R32, R34, R404) -/
def Obligations.BeatsAndDogWatches : Prop :=
  (∀ (s : State) (x : BeatIn), 1 ≤ s.boot.stage → s.mer.beatSeen ≠ beatNow s → exec (.beatStart x) s = .next (beatStart s x)) ∧
  (∀ (s : State) (c : Chart), s.fab.chart = some c → locked s = true → opensAt c (beatNow s) = true → s.mer.dogEnd = none →
    exec .dogWatchOpen s = .next (openDogWatch s c.length)) ∧
  (∀ (s : State) (e : Nat), s.mer.dogEnd = some e → e ≤ beatNow s → exec .dogWatchClose s = .next (closeDogWatch s))

/-- On a READY pilot a write goes into its slots; elsewhere on a pilot it is dropped and counted. 100 µs after its first write an unfinished slot with a fitting LENGTH and too few bytes for a header falls free and is counted INCOMPLETE; one with a LENGTH out of range loses its content and stays busy until 100 µs pass without a write. (R43, R44, R45, R46, R606) -/
def Obligations.CommandSlots : Prop :=
  (∀ (s : State) (off : Nat) (bs : Bytes), isPilot s = true → isReady s = true → bs ≠ [] → exec (.commandSlotWrite off bs) s = .next (writeSlots (bs.length / 8192 + 2) s off bs)) ∧
  (∀ (s : State) (off : Nat) (bs : Bytes), Inv s → isPilot s = true → isReady s = false → bs ≠ [] → Completes (.commandSlotWrite off bs) s fun t =>
    getF t R.CMD_INTAKE_STATUS F.CMD_INTAKE_STATUS_DROPPED_WRITES = min (2 ^ 32 - 1) (getF s R.CMD_INTAKE_STATUS F.CMD_INTAKE_STATUS_DROPPED_WRITES + 1) ∧
    OnlyRegs [R.CMD_INTAKE_STATUS] s t ∧ t = { s with regs := t.regs }) ∧
  (∀ (s : State) (n : Nat) (k : Slot), Inv s → n < 64 → mapGet s.cmd.slots n = some k → k.quiet = false → k.firstNs + 100000 ≤ s.now → (∀ l, slotLength k = some l → lengthOk l = true) → slotCount k 64 < 64 →
    Completes (.slotTimeout n) s fun t => t.cmd.slots = mapDel s.cmd.slots n ∧ bitF t R.CMD_SLOT_BUSY F.CMD_SLOT_BUSY_BUSY n = false ∧
    getF t R.CMD_INTAKE_STATUS F.CMD_INTAKE_STATUS_INCOMPLETE = min (2 ^ 32 - 1) (getF s R.CMD_INTAKE_STATUS F.CMD_INTAKE_STATUS_INCOMPLETE + 1) ∧
    OnlyRegs [R.CMD_SLOT_BUSY, R.CMD_INTAKE_STATUS] s t) ∧
  (∀ (s : State) (n l : Nat) (k : Slot), Inv s → n < 64 → mapGet s.cmd.slots n = some k → k.quiet = false → k.firstNs + 100000 ≤ s.now → slotLength k = some l → lengthOk l = false →
    Completes (.slotTimeout n) s fun t => mapGet t.cmd.slots n = some { k with data := [], quiet := true } ∧ bitF t R.CMD_SLOT_BUSY F.CMD_SLOT_BUSY_BUSY n = true) ∧
  (∀ (s : State) (n : Nat) (k : Slot), Inv s → n < 64 → mapGet s.cmd.slots n = some k → k.quiet = true → k.lastNs + 100000 ≤ s.now →
    Completes (.slotQuietExpiry n) s fun t => t.cmd.slots = mapDel s.cmd.slots n ∧ bitF t R.CMD_SLOT_BUSY F.CMD_SLOT_BUSY_BUSY n = false ∧ OnlyRegs [R.CMD_SLOT_BUSY] s t)

/-- For each of the 22 work opcodes: a packet at the head of the intake that carries it, passes every check of the intake and of its body, and names no start beat leaves the intake, stands last among the accepted commands, queued, with the next order number, and its counter is the last its stream has accepted; no byte of memory changes. (R46, R47, R49, R51, R53) -/
def Obligations.WorkPacketsJoinTheirStream : Prop :=
  ∀ r ∈ ([(.nop, opNOP, 96, fun _ => []), (.fenceOnly, opFENCE_ONLY, 96, fun _ => []), (.copy .intake, opCOPY, 128, copyChecks), (.fill .intake, opFILL, 128, fillChecks),
    (.dataIn .intake, opDATA_IN, 160, dataInChecks), (.dataOut .intake, opDATA_OUT, 160, dataOutChecks), (.matmul, opMATMUL, 304, matmulChecks),
    (.laneProgram, opLANE_PROGRAM, 784, laneChecks), (.embGather, opEMB_GATHER, 224, gatherChecks), (.embScatterAdd, opEMB_SCATTER_ADD, 224, scatterChecks),
    (.relay .intake, opRELAY, 192, relayChecks), (.update, opUPDATE, 240, updateChecks), (.setDrawCounter, opSET_DRAW_COUNTER, 128, drawCounterChecks),
    (.ferryOut .intake, opFERRY_OUT, 160, ferryChecks), (.commit, opCOMMIT, 160, commitChecks), (.snapshotOut .intake, opSNAPSHOT_OUT, 160, snapChecks),
    (.standIn, opSTAND_IN, 128, standInChecks), (.attest, opATTEST, 160, fun p => [alignOk p 96 8 64, rsvOk p 104 24]), (.keyInstall, opKEY_INSTALL, 224, keyChecks),
    (.sliceRelease .intake, opSLICE_RELEASE, 128, fun p => [rsvOk p 64 32]), (.selfTest .intake, opSELF_TEST, 128, testChecks false),
    (.calibrate .intake, opCALIBRATE, 128, testChecks true)] : List (Instr × Nat × Nat × (Bytes → List (Bool × Nat)))),
    ∀ (s : State) (p : Bytes), Admitted s r.2.1 p → bodyChecks r.2.2.1 r.2.2.2 p = none → (parseHeader p).atBeat = false →
      Completes r.1 s fun t => ∃ x : Cmd, t.cmd.cmds = s.cmd.cmds ++ [x] ∧ x.q = queueOf (parseHeader p) ∧ x.hdr = parseHeader p ∧ x.pkt = p ∧ x.phase = .queued ∧
        x.order = s.cmd.nextOrder ∧ t.cmd.intake = s.cmd.intake.drop 1 ∧ (getStream t x.q).lastWork = (parseHeader p).counter ∧ t.mem = s.mem

/-- A SET_STREAM with values in range gives its stream the timeout and the wait limit it carries; an ABORT is settled; a CLEAR_STREAM of an OPEN stream completes at once with OK; a QUERY_STREAM completes with the last work counter, the state code and the oldest unretired counter. (R53, R55, R64, R65, R66, R75) -/
def Obligations.StreamPackets : Prop :=
  (∀ (s : State) (p : Bytes), Admitted s opSET_STREAM p → p.length = 112 → setStreamOk p = true → (parseHeader p).atBeat = false →
    haltOf (getStream s (parseHeader p).stream) (parseHeader p).counter = none →
    Completes .setStream s fun t => (getStream t (parseHeader p).stream).timeoutMs = uAt p 64 4 ∧ (getStream t (parseHeader p).stream).waitMs = uAt p 68 4 ∧
      t.cmd.cmds.length = s.cmd.cmds.length + 1) ∧
  (∀ (s : State) (p : Bytes), Admitted s opABORT p → bodyChecks 112 (fun p => [rsvOk p 72 8]) p = none →
    exec .abort s = .next (settleAbort (taken s) (parseHeader p) p (packetKey (taken s) (parseHeader p)))) ∧
  (∀ (s : State) (p : Bytes), Admitted s opCLEAR_STREAM p → p.length = 96 → (getStream s (parseHeader p).stream).fenced = none → (getStream s (parseHeader p).stream).state = .opened →
    exec .clearStream s = .next (controlNow (taken s) (parseHeader p) p (mkRec (parseHeader p) (packetKey (taken s) (parseHeader p)) true 0 0 0 0))) ∧
  (∀ (s : State) (p : Bytes), Admitted s opQUERY_STREAM p → p.length = 96 →
    exec .queryStream s = .next (controlNow (taken s) (parseHeader p) p (mkRec (parseHeader p) (packetKey (taken s) (parseHeader p)) true 0
      (getStream s (parseHeader p).stream).lastWork (streamCode (getStream s (parseHeader p).stream).state)
      (((s.cmd.cmds.filter fun x => x.q == (parseHeader p).stream).map fun x => x.hdr.counter).min?.getD 0))))

/-- The turn of a queued command is taken, a command of a halted stream ends with STREAM_HALTED and the counter that halted it, a wait on a fence beyond its limit ends with WAIT_TIMEOUT naming the fence and its value, a started command beyond its timeout is stopped or ended with TIMEOUT, a stopped command ends at its cursor with the status asked for, and an ended command whose predecessors have retired and whose record has a place retires. (R56, R57, R60, R63, R67, R68) -/
def Obligations.CommandsStartWaitAndEnd : Prop :=
  (∀ (s : State) (q c : Nat) (x : Cmd), findCmd s q c = some x → x.phase = .queued → exec (.commandStart q c) s = .next (startTurn s x)) ∧
  (∀ (s : State) (q c f : Nat) (x : Cmd), findCmd s q c = some x → x.phase = .queued → x.q = q → x.hdr.counter = c → haltOf (getStream s q) c = some f →
    Completes (.commandStart q c) s fun t => (findCmd t q c).map (fun y => (y.phase, y.status, y.detail, y.detail2, y.cursor)) = some (.ended, 0x0003, 0, f, 0) ∧
      t = { s with cmd := { s.cmd with cmds := t.cmd.cmds } }) ∧
  (∀ (s : State) (q c w : Nat) (x : Cmd), findCmd s q c = some x → x.waitNs = some w → x.phase = .queued → fenceLow s x = true → haltOf (getStream s q) c = none → w + x.waitMs * 1000000 < s.now →
    exec (.waitTimeout q c) s = .next (failStart s q c 0x0024 x.hdr.waitFence (mapGetD 0 s.cmd.fences x.hdr.waitFence))) ∧
  (∀ (s : State) (q c : Nat) (x : Cmd) (held : Bool), findCmd s q c = some x → x.phase = .ended → runsAgain x = false → predRetired s q c = true →
    hasPlace s x.hdr.ring (x.hdr.sliceTag % 4096) held = true → exec (.commandRetire q c held) s = .next (retire s x)) ∧
  (∀ (s : State) (q c : Nat) (x : Cmd) (k : Stop), findCmd s q c = some x → x.stop = some k → x.phase = .running → holdsTile s q c = false → runsAgain x = false →
    exec (.commandStop q c) s = .next (endCmd (dropWork s x true) q c k.status (cursorOf s x) k.detail k.detail2)) ∧
  (∀ (s : State) (q c : Nat) (x : Cmd), findCmd s q c = some x → x.phase = .running → x.startedNs ≠ 0 → beyondStop s x = false → x.startedNs + x.timeoutMs * 1000000 < s.now →
    exec (.commandTimeout q c) s = .next (haltAt (askStop s q c 0x0020 0 0) q c)) ∧
  (∀ (s : State) (q c : Nat) (x : Cmd), findCmd s q c = some x → x.phase = .ended → x.startedNs ≠ 0 → beyondStop s x = false → x.startedNs + x.timeoutMs * 1000000 < s.now →
    exec (.commandTimeout q c) s = .next (haltAt (endCmd s q c 0x0020 x.cursor 0 0) q c))

/-- A write of CMD_RING_CTRL with ENABLE and a SIZE of 6 to 20 to a ring that is off enables it with that size and slice tag and sets HEAD and CONSUMED to 0; a CONSUMED between the old one and HEAD is taken and waiting records follow; once per beat a full ring with a record that waits writes an entry with the ring, the stream and the counter. (R73, R80, R83) -/
def Obligations.CompletionRings : Prop :=
  (∀ (s : State) (n : Nat) (v : Word), Inv s → n < 16 → flagF s (R.CMD_RING_CTRL n) F.CMD_RING_CTRL_ENABLE = false → bitW v 0 = true → 6 ≤ fld v 12 8 → fld v 12 8 ≤ 20 →
    Completes (.cmdRingCtrlWrite n v) s fun t => ringOn t n = true ∧ getF t (R.CMD_RING_CTRL n) F.CMD_RING_CTRL_SIZE = fld v 12 8 ∧ ringTag t n = fld v 27 16 ∧
      rd t (R.CMD_RING_HEAD n) = 0 ∧ rd t (R.CMD_RING_CONSUMED n) = 0 ∧ OnlyRegs [R.CMD_RING_CTRL n, R.CMD_RING_HEAD n, R.CMD_RING_CONSUMED n] s t ∧ t = { s with regs := t.regs }) ∧
  (∀ (s : State) (n : Nat) (v : Word), n < 16 → (rd s (R.CMD_RING_CONSUMED n)).toNat ≤ v.toNat → v.toNat ≤ (rd s (R.CMD_RING_HEAD n)).toNat →
    exec (.cmdRingConsumedWrite n v) s = .next (drainRing (wr s (R.CMD_RING_CONSUMED n) v) n)) ∧
  (∀ (s : State) (n st c : Nat), isPilot s = true → ringOn s n = true → ringFull s n = true → mapGet s.cmd.fullBeat n ≠ some (beatNow s) → ringWaiter s n = some (st, c) →
    exec (.ringFullWait n) s = .next (logEvent { s with cmd := { s.cmd with fullBeat := mapPut s.cmd.fullBeat n (beatNow s) } } (srcOf 0 0) 0x00C4 clsInfo n st c))

/-- Each COPY, FILL, DATA_IN, DATA_OUT, FERRY_OUT and SNAPSHOT_OUT that runs does its next unit, block or record in traffic class 2 and meets the errors its reads were given; a running RELAY begins its next segment in class 1, a background self-test works in class 4, and a running trim is looked at again. (R252, R352, R353, R350, R518, R550, R551) -/
def Obligations.DataMovementWork : Prop :=
  (∀ r ∈ ([(fun q c u => .copy (.work q c u), opCOPY, copyWork), (fun q c u => .fill (.work q c u), opFILL, fillWork), (fun q c u => .dataIn (.work q c u), opDATA_IN, inWork),
    (fun q c u => .dataOut (.work q c u), opDATA_OUT, outWork), (fun q c u => .ferryOut (.work q c u), opFERRY_OUT, ferryWork),
    (fun q c u => .snapshotOut (.work q c u), opSNAPSHOT_OUT, outWork)] : List ((Nat → Nat → List Upset → Instr) × Nat × (State → Nat → Nat → State))),
    ∀ (s : State) (q c : Nat) (ups : List Upset), isRunning s q c r.2.1 = true →
      exec (r.1 q c ups) s = .next (inClass 2 s fun s => withUpsets ups s fun s => r.2.2 s q c)) ∧
  (∀ (s : State) (q c : Nat) (ups : List Upset), isRunning s q c opRELAY = true →
      exec (.relay (.work q c ups)) s = .next (inClass 1 s fun s => withUpsets ups s fun s => relayTry s fun s => relayWork s q c)) ∧
  (∀ (s : State) (q c : Nat) (ups : List Upset), isRunning s q c opSELF_TEST = true →
      exec (.selfTest (.work q c ups)) s = .next (inClass 4 s fun s => withUpsets ups s fun s => testWork s q c)) ∧
  (∀ (s : State) (q c : Nat) (ups : List Upset), isRunning s q c opCALIBRATE = true → exec (.calibrate (.work q c ups)) s = .next (trimWork s q c)) ∧
  (∀ (s : State) (q c : Nat) (ups : List Upset) (r : Releasing), sliceState s = 3 → s.sec.releasing = some r → r.cmd = none →
      exec (.sliceRelease (.work q c ups)) s = .next (scrubRun s ups))

/-- An enabled array whose back set is free takes its next chunk, of the tile it works on or of one it takes up; an array whose front chunk belongs to a tile that runs passes the next 32 rows of it; a member whose sums are finished and whose predecessor has handed on joins them to its shadow set, the first without an addition; a handed-off tile drains to its place and is counted. (R117, R118, R148, R153) -/
def Obligations.MatrixArrays : Prop :=
  (∀ (s : State) (g : Nat) (ups : List Upset), g < 96 → arrayOn s (g / 24) (g % 24) = true → (arrayAt s g).back = none →
    exec (.load g ups) s = .next (inClass 0 s fun s => withUpsets ups s fun s =>
      match loadTile (if (loadTile s g).isSome then s else takeTile s g) g with
      | some (x, j) => loadChunk (endTimeout (if (loadTile s g).isSome then s else takeTile s g) (srcOf 3 g)) g x j
      | none => if (loadTile s g).isSome then s else takeTile s g)) ∧
  (∀ (s : State) (g j : Nat) (ups : List Upset) (ch : Chunk) (x : Tile) (st : Step), g < 96 → (arrayAt s g).front = some ch → (s.comp.tiles.find? fun y => chunkOf y ch) = some x →
    memberAt x g = some j → tileRuns s x = true → (x.members.getD j { array := g, slot := 0 }).passes / 4 = ch.step →
    ((x.members.getD j { array := g, slot := 0 }).passes + 1 < 4 * (sharesOf s x j).length ∨ shadowFull s g (x.members.getD j { array := g, slot := 0 }).slot = false) →
    (sharesOf s x j)[ch.step]? = some st →
    exec (.pass g ups) s = .next (inClass 0 s fun s => withUpsets ups s fun s => runPass (endTimeout s (srcOf 3 g)) g x j (x.members.getD j { array := g, slot := 0 }) st ch)) ∧
  (∀ (s : State) (q c i : Nat) (third : Bool) (x : Tile) (m : Member), findTile s q c i third = some x → x.members[0]? = some m → memberIssued s x 0 m = true → m.joined = false →
    exec (.tileHandoff q c i third 0) s = .next (putTile s { modMember x 0 (fun m => { m with joined := true, shadow := true }) with
      stage := if x.members.length = 1 then .handed else x.stage })) ∧
  (∀ (s : State) (q c i : Nat) (ups : List Upset) (x : Tile), findTile s q c i false = some x → x.drained = false → x.stage = .handed →
    exec (.tileDrain q c i ups) s = .next (inClass 0 s fun s => withUpsets ups s fun s =>
      settleTile (incF (drainTile s x x) (R.CDn_MM_TILES x.die) F.CDn_MM_TILES_TILES 1)
        { x with drained := true, stage := .drained, members := x.members.map fun m => { m with shadow := false } }))

/-- A handed-off tile whose sums pass is clean, one whose sums do not is held and its commands tainted; the verdict of a third reading is kept for its settling. A held tile is read a third time by the lowest-numbered enabled arrays of the next die that has enough of them, and the outcome of that reading, or its absence, settles the tile. (R274, R276, R279, R280) -/
def Obligations.VernierAndThirdReadings : Prop :=
  (∀ (s : State) (q c i : Nat) (x : Tile), findTile s q c i false = some x → x.third = false → x.clean = none → x.stage = .handed ∨ x.stage = .drained →
    exec (.vernierVerdict q c i false) s = .next (if tileClean (tilePkt s x) x then settleTile s { x with clean := some true } else disagree s x)) ∧
  (∀ (s : State) (q c i : Nat) (x : Tile), findTile s q c i true = some x → x.third = true → x.clean = none → x.stage = .handed ∨ x.stage = .drained →
    exec (.vernierVerdict q c i true) s = .next (putTile s { x with clean := some (tileClean (tilePkt s x) x) })) ∧
  (∀ (s : State) (q c i d : Nat) (x : Tile), findTile s q c i false = some x → x.stage = .held → thirdOf s x = none → thirdDie s x = some d →
    Completes (.thirdReading q c i) s fun t => t = { s with comp := { s.comp with tiles := t.comp.tiles } } ∧
      ∃ y : Tile, t.comp.tiles = s.comp.tiles ++ [y] ∧ y.stream = q ∧ y.counter = c ∧ y.index = i ∧ y.die = d ∧ y.third = true ∧ y.stage = .computing ∧ d ≠ x.die % 4 ∧
        y.members.map Member.array = (arraysOf s d).take x.members.length) ∧
  (∀ (s : State) (q c i : Nat) (ups : List Upset) (x : Tile), findTile s q c i false = some x → x.stage = .held →
    exec (.thirdReadingSettled q c i ups) s = .next (withUpsets ups s fun s =>
      match thirdOf s x with
      | some y => if y.clean.isSome then settleThird s x (some y) else if thirdLost s y then settleThird (dropTile s y) x none else s
      | none => if (thirdDie s x).isNone then settleThird s x none else s))

/-- For each of the 18 arithmetic OPs of the vector engines: an engine at such an instruction of a reduce wave, not the wave's last, goes on to the next instruction; register D of every virtual lane at work holds the OP's exact result of the decoded operands A, B and C rounded once into the lane format, every other register of every lane stays, and no byte of memory changes. (R176, R182, R185, R186) -/
def Obligations.LaneFloatInstructions : Prop :=
  ∀ r ∈ ([(fun e u => .fadd e u, 0x10, fun _ a b _ => xAdd a b), (fun e u => .fsub e u, 0x11, fun _ a b _ => xAdd a (xNeg b)), (fun e u => .fmul e u, 0x12, fun _ a b _ => xMul a b),
    (fun e u => .fma e u, 0x13, fun _ a b c => xAdd (xMul a b) c), (fun e u => .fmax e u, 0x14, fun _ a b _ => xMax a b), (fun e u => .fmin e u, 0x15, fun _ a b _ => xMin a b),
    (fun e u => .fabs e u, 0x16, fun _ a _ _ => xAbs a), (fun e u => .fneg e u, 0x17, fun _ a _ _ => xNeg a),
    (fun e u => .fcmp e u, 0x19, fun i a b _ => if laneCompare i a b then .fin false 1 0 else .fin false 0 0),
    (fun e u => .frnd e u, 0x1A, fun i a _ _ => match fmtOfCode i with | some f => roundTo f .rne true 0 a | none => a),
    (fun e u => .frcp e u, 0x20, fun _ a _ _ => xRcp a), (fun e u => .frsqrt e u, 0x21, fun _ a _ _ => xRsqrt a), (fun e u => .fsqrt e u, 0x22, fun _ a _ _ => xSqrt a),
    (fun e u => .fexp2 e u, 0x23, fun _ a _ _ => xExp2 a), (fun e u => .flog2 e u, 0x24, fun _ a _ _ => xLog2 a), (fun e u => .fsigm e u, 0x25, fun _ a _ _ => xSigm a),
    (fun e u => .ftanh e u, 0x26, fun _ a _ _ => xTanh a), (fun e u => .ferf e u, 0x27, fun _ a _ _ => xErf a)] :
      List ((Nat → List Upset → Instr) × Nat × (Nat → XV → XV → XV → XV))),
    ∀ (s : State) (e : Nat) (v : VecEngine) (c : Cmd), LaneDue s e r.2.1 v c →
      Completes (r.1 e []) s fun t => ∃ w : VecEngine, LaneWent s e v w t ∧
        (∀ vl, vl < vecActive c.pkt v → laneVal c.pkt w vl (laneWord c.pkt v.pc).d =
          fRound (lpFmt c.pkt) (r.2.2 (laneWord c.pkt v.pc).imm (decodeElem (lpFmt c.pkt) (laneVal c.pkt v vl (laneWord c.pkt v.pc).a))
            (decodeElem (lpFmt c.pkt) (laneVal c.pkt v vl (laneWord c.pkt v.pc).b)) (decodeElem (lpFmt c.pkt) (laneVal c.pkt v vl (laneWord c.pkt v.pc).c))) % 2 ^ (lpFmt c.pkt).width) ∧
        ∀ l q, q < 32 → q ≠ (laneWord c.pkt v.pc).d → laneReg w l q = laneReg v l q

/-- For MOV and the six integer OPs: an engine at such an instruction of a reduce wave, not the wave's last, goes on to the next; register D of every lane at work holds the OP's result on the 32-bit registers A and B modulo 2^32 (the shifts by IMM), every other register stays, and no byte of memory changes. (R176, R185, R186) -/
def Obligations.LaneWordInstructions : Prop :=
  ∀ r ∈ ([(fun e u => .mov e u, 0x01, fun _ a _ => a), (fun e u => .iadd e u, 0x30, fun _ a b => a + b), (fun e u => .iand e u, 0x31, fun _ a b => a &&& b),
    (fun e u => .ior e u, 0x32, fun _ a b => a ||| b), (fun e u => .ixor e u, 0x33, fun _ a b => a ^^^ b), (fun e u => .ishl e u, 0x34, fun i a _ => a <<< i),
    (fun e u => .ishr e u, 0x35, fun i a _ => a >>> i)] : List ((Nat → List Upset → Instr) × Nat × (Nat → Nat → Nat → Nat))),
    ∀ (s : State) (e : Nat) (v : VecEngine) (c : Cmd), LaneDue s e r.2.1 v c →
      Completes (r.1 e []) s fun t => ∃ w : VecEngine, LaneWent s e v w t ∧
        (∀ l, l < lanesBusy c.pkt v → laneReg w l (laneWord c.pkt v.pc).d =
          r.2.2 (laneWord c.pkt v.pc).imm (laneReg v l (laneWord c.pkt v.pc).a) (laneReg v l (laneWord c.pkt v.pc).b) % 2 ^ 32) ∧
        ∀ l q, q < 32 → q ≠ (laneWord c.pkt v.pc).d → laneReg w l q = laneReg v l q

/-- A NOP only goes on. LDC gives D constant IMM, rounded into both halves in BF16×2 mode; LID the column index as FP32; RDR the row result of channel IMM rounded; RND the top bits of the element's draw as a fraction; FSEL a bit copy of A where C is not zero, else of B; RED adds A into the lane accumulators of its channel. Each leaves every other register and all memory as they are. (R176, R181, R185, R186, R188) -/
def Obligations.LaneSourcesAndSelection : Prop :=
  (∀ (s : State) (e : Nat) (v : VecEngine) (c : Cmd), LaneDue s e 0x00 v c → Completes (.laneNop e []) s fun t => LaneWent s e v { v with pc := v.pc + 1 } t) ∧
  (∀ (s : State) (e : Nat) (v : VecEngine) (c : Cmd), LaneDue s e 0x02 v c → Completes (.ldc e []) s fun t => ∃ w : VecEngine, LaneWent s e v w t ∧
    (∀ l, l < lanesBusy c.pkt v → laneReg w l (laneWord c.pkt v.pc).d = (if lpBf c.pkt then fRound .bf16 (decodeElem .fp32 (uAt c.pkt (96 + 4 * (laneWord c.pkt v.pc).imm) 4)) * 65537
      else uAt c.pkt (96 + 4 * (laneWord c.pkt v.pc).imm) 4) % 2 ^ 32) ∧ ∀ l q, q < 32 → q ≠ (laneWord c.pkt v.pc).d → laneReg w l q = laneReg v l q) ∧
  (∀ (s : State) (e : Nat) (v : VecEngine) (c : Cmd), LaneDue s e 0x03 v c → lpBf c.pkt = false → Completes (.lid e []) s fun t => ∃ w : VecEngine, LaneWent s e v w t ∧
    (∀ l, l < vecActive c.pkt v → laneReg w l (laneWord c.pkt v.pc).d = fRound .fp32 (.fin false (v.wave * 512 + l) 0) % 2 ^ 32) ∧
    ∀ l q, q < 32 → q ≠ (laneWord c.pkt v.pc).d → laneReg w l q = laneReg v l q) ∧
  (∀ (s : State) (e : Nat) (v : VecEngine) (c : Cmd), LaneDue s e 0x07 v c → Completes (.rdr e []) s fun t => ∃ w : VecEngine, LaneWent s e v w t ∧
    (∀ l, l < lanesBusy c.pkt v → laneReg w l (laneWord c.pkt v.pc).d = (if lpBf c.pkt then fRound .bf16 (decodeElem .a40 (mapGetD 0 v.result (laneWord c.pkt v.pc).imm)) * 65537
      else fRound .fp32 (decodeElem .a40 (mapGetD 0 v.result (laneWord c.pkt v.pc).imm))) % 2 ^ 32) ∧ ∀ l q, q < 32 → q ≠ (laneWord c.pkt v.pc).d → laneReg w l q = laneReg v l q) ∧
  (∀ (s : State) (e : Nat) (v : VecEngine) (c : Cmd), LaneDue s e 0x08 v c → lpBf c.pkt = false → Completes (.rnd e []) s fun t => ∃ w : VecEngine, LaneWent s e v w t ∧
    (∀ l, l < vecActive c.pkt v → laneReg w l (laneWord c.pkt v.pc).d =
      fRound .fp32 (.fin false (bitsOf (laneDraw (laneCtx s e v c) ((List.range v.pc).filter fun i => (laneWord c.pkt i).op == 8).length l) 31 8) (-24)) % 2 ^ 32) ∧
    ∀ l q, q < 32 → q ≠ (laneWord c.pkt v.pc).d → laneReg w l q = laneReg v l q) ∧
  (∀ (s : State) (e : Nat) (v : VecEngine) (c : Cmd), LaneDue s e 0x18 v c → lpBf c.pkt = false → Completes (.fsel e []) s fun t => ∃ w : VecEngine, LaneWent s e v w t ∧
    (∀ l, l < vecActive c.pkt v → laneReg w l (laneWord c.pkt v.pc).d =
      if laneReg v l (laneWord c.pkt v.pc).c % 2 ^ 31 ≠ 0 then laneReg v l (laneWord c.pkt v.pc).a else laneReg v l (laneWord c.pkt v.pc).b) ∧
    ∀ l q, q < 32 → q ≠ (laneWord c.pkt v.pc).d → laneReg w l q = laneReg v l q) ∧
  (∀ (s : State) (e : Nat) (v : VecEngine) (c : Cmd), LaneDue s e 0x06 v c → Completes (.red e []) s fun t => ∃ w : VecEngine,
    mapGet t.comp.engines e = some w ∧ w = { v with pc := v.pc + 1, red := w.red } ∧ t.mem = s.mem ∧
    ∀ vl, vl < vecActive c.pkt v → mapGet w.red ((laneWord c.pkt v.pc).imm % 4 * 1024 + vl) =
      some (a40Code (redCombine ((laneWord c.pkt v.pc).imm / 4) (redAt v ((laneWord c.pkt v.pc).imm % 4) ((laneWord c.pkt v.pc).imm / 4) vl)
        (decodeElem (lpFmt c.pkt) (laneVal c.pkt v vl (laneWord c.pkt v.pc).a)))))

/-- LD reads the wave's columns into register D and ST writes register A to its output, each in the traffic class of the engines and with the engine's own retries, after which the engine goes on or the row fails; a channel of an engine whose waves are over gets its row result. (R179, R180, R188, R275) -/
def Obligations.LaneMemoryAndRowResults : Prop :=
  (∀ (s : State) (e : Nat) (ups : List Upset) (v : VecEngine) (c : Cmd), LaneDue s e 0x04 v c → exec (.ld e ups) s = .next (inClass 0 s fun s => withUpsets ups s fun s => engineRun s 5 e fun s =>
    match runMM (laneLoad (laneCtx s e v c)) s with
    | (.ok w, s) => vecAdvance s e w c
    | (.error er, s) => rowFailed s e v er)) ∧
  (∀ (s : State) (e : Nat) (ups : List Upset) (v : VecEngine) (c : Cmd), LaneDue s e 0x05 v c → exec (.st e ups) s = .next (inClass 0 s fun s => withUpsets ups s fun s => engineRun s 5 e fun s =>
    match runMM (do let w ← laneStore (laneCtx s e v c); modify (fun u => laneStale u (laneCtx s e v c)); pure w) s with
    | (.ok w, s) => vecAdvance s e w c
    | (.error er, s) => rowFailed s e v er)) ∧
  (∀ (s : State) (e ch op : Nat) (ups : List Upset) (v : VecEngine) (c : Cmd), e < 16 → engineOn s 5 e = true → engineRow s e = some (v, c) →
    (lpChannels c.pkt).find? (fun x => x.1 == ch) = some (ch, op) → redReady c.pkt v = true → mapGet v.result ch = none →
    exec (.reductionRowResult e ch ups) s = .next (inClass 0 s fun s => withUpsets ups s fun s => engineRun s 5 e fun s => rowResult s e v c ch op))

/-- Setting register D of the lanes at work keeps the sparse registers of an engine in strictly rising order, the form the statements about lane instructions assume; an engine that begins a row or a wave lists none. (R176) -/
def Obligations.LaneRegistersStayInForm : Prop :=
  ∀ (x : LaneCtx) (f : Nat → Nat), mapSorted x.v.lanes = true → mapSorted (setLanes x f).lanes = true ∧ mapSorted (setHalves x f).lanes = true

/-- A frame of a running exchange is taken by it in traffic class 1; a frame for none is held where REL_HOLD has room. An answer with another digest than the exchange's stops it with MISMATCH; a word that a contribution has been applied is noted, a row goes to the bag that waits for it; nothing awaited within the hop timeout stops it with STALLED. (R208, R211, R212, R215, R220, R222) -/
def Obligations.EmbeddingFrames : Prop :=
  (∀ (s : State) (port xid src dig lk row : Nat) (ups : List Upset) (x : Exchange), sliceState s = 2 → frameExch s xid = some x →
    exec (.embRequest port xid src dig lk row ups) s = .next (inClass 1 s fun s => withUpsets ups s fun s => takeEmb s x (.embRequest xid src dig lk row))) ∧
  (∀ (s : State) (port xid dig : Nat) (k : Contribution) (ups : List Upset) (x : Exchange), sliceState s = 2 → frameExch s xid = some x →
    exec (.embContribution port xid dig k ups) s = .next (inClass 1 s fun s => withUpsets ups s fun s => engineRun s 6 (((enginesOf s 6 15).head?).getD 0) fun s => takeEmb s x (.embContribution xid dig k))) ∧
  (∀ (s : State) (port xid src dig n : Nat) (x : Exchange), sliceState s = 2 → frameExch s xid = some x →
    exec (.embEnd port xid src dig n) s = .next (inClass 1 s fun s => withUpsets [] s fun s => takeEmb s x (.embEnd xid src dig n))) ∧
  (∀ (s : State) (port xid src dig : Nat) (x : Exchange), sliceState s = 2 → frameExch s xid = some x →
    exec (.embStop port xid src dig) s = .next (inClass 1 s fun s => withUpsets [] s fun s => takeEmb s x (.embStop xid src dig))) ∧
  (∀ (s : State) (port xid src dig n : Nat), Inv s → sliceState s = 2 → frameExch s xid = none → holdRoom s 16 = true →
    Completes (.embEnd port xid src dig n) s fun t => t.fleet.held = s.fleet.held ++ [⟨.embEnd xid src dig n, s.now, 16, port⟩] ∧ OnlyRegs [R.REL_STATUS, R.REL_HOLD] s t ∧
      t = { s with regs := t.regs, fleet := t.fleet }) ∧
  (∀ (s : State) (xid src dig : Nat) (a : EmbAnswer) (ups : List Upset) (x : Exchange), frameExch s xid = some x → dig ≠ x.digest →
    exec (.embResponse xid src dig a ups) s = .next (embMismatch s x src)) ∧
  (∀ (s : State) (xid src lk : Nat) (ups : List Upset) (x : Exchange) (y : Cmd), frameExch s xid = some x → findCmd s x.stream x.counter = some y → x.scatter = true →
    exec (.embResponse xid src x.digest (.applied lk) ups) s = .next (embProgress (putExch s { x with acked := setIns lk x.acked, waitNs := s.now }) x.stream x.counter)) ∧
  (∀ (s : State) (xid src : Nat) (r : RowData) (ups : List Upset) (x : Exchange) (y : Cmd) (b : BagWork), frameExch s xid = some x → findCmd s x.stream x.counter = some y →
    (x.bags.find? fun b => b.combine ≤ r.lookup && r.lookup < b.issue && !(b.rows.any fun o => o.lookup == r.lookup)) = some b → x.scatter = false → y.stop = none →
    exec (.embResponse xid src x.digest (.row r) ups) s = .next (inClass 0 s fun s => withUpsets ups s fun s => engineRun s 6 b.engine fun s => bagOn s x y { b with rows := b.rows ++ [r] })) ∧
  (∀ (s : State) (q c pos : Nat) (x : Exchange) (y : Cmd), findExch s q c = some x → findCmd s q c = some y → embAwaits x pos = true → y.stop = none → anyHold s = false →
    x.waitNs + x.hopUs * 1000 ≤ s.now → exec (.embStalled q c pos) s = .next (embStopAsk s q c 0x0235 pos 0 (some F.EMB_ERRORS_STALLED))) ∧
  (∀ (s : State) (e item : Nat) (ups : List Upset) (x : Exchange) (y : Cmd), e < 4 → engineOn s 6 e = true → embPick s e = some (x, y, none, item) →
    exec (.embLookup e ups) s = .next (inClass 0 s fun s => withUpsets ups s fun s => engineRun s 6 e fun s => openBag s e x y item)) ∧
  (∀ (s : State) (e item : Nat) (ups : List Upset) (x : Exchange) (y : Cmd) (b : BagWork), e < 4 → engineOn s 6 e = true → embPick s e = some (x, y, some b, item) →
    exec (.embLookup e ups) s = .next (inClass 0 s fun s => withUpsets ups s fun s => engineRun s 6 e fun s => if x.scatter then scatterLookup s x y b else gatherLookup s x y b))

/-- A relay frame of a running RELAY is taken by it, another is held where there is room; a held frame of which no command has started within a watch is discarded and counted; no awaited hop within the timeout stops the RELAY with HOP_TIMEOUT naming the position before and the segment. A ferry frame is placed by its route; a ferry without a final frame within a watch is void and logged. (R163, R164, R165, R255) -/
def Obligations.RelayAndFerryEvents : Prop :=
  (∀ (s : State) (port : Nat) (f : RelayFrame) (ups : List Upset) (w : RelayWork), sliceState s = 2 → (s.fleet.relays.find? fun w => w.relayId == f.relayId) = some w →
    exec (.relayFrame port f ups) s = .next (inClass 1 s fun s => withUpsets ups s fun s => relayTry s fun s => takeRelayFrame s w f)) ∧
  (∀ (s : State) (port : Nat) (f : RelayFrame) (ups : List Upset), Inv s → sliceState s = 2 → (s.fleet.relays.find? fun w => w.relayId == f.relayId) = none → holdRoom s (f.data.length + 48) = true →
    Completes (.relayFrame port f ups) s fun t => t.fleet.held = s.fleet.held ++ [⟨.relay f, s.now, f.data.length + 48, port⟩] ∧ OnlyRegs [R.REL_STATUS, R.REL_HOLD] s t ∧
      t = { s with regs := t.regs, fleet := t.fleet }) ∧
  (∀ (s : State) (i : Nat) (h : HeldFrame), Inv s → s.fleet.held[i]? = some h → h.atNs + 16384 * 65536 ≤ s.now → Completes (.heldFrameExpiry i) s fun t =>
    t.fleet.held = s.fleet.held.eraseIdx i ∧ getF t R.REL_ERRORS F.REL_ERRORS_DISCARDED = satAdd (F.REL_ERRORS_DISCARDED.hi + 1 - F.REL_ERRORS_DISCARDED.lo) (getF s R.REL_ERRORS F.REL_ERRORS_DISCARDED) 1 ∧
      OnlyRegs [R.REL_ERRORS, R.REL_STATUS, R.REL_HOLD] s t ∧ t = { s with regs := t.regs, fleet := t.fleet }) ∧
  (∀ (s : State) (q c k : Nat) (w : RelayWork) (x : Cmd), s.fleet.relays.find? (isRelay q c) = some w → findCmd s q c = some x → awaitedSeg w x.pkt = some k → x.stop = none → anyHold s = false →
    w.waitNs + hopUs x.pkt 96 * 1000 ≤ s.now →
    exec (.hopTimeout q c) s = .next (askStop (incF s R.REL_ERRORS F.REL_ERRORS_STALLED 1) q c 0x0313 ((w.pos + w.members.length - 1) % w.members.length) k)) ∧
  (∀ (s : State) (f : FerryFrame), sliceState s = 2 → exec (.ferryBlock f) s = .next (inClass 2 s fun s => takeFerry s f)) ∧
  (∀ (s : State) (p i : Nat) (d : FerryIn), (s.fleet.ferryIn.find? fun d => d.ferryId == i && (ferryInRoute s p).any fun r => r.route == d.route) = some d → d.final = none →
    d.lastNs + 16384 * 65536 ≤ s.now → Completes (.ferryVoid p i) s fun t =>
      t = logEvent { s with fleet := { s.fleet with ferryIn := s.fleet.ferryIn.erase d } } (portSource p) 0x04C2 clsLostWork d.ferryId d.sourceFid d.step ∧ t.fleet.ferryIn = s.fleet.ferryIn.erase d)

/-- An update engine that is on computes the next block dealt to it and hands the values on, or its command fails with the memory error met. The COMMIT of a module that is SEALING and whose earlier commands have all retired runs its seal. (R237, R287) -/
def Obligations.UpdatesAndSeals : Prop :=
  (∀ (s : State) (e b : Nat) (ups : List Upset) (w : DealWork) (x : Cmd), e < 32 → engineOn s 7 e = true → updNext s e = some (w, b, x) →
    exec (.updateBlock e ups) s = .next (inClass 0 s fun s => withUpsets ups s fun s => engineRun s 7 e fun s =>
      match runMM (updWork w.stream w.counter x.pkt (e / 8) x.window b) s with
      | (.ok vals, s) => updDone s w e b x vals
      | (.error er, s) => failMem s w.stream w.counter er)) ∧
  (∀ (s : State) (ups : List Upset) (w : CommitWork) (x : Cmd), s.esc.work = some w → findCmd s w.stream w.counter = some x → escState s = 1 → w.folding = false → w.sealed = false →
    w.action ≠ 2 → x.stop = none → earlierRetired s w = true → exec (.escapementSeal ups) s = .next (inClass 3 s fun s => withUpsets ups s fun s => sealStep s w x.pkt))

/-- A vote is kept for the COMMIT that awaits it; a decision is taken; at a COMMIT_BEAT that has come a held decision is acted on; on a decision to commit the step rises and the staged writes are released unless a started command still works there. (R289, R290) -/
def Obligations.VotesDecisionsAndRelease : Prop :=
  (∀ (s : State) (v : Vote), sliceState s = 2 → exec (.voteFrame v) s = .next (castVote { s with esc := { s.esc with vote := some v } })) ∧
  (∀ (s : State) (d : Decision) (a : Bool), sliceState s = 2 → exec (.decisionFrame d a) s = .next (takeDecision s d a)) ∧
  (∀ (s : State) (w : CommitWork) (d : Decision), s.esc.work = some w → w.beat ≤ beatNow s → w.acted = false → w.action ≠ 3 → s.esc.pending = some d → exec .commitBeat s = .next (actOn s w d)) ∧
  (∀ (s : State) (w : CommitWork), s.esc.work = some w → w.acted = true → escState s = 3 → s.esc.risen = true → releaseWaits s = false → exec .release s = .next (inClass 3 s fun s => releaseAll s w)) ∧
  (∀ (s : State) (w : CommitWork), s.esc.work = some w → w.acted = true → escState s = 3 → s.esc.risen = false → releaseWaits (raiseStep s) = true → exec .release s = .next (raiseStep s))

/-- Sixteen beats after COMMIT_BEAT without a decision the position is IN_DOUBT and asks from then on; one request per beat goes to the next member of the asking order; after a watch the COMMIT ends with IN_DOUBT and the asking slows to one request a watch. A member that keeps the decision sends it; one that is asked for the digest of a SEAL_ONLY answers with it or that it holds none; the digest fetched settles a CONFIRM. (R287, R292) -/
def Obligations.InDoubt : Prop :=
  (∀ (s : State) (w : CommitWork), Inv s → s.esc.work = some w → w.action ≠ 3 → w.acted = false → s.esc.pending = none → w.beat + 16 ≤ beatNow s → (escState s = 1 ∨ escState s = 2) → s.esc.early = none →
    Completes .inDoubtEntry s fun t => escState t = 5 ∧ t.esc.ask = some { step := w.step, members := w.members, pos := w.pos, since := beatNow s } ∧ OnlyRegs [R.ARB_ESC_STATUS] s t ∧
      t = { s with regs := t.regs, esc := t.esc }) ∧
  (∀ (s : State) (a : AskWork), s.esc.ask = some a → (∀ b, a.last = some b → if a.slow then b + 16384 ≤ beatNow s else b < beatNow s) → askOrder a.members.length a.pos ≠ [] →
    exec .decisionRequest s = .next (sendSlice { s with esc := { s.esc with ask := some { a with sent := a.sent + 1, last := some (beatNow s) } } } 0 1
      (a.members.getD ((askOrder a.members.length a.pos).getD (a.sent % (askOrder a.members.length a.pos).length) 0) 0) .decisionRequest [a.step])) ∧
  (∀ (s : State) (w : CommitWork) (a : AskWork), s.esc.work = some w → s.esc.ask = some a → escState s = 5 → w.doubtDone = false → a.since + 16384 ≤ beatNow s →
    Completes .escInDoubt s fun t => (t.esc.work.map CommitWork.doubtDone) = some true ∧ (t.esc.ask.map AskWork.slow) = some true ∧
      t = { endCommit s w (0x0434, 0, w.step) with esc := t.esc }) ∧
  (∀ (s : State) (fid step : Nat) (d : Decision), sliceState s = 2 → isMember s fid = true → keptDecision s step = some d → exec (.decisionRequestReceipt fid step) s = .next (sendDecision s 0 fid d true)) ∧
  (∀ (s : State) (fid step : Nat) (d : Bytes), sliceState s = 2 → isMember s fid = true → heldDigest s step = some d → exec (.digestFetchRequest fid step) s = .next (sendSlice s 0 1 fid .digestAnswer [step, 1] d)) ∧
  (∀ (s : State) (fid step : Nat), sliceState s = 2 → isMember s fid = true → heldDigest s step = none → exec (.digestFetchRequest fid step) s = .next (sendSlice s 0 1 fid .digestAnswer [step, 0])) ∧
  (∀ (s : State) (d : Option Bytes) (w : CommitWork), s.esc.work = some w → w.action = 2 → w.sealed = false → escState s = 1 →
    exec (.digestFetchAnswer w.step d) s = .next (castVote { s with esc := { s.esc with work := some { w with sealed := true, verdict := if d = some s.esc.digest then .clean else .notClean, confirm := some (d == some s.esc.digest) } } }))

/-- GO on an idle unit not held by the IZ9, with settings that pass and a length above zero, sets BUSY, clears FAULT and PROGRESS and loads VALUE from INIT where CONTINUE is 0; with settings that fail it only sets FAULT and DONE. STOP takes a running scan to a whole number of 64 bytes and ends it with STOPPED. At the end of a scan BUSY is clear and DONE set. GO and STOP on units the IZ9 holds are not covered here. (R309, R310) -/
def Obligations.CheckValueScans : Prop :=
  (∀ (s : State) (u : Nat) (v : Word), Inv s → u < 8 → bitW v 0 = true → bitW v 1 = false → bitW v 2 = false → unitHeld s u = false → unitBusy s u = false → scanRefusal s u = 0 → 0 < unitLength s u →
    Completes (.crcGo u v) s fun t => unitBusy t u = true ∧ getF t (R.CRC_STATUS u) F.CRC_STATUS_FAULT = 0 ∧ getF t (R.CRC_PROGRESS u) F.CRC_PROGRESS_BYTES = 0 ∧
      (rd t (R.CRC_VALUE u)).toNat = (if bitW v 3 then (rd s (R.CRC_VALUE u)).toNat else unitReg s u (R.CRC_INIT u)) ∧ OnlyRegs [R.CRC_CTRL u, R.CRC_STATUS u, R.CRC_PROGRESS u, R.CRC_VALUE u] s t ∧ t = { s with regs := t.regs }) ∧
  (∀ (s : State) (u : Nat) (v : Word), Inv s → u < 8 → bitW v 0 = true → bitW v 1 = false → bitW v 2 = false → unitHeld s u = false → unitBusy s u = false → scanRefusal s u ≠ 0 →
    Completes (.crcGo u v) s fun t => unitBusy t u = false ∧ getF t (R.CRC_STATUS u) F.CRC_STATUS_FAULT = scanRefusal s u ∧ flagF t (R.CRC_STATUS u) F.CRC_STATUS_DONE = true ∧
      OnlyRegs [R.CRC_CTRL u, R.CRC_STATUS u] s t ∧ t = { s with regs := t.regs }) ∧
  (∀ (s : State) (u n : Nat) (v : Word) (ups : List Upset), u < 8 → bitW v 1 = true → unitHeld s u = false → unitBusy s u = true →
    exec (.crcStop u v n ups) s = .next (inClass 4 s fun s => withUpsets ups s fun s =>
      scanEnd s u (min (unitLength s u) (max (getF s (R.CRC_PROGRESS u) F.CRC_PROGRESS_BYTES) (n / 64 * 64))) faultStopped)) ∧
  (∀ (s : State) (u : Nat) (ups : List Upset), Inv s → u < 8 → unitBusy s u = true →
    Completes (.crcScanEnd u none ups) s fun t => unitBusy t u = false ∧ flagF t (R.CRC_STATUS u) F.CRC_STATUS_DONE = true) ∧
  (∀ (s : State) (u n : Nat) (ups : List Upset), Inv s → u < 8 → unitBusy s u = true →
    Completes (.crcScanEnd u (some n) ups) s fun t => unitBusy t u = false ∧ flagF t (R.CRC_STATUS u) F.CRC_STATUS_DONE = true ∧ getF t (R.CRC_STATUS u) F.CRC_STATUS_FAULT ≠ 0)

/-- CHECK on an idle unit whose RESULT equals EXPECT takes the settings and changes nothing else; where they differ it sets MISMATCH in the status and the unit's bit in CRC_EVENTS and leaves VALUE. A 64-bit write of CRC_DATA on an idle unit takes the FEED_BYTES lowest bytes into the register, low byte first, and changes nothing else. (R312, R313) -/
def Obligations.CheckValueCompareAndFeed : Prop :=
  (∀ (s : State) (u : Nat) (v : Word), Inv s → u < 8 → bitW v 0 = false → bitW v 1 = false → bitW v 2 = true → unitHeld s u = false → unitBusy s u = false → unitResult s u = unitReg s u (R.CRC_EXPECT u) →
    Completes (.crcCheck u v) s fun t => OnlyRegs [R.CRC_CTRL u] s t ∧ t = { s with regs := t.regs }) ∧
  (∀ (s : State) (u : Nat) (v : Word), Inv s → u < 8 → bitW v 0 = false → bitW v 1 = false → bitW v 2 = true → unitHeld s u = false → unitBusy s u = false → unitResult s u ≠ unitReg s u (R.CRC_EXPECT u) →
    Completes (.crcCheck u v) s fun t => flagF t (R.CRC_STATUS u) F.CRC_STATUS_MISMATCH = true ∧ bitF t R.CRC_EVENTS F.CRC_EVENTS_MISMATCH u = true ∧
      rd t (R.CRC_VALUE u) = rd s (R.CRC_VALUE u) ∧ t.mem = s.mem) ∧
  (∀ (s : State) (u n : Nat) (v : Word), Inv s → u < 8 → unitHeld s u = false → unitBusy s u = false → getF s (R.CRC_CTRL u) F.CRC_CTRL_FEED_BYTES = n → 1 ≤ n → n ≤ 8 →
    Completes (.crcData u 8 v) s fun t => rd t (R.CRC_VALUE u) = BitVec.ofNat 64 (crcReg (unitWidth s u) (unitReg s u (R.CRC_POLY u)) (flagF s (R.CRC_CFG u) F.CRC_CFG_REFIN)
        (unitReg s u (R.CRC_VALUE u)) (natLe n v.toNat)) ∧ OnlyRegs [R.CRC_VALUE u] s t ∧ t = { s with regs := t.regs }) ∧
  (∀ (s : State) (u w : Nat) (v : Word), u < 8 → unitHeld s u = false → unitBusy s u = true ∨ getF s (R.CRC_CTRL u) F.CRC_CTRL_FEED_BYTES = 0 ∨ 8 < getF s (R.CRC_CTRL u) F.CRC_CTRL_FEED_BYTES ∨ w ≠ 8 →
    Completes (.crcData u w v) s fun t => t = refuseAs s (R.CRC_DATA u, w, v.toNat))

/-- HBM_RETIRE without GO takes its operands; with GO and operands at fault it gives RESULT and moves nothing; with good ones, no release running, GO and RESULT read in progress and the frame is on its way to the list; the end of the flash write puts it there or, failed, gives RESULT 5. HBM_DONATE with operands at fault gives RESULT 4. A governor write whose six classes are in order waits for the next beat, another has no effect but its entry. A scrub read moves the granule on by one. (R345, R351, R360, R361, R365) -/
def Obligations.HbmPagesAndScrub : Prop :=
  (∀ (s : State) (v : Word), Inv s → flagF s R.HBM_RETIRE F.HBM_RETIRE_GO = false → bitW v 63 = false → Completes (.hbmRetire v []) s fun t =>
    getF t R.HBM_RETIRE F.HBM_RETIRE_STACK = fld v 50 48 ∧ getF t R.HBM_RETIRE F.HBM_RETIRE_DONOR = fld v 30 16 ∧ getF t R.HBM_RETIRE F.HBM_RETIRE_FRAME = fld v 14 0 ∧
    flagF t R.HBM_RETIRE F.HBM_RETIRE_GO = false ∧ OnlyRegs [R.HBM_RETIRE] s t ∧ t.mem = s.mem ∧ t.hbm = { s.hbm with cls := 0 }) ∧
  (∀ (s : State) (v : Word), Inv s → flagF s R.HBM_RETIRE F.HBM_RETIRE_GO = false → bitW v 63 = true → retireRefusal s (fld v 50 48) (fld v 14 0) (fld v 30 16) ≠ 0 → Completes (.hbmRetire v []) s fun t =>
    getF t R.HBM_RETIRE F.HBM_RETIRE_RESULT = retireRefusal s (fld v 50 48) (fld v 14 0) (fld v 30 16) ∧ flagF t R.HBM_RETIRE F.HBM_RETIRE_GO = false ∧
    OnlyRegs [R.HBM_RETIRE] s t ∧ t.mem = s.mem ∧ t.hbm = { s.hbm with cls := 0 }) ∧
  (∀ (s : State) (v : Word), Inv s → flagF s R.HBM_RETIRE F.HBM_RETIRE_GO = false → bitW v 63 = true → retireRefusal s (fld v 50 48) (fld v 14 0) (fld v 30 16) = 0 → releasing s = false →
    Completes (.hbmRetire v []) s fun t => getF t R.HBM_RETIRE F.HBM_RETIRE_RESULT = 1 ∧ flagF t R.HBM_RETIRE F.HBM_RETIRE_GO = true ∧ t.hbm.flashWrite = some (fld v 50 48, fld v 14 0)) ∧
  (∀ (s : State) (k f : Nat), Inv s → k < 8 → s.hbm.flashWrite = some (k, f) → Completes (.retirementEnd true) s fun t =>
    t.hbm = { s.hbm with flashWrite := none, retired := s.hbm.retired ++ [(k, f)] } ∧ getF t R.HBM_RETIRE F.HBM_RETIRE_RESULT = 0 ∧ flagF t R.HBM_RETIRE F.HBM_RETIRE_GO = false ∧
    OnlyRegs [R.HBM_RETIRE, R.HBM_STACK_STATUS k] s t ∧ t = { s with regs := t.regs, hbm := t.hbm, flash := t.flash }) ∧
  (∀ (s : State) (k f : Nat), Inv s → s.hbm.flashWrite = some (k, f) → Completes (.retirementEnd false) s fun t =>
    t.hbm = { s.hbm with flashWrite := none } ∧ getF t R.HBM_RETIRE F.HBM_RETIRE_RESULT = 5 ∧ flagF t R.HBM_RETIRE F.HBM_RETIRE_GO = false ∧ t.flash = s.flash ∧ t.mem = s.mem) ∧
  (∀ (s : State) (v : Word), Inv s → flagF s R.HBM_DONATE F.HBM_DONATE_GO = false → bitW v 63 = true →
    32704 ≤ fld v 14 0 ∨ 32704 ≤ fld v 30 16 ∨ frameOf s (fld v 50 48) (fld v 14 0) ≠ none ∨ frameOf s (fld v 50 48) (fld v 30 16) = none → Completes (.hbmDonate v) s fun t =>
    getF t R.HBM_DONATE F.HBM_DONATE_RESULT = 4 ∧ flagF t R.HBM_DONATE F.HBM_DONATE_GO = false ∧ OnlyRegs [R.HBM_DONATE] s t ∧ t = { s with regs := t.regs }) ∧
  (∀ (s : State) (v : Word) (k p d g : Nat), Inv s → flagF s R.HBM_DONATE F.HBM_DONATE_GO = false → bitW v 63 = true → k = fld v 50 48 → p = fld v 14 0 → d = fld v 30 16 → p < 32704 → d < 32704 →
    frameOf s k p = none → frameOf s k d = some g → releasing s = false → Completes (.hbmDonate v) s fun t =>
    getF t R.HBM_DONATE F.HBM_DONATE_RESULT = 0 ∧ flagF t R.HBM_DONATE F.HBM_DONATE_GO = false ∧ OnlyRegs [R.HBM_DONATE] s t ∧ t.mem = s.mem ∧
      t.hbm.pages = mapPutD (some d) (mapPutD (some p) s.hbm.pages (k * 32768 + p) (some g)) (k * 32768 + d) none) ∧
  (∀ (s : State) (c : Nat) (v : Word), c < 6 → govOk ((List.range 6).map fun i => if i = c then BitVec.ofNat 64 (fld v 14 8 * 256 + fld v 6 0) else govAhead s i) = true → Completes (.hbmGovWrite c v) s fun t =>
    t = { s with hbm := { s.hbm with govNext := mapPut s.hbm.govNext c (BitVec.ofNat 64 (fld v 14 8 * 256 + fld v 6 0)) } }) ∧
  (∀ (s : State) (c : Nat) (v : Word), c < 6 → govOk ((List.range 6).map fun i => if i = c then BitVec.ofNat 64 (fld v 14 8 * 256 + fld v 6 0) else govAhead s i) = false → Completes (.hbmGovWrite c v) s fun t =>
    t = refuseAs s (R.HBM_GOV c, 8, v.toNat) ∧ t.hbm = s.hbm) ∧
  (∀ (s : State) (ups : List Upset), Inv s → flagF s R.HBM_SCRUB F.HBM_SCRUB_ENABLE = true → anchorState s ≠ 3 → Completes (.scrubRead ups) s fun t =>
    getF t R.HBM_SCRUB_POS F.HBM_SCRUB_POS_GRANULE = (getF s R.HBM_SCRUB_POS F.HBM_SCRUB_POS_GRANULE + 1) % 2 ^ 30)

/-- A flit of a direction at work whose check value agrees and whose SEQ is the one expected is accepted: its ACK goes out and nothing but the link and the outbox changes (here: no copy kept, and the flit asks for no replay). A flit whose check value does not agree, or that is out of order, is discarded: a NAK with the last SEQ in order goes out. (R371, R372, R373) -/
def Obligations.ArborFlits : Prop :=
  (∀ (s : State) (l : Nat) (up : Bool) (g : Nat) (p : Bytes) (w : Nat), dirOn s l up = true → g < linkGroups l → p.length = flitBytes l → flitGood p w = true →
    bitsOf w 95 84 = (getGroup (getDir s l up) g).expect → (getGroup (getDir s l up) g).firstBad = none → w.testBit 71 = false →
    Completes (.flit l up g p w) s fun t => t.out = s.out ++ [⟨.arborAck, l, [b2n up, g, bitsOf w 95 84], [], none⟩] ∧ (getDir t l up).dealt = (getDir s l up).dealt + 1 ∧
      t = { s with out := t.out, links := t.links }) ∧
  (∀ (s : State) (l : Nat) (up : Bool) (g : Nat) (p : Bytes) (w : Nat), dirOn s l up = true → g < linkGroups l → p.length = flitBytes l →
    flitGood p w = false ∨ bitsOf w 95 84 ≠ (getGroup (getDir s l up) g).expect →
    Completes (.flit l up g p w) s fun t => t.out = s.out ++ [⟨.arborNak, l, [b2n up, g, ((getGroup (getDir s l up) g).expect + 4095) % 4096], [], none⟩] ∧
      t = { s with out := t.out, links := t.links })

/-- A SPARE_REQ or HALF_REQ received is answered with its acknowledgement. The SPARE_ACK of the switch under way adds the lane to the group's failed lanes and sets the link's SPARED event; another changes nothing. The HALF_ACK of the switch under way takes the direction to HALF_MUSTER and sets the event. (R378, R380, R381) -/
def Obligations.ArborSparing : Prop :=
  (∀ (s : State) (l : Nat) (up : Bool) (g n q : Nat), dirOn s l up = true → g < linkGroups l → n < groupLanes l → dirState s l up = 2 →
    ((getDir s l up).groups.any fun e => match e.2.switch with | some w => w.half | none => false) = false →
    exec (.spareReq l up g n q) s = .next { s with out := s.out ++ [⟨.sparing, l, [b2n up, g, n, q, 1], [], none⟩] }) ∧
  (∀ (s : State) (l : Nat) (up : Bool) (g n q : Nat), Inv s → dirOn s l up = true → g < linkGroups l → (getGroup (getDir s l up) g).switch = some ⟨false, n, q⟩ →
    Completes (.spareAck l up g n q) s fun t => (getGroup (getDir t l up) g).failed = (getGroup (getDir s l up) g).failed ++ [n] ∧ (getGroup (getDir t l up) g).switch = none ∧
      bitF t R.ARB_LINK_EVENTS F.ARB_LINK_EVENTS_SPARED l = true ∧ t.mem = s.mem) ∧
  (∀ (s : State) (l : Nat) (up : Bool) (g n q : Nat), (getGroup (getDir s l up) g).switch ≠ some ⟨false, n, q⟩ → exec (.spareAck l up g n q) s = .next s) ∧
  (∀ (s : State) (l : Nat) (up : Bool) (q : Nat), dirOn s l up = true → dirState s l up = 2 →
    exec (.halfReq l up q) s = .next { s with out := s.out ++ [⟨.halfMuster, l, [b2n up, q, 1], [], none⟩] }) ∧
  (∀ (s : State) (l : Nat) (up : Bool) (q : Nat), Inv s → dirOn s l up = true → dirState s l up = 2 →
    ((getDir s l up).groups.any fun e => match e.2.switch with | some w => w.half && w.seq == q | none => false) = true →
    Completes (.halfAck l up q) s fun t => dirState t l up = 3 ∧ bitF t R.ARB_LINK_EVENTS F.ARB_LINK_EVENTS_HALF_MUSTER l = true)

/-- A probe is answered with the free entries of the five buffers. A report awaited sets the credits, each at most its pool, and counts a resync. A class that has stood without credits sends a probe. A microsecond after a probe without a report the direction retrains: RETRAINS_WATCH rises by one, and at the third of a watch the die behind the link is fenced. (R374, R375, R376) -/
def Obligations.ArborCreditsAndRetrain : Prop :=
  (∀ (s : State) (l : Nat) (up : Bool), dirOn s l up = true → exec (.creditProbe l up) s = .next { s with out := s.out ++ [⟨.creditReport, l, b2n up :: (getDir s l up).free, [], none⟩] }) ∧
  (∀ (s : State) (l : Nat) (up : Bool) (f : List Nat), Inv s → mapSorted s.links = true → dirOn s l up = true → (getDir s l up).probeNs ≠ none → f.length = 5 →
    Completes (.creditReport l up f) s fun t => (getDir t l up).credits = (f.zip [1024, 1024, 64, 64, 16]).map (fun e => min e.2 e.1) ∧ (getDir t l up).probeNs = none ∧
      OnlyRegs [R.ARB_LINK_COUNTS l] s t ∧ t = { s with regs := t.regs, links := t.links }) ∧
  (∀ (s : State) (l : Nat) (up : Bool) (c : Nat), dirOn s l up = true → c < 5 → (getDir s l up).credits.getD c 1 = 0 → (getDir s l up).probeNs = none →
    Completes (.creditTimeout l up c) s fun t => (getDir t l up).probeNs = some s.now ∧ t = { s with out := s.out ++ [⟨.creditProbe, l, [b2n up], [], none⟩], links := t.links }) ∧
  (∀ (s : State) (l : Nat) (up : Bool) (b : Nat), Inv s → mapSorted s.links = true → dirOn s l up = true → (getDir s l up).probeNs = some b → b + 1000 ≤ s.now →
    getF s (R.ARB_LINK_STATUS l) F.ARB_LINK_STATUS_RETRAINS_WATCH < 2 →
    Completes (.linkRetrain l up) s fun t => (getDir t l up).probeNs = none ∧ getF t (R.ARB_LINK_STATUS l) F.ARB_LINK_STATUS_RETRAINS_WATCH = getF s (R.ARB_LINK_STATUS l) F.ARB_LINK_STATUS_RETRAINS_WATCH + 1 ∧
      dirState t l up = dirState s l up ∧ t.mem = s.mem) ∧
  (∀ (s : State) (l : Nat) (up : Bool) (b : Nat), Inv s → dirOn s l up = true → (getDir s l up).probeNs = some b → b + 1000 ≤ s.now → 2 ≤ getF s (R.ARB_LINK_STATUS l) F.ARB_LINK_STATUS_RETRAINS_WATCH →
    exec (.linkRetrain l up) s = .next (fenceDie (noteAt (incF (retrainDir s l up) (R.ARB_LINK_COUNTS l) F.ARB_LINK_COUNTS_RETRAINS 1) (linkSrc l) 0x02 clsInfo) l))
end

