-- ==== Sys2Proof/Laws/Maps.lean ====
section
/-!
SUPPORT. Sparse maps and memory: reads after writes, and that every operation keeps the canonical form.
-/
set_option Elab.async false

namespace Sys2Proof.Machine

variable {α : Type}

/-- The canonical form as a relation between entries. -/
theorem mapSorted_iff (m : SMap α) : mapSorted m = true ↔ m.Pairwise fun a b => a.1 < b.1 := by
  induction m with
  | nil => simp [mapSorted]
  | cons x r ih =>
    cases r with
    | nil => simp [mapSorted]
    | cons y t =>
      obtain ⟨i, v⟩ := x
      obtain ⟨j, w⟩ := y
      simp only [mapSorted, Bool.and_eq_true, decide_eq_true_eq, ih, List.pairwise_cons, List.mem_cons]
      constructor
      · rintro ⟨h, h1, h2⟩
        exact ⟨fun e he => by rcases he with rfl | he; exact h; exact lt_trans h (h1 e he), h1, h2⟩
      · rintro ⟨h, h1, h2⟩
        exact ⟨h (j, w) (.inl rfl), h1, h2⟩

theorem mapPut_key {m : SMap α} {k : Nat} {v : α} {e : Nat × α} (h : e ∈ mapPut m k v) : e = (k, v) ∨ e ∈ m := by
  induction m with
  | nil => simpa [mapPut] using h
  | cons x r ih =>
    obtain ⟨i, w⟩ := x
    simp only [mapPut] at h
    split at h
    · simpa using h
    · split at h
      · rcases List.mem_cons.1 h with h | h
        · exact .inl h
        · exact .inr (List.mem_cons_of_mem _ h)
      · rcases List.mem_cons.1 h with h | h
        · exact .inr (h ▸ List.mem_cons_self)
        · rcases ih h with h | h
          · exact .inl h
          · exact .inr (List.mem_cons_of_mem _ h)

theorem mapPut_pairwise {m : SMap α} (k : Nat) (v : α) (h : m.Pairwise fun a b => a.1 < b.1) : (mapPut m k v).Pairwise fun a b => a.1 < b.1 := by
  induction m with
  | nil => simp [mapPut]
  | cons x r ih =>
    obtain ⟨i, w⟩ := x
    rw [List.pairwise_cons] at h
    simp only [mapPut]
    split
    · rename_i hk
      refine List.pairwise_cons.2 ⟨fun e he => ?_, List.pairwise_cons.2 h⟩
      rcases List.mem_cons.1 he with rfl | he
      · exact hk
      · exact lt_trans hk (h.1 e he)
    · split
      · rename_i hk
        exact List.pairwise_cons.2 ⟨fun e he => by subst hk; exact h.1 e he, h.2⟩
      · rename_i hk hne
        refine List.pairwise_cons.2 ⟨fun e he => ?_, ih h.2⟩
        rcases mapPut_key he with rfl | he
        · exact lt_of_le_of_ne (not_lt.1 hk) (Ne.symm hne)
        · exact h.1 e he

theorem mapDel_sublist (m : SMap α) (k : Nat) : (mapDel m k).Sublist m := by
  induction m with
  | nil => simp [mapDel]
  | cons x r ih =>
    obtain ⟨i, w⟩ := x
    simp only [mapDel]
    split
    · exact List.sublist_cons_self _ _
    · exact ih.cons_cons _

/-- Every write keeps the canonical form. -/
theorem mapPut_sorted {m : SMap α} (k : Nat) (v : α) (h : mapSorted m = true) : mapSorted (mapPut m k v) = true :=
  (mapSorted_iff _).2 (mapPut_pairwise k v ((mapSorted_iff _).1 h))

theorem sorted_sublist {m n : SMap α} (hs : n.Sublist m) (h : mapSorted m = true) : mapSorted n = true :=
  (mapSorted_iff _).2 (((mapSorted_iff _).1 h).sublist hs)

theorem mapDel_sorted {m : SMap α} (k : Nat) (h : mapSorted m = true) : mapSorted (mapDel m k) = true := sorted_sublist (mapDel_sublist m k) h

/-- A read after a write of the same key. -/
theorem mapGet_put_same (m : SMap α) (k : Nat) (v : α) : mapGet (mapPut m k v) k = some v := by
  induction m with
  | nil => simp [mapPut, mapGet]
  | cons x r ih =>
    obtain ⟨i, w⟩ := x
    simp only [mapPut]
    split
    · simp [mapGet]
    · split
      · simp [mapGet]
      · rename_i hne
        simp [mapGet, Ne.symm hne, ih]

/-- A read after a write of another key. -/
theorem mapGet_put_other (m : SMap α) (k j : Nat) (v : α) (h : j ≠ k) : mapGet (mapPut m k v) j = mapGet m j := by
  induction m with
  | nil => simp [mapPut, mapGet, Ne.symm h]
  | cons x r ih =>
    obtain ⟨i, w⟩ := x
    simp only [mapPut]
    split
    · simp [mapGet, Ne.symm h]
    · split
      · rename_i hk
        subst hk
        simp [mapGet, Ne.symm h]
      · simp only [mapGet]
        split
        · rfl
        · exact ih

theorem mapGet_none_of_lt {m : SMap α} {k : Nat} (h : ∀ e ∈ m, k < e.1) : mapGet m k = none := by
  induction m with
  | nil => rfl
  | cons x r ih =>
    obtain ⟨i, w⟩ := x
    have h1 := h (i, w) List.mem_cons_self
    simp only [mapGet, if_neg (Nat.ne_of_gt h1)]
    exact ih fun e he => h e (List.mem_cons_of_mem _ he)

theorem mapGet_del_same {m : SMap α} (k : Nat) (h : mapSorted m = true) : mapGet (mapDel m k) k = none := by
  have h := (mapSorted_iff _).1 h
  induction m with
  | nil => rfl
  | cons x r ih =>
    obtain ⟨i, w⟩ := x
    rw [List.pairwise_cons] at h
    simp only [mapDel]
    split
    · rename_i hk
      subst hk
      exact mapGet_none_of_lt h.1
    · rename_i hk
      simp only [mapGet, if_neg hk]
      exact ih ((mapSorted_iff _).2 h.2) h.2

theorem mapGet_del_other (m : SMap α) (k j : Nat) (h : j ≠ k) : mapGet (mapDel m k) j = mapGet m j := by
  induction m with
  | nil => rfl
  | cons x r ih =>
    obtain ⟨i, w⟩ := x
    simp only [mapDel]
    split
    · rename_i hk
      subst hk
      simp [mapGet, Ne.symm h]
    · simp only [mapGet]
      split
      · rfl
      · exact ih

/-- A value written through the default reads back, the default too. -/
theorem mapGetD_putD_same [DecidableEq α] {d : α} {m : SMap α} (k : Nat) (v : α) (h : mapSorted m = true) : mapGetD d (mapPutD d m k v) k = v := by
  unfold mapGetD mapPutD
  split
  · rename_i hv
    simp [mapGet_del_same k h, hv]
  · simp [mapGet_put_same]

theorem mapGetD_putD_other [DecidableEq α] {d d' : α} {m : SMap α} {k j : Nat} {v : α} (h : j ≠ k) : mapGetD d' (mapPutD d m k v) j = mapGetD d' m j := by
  unfold mapGetD mapPutD
  split
  · rw [mapGet_del_other m k j h]
  · rw [mapGet_put_other m k j v h]

theorem mapPutD_sorted [DecidableEq α] (d : α) {m : SMap α} (k : Nat) (v : α) (h : mapSorted m = true) : mapSorted (mapPutD d m k v) = true := by
  unfold mapPutD
  split
  · exact mapDel_sorted k h
  · exact mapPut_sorted k v h

theorem mapPutD_key [DecidableEq α] {d : α} {m : SMap α} {k : Nat} {v : α} {e : Nat × α} (h : e ∈ mapPutD d m k v) : (e = (k, v) ∧ v ≠ d) ∨ e ∈ m := by
  unfold mapPutD at h
  split at h
  · exact .inr ((mapDel_sublist m k).subset h)
  · rename_i hv
    rcases mapPut_key h with h | h
    · exact .inl ⟨h, hv⟩
    · exact .inr h

/-! ### The canonical form over a default -/

theorem mapCanon_iff [DecidableEq α] (d : α) (m : SMap α) : mapCanon d m = true ↔ mapSorted m = true ∧ ∀ e ∈ m, e.2 ≠ d := by
  simp [mapCanon]

theorem mapCanon_putD [DecidableEq α] {d : α} {m : SMap α} (k : Nat) (v : α) (h : mapCanon d m = true) : mapCanon d (mapPutD d m k v) = true := by
  rw [mapCanon_iff] at h ⊢
  refine ⟨mapPutD_sorted d k v h.1, fun e he => ?_⟩
  rcases mapPutD_key he with ⟨rfl, hv⟩ | he
  · exact hv
  · exact h.2 e he

theorem mapCanon_sublist [DecidableEq α] {d : α} {m n : SMap α} (hs : n.Sublist m) (h : mapCanon d m = true) : mapCanon d n = true := by
  rw [mapCanon_iff] at h ⊢
  exact ⟨sorted_sublist hs h.1, fun e he => h.2 e (hs.subset he)⟩

end Sys2Proof.Machine
end

