-- ==== Sys2Proof/Laws/Fields.lean ====
section
/-!
SUPPORT. Registers and their fields: what a read gives after a write, of the same and of other registers and fields.
-/
set_option Elab.async false
namespace Sys2Proof.Machine

/-- A number cut at a field: what lies above it, the field, what lies below it. -/
theorem split_at_field (x lo k : Nat) : x = x / 2 ^ (lo + k) * 2 ^ (lo + k) + x / 2 ^ lo % 2 ^ k * 2 ^ lo + x % 2 ^ lo := by
  have h1 := Nat.div_add_mod x (2 ^ lo)
  have h2 := Nat.div_add_mod (x / 2 ^ lo) (2 ^ k)
  have h3 : x / 2 ^ lo / 2 ^ k = x / 2 ^ (lo + k) := by rw [Nat.div_div_eq_div_mul, ← Nat.pow_add]
  rw [h3] at h2
  have h4 : x / 2 ^ (lo + k) * 2 ^ (lo + k) = 2 ^ lo * (2 ^ k * (x / 2 ^ (lo + k))) := by rw [Nat.pow_add]; ring
  rw [h4, Nat.mul_comm (x / 2 ^ lo % 2 ^ k), ← Nat.mul_add, h2]
  exact h1.symm

/-- The three parts of a number put together from them. -/
theorem parts_of_sum {q f r lo k : Nat} (hf : f < 2 ^ k) (hr : r < 2 ^ lo) :
    (q * 2 ^ (lo + k) + f * 2 ^ lo + r) / 2 ^ (lo + k) = q ∧ (q * 2 ^ (lo + k) + f * 2 ^ lo + r) / 2 ^ lo % 2 ^ k = f ∧
      (q * 2 ^ (lo + k) + f * 2 ^ lo + r) % 2 ^ lo = r := by
  have hp : 0 < 2 ^ lo := Nat.two_pow_pos lo
  have hd : (q * 2 ^ (lo + k) + f * 2 ^ lo + r) / 2 ^ lo = q * 2 ^ k + f := by
    have e : q * 2 ^ (lo + k) + f * 2 ^ lo + r = r + 2 ^ lo * (q * 2 ^ k + f) := by rw [Nat.pow_add]; ring
    rw [e, Nat.add_mul_div_left _ _ hp, Nat.div_eq_of_lt hr, Nat.zero_add]
  refine ⟨?_, ?_, ?_⟩
  · rw [Nat.pow_add, ← Nat.div_div_eq_div_mul, ← Nat.pow_add, hd, Nat.mul_comm, Nat.mul_add_div (Nat.two_pow_pos k), Nat.div_eq_of_lt hf, Nat.add_zero]
  · rw [hd, Nat.mul_comm, Nat.mul_add_mod, Nat.mod_eq_of_lt hf]
  · have e : q * 2 ^ (lo + k) + f * 2 ^ lo + r = r + 2 ^ lo * (q * 2 ^ k + f) := by rw [Nat.pow_add]; ring
    rw [e, Nat.add_mul_mod_self_left, Nat.mod_eq_of_lt hr]

theorem setFld_toNat (w : Word) {hi lo : Nat} (v : Nat) (h : lo ≤ hi) (h64 : hi < 64) :
    (setFld w hi lo v).toNat = w.toNat / 2 ^ (hi + 1) * 2 ^ (hi + 1) + v % 2 ^ (hi + 1 - lo) * 2 ^ lo + w.toNat % 2 ^ lo := by
  obtain ⟨k, hk⟩ : ∃ k, hi + 1 = lo + k := ⟨hi + 1 - lo, by omega⟩
  have hk' : hi + 1 - lo = k := by omega
  unfold setFld fld bitsOf
  rw [hk', hk, Nat.shiftRight_eq_div_pow]
  have hs := split_at_field w.toNat lo k
  have hv : v % 2 ^ k < 2 ^ k := Nat.mod_lt _ (Nat.two_pow_pos k)
  have hw := w.isLt
  have e : w.toNat - w.toNat / 2 ^ lo % 2 ^ k * 2 ^ lo + v % 2 ^ k * 2 ^ lo = w.toNat / 2 ^ (lo + k) * 2 ^ (lo + k) + v % 2 ^ k * 2 ^ lo + w.toNat % 2 ^ lo := by omega
  rw [e, BitVec.toNat_ofNat, Nat.mod_eq_of_lt]
  have hq : w.toNat / 2 ^ (lo + k) < 2 ^ (64 - (lo + k)) := by
    apply Nat.div_lt_of_lt_mul
    rw [← Nat.pow_add, show lo + k + (64 - (lo + k)) = 64 by omega]
    exact hw
  have hm : w.toNat % 2 ^ lo < 2 ^ lo := Nat.mod_lt _ (Nat.two_pow_pos lo)
  have h1 : v % 2 ^ k * 2 ^ lo + w.toNat % 2 ^ lo < 2 ^ (lo + k) := by
    have : (v % 2 ^ k + 1) * 2 ^ lo ≤ 2 ^ k * 2 ^ lo := Nat.mul_le_mul_right _ hv
    rw [Nat.add_mul, Nat.one_mul, ← Nat.pow_add, Nat.add_comm k lo] at this
    omega
  have h2 : (w.toNat / 2 ^ (lo + k) + 1) * 2 ^ (lo + k) ≤ 2 ^ (64 - (lo + k)) * 2 ^ (lo + k) := Nat.mul_le_mul_right _ hq
  rw [← Nat.pow_add, show 64 - (lo + k) + (lo + k) = 64 by omega, Nat.add_mul, Nat.one_mul] at h2
  omega

/-- A field reads what was written to it, cut to its width. -/
theorem fld_setFld_same (w : Word) {hi lo : Nat} (v : Nat) (h : lo ≤ hi) (h64 : hi < 64) : fld (setFld w hi lo v) hi lo = v % 2 ^ (hi + 1 - lo) := by
  obtain ⟨k, hk⟩ : ∃ k, hi + 1 = lo + k := ⟨hi + 1 - lo, by omega⟩
  have hk' : hi + 1 - lo = k := by omega
  unfold fld bitsOf
  rw [setFld_toNat w v h h64, hk', hk, Nat.shiftRight_eq_div_pow]
  exact (parts_of_sum (Nat.mod_lt _ (Nat.two_pow_pos k)) (Nat.mod_lt _ (Nat.two_pow_pos lo))).2.1

/-- A field that lies below the one written reads as before. -/
theorem fld_setFld_below (w : Word) {hi lo h l : Nat} (v : Nat) (hl : lo ≤ hi) (h64 : hi < 64) (hd : h < lo) : fld (setFld w hi lo v) h l = fld w h l := by
  obtain ⟨k, hk⟩ : ∃ k, hi + 1 = lo + k := ⟨hi + 1 - lo, by omega⟩
  have hk' : hi + 1 - lo = k := by omega
  have hm : (setFld w hi lo v).toNat % 2 ^ lo = w.toNat % 2 ^ lo := by
    rw [setFld_toNat w v hl h64, hk', hk]
    exact (parts_of_sum (Nat.mod_lt _ (Nat.two_pow_pos k)) (Nat.mod_lt _ (Nat.two_pow_pos lo))).2.2
  unfold fld bitsOf
  apply Nat.eq_of_testBit_eq
  intro i
  simp only [Nat.testBit_mod_two_pow, Nat.testBit_shiftRight]
  by_cases hi' : i < h + 1 - l
  · have e : l + i < lo := by omega
    have t1 := Nat.testBit_mod_two_pow (setFld w hi lo v).toNat lo (l + i)
    have t2 := Nat.testBit_mod_two_pow w.toNat lo (l + i)
    rw [hm] at t1
    simp only [e, decide_true, Bool.true_and] at t1 t2
    rw [← t1, ← t2]
  · simp [hi']

/-- A field that lies above the one written reads as before. -/
theorem fld_setFld_above (w : Word) {hi lo h l : Nat} (v : Nat) (hl : lo ≤ hi) (h64 : hi < 64) (hd : hi < l) : fld (setFld w hi lo v) h l = fld w h l := by
  obtain ⟨k, hk⟩ : ∃ k, hi + 1 = lo + k := ⟨hi + 1 - lo, by omega⟩
  have hk' : hi + 1 - lo = k := by omega
  have hm : (setFld w hi lo v).toNat / 2 ^ (lo + k) = w.toNat / 2 ^ (lo + k) := by
    rw [setFld_toNat w v hl h64, hk', hk]
    exact (parts_of_sum (Nat.mod_lt _ (Nat.two_pow_pos k)) (Nat.mod_lt _ (Nat.two_pow_pos lo))).1
  unfold fld bitsOf
  have e : ∀ x : Nat, x >>> l = x / 2 ^ (lo + k) / 2 ^ (l - (lo + k)) := fun x => by
    rw [Nat.shiftRight_eq_div_pow, Nat.div_div_eq_div_mul, ← Nat.pow_add, show lo + k + (l - (lo + k)) = l by omega]
  rw [e, e, hm]

theorem fld_lt (w : Word) (hi lo : Nat) : fld w hi lo < 2 ^ (hi + 1 - lo) := Nat.mod_lt _ (Nat.two_pow_pos _)

/-- A register reads the value written. -/
theorem rd_wr_same {s : State} (h : mapSorted s.regs = true) (a : Nat) (w : Word) : rd (wr s a w) a = w := mapGetD_putD_same a w h

/-- Every other register reads as before. -/
theorem rd_wr_other (s : State) {a b : Nat} (w : Word) (h : b ≠ a) : rd (wr s a w) b = rd s b := mapGetD_putD_other h

theorem wr_sorted {s : State} (h : mapSorted s.regs = true) (a : Nat) (w : Word) : mapSorted (wr s a w).regs = true := mapPutD_sorted _ a w h

theorem setF_sorted {s : State} (h : mapSorted s.regs = true) (a : Nat) (f : RF) (v : Nat) : mapSorted (setF s a f v).regs = true := wr_sorted h a _

theorem rd_setF_other (s : State) {a b : Nat} (f : RF) (v : Nat) (h : b ≠ a) : rd (setF s a f v) b = rd s b := rd_wr_other s _ h

/-- A field reads what was written to it, cut to its width. -/
theorem getF_setF_same {s : State} (h : mapSorted s.regs = true) (a : Nat) (f : RF) (v : Nat) (hl : f.lo ≤ f.hi) (h64 : f.hi < 64) :
    getF (setF s a f v) a f = v % 2 ^ (f.hi + 1 - f.lo) := by
  unfold getF setF
  rw [rd_wr_same h, fld_setFld_same _ _ hl h64]

/-- A field of another register reads as before. -/
theorem getF_setF_other (s : State) {a b : Nat} (f g : RF) (v : Nat) (h : b ≠ a) : getF (setF s a f v) b g = getF s b g := by
  unfold getF
  rw [rd_setF_other s f v h]

/-- Another field of the same register reads as before. -/
theorem getF_setF_field {s : State} (h : mapSorted s.regs = true) (a : Nat) (f g : RF) (v : Nat) (hl : f.lo ≤ f.hi) (h64 : f.hi < 64)
    (hd : g.hi < f.lo ∨ f.hi < g.lo) : getF (setF s a f v) a g = getF s a g := by
  unfold getF setF
  rw [rd_wr_same h]
  rcases hd with hd | hd
  · exact fld_setFld_below _ _ hl h64 hd
  · exact fld_setFld_above _ _ hl h64 hd

end Sys2Proof.Machine
end

