-- ==== Sys2Proof/Laws/Memory.lean ====
section
/-!
SUPPORT. Memory by bytes: what a read gives after a write, and that every operation over memory keeps its canonical form.
-/
namespace Sys2Proof.Machine

variable {α : Type}

theorem mapGet_append (l r : SMap α) (k : Nat) : mapGet (l ++ r) k = (mapGet l k).or (mapGet r k) := by
  induction l with
  | nil => simp [mapGet]
  | cons x t ih =>
    obtain ⟨i, v⟩ := x
    simp only [List.cons_append, mapGet]
    split
    · simp
    · exact ih

/-- A map with only the keys of a set. -/
theorem mapGet_filter (m : SMap α) (p : Nat → Bool) (k : Nat) : mapGet (m.filter fun e => p e.1) k = if p k then mapGet m k else none := by
  induction m with
  | nil => simp [mapGet]
  | cons x t ih =>
    obtain ⟨i, v⟩ := x
    by_cases hp : p i
    · simp only [List.filter_cons, hp, if_true, mapGet]
      by_cases hk : i = k
      · subst hk; simp [hp]
      · simp only [if_neg hk]; exact ih
    · simp only [List.filter_cons, hp, mapGet]
      by_cases hk : i = k
      · subst hk; simpa [hp] using ih
      · simp only [if_neg hk]; exact ih

theorem cellsOf_ge {a : Nat} {bs : Bytes} {e : Host.Cell} (h : e ∈ cellsOf a bs) : a ≤ e.1 ∧ e.1 < a + bs.length ∧ e.2 ≠ 0 := by
  induction bs generalizing a with
  | nil => simp [cellsOf] at h
  | cons b r ih =>
    simp only [cellsOf] at h
    split at h
    · obtain ⟨h1, h2, h3⟩ := ih h
      exact ⟨by omega, by simp only [List.length_cons]; omega, h3⟩
    · rename_i hb
      rcases List.mem_cons.1 h with rfl | h
      · exact ⟨le_refl _, by simp, hb⟩
      · obtain ⟨h1, h2, h3⟩ := ih h
        exact ⟨by omega, by simp only [List.length_cons]; omega, h3⟩

theorem cellsOf_pairwise (a : Nat) (bs : Bytes) : (cellsOf a bs).Pairwise fun x y => x.1 < y.1 := by
  induction bs generalizing a with
  | nil => simp [cellsOf]
  | cons b r ih =>
    simp only [cellsOf]
    split
    · exact ih _
    · exact List.pairwise_cons.2 ⟨fun e he => by have := cellsOf_ge he; omega, ih _⟩

theorem mapGetD_cellsOf (a : Nat) (bs : Bytes) (i : Nat) : (mapGet (cellsOf a bs) (a + i)).getD 0 = bs.getD i 0 := by
  induction bs generalizing a i with
  | nil => simp [cellsOf, mapGet]
  | cons b r ih =>
    cases i with
    | zero =>
      by_cases hb : b = 0
      · have hn : mapGet (cellsOf (a + 1) r) a = none := mapGet_none_of_lt fun e he => by have := cellsOf_ge he; omega
        simp only [cellsOf, if_pos hb, Nat.add_zero, hn]
        simp [hb]
      · simp only [cellsOf, if_neg hb, mapGet, Nat.add_zero, if_true]
        simp
    | succ i =>
      have e : a + (i + 1) = a + 1 + i := by omega
      by_cases hb : b = 0
      · simp only [cellsOf, if_pos hb, e, ih]
        simp
      · simp only [cellsOf, if_neg hb, mapGet]
        rw [if_neg (by omega), e, ih]
        simp

/-- A byte inside the stored range reads as what was stored. -/
theorem memByte_write_in (m : List Host.Cell) (a : Nat) (bs : Bytes) (i : Nat) (h : i < bs.length) : memByte (memWrite m a bs) (a + i) = bs.getD i 0 := by
  unfold memByte memWrite mapGetD
  rw [mapGet_append, mapGet_append, mapGet_filter m (fun x => decide (x < a)), mapGet_filter m (fun x => decide (a + bs.length ≤ x))]
  have h1 : ¬ (a + i < a) := by omega
  have h2 : ¬ (a + bs.length ≤ a + i) := by omega
  simpa [h1, h2] using mapGetD_cellsOf a bs i

/-- A byte outside the stored range reads as before. -/
theorem memByte_write_out (m : List Host.Cell) (a : Nat) (bs : Bytes) (x : Nat) (h : x < a ∨ a + bs.length ≤ x) : memByte (memWrite m a bs) x = memByte m x := by
  have hn : mapGet (cellsOf a bs) x = none := by
    rcases h with h | h
    · exact mapGet_none_of_lt fun e he => by have := cellsOf_ge he; omega
    · cases hc : mapGet (cellsOf a bs) x with
      | none => rfl
      | some v =>
        exfalso
        have hm : ∀ (l : List Host.Cell), mapGet l x = some v → ∃ e ∈ l, e.1 = x := by
          intro l
          induction l with
          | nil => simp [mapGet]
          | cons y t ih =>
            obtain ⟨j, w⟩ := y
            simp only [mapGet]
            split
            · rename_i hj; intro _; exact ⟨(j, w), List.mem_cons_self, hj⟩
            · intro ht; obtain ⟨e, he, hx⟩ := ih ht; exact ⟨e, List.mem_cons_of_mem _ he, hx⟩
        obtain ⟨e, he, hx⟩ := hm _ hc
        have := cellsOf_ge he
        omega
  unfold memByte memWrite mapGetD
  rw [mapGet_append, mapGet_append, mapGet_filter m (fun x => decide (x < a)), mapGet_filter m (fun x => decide (a + bs.length ≤ x)), hn]
  rcases h with h | h
  · have h2 : ¬ (a + bs.length ≤ x) := by omega
    simp [h, h2]
  · have h1 : ¬ (x < a) := by omega
    simp [h, h1]

/-- A byte of a cleared range reads zero, every other byte as before. -/
theorem memByte_zero (m : List Host.Cell) (a n x : Nat) : memByte (memZero m a n) x = if a ≤ x ∧ x < a + n then 0 else memByte m x := by
  unfold memByte memZero mapGetD
  rw [mapGet_filter m (fun y => decide (y < a) || decide (a + n ≤ y))]
  by_cases hx : a ≤ x ∧ x < a + n
  · have h1 : ¬ x < a := by omega
    have h2 : ¬ a + n ≤ x := by omega
    simp [hx, h1, h2]
  · have h1 : x < a ∨ a + n ≤ x := by omega
    simp [hx, h1]

/-! ### The canonical form -/

theorem memWf_iff (m : List Host.Cell) : memWf m = true ↔ (m.Pairwise fun a b => a.1 < b.1) ∧ ∀ e ∈ m, e.2 ≠ 0 := by
  unfold memWf
  rw [mapCanon_iff, mapSorted_iff]

theorem memWf_write (m : List Host.Cell) (a : Nat) (bs : Bytes) (h : memWf m = true) : memWf (memWrite m a bs) = true := by
  rw [memWf_iff] at h ⊢
  unfold memWrite
  have low : ∀ e ∈ m.filter (fun c => decide (c.1 < a)), e.1 < a := fun e he => by simpa using (List.mem_filter.1 he).2
  have high : ∀ e ∈ m.filter (fun c => decide (a + bs.length ≤ c.1)), a + bs.length ≤ e.1 := fun e he => by simpa using (List.mem_filter.1 he).2
  refine ⟨List.pairwise_append.2 ⟨List.pairwise_append.2 ⟨h.1.filter _, cellsOf_pairwise a bs, fun x hx y hy => ?_⟩, h.1.filter _, fun x hx y hy => ?_⟩, fun e he => ?_⟩
  · have := low x hx; have := cellsOf_ge hy; omega
  · have h2 := high y hy
    rcases List.mem_append.1 hx with hx | hx
    · have := low x hx; omega
    · have := cellsOf_ge hx; omega
  · rcases List.mem_append.1 he with he | he
    · rcases List.mem_append.1 he with he | he
      · exact h.2 e (List.mem_of_mem_filter he)
      · exact (cellsOf_ge he).2.2
    · exact h.2 e (List.mem_of_mem_filter he)

theorem memWf_zero (m : List Host.Cell) (a n : Nat) (h : memWf m = true) : memWf (memZero m a n) = true :=
  mapCanon_sublist (List.filter_sublist) h

theorem memWf_move (m : List Host.Cell) (src dst n : Nat) (h : memWf m = true) : memWf (memMove m src dst n) = true := by
  rw [memWf_iff] at h ⊢
  unfold memMove
  have mid : ∀ e ∈ (m.filter fun c => decide (src ≤ c.1) && decide (c.1 < src + n)).map (fun c => (c.1 - src + dst, c.2)), dst ≤ e.1 ∧ e.1 < dst + n ∧ e.2 ≠ 0 := by
    intro e he
    obtain ⟨c, hc, rfl⟩ := List.mem_map.1 he
    have hc' := List.mem_filter.1 hc
    have hr : src ≤ c.1 ∧ c.1 < src + n := by simpa using hc'.2
    exact ⟨by simp, by simp only; omega, h.2 c hc'.1⟩
  have pm : ((m.filter fun c => decide (src ≤ c.1) && decide (c.1 < src + n)).map (fun c => (c.1 - src + dst, c.2))).Pairwise fun a b => a.1 < b.1 := by
    rw [List.pairwise_map]
    refine (h.1.filter _).imp_of_mem fun {x y} hx hy hxy => ?_
    have hx' : src ≤ x.1 ∧ x.1 < src + n := by simpa using (List.mem_filter.1 hx).2
    have hy' : src ≤ y.1 ∧ y.1 < src + n := by simpa using (List.mem_filter.1 hy).2
    simp only
    omega
  refine ⟨List.pairwise_append.2 ⟨List.pairwise_append.2 ⟨h.1.filter _, pm, fun x hx y hy => ?_⟩, h.1.filter _, fun x hx y hy => ?_⟩, fun e he => ?_⟩
  · have : x.1 < dst := by simpa using (List.mem_filter.1 hx).2
    have := mid y hy
    omega
  · have h2 : dst + n ≤ y.1 := by simpa using (List.mem_filter.1 hy).2
    rcases List.mem_append.1 hx with hx | hx
    · have : x.1 < dst := by simpa using (List.mem_filter.1 hx).2
      omega
    · have := mid x hx; omega
  · rcases List.mem_append.1 he with he | he
    · rcases List.mem_append.1 he with he | he
      · exact h.2 e (List.mem_of_mem_filter he)
      · exact (mid e he).2.2
    · exact h.2 e (List.mem_of_mem_filter he)

end Sys2Proof.Machine
end

