-- ==== Sys2Proof/Laws/Keeps.lean ====
section
/-!
SUPPORT. The small lemmas behind the files Keeps<Module>.lean: what record updates, choices, folds and the memory monad keep of a state (`Stays`).
-/
set_option Elab.async false
namespace Sys2Proof.Machine

theorem stays_mk {q n M} {s : State} (h : Stays q n M s) {a c e f g i j k l m o p r t u v w x y z a1 a2 a3 a4} :
  Stays q n M ⟨s.pending, a, s.now, c, s.regs, s.mem, e, f, g, i, j, k, l, m, o, p, r, t, u, v, w, x, y, z, a1, a2, a3, a4⟩ := ⟨h.1, h.2, h.3, h.4⟩
theorem stays_ite {q n M} {c : Prop} [Decidable c] {a b : State} (ha : Stays q n M a) (hb : Stays q n M b) : Stays q n M (if c then a else b) := by split <;> assumption
theorem stays_ite_fst {q n M} {α : Type} {c : Prop} [Decidable c] {a b : State × α} (ha : Stays q n M a.1) (hb : Stays q n M b.1) : Stays q n M (if c then a else b).1 := by split <;> assumption
theorem stays_ite_snd {q n M} {α : Type} {c : Prop} [Decidable c] {a b : α × State} (ha : Stays q n M a.2) (hb : Stays q n M b.2) : Stays q n M (if c then a else b).2 := by split <;> assumption
theorem stays_foldl {q n M} {α : Type} {l : List α} {s : State} {f : State → α → State} (h : Stays q n M s) (hf : ∀ s x, Stays q n M s → Stays q n M (f s x)) : Stays q n M (l.foldl f s) := by
  induction l generalizing s with
  | nil => exact h
  | cons a l ih => exact ih (hf _ _ h)
theorem stays_foldl_fst {q n M} {α β : Type} {l : List α} {s : State × β} {f : State × β → α → State × β} (h : Stays q n M s.1) (hf : ∀ s x, Stays q n M s.1 → Stays q n M (f s x).1) : Stays q n M (l.foldl f s).1 := by
  induction l generalizing s with
  | nil => exact h
  | cons a l ih => exact ih (hf _ _ h)
theorem stays_of_snd {q n M} {α : Type} {e : α × State} {a : α} {b : State} (he : e = (a, b)) (h : Stays q n M e.2) : Stays q n M b := by subst he; exact h
theorem stays_of_fst {q n M} {α : Type} {e : State × α} {a : α} {b : State} (he : e = (b, a)) (h : Stays q n M e.1) : Stays q n M b := by subst he; exact h
theorem stays_of_trd {q n M} {α β : Type} {e : α × β × State} {a : α} {b : β} {c : State} (he : e = (a, b, c)) (h : Stays q n M e.2.2) : Stays q n M c := by subst he; exact h
theorem stays_of_some {q n M} {o : Option State} {b : State} (he : o = some b) (h : ∀ t, o = some t → Stays q n M t) : Stays q n M b := h b he

theorem regsWf_put {m : SMap Word} (a : Nat) (w : Word) (h : regsWf m) : regsWf (mapPutD (regReset a) m a w) := by
  refine ⟨mapPutD_sorted _ a w h.1, fun e he => ?_⟩
  rcases mapPutD_key he with ⟨rfl, hne⟩ | hm
  · exact hne
  · exact h.2 e hm
theorem regsWf_del {m : SMap Word} (a : Nat) (h : regsWf m) : regsWf (mapDel m a) :=
  ⟨mapDel_sorted a h.1, fun e he => h.2 e ((mapDel_sublist m a).subset he)⟩

theorem regsWf_nil : regsWf [] := ⟨rfl, fun _ h => absurd h (List.not_mem_nil)⟩
theorem regsWf_filter {m : SMap Word} (f : Nat × Word → Bool) (h : regsWf m) : regsWf (m.filter f) :=
  ⟨sorted_sublist List.filter_sublist h.1, fun e he => h.2 e (List.mem_of_mem_filter he)⟩
theorem memWf_filter {m : List Host.Cell} (f : Host.Cell → Bool) (h : memWf m = true) : memWf (m.filter f) = true := mapCanon_sublist List.filter_sublist h

theorem memWf_copy (m : List Host.Cell) (src dst n : Nat) (h : memWf m = true) : memWf (memCopy m src dst n) = true := by
  rw [memWf_iff] at h ⊢
  obtain ⟨hp, hz⟩ := h
  unfold memCopy
  constructor
  · refine List.pairwise_append.2 ⟨List.pairwise_append.2 ⟨hp.filter _, ?_, ?_⟩, hp.filter _, ?_⟩
    · refine List.pairwise_map.2 ((hp.filter _).imp_of_mem ?_)
      intro a b ha hb hab
      simp only [List.mem_filter, Bool.and_eq_true, decide_eq_true_eq] at ha hb
      simp only; omega
    · intro a ha b hb
      simp only [List.mem_filter, decide_eq_true_eq, List.mem_map, Bool.and_eq_true] at ha hb
      obtain ⟨c, hc, rfl⟩ := hb
      simp only; omega
    · intro a ha b hb
      simp only [List.mem_append, List.mem_filter, decide_eq_true_eq, List.mem_map, Bool.and_eq_true] at ha hb
      rcases ha with ha | ⟨c, hc, rfl⟩
      · omega
      · simp only; omega
  · intro e he
    simp only [List.mem_append, List.mem_filter, List.mem_map] at he
    rcases he with (he | ⟨c, hc, rfl⟩) | he
    · exact hz e he.1
    · exact hz c hc.1
    · exact hz e he.1

theorem stays_memWrite {q n M} {s t : State} (h : Stays q n M s) (ht : Stays q n M t) (hM : MemOk M) {b : Nat} {bs : Bytes} {a c e f g i j k l o p r u v w x y z a1 a2 a3 a4 a5 a6} :
  Stays q n M ⟨s.pending, a, s.now, c, s.regs, memWrite t.mem b bs, e, f, g, i, j, k, l, o, p, r, u, v, w, x, y, z, a1, a2, a3, a4, a5, a6⟩ := ⟨h.1, h.2, hM.write _ _ _ ht.3, h.4⟩
theorem stays_memCopy {q n M} {s t : State} (h : Stays q n M s) (ht : Stays q n M t) (hM : MemOk M) {b b' b'' : Nat} {a c e f g i j k l o p r u v w x y z a1 a2 a3 a4 a5 a6} :
  Stays q n M ⟨s.pending, a, s.now, c, s.regs, memCopy t.mem b b' b'', e, f, g, i, j, k, l, o, p, r, u, v, w, x, y, z, a1, a2, a3, a4, a5, a6⟩ := ⟨h.1, h.2, hM.copy _ _ _ _ ht.3, h.4⟩
theorem stays_memNil {q n M} {s : State} (h : Stays q n M s) (hM : MemOk M) {a c e f g i j k l o p r u v w x y z a1 a2 a3 a4 a5 a6} :
  Stays q n M ⟨s.pending, a, s.now, c, s.regs, [], e, f, g, i, j, k, l, o, p, r, u, v, w, x, y, z, a1, a2, a3, a4, a5, a6⟩ := ⟨h.1, h.2, hM.nil, h.4⟩
theorem stays_regsFilter {q n M} {s : State} (h : Stays q n M s) {b : Nat × Word → Bool} {a c d e f g i j k l o p r u v w x y z a1 a2 a3 a4 a5 a6} (hd : M d) :
  Stays q n M ⟨s.pending, a, s.now, c, s.regs.filter b, d, e, f, g, i, j, k, l, o, p, r, u, v, w, x, y, z, a1, a2, a3, a4, a5, a6⟩ := ⟨h.1, h.2, hd, regsWf_filter _ h.4⟩

theorem stays_regsFilterOwn {q n M} {s : State} (h : Stays q n M s) {b : Nat × Word → Bool} {a c e f g i j k l o p r u v w x y z a1 a2 a3 a4 a5 a6} :
  Stays q n M ⟨s.pending, a, s.now, c, s.regs.filter b, s.mem, e, f, g, i, j, k, l, o, p, r, u, v, w, x, y, z, a1, a2, a3, a4, a5, a6⟩ := ⟨h.1, h.2, h.3, regsWf_filter _ h.4⟩

def StaysMM (q : List Instr) (n : Nat) (M : List Host.Cell → Prop) {α : Type} (m : MM α) : Prop := ∀ s, Stays q n M s → Stays q n M (runMM m s).2
theorem runMM_stays {q n M} {α : Type} {m : MM α} {s : State} (h : Stays q n M s) (hm : StaysMM q n M m) : Stays q n M (runMM m s).2 := hm s h
theorem staysMM_pure {q n M} {α : Type} {a : α} : StaysMM q n M (pure a) := fun _ h => h
theorem staysMM_throw {q n M} {α : Type} {e : MemErr} : StaysMM q n M (throw e : MM α) := fun _ h => h
theorem staysMM_get {q n M} : StaysMM q n M (get : MM State) := fun _ h => h
theorem staysMM_set {q n M} {s : State} (h : Stays q n M s) : StaysMM q n M (set s : MM Unit) := fun _ _ => h
theorem staysMM_modify {q n M} {f : State → State} (hf : ∀ s, Stays q n M s → Stays q n M (f s)) : StaysMM q n M (modify f : MM Unit) := fun s h => hf s h
theorem staysMM_bind {q n M} {α β : Type} {m : MM α} {f : α → MM β} (hm : StaysMM q n M m) (hf : ∀ a, StaysMM q n M (f a)) : StaysMM q n M (m >>= f) := by
  intro s h
  have hs := hm s h
  show Stays q n M (StateT.run (ExceptT.run (m >>= f)) s).2
  unfold runMM at hs
  simp only [ExceptT.run_bind, StateT.run_bind, Id.run] at hs ⊢
  generalize hr : StateT.run (ExceptT.run m) s = r at hs ⊢
  obtain ⟨x, t⟩ := r
  cases x with
  | error e => exact hs
  | ok a => exact hf a t hs
theorem staysMM_getBind {q n M} {β : Type} {f : State → MM β} (hf : ∀ s, Stays q n M s → StaysMM q n M (f s)) : StaysMM q n M (get >>= f) := fun s h => hf s h s h
theorem staysMM_ite {q n M} {α : Type} {c : Prop} [Decidable c] {a b : MM α} (ha : StaysMM q n M a) (hb : StaysMM q n M b) : StaysMM q n M (if c then a else b) := by split <;> assumption
theorem staysMM_forIn {q n M} {α β : Type} {l : List α} {b : β} {f : α → β → MM (ForInStep β)} (hf : ∀ a b, StaysMM q n M (f a b)) : StaysMM q n M (forIn l b f) := by
  induction l generalizing b with
  | nil => exact staysMM_pure
  | cons a l ih =>
    rw [List.forIn_cons]
    refine staysMM_bind (hf a b) fun r => ?_
    cases r with
    | done b => exact staysMM_pure
    | yield b => exact ih

theorem staysReply_done {q n M} {s : State} (h : Stays q n M s) : StaysReply q n M (done s) := ⟨s, rfl, h⟩
theorem staysReply_ite {q n M} {c : Prop} [Decidable c] {a b : Reply} (ha : StaysReply q n M a) (hb : StaysReply q n M b) : StaysReply q n M (if c then a else b) := by split <;> assumption
theorem memOk_memWf : MemOk (fun m => memWf m = true) :=
  ⟨rfl, fun _ _ _ h => memWf_write _ _ _ h, fun _ _ _ _ h => memWf_copy _ _ _ _ h, fun _ _ _ _ h => memWf_move _ _ _ _ h, fun _ f h => memWf_filter f h⟩
theorem stays_mem {q n M} {s : State} (h : Stays q n M s) {m : List Host.Cell} (hm : M m) {a c e f g i j k l o p r t u v w x y z a1 a2 a3 a4 a5} :
  Stays q n M ⟨s.pending, a, s.now, c, s.regs, m, e, f, g, i, j, k, l, o, p, r, t, u, v, w, x, y, z, a1, a2, a3, a4, a5⟩ := ⟨h.1, h.2, hm, h.4⟩

end Sys2Proof.Machine
end

