-- ==== Sys2Proof/Laws/KeepsOps.lean ====
section
/-!
SUPPORT. What each function of Machine/Ops.lean keeps of a state: the queue, the time, the form of the registers and a condition on memory (`Stays`).
-/
set_option Elab.async false
set_option linter.all false
set_option maxRecDepth 4000
namespace Sys2Proof.Machine
variable {q : List Instr} {n : Nat} {M : List Host.Cell → Prop}

theorem wr_stays {s : State} (h : Stays q n M s) {a1 a2} : Stays q n M (wr s a1 a2) := by
  exact ⟨h.1, h.2, h.3, regsWf_put _ _ h.4⟩

theorem setF_stays {s : State} (h : Stays q n M s) {a1 a2 a3} : Stays q n M (setF s a1 a2 a3) := by
  unfold setF
  with_reducible apply wr_stays
  with_reducible assumption

theorem incF_stays {s : State} (h : Stays q n M s) {a1 a2 a3} : Stays q n M (incF s a1 a2 a3) := by
  unfold incF
  with_reducible apply setF_stays
  with_reducible assumption

theorem setBitF_stays {s : State} (h : Stays q n M s) {a1 a2 a3 a4} : Stays q n M (setBitF s a1 a2 a3 a4) := by
  unfold setBitF
  lift_lets
  intro t1; clear_value t1
  with_reducible apply setF_stays
  with_reducible assumption

theorem takeFree_stays {s : State} (h : Stays q n M s) : Stays q n M (takeFree s).2 := by
  unfold takeFree
  dsimp only
  with_reducible apply stays_mk
  with_reducible assumption

theorem send_stays {s : State} (h : Stays q n M s) {a1 a2 a3 a4} : Stays q n M (send s a1 a2 a3 a4) := by
  unfold send
  with_reducible apply stays_mk
  with_reducible assumption

theorem setPd_stays {s : State} (h : Stays q n M s) {a1 a2} : Stays q n M (setPd s a1 a2) := by
  unfold setPd
  with_reducible apply wr_stays
  with_reducible assumption

theorem onlyIf_stays {s : State} (h : Stays q n M s) {a0 f} (hf : ∀ s, Stays q n M s → Stays q n M (f s)): Stays q n M (onlyIf a0 s f) := by
  unfold onlyIf
  with_reducible apply stays_ite
  with_reducible apply hf
  with_reducible assumption
  with_reducible assumption

theorem resetReg_stays {s : State} (h : Stays q n M s) {a1} : Stays q n M (resetReg s a1) := by
  exact ⟨h.1, h.2, h.3, regsWf_del _ h.4⟩

end Sys2Proof.Machine
end

