-- ==== Sys2Proof/Laws/KeepsFlags.lean ====
section
/-!
SUPPORT. What each function of Machine/Flags.lean keeps of a state: the queue, the time, the form of the registers and a condition on memory (`Stays`).
-/
set_option Elab.async false
set_option linter.all false
set_option maxRecDepth 4000
namespace Sys2Proof.Machine
variable {q : List Instr} {n : Nat} {M : List Host.Cell → Prop}

theorem bluvisen_stays {s : State} (h : Stays q n M s) {a1 a2 a3} : Stays q n M (bluvisen s a1 a2 a3) := by
  unfold bluvisen
  with_reducible apply stays_ite
  with_reducible apply send_stays
  with_reducible assumption
  with_reducible assumption

theorem tellBluvisen_stays {s : State} (h : Stays q n M s) {a1 a2} : Stays q n M (tellBluvisen s a1 a2) := by
  unfold tellBluvisen
  with_reducible apply bluvisen_stays
  with_reducible assumption

theorem msix_stays {s : State} (h : Stays q n M s) {a1} : Stays q n M (msix s a1) := by
  unfold msix
  with_reducible apply stays_ite
  with_reducible apply send_stays
  with_reducible assumption
  with_reducible assumption

theorem logStatus_stays {s : State} (h : Stays q n M s) : Stays q n M (logStatus s) := by
  unfold logStatus
  lift_lets
  intro t1; refine (have h1 : Stays q n M t1 := ?_; ?_) <;> [subst t1; clear_value t1]
  with_reducible apply setF_stays
  with_reducible assumption
  intro t2; refine (have h2 : Stays q n M t2 := ?_; ?_) <;> [subst t2; clear_value t2]
  with_reducible apply setF_stays
  with_reducible assumption
  with_reducible apply setF_stays
  with_reducible assumption

theorem placeEntry_stays {s : State} (h : Stays q n M s) {a1 a2 a3 a4 a5 a6} : Stays q n M (placeEntry s a1 a2 a3 a4 a5 a6) := by
  unfold placeEntry
  split
  lift_lets
  intro t1; clear_value t1
  intro t2; refine (have h2 : Stays q n M t2 := ?_; ?_) <;> [subst t2; clear_value t2]
  with_reducible apply stays_mk
  with_reducible assumption
  intro t3; refine (have h3 : Stays q n M t3 := ?_; ?_) <;> [subst t3; clear_value t3]
  with_reducible apply stays_ite
  with_reducible apply send_stays
  with_reducible assumption
  with_reducible assumption
  intro t4; refine (have h4 : Stays q n M t4 := ?_; ?_) <;> [subst t4; clear_value t4]
  with_reducible apply stays_ite
  with_reducible apply msix_stays
  with_reducible apply setF_stays
  with_reducible assumption
  with_reducible assumption
  with_reducible apply logStatus_stays
  with_reducible assumption

theorem placeOverrun_stays {s : State} (h : Stays q n M s) : Stays q n M (placeOverrun s) := by
  unfold placeOverrun
  lift_lets
  intro t1; clear_value t1
  intro t2; refine (have h2 : Stays q n M t2 := ?_; ?_) <;> [subst t2; clear_value t2]
  with_reducible apply placeEntry_stays
  with_reducible assumption
  intro t3; clear_value t3
  with_reducible apply stays_ite
  with_reducible apply logStatus_stays
  with_reducible apply stays_mk
  with_reducible assumption
  with_reducible assumption

theorem loseEntry_stays {s : State} (h : Stays q n M s) {a1} : Stays q n M (loseEntry s a1) := by
  unfold loseEntry
  lift_lets
  intro t1; clear_value t1
  intro t2; clear_value t2
  intro t3; clear_value t3
  with_reducible apply logStatus_stays
  with_reducible apply incF_stays
  with_reducible apply stays_mk
  with_reducible assumption

theorem logEvent_stays {s : State} (h : Stays q n M s) {a1 a2 a3 a4 a5 a6} : Stays q n M (logEvent s a1 a2 a3 a4 a5 a6) := by
  unfold logEvent
  lift_lets
  intro t1; clear_value t1
  intro t2; refine (have h2 : Stays q n M t2 := ?_; ?_) <;> [subst t2; clear_value t2]
  with_reducible apply stays_mk
  with_reducible assumption
  intro t3; clear_value t3
  intro t4; clear_value t4
  intro t5; clear_value t5
  intro t6; refine (have h6 : Stays q n M t6 := ?_; ?_) <;> [subst t6; clear_value t6]
  with_reducible apply stays_ite
  with_reducible apply stays_mk
  with_reducible assumption
  with_reducible assumption
  intro t7; refine (have h7 : Stays q n M t7 := ?_; ?_) <;> [subst t7; clear_value t7]
  with_reducible apply placeOverrun_stays
  with_reducible assumption
  with_reducible apply stays_ite
  with_reducible apply stays_mk
  with_reducible assumption
  with_reducible apply stays_ite
  with_reducible assumption
  with_reducible apply stays_ite
  with_reducible apply loseEntry_stays
  with_reducible assumption
  with_reducible apply placeEntry_stays
  with_reducible assumption

theorem note_stays {s : State} (h : Stays q n M s) {a1 a2 a3 a4 a5 a6} : Stays q n M (note s a1 a2 a3 a4 a5 a6) := by
  unfold note
  with_reducible apply logEvent_stays
  with_reducible assumption

theorem noteAt_stays {s : State} (h : Stays q n M s) {a1 a2 a3} : Stays q n M (noteAt s a1 a2 a3) := by
  unfold noteAt
  with_reducible apply note_stays
  with_reducible assumption

theorem logAccess_stays {s : State} (h : Stays q n M s) {a1 a2 a3 a4 a5 a6} : Stays q n M (logAccess s a1 a2 a3 a4 a5 a6) := by
  unfold logAccess
  with_reducible apply logEvent_stays
  with_reducible assumption

theorem refuseWrite_stays {s : State} (h : Stays q n M s) {a1 a2 a3} : Stays q n M (refuseWrite s a1 a2 a3) := by
  unfold refuseWrite
  with_reducible apply logAccess_stays
  with_reducible assumption

theorem refuseAs_stays {s : State} (h : Stays q n M s) {a1} : Stays q n M (refuseAs s a1) := by
  unfold refuseAs
  with_reducible apply refuseWrite_stays
  with_reducible assumption

end Sys2Proof.Machine
end

