-- ==== Sys2Proof/Laws/KeepsMemory.lean ====
section
/-!
SUPPORT. What each function of Machine/Memory.lean keeps of a state: the queue, the time, the form of the registers and a condition on memory (`Stays`).
-/
set_option Elab.async false
set_option linter.all false
set_option maxRecDepth 4000
namespace Sys2Proof.Machine
variable {q : List Instr} {n : Nat} {M : List Host.Cell → Prop}

theorem applyFlips_stays {s : State} (hM : MemOk M) (h : Stays q n M s) {a1} : Stays q n M (applyFlips s a1) := by
  unfold applyFlips
  with_reducible apply stays_foldl
  with_reducible assumption
  intro x1
  intro x2
  intro x3
  split
  with_reducible apply stays_memWrite
  with_reducible assumption
  with_reducible assumption
  assumption
  with_reducible assumption

theorem dropUpset_stays {s : State} (h : Stays q n M s) {a1} : Stays q n M (dropUpset s a1) := by
  unfold dropUpset
  with_reducible apply stays_mk
  with_reducible assumption

theorem advise_stays {s : State} (h : Stays q n M s) {a1 a2} : Stays q n M (advise s a1 a2) := by
  unfold advise
  lift_lets
  intro t1; clear_value t1
  intro t2; clear_value t2
  intro t3; refine (have h3 : Stays q n M t3 := ?_; ?_) <;> [subst t3; clear_value t3]
  with_reducible apply wr_stays
  with_reducible assumption
  with_reducible apply logEvent_stays
  with_reducible assumption

theorem correctedAt_stays {s : State} (h : Stays q n M s) {a1} : Stays q n M (correctedAt s a1) := by
  unfold correctedAt
  lift_lets
  intro t1; clear_value t1
  intro t2; refine (have h2 : Stays q n M t2 := ?_; ?_) <;> [subst t2; clear_value t2]
  with_reducible apply incF_stays
  with_reducible assumption
  intro t3; clear_value t3
  intro t4; clear_value t4
  intro t5; clear_value t5
  intro t6; clear_value t6
  intro t7; clear_value t7
  intro t8; refine (have h8 : Stays q n M t8 := ?_; ?_) <;> [subst t8; clear_value t8]
  with_reducible apply stays_mk
  with_reducible assumption
  intro t9; refine (have h9 : Stays q n M t9 := ?_; ?_) <;> [subst t9; clear_value t9]
  with_reducible apply noteAt_stays
  with_reducible assumption
  with_reducible apply stays_ite
  with_reducible apply stays_ite
  with_reducible apply advise_stays
  with_reducible assumption
  with_reducible assumption
  with_reducible apply noteAt_stays
  with_reducible assumption

theorem poisonBlock_stays {s : State} (h : Stays q n M s) {a1} : Stays q n M (poisonBlock s a1) := by
  unfold poisonBlock
  with_reducible apply stays_mk
  with_reducible assumption

theorem uncorrectedAt_stays {s : State} (h : Stays q n M s) {a1} : Stays q n M (uncorrectedAt s a1) := by
  unfold uncorrectedAt
  lift_lets
  intro t1; clear_value t1
  intro t2; clear_value t2
  intro t3; refine (have h3 : Stays q n M t3 := ?_; ?_) <;> [subst t3; clear_value t3]
  with_reducible apply poisonBlock_stays
  with_reducible assumption
  intro t4; clear_value t4
  intro t5; clear_value t5
  intro t6; clear_value t6
  intro t7; clear_value t7
  with_reducible apply stays_ite
  with_reducible apply advise_stays
  with_reducible apply incF_stays
  with_reducible apply poisonBlock_stays
  with_reducible assumption
  with_reducible apply stays_ite
  with_reducible apply stays_mk
  with_reducible assumption
  with_reducible assumption

theorem meetEcc_stays {s : State} (h : Stays q n M s) {a b} : Stays q n M (meetEcc s a b).1 := by
  unfold meetEcc
  refine stays_foldl_fst h fun x u hx => ?_
  split
  · exact stays_ite_fst (dropUpset_stays (correctedAt_stays hx)) hx
  · exact stays_ite_fst (dropUpset_stays (uncorrectedAt_stays hx)) hx
  · exact hx

theorem moved_stays {s : State} (h : Stays q n M s) {a1 a2} : Stays q n M (moved s a1 a2) := by
  unfold moved
  with_reducible apply stays_ite
  with_reducible apply incF_stays
  with_reducible assumption
  with_reducible assumption

theorem readFull_stays {a0 a1} : StaysMM q n M (readFull a0 a1) := by
  unfold readFull
  apply staysMM_getBind
  intro x1
  intro x2
  split
  with_reducible apply staysMM_throw
  split
  lift_lets
  intro t3; clear_value t3
  with_reducible apply staysMM_bind
  with_reducible apply staysMM_set
  with_reducible refine stays_of_fst (by assumption) ?_
  with_reducible apply meetEcc_stays
  with_reducible apply moved_stays
  with_reducible assumption
  intro x4
  with_reducible apply staysMM_ite
  with_reducible apply staysMM_throw
  with_reducible apply staysMM_ite
  with_reducible apply staysMM_throw
  with_reducible apply staysMM_ite
  with_reducible apply staysMM_throw
  with_reducible apply staysMM_ite
  with_reducible apply staysMM_bind
  with_reducible apply staysMM_set
  with_reducible apply incF_stays
  with_reducible apply dropUpset_stays
  with_reducible refine stays_of_fst (by assumption) ?_
  with_reducible apply meetEcc_stays
  with_reducible apply moved_stays
  with_reducible assumption
  intro x5
  with_reducible apply staysMM_pure
  with_reducible apply staysMM_pure

theorem readBlock_stays {a0} : StaysMM q n M (readBlock a0) := by
  unfold readBlock
  with_reducible apply readFull_stays

theorem noteBlockErr_stays {s : State} (h : Stays q n M s) {a1 a2} : Stays q n M (noteBlockErr s a1 a2) := by
  unfold noteBlockErr
  lift_lets
  intro t1; clear_value t1
  intro t2; refine (have h2 : Stays q n M t2 := ?_; ?_) <;> [subst t2; clear_value t2]
  with_reducible apply logEvent_stays
  with_reducible assumption
  intro t3; refine (have h3 : Stays q n M t3 := ?_; ?_) <;> [subst t3; clear_value t3]
  with_reducible apply stays_ite
  with_reducible apply setF_stays
  with_reducible apply setF_stays
  with_reducible apply incF_stays
  with_reducible assumption
  with_reducible assumption
  intro t4; clear_value t4
  with_reducible apply stays_ite
  with_reducible apply stays_ite
  with_reducible apply stays_mk
  with_reducible assumption
  with_reducible assumption
  with_reducible assumption

theorem inClass_stays {s : State} (h : Stays q n M s) {a0 f} (hf : ∀ s, Stays q n M s → Stays q n M (f s)): Stays q n M (inClass a0 s f) := by
  unfold inClass
  lift_lets
  intro t1; clear_value t1
  intro t2; refine (have h2 : Stays q n M t2 := ?_; ?_) <;> [subst t2; clear_value t2]
  with_reducible apply hf
  with_reducible apply stays_mk
  with_reducible assumption
  intro t3; clear_value t3
  with_reducible apply stays_mk
  with_reducible assumption

theorem withUpsets_stays {s : State} (hM : MemOk M) (h : Stays q n M s) {a0 f} (hf : ∀ s, Stays q n M s → Stays q n M (f s)): Stays q n M (withUpsets a0 s f) := by
  unfold withUpsets
  lift_lets
  intro t1; refine (have h1 : Stays q n M t1 := ?_; ?_) <;> [subst t1; clear_value t1]
  with_reducible apply applyFlips_stays
  assumption
  with_reducible assumption
  intro t2; refine (have h2 : Stays q n M t2 := ?_; ?_) <;> [subst t2; clear_value t2]
  with_reducible apply hf
  with_reducible apply stays_mk
  with_reducible assumption
  with_reducible apply stays_mk
  with_reducible assumption

theorem unpoison_stays {s : State} (h : Stays q n M s) {a1} : Stays q n M (unpoison s a1) := by
  unfold unpoison
  with_reducible apply stays_mk
  with_reducible assumption

theorem setHallmark_stays {s : State} (hM : MemOk M) (h : Stays q n M s) {a1 a2} : Stays q n M (setHallmark s a1 a2) := by
  unfold setHallmark
  with_reducible apply stays_ite
  with_reducible apply stays_memWrite
  with_reducible assumption
  with_reducible assumption
  assumption
  with_reducible apply stays_mk
  with_reducible assumption

theorem putBlockRaw_stays {s : State} (hM : MemOk M) (h : Stays q n M s) {a1 a2 a3} : Stays q n M (putBlockRaw s a1 a2 a3) := by
  unfold putBlockRaw
  with_reducible apply unpoison_stays
  with_reducible apply setHallmark_stays
  assumption
  with_reducible apply stays_memWrite
  with_reducible assumption
  with_reducible assumption
  assumption

theorem writeBlock_stays (hM : MemOk M) {a0 a1} : StaysMM q n M (writeBlock a0 a1) := by
  unfold writeBlock
  apply staysMM_getBind
  intro x1
  intro x2
  split
  with_reducible apply staysMM_throw
  with_reducible apply staysMM_set
  with_reducible apply putBlockRaw_stays
  assumption
  with_reducible apply moved_stays
  with_reducible assumption

theorem firstTouch_stays {a0 a1 a2} : StaysMM q n M (firstTouch a0 a1 a2) := by
  unfold firstTouch
  lift_lets
  intro t1; clear_value t1
  apply staysMM_getBind
  intro x2
  intro x3
  split
  with_reducible apply staysMM_bind
  with_reducible apply readFull_stays
  intro x4
  with_reducible apply staysMM_pure
  with_reducible apply staysMM_ite
  with_reducible apply staysMM_pure
  with_reducible apply staysMM_bind
  with_reducible apply readFull_stays
  intro x5
  with_reducible apply staysMM_modify
  intro x6
  intro x7
  lift_lets
  intro t8; clear_value t8
  with_reducible apply stays_mk
  with_reducible assumption

theorem readRaw_stays {a0 a1} : StaysMM q n M (readRaw a0 a1) := by
  unfold readRaw
  lift_lets
  intro t1; clear_value t1
  apply staysMM_getBind
  intro x2
  intro x3
  split
  with_reducible apply staysMM_bind
  with_reducible apply staysMM_set
  with_reducible apply moved_stays
  with_reducible assumption
  intro x4
  with_reducible apply staysMM_ite
  with_reducible apply staysMM_pure
  split
  with_reducible apply staysMM_pure
  with_reducible apply staysMM_throw
  with_reducible apply staysMM_throw
  with_reducible apply staysMM_throw

theorem readPart_stays {a0 a1 a2 a3 a4} : StaysMM q n M (readPart a0 a1 a2 a3 a4) := by
  unfold readPart
  with_reducible apply staysMM_ite
  with_reducible apply staysMM_pure
  with_reducible apply staysMM_bind
  with_reducible apply staysMM_forIn
  intro x1
  intro x2
  with_reducible apply staysMM_ite
  with_reducible apply staysMM_bind
  with_reducible apply firstTouch_stays
  intro x3
  with_reducible apply staysMM_pure
  apply staysMM_getBind
  intro x4
  intro x5
  split
  with_reducible apply staysMM_bind
  with_reducible apply staysMM_throw
  intro x6
  with_reducible apply staysMM_pure
  split
  with_reducible apply staysMM_bind
  with_reducible apply staysMM_set
  with_reducible refine stays_of_fst (by assumption) ?_
  with_reducible apply meetEcc_stays
  with_reducible assumption
  intro x7
  with_reducible apply staysMM_ite
  with_reducible apply staysMM_bind
  with_reducible apply staysMM_throw
  intro x8
  with_reducible apply staysMM_pure
  with_reducible apply staysMM_ite
  with_reducible apply staysMM_bind
  with_reducible apply staysMM_throw
  intro x9
  with_reducible apply staysMM_pure
  with_reducible apply staysMM_pure
  intro x10
  with_reducible apply readRaw_stays

theorem writeInBlock_stays (hM : MemOk M) {a0 a1} : StaysMM q n M (writeInBlock a0 a1) := by
  unfold writeInBlock
  lift_lets
  intro t1; clear_value t1
  apply staysMM_getBind
  intro x2
  intro x3
  split
  with_reducible apply staysMM_throw
  lift_lets
  intro t4; clear_value t4
  dsimp only
  with_reducible apply staysMM_bind
  with_reducible apply staysMM_set
  with_reducible apply meetEcc_stays
  with_reducible apply moved_stays
  with_reducible assumption
  intro x5
  with_reducible apply staysMM_ite
  with_reducible apply staysMM_throw
  with_reducible apply staysMM_ite
  with_reducible apply staysMM_throw
  with_reducible apply staysMM_set
  with_reducible apply setHallmark_stays
  assumption
  with_reducible apply stays_memWrite
  with_reducible apply meetEcc_stays
  with_reducible apply moved_stays
  with_reducible assumption
  with_reducible apply meetEcc_stays
  with_reducible apply moved_stays
  with_reducible assumption
  assumption

theorem writeBytes_stays (hM : MemOk M) {a0 a1} : StaysMM q n M (writeBytes a0 a1) := by
  unfold writeBytes
  with_reducible apply staysMM_bind
  with_reducible apply staysMM_forIn
  intro x1
  intro x2
  with_reducible apply staysMM_ite
  with_reducible apply staysMM_bind
  with_reducible apply writeBlock_stays
  assumption
  intro x3
  with_reducible apply staysMM_pure
  with_reducible apply staysMM_bind
  with_reducible apply writeInBlock_stays
  assumption
  intro x4
  with_reducible apply staysMM_pure
  intro x5
  with_reducible apply staysMM_pure

theorem setFrame_stays {s : State} (h : Stays q n M s) {a1 a2 a3} : Stays q n M (setFrame s a1 a2 a3) := by
  unfold setFrame
  lift_lets
  intro t1; clear_value t1
  with_reducible apply stays_mk
  with_reducible assumption

end Sys2Proof.Machine
end

