-- ==== Sys2Proof/Laws/KeepsChart.lean ====
section
/-!
SUPPORT. What each function of Machine/Chart.lean keeps of a state: the queue, the time, the form of the registers and a condition on memory (`Stays`).
-/
set_option Elab.async false
set_option linter.all false
set_option maxRecDepth 4000
namespace Sys2Proof.Machine
variable {q : List Instr} {n : Nat} {M : List Host.Cell → Prop}

theorem showDogWatch_stays {s : State} (h : Stays q n M s) {a1} : Stays q n M (showDogWatch s a1) := by
  unfold showDogWatch
  split
  with_reducible apply setF_stays
  with_reducible apply setF_stays
  with_reducible assumption
  with_reducible assumption

end Sys2Proof.Machine
end

