-- ==== Sys2Proof/Laws/KeepsLinks.lean ====
section
/-!
SUPPORT. What each function of Machine/Links.lean keeps of a state: the queue, the time, the form of the registers and a condition on memory (`Stays`).
-/
set_option Elab.async false
set_option linter.all false
set_option maxRecDepth 4000
namespace Sys2Proof.Machine
variable {q : List Instr} {n : Nat} {M : List Host.Cell → Prop}

theorem setPort_stays {s : State} (h : Stays q n M s) {a1 a2} : Stays q n M (setPort s a1 a2) := by
  unfold setPort
  with_reducible apply stays_mk
  with_reducible assumption

theorem modPort_stays {s : State} (h : Stays q n M s) {a1 a2} : Stays q n M (modPort s a1 a2) := by
  unfold modPort
  with_reducible apply setPort_stays
  with_reducible assumption

theorem showAdmit_stays {s : State} (h : Stays q n M s) {a1} : Stays q n M (showAdmit s a1) := by
  unfold showAdmit
  lift_lets
  intro t1; clear_value t1
  intro t2; clear_value t2
  intro t3; clear_value t3
  with_reducible apply wr_stays
  with_reducible assumption

theorem showPorts_stays {s : State} (h : Stays q n M s) : Stays q n M (showPorts s) := by
  unfold showPorts
  with_reducible apply setF_stays
  with_reducible apply stays_foldl
  with_reducible assumption
  intro x1
  intro x2
  intro x3
  with_reducible apply showAdmit_stays
  with_reducible assumption

theorem sendFirst_stays {s : State} (h : Stays q n M s) {a1 a2} : Stays q n M (sendFirst s a1 a2) := by
  unfold sendFirst
  lift_lets
  intro t1; clear_value t1
  intro t2; clear_value t2
  intro t3; clear_value t3
  intro t4; clear_value t4
  intro t5; clear_value t5
  intro t6; refine (have h6 : Stays q n M t6 := ?_; ?_) <;> [subst t6; clear_value t6]
  with_reducible apply setPort_stays
  with_reducible assumption
  with_reducible apply stays_mk
  with_reducible assumption

theorem pumpN_stays {s : State} (h : Stays q n M s) {a0 a2} : Stays q n M (pumpN a0 s a2) := by
  induction a0 generalizing s with
  | zero =>
    unfold pumpN
    with_reducible assumption
  | succ k ih =>
    unfold pumpN
    split
    with_reducible apply ih
    with_reducible apply sendFirst_stays
    with_reducible assumption
    with_reducible assumption

theorem pump_stays {s : State} (h : Stays q n M s) {a1} : Stays q n M (pump s a1) := by
  unfold pump
  with_reducible apply pumpN_stays
  with_reducible assumption

theorem giveFrame_stays {s : State} (h : Stays q n M s) {a1 a2} : Stays q n M (giveFrame s a1 a2) := by
  unfold giveFrame
  with_reducible apply pump_stays
  with_reducible apply modPort_stays
  with_reducible assumption

theorem pickPort_stays {s : State} (h : Stays q n M s) {a1 a2 a3} : Stays q n M (pickPort s a1 a2 a3).2 := by
  unfold pickPort
  split
  dsimp only
  with_reducible assumption
  lift_lets
  intro t1; refine (have h1 : Stays q n M t1 := ?_; ?_) <;> [subst t1; clear_value t1]
  split
  with_reducible apply stays_ite
  with_reducible assumption
  with_reducible apply incF_stays
  with_reducible assumption
  with_reducible assumption
  intro t2; clear_value t2
  intro t3; refine (have h3 : Stays q n M t3 := ?_; ?_) <;> [subst t3; clear_value t3]
  with_reducible apply stays_mk
  with_reducible assumption
  with_reducible apply stays_ite_snd
  dsimp only
  with_reducible assumption
  split
  dsimp only
  with_reducible refine stays_of_snd (by assumption) ?_
  with_reducible apply takeFree_stays
  with_reducible assumption

theorem holdFrame_stays {s : State} (h : Stays q n M s) {a1} : Stays q n M (holdFrame s a1) := by
  unfold holdFrame
  lift_lets
  intro t1; clear_value t1
  with_reducible apply incF_stays
  with_reducible apply stays_mk
  with_reducible assumption

theorem routeFrame_stays {s : State} (h : Stays q n M s) {a1} : Stays q n M (routeFrame s a1) := by
  unfold routeFrame
  lift_lets
  intro t1; clear_value t1
  intro t2; clear_value t2
  with_reducible apply stays_ite
  split
  with_reducible apply giveFrame_stays
  with_reducible assumption
  with_reducible apply stays_mk
  with_reducible assumption
  split
  with_reducible apply giveFrame_stays
  with_reducible refine stays_of_snd (by assumption) ?_
  with_reducible apply pickPort_stays
  with_reducible assumption
  with_reducible apply holdFrame_stays
  with_reducible refine stays_of_snd (by assumption) ?_
  with_reducible apply pickPort_stays
  with_reducible assumption

theorem freeCredits_stays {s : State} (h : Stays q n M s) {a1 a2 a3} : Stays q n M (freeCredits s a1 a2 a3) := by
  unfold freeCredits
  with_reducible apply modPort_stays
  with_reducible assumption

theorem retryRoutes_stays {s : State} (h : Stays q n M s) : Stays q n M (retryRoutes s) := by
  unfold retryRoutes
  lift_lets
  intro t1; clear_value t1
  with_reducible apply stays_foldl
  with_reducible assumption
  intro x2
  intro x3
  intro x4
  lift_lets
  intro t5; clear_value t5
  intro t6; refine (have h6 : Stays q n M t6 := ?_; ?_) <;> [subst t6; clear_value t6]
  with_reducible apply routeFrame_stays
  with_reducible apply stays_mk
  with_reducible assumption
  with_reducible apply stays_ite
  split
  with_reducible apply freeCredits_stays
  with_reducible assumption
  with_reducible assumption
  with_reducible assumption

theorem freeUnits_stays {s : State} (h : Stays q n M s) : Stays q n M (freeUnits s).2 := by
  unfold freeUnits
  split
  dsimp only
  with_reducible refine stays_of_snd (by assumption) ?_
  with_reducible apply takeFree_stays
  with_reducible assumption

theorem sendSlice_stays {s : State} (h : Stays q n M s) {a1 a2 a3 a4 a5 a6} : Stays q n M (sendSlice s a1 a2 a3 a4 a5 a6) := by
  unfold sendSlice
  split
  with_reducible apply routeFrame_stays
  with_reducible refine stays_of_snd (by assumption) ?_
  with_reducible apply freeUnits_stays
  with_reducible assumption

theorem sendBlock_stays {s : State} (h : Stays q n M s) {a1 a2 a3 a4} : Stays q n M (sendBlock s a1 a2 a3 a4) := by
  unfold sendBlock
  with_reducible apply stays_mk
  with_reducible assumption

theorem sendOnPort_stays {s : State} (h : Stays q n M s) {a1 a2 a3 a4 a5 a6} : Stays q n M (sendOnPort s a1 a2 a3 a4 a5 a6) := by
  unfold sendOnPort
  split
  with_reducible apply giveFrame_stays
  with_reducible refine stays_of_snd (by assumption) ?_
  with_reducible apply freeUnits_stays
  with_reducible assumption

theorem sendInst_stays {s : State} (h : Stays q n M s) {a1 a2 a3 a4 a5} : Stays q n M (sendInst s a1 a2 a3 a4 a5) := by
  unfold sendInst
  split
  with_reducible apply routeFrame_stays
  with_reducible refine stays_of_snd (by assumption) ?_
  with_reducible apply freeUnits_stays
  with_reducible assumption

theorem toPilot_stays {s : State} (h : Stays q n M s) {a1 a2 a3 a4} : Stays q n M (toPilot s a1 a2 a3 a4) := by
  unfold toPilot
  with_reducible apply stays_ite
  with_reducible apply send_stays
  with_reducible assumption
  with_reducible apply sendInst_stays
  with_reducible assumption

end Sys2Proof.Machine
end

