-- ==== Sys2Proof/Laws/KeepsReckon.lean ====
section
/-!
SUPPORT. What each function of Machine/Reckon.lean keeps of a state: the queue, the time, the form of the registers and a condition on memory (`Stays`).
-/
set_option Elab.async false
set_option linter.all false
set_option maxRecDepth 4000
namespace Sys2Proof.Machine
variable {q : List Instr} {n : Nat} {M : List Host.Cell → Prop}

theorem askReading_stays {s : State} (h : Stays q n M s) {a1 a2 a3 a4 a5} : Stays q n M (askReading s a1 a2 a3 a4 a5) := by
  unfold askReading
  split
  with_reducible apply sendSlice_stays
  with_reducible assumption
  with_reducible assumption

theorem startRead_stays {s : State} (h : Stays q n M s) {a1 a2 a3 a4 a5 a6 a7} : Stays q n M (startRead s a1 a2 a3 a4 a5 a6 a7) := by
  unfold startRead
  lift_lets
  intro t1; clear_value t1
  intro t2; clear_value t2
  intro t3; clear_value t3
  intro t4; clear_value t4
  intro t5; clear_value t5
  intro t6; clear_value t6
  intro t7; clear_value t7
  intro t8; refine (have h8 : Stays q n M t8 := ?_; ?_) <;> [subst t8; clear_value t8]
  with_reducible apply stays_mk
  with_reducible assumption
  with_reducible apply stays_foldl
  with_reducible assumption
  intro x9
  intro x10
  intro x11
  with_reducible apply askReading_stays
  with_reducible assumption

theorem showStale_stays {s : State} (h : Stays q n M s) : Stays q n M (showStale s) := by
  unfold showStale
  with_reducible apply setF_stays
  with_reducible assumption

theorem showReckon_stays {s : State} (h : Stays q n M s) : Stays q n M (showReckon s) := by
  unfold showReckon
  lift_lets
  intro t1; clear_value t1
  with_reducible apply stays_ite
  with_reducible apply setF_stays
  with_reducible assumption
  with_reducible assumption

theorem loseBlock_stays {s : State} (h : Stays q n M s) {a1} : Stays q n M (loseBlock s a1) := by
  unfold loseBlock
  lift_lets
  intro t1; refine (have h1 : Stays q n M t1 := ?_; ?_) <;> [subst t1; clear_value t1]
  with_reducible apply incF_stays
  with_reducible assumption
  intro t2; clear_value t2
  with_reducible apply showReckon_stays
  with_reducible apply stays_mk
  with_reducible assumption

theorem repairBlock_stays {s : State} (h : Stays q n M s) {a1} : Stays q n M (repairBlock s a1) := by
  unfold repairBlock
  lift_lets
  intro t1; clear_value t1
  with_reducible apply stays_ite
  split
  with_reducible assumption
  with_reducible apply stays_ite
  with_reducible apply loseBlock_stays
  with_reducible assumption
  with_reducible apply startRead_stays
  with_reducible assumption
  with_reducible assumption

theorem blockFailed_stays {s : State} (h : Stays q n M s) {a1 a2} : Stays q n M (blockFailed s a1 a2) := by
  unfold blockFailed
  lift_lets
  intro t1; refine (have h1 : Stays q n M t1 := ?_; ?_) <;> [subst t1; clear_value t1]
  with_reducible apply noteBlockErr_stays
  with_reducible assumption
  with_reducible apply stays_ite
  with_reducible apply repairBlock_stays
  with_reducible assumption
  with_reducible assumption

theorem markStale_stays {s : State} (h : Stays q n M s) {a1} : Stays q n M (markStale s a1) := by
  unfold markStale
  lift_lets
  intro t1; clear_value t1
  intro t2; clear_value t2
  intro t3; refine (have h3 : Stays q n M t3 := ?_; ?_) <;> [subst t3; clear_value t3]
  with_reducible apply stays_mk
  with_reducible assumption
  with_reducible apply showStale_stays
  with_reducible apply setF_stays
  with_reducible assumption

theorem staleRange_stays {s : State} (h : Stays q n M s) {a1 a2} : Stays q n M (staleRange s a1 a2) := by
  unfold staleRange
  with_reducible apply stays_ite
  with_reducible apply stays_foldl
  with_reducible assumption
  intro x1
  intro x2
  intro x3
  split
  with_reducible apply markStale_stays
  with_reducible assumption
  with_reducible assumption
  with_reducible assumption

end Sys2Proof.Machine
end

