-- ==== Sys2Proof/Laws/KeepsStreams.lean ====
section
/-!
SUPPORT. What each function of Machine/Streams.lean keeps of a state: the queue, the time, the form of the registers and a condition on memory (`Stays`).
-/
set_option Elab.async false
set_option linter.all false
set_option maxRecDepth 4000
namespace Sys2Proof.Machine
variable {q : List Instr} {n : Nat} {M : List Host.Cell → Prop}

theorem modCmd_stays {s : State} (h : Stays q n M s) {a1 a2 a3} : Stays q n M (modCmd s a1 a2 a3) := by
  unfold modCmd
  lift_lets
  intro t1; clear_value t1
  with_reducible apply stays_mk
  with_reducible assumption

theorem askStop_stays {s : State} (h : Stays q n M s) {a1 a2 a3 a4 a5} : Stays q n M (askStop s a1 a2 a3 a4 a5) := by
  unfold askStop
  with_reducible apply modCmd_stays
  with_reducible assumption

theorem failRun_stays {s : State} (h : Stays q n M s) {a1 a2 a3 a4 a5} : Stays q n M (failRun s a1 a2 a3 a4 a5) := by
  unfold failRun
  with_reducible apply askStop_stays
  with_reducible assumption

theorem showStreams_stays {s : State} (h : Stays q n M s) : Stays q n M (showStreams s) := by
  unfold showStreams
  with_reducible apply setF_stays
  with_reducible assumption

theorem setStream_stays {s : State} (h : Stays q n M s) {a1 a2} : Stays q n M (setStream s a1 a2) := by
  unfold setStream
  lift_lets
  intro t1; clear_value t1
  intro t2; refine (have h2 : Stays q n M t2 := ?_; ?_) <;> [subst t2; clear_value t2]
  with_reducible apply stays_mk
  with_reducible assumption
  intro t3; refine (have h3 : Stays q n M t3 := ?_; ?_) <;> [subst t3; clear_value t3]
  with_reducible apply stays_ite
  with_reducible apply wr_stays
  with_reducible assumption
  with_reducible assumption
  with_reducible apply showStreams_stays
  with_reducible assumption

theorem haltAt_stays {s : State} (h : Stays q n M s) {a1 a2} : Stays q n M (haltAt s a1 a2) := by
  unfold haltAt
  lift_lets
  intro t1; clear_value t1
  intro t2; clear_value t2
  intro t3; refine (have h3 : Stays q n M t3 := ?_; ?_) <;> [subst t3; clear_value t3]
  with_reducible apply setStream_stays
  with_reducible assumption
  with_reducible apply stays_ite
  with_reducible assumption
  with_reducible apply stays_ite
  with_reducible assumption
  with_reducible apply stays_foldl
  with_reducible assumption
  intro x4
  intro x5
  intro x6
  split
  with_reducible apply askStop_stays
  with_reducible assumption
  with_reducible assumption

theorem endCmd_stays {s : State} (h : Stays q n M s) {a1 a2 a3 a4 a5 a6} : Stays q n M (endCmd s a1 a2 a3 a4 a5 a6) := by
  unfold endCmd
  with_reducible apply modCmd_stays
  with_reducible assumption

theorem hostWrite_stays {s : State} (h : Stays q n M s) {a1 a2} : Stays q n M (hostWrite s a1 a2) := by
  unfold hostWrite
  with_reducible apply stays_mk
  with_reducible assumption

theorem ringMsix_stays {s : State} (h : Stays q n M s) {a1} : Stays q n M (ringMsix s a1) := by
  unfold ringMsix
  lift_lets
  intro t1; clear_value t1
  split
  with_reducible apply stays_ite
  with_reducible apply stays_mk
  with_reducible assumption
  with_reducible apply msix_stays
  with_reducible apply stays_mk
  with_reducible assumption
  with_reducible apply msix_stays
  with_reducible apply stays_mk
  with_reducible assumption

theorem ringWrite_stays {s : State} (h : Stays q n M s) {a1 a2} : Stays q n M (ringWrite s a1 a2) := by
  unfold ringWrite
  lift_lets
  intro t1; clear_value t1
  intro t2; clear_value t2
  intro t3; clear_value t3
  intro t4; clear_value t4
  intro t5; refine (have h5 : Stays q n M t5 := ?_; ?_) <;> [subst t5; clear_value t5]
  with_reducible apply hostWrite_stays
  with_reducible assumption
  with_reducible apply ringMsix_stays
  with_reducible apply wr_stays
  with_reducible assumption

theorem ringTake_stays {s : State} (h : Stays q n M s) {a1 a2} : Stays q n M (ringTake s a1 a2) := by
  unfold ringTake
  lift_lets
  intro t1; clear_value t1
  intro t2; clear_value t2
  with_reducible apply stays_ite
  with_reducible apply logEvent_stays
  with_reducible assumption
  with_reducible apply stays_ite
  with_reducible apply logEvent_stays
  with_reducible assumption
  with_reducible apply stays_ite
  with_reducible apply stays_mk
  with_reducible assumption
  with_reducible apply ringWrite_stays
  with_reducible assumption

theorem emitRecord_stays {s : State} (h : Stays q n M s) {a1} : Stays q n M (emitRecord s a1) := by
  unfold emitRecord
  lift_lets
  intro t1; clear_value t1
  with_reducible apply stays_ite
  with_reducible apply ringTake_stays
  with_reducible assumption
  with_reducible apply toPilot_stays
  with_reducible assumption

theorem refuse_stays {s : State} (h : Stays q n M s) {a1 a2 a3 a4 a5 a6} : Stays q n M (refuse s a1 a2 a3 a4 a5 a6) := by
  unfold refuse
  with_reducible apply emitRecord_stays
  with_reducible assumption

theorem answerDuplicate_stays {s : State} (h : Stays q n M s) {a1 a2 a3} : Stays q n M (answerDuplicate s a1 a2 a3) := by
  unfold answerDuplicate
  lift_lets
  intro t1; clear_value t1
  split
  with_reducible apply stays_ite
  with_reducible apply modCmd_stays
  with_reducible assumption
  with_reducible apply emitRecord_stays
  with_reducible assumption
  with_reducible apply stays_ite
  with_reducible apply setStream_stays
  with_reducible assumption
  with_reducible apply modCmd_stays
  with_reducible assumption

theorem takePacket_stays {s : State} (h : Stays q n M s) {a1 a2 f} (hf : ∀ s x0 x1 x2, Stays q n M s → Stays q n M (f s x0 x1 x2)): Stays q n M (takePacket s a1 a2 f) := by
  unfold takePacket
  lift_lets
  intro t1; clear_value t1
  intro t2; refine (have h2 : Stays q n M t2 := ?_; ?_) <;> [subst t2; clear_value t2]
  with_reducible apply stays_mk
  with_reducible assumption
  split
  with_reducible assumption
  lift_lets
  intro t3; clear_value t3
  intro t4; clear_value t4
  intro t5; clear_value t5
  intro t6; clear_value t6
  intro t7; clear_value t7
  intro t8; clear_value t8
  with_reducible apply stays_ite
  with_reducible apply refuse_stays
  with_reducible assumption
  split
  with_reducible apply refuse_stays
  with_reducible assumption
  with_reducible apply stays_ite
  with_reducible apply refuse_stays
  with_reducible assumption
  with_reducible apply stays_ite
  with_reducible apply refuse_stays
  with_reducible assumption
  with_reducible apply stays_ite
  with_reducible apply refuse_stays
  with_reducible assumption
  with_reducible apply stays_ite
  with_reducible apply refuse_stays
  with_reducible assumption
  with_reducible apply stays_ite
  with_reducible apply refuse_stays
  with_reducible assumption
  with_reducible apply stays_ite
  split
  with_reducible apply answerDuplicate_stays
  with_reducible assumption
  with_reducible apply refuse_stays
  with_reducible assumption
  with_reducible apply stays_ite
  with_reducible apply refuse_stays
  with_reducible assumption
  split
  with_reducible apply refuse_stays
  with_reducible assumption
  with_reducible apply hf
  with_reducible assumption

theorem failStart_stays {s : State} (h : Stays q n M s) {a1 a2 a3 a4 a5} : Stays q n M (failStart s a1 a2 a3 a4 a5) := by
  unfold failStart
  with_reducible apply haltAt_stays
  with_reducible apply endCmd_stays
  with_reducible assumption

theorem acceptWork_stays {s : State} (h : Stays q n M s) {a1 a2 a3} : Stays q n M (acceptWork s a1 a2 a3) := by
  unfold acceptWork
  lift_lets
  intro t1; clear_value t1
  intro t2; clear_value t2
  intro t3; refine (have h3 : Stays q n M t3 := ?_; ?_) <;> [subst t3; clear_value t3]
  with_reducible apply setStream_stays
  with_reducible assumption
  intro t4; clear_value t4
  intro t5; clear_value t5
  intro t6; clear_value t6
  intro t7; refine (have h7 : Stays q n M t7 := ?_; ?_) <;> [subst t7; clear_value t7]
  with_reducible apply stays_mk
  with_reducible assumption
  with_reducible apply stays_ite
  with_reducible assumption
  with_reducible apply stays_ite
  with_reducible apply failStart_stays
  with_reducible assumption
  with_reducible apply stays_ite
  with_reducible apply failStart_stays
  with_reducible assumption
  with_reducible assumption

theorem intakeWork_stays {s : State} (h : Stays q n M s) {a1 a2} : Stays q n M (intakeWork s a1 a2) := by
  unfold intakeWork
  with_reducible apply takePacket_stays
  with_reducible assumption
  intro x1
  intro x2
  intro x3
  intro x4
  intro x5
  with_reducible apply acceptWork_stays
  with_reducible assumption

theorem failMem_stays {s : State} (h : Stays q n M s) {a1 a2 a3} : Stays q n M (failMem s a1 a2 a3) := by
  unfold failMem
  with_reducible apply failRun_stays
  with_reducible apply blockFailed_stays
  with_reducible assumption

theorem dropCmd_stays {s : State} (h : Stays q n M s) {a1 a2} : Stays q n M (dropCmd s a1 a2) := by
  unfold dropCmd
  lift_lets
  intro t1; clear_value t1
  with_reducible apply stays_mk
  with_reducible assumption

theorem keepRec_stays {s : State} (h : Stays q n M s) {a1 a2 a3 a4} : Stays q n M (keepRec s a1 a2 a3 a4) := by
  unfold keepRec
  lift_lets
  intro t1; clear_value t1
  intro t2; clear_value t2
  with_reducible apply setStream_stays
  with_reducible assumption

theorem drainRing_stays {s : State} (h : Stays q n M s) {a1} : Stays q n M (drainRing s a1) := by
  unfold drainRing
  with_reducible apply stays_foldl
  with_reducible assumption
  intro x1
  intro x2
  intro x3
  lift_lets
  intro t4; clear_value t4
  with_reducible apply stays_ite
  with_reducible apply ringWrite_stays
  with_reducible apply stays_mk
  with_reducible assumption
  with_reducible assumption

end Sys2Proof.Machine
end

