-- ==== Sys2Proof/Laws/KeepsUnits.lean ====
section
/-!
SUPPORT. What each function of Machine/Units.lean keeps of a state: the queue, the time, the form of the registers and a condition on memory (`Stays`).
-/
set_option Elab.async false
set_option linter.all false
set_option maxRecDepth 4000
namespace Sys2Proof.Machine
variable {q : List Instr} {n : Nat} {M : List Host.Cell → Prop}

theorem fencedOut_stays {s : State} (h : Stays q n M s) {a1 a2 a3} : Stays q n M (fencedOut s a1 a2 a3) := by
  unfold fencedOut
  with_reducible apply failRun_stays
  with_reducible assumption

theorem redealWork_stays {s : State} (h : Stays q n M s) {a1 a2} : Stays q n M (redealWork s a1 a2) := by
  unfold redealWork
  lift_lets
  intro t1; clear_value t1
  intro t2; clear_value t2
  intro t3; refine (have h3 : Stays q n M t3 := ?_; ?_) <;> [subst t3; clear_value t3]
  with_reducible apply stays_mk
  with_reducible assumption
  intro t4; refine (have h4 : Stays q n M t4 := ?_; ?_) <;> [subst t4; clear_value t4]
  with_reducible apply setBitF_stays
  with_reducible assumption
  intro t5; refine (have h5 : Stays q n M t5 := ?_; ?_) <;> [subst t5; clear_value t5]
  with_reducible apply stays_mk
  with_reducible assumption
  intro t6; clear_value t6
  intro t7; refine (have h7 : Stays q n M t7 := ?_; ?_) <;> [subst t7; clear_value t7]
  with_reducible apply setBitF_stays
  with_reducible apply stays_mk
  with_reducible assumption
  with_reducible apply stays_ite
  with_reducible apply stays_foldl
  with_reducible assumption
  intro x8
  intro x9
  intro x10
  with_reducible apply stays_ite
  with_reducible apply fencedOut_stays
  with_reducible assumption
  with_reducible assumption
  with_reducible apply stays_ite
  with_reducible apply stays_foldl
  with_reducible assumption
  intro x11
  intro x12
  intro x13
  with_reducible apply stays_ite
  with_reducible apply fencedOut_stays
  with_reducible assumption
  with_reducible assumption
  with_reducible apply stays_foldl
  with_reducible assumption
  intro x14
  intro x15
  intro x16
  with_reducible apply stays_ite
  with_reducible apply fencedOut_stays
  with_reducible assumption
  with_reducible assumption

theorem showStrikes_stays {s : State} (h : Stays q n M s) {a1} : Stays q n M (showStrikes s a1) := by
  unfold showStrikes
  lift_lets
  intro t1; clear_value t1
  intro t2; clear_value t2
  with_reducible apply stays_ite
  with_reducible apply setF_stays
  with_reducible assumption
  with_reducible apply stays_ite
  with_reducible apply setF_stays
  with_reducible assumption
  with_reducible assumption

theorem strike_stays {s : State} (h : Stays q n M s) {a1 a2} : Stays q n M (strike s a1 a2) := by
  unfold strike
  lift_lets
  intro t1; clear_value t1
  intro t2; clear_value t2
  intro t3; refine (have h3 : Stays q n M t3 := ?_; ?_) <;> [subst t3; clear_value t3]
  with_reducible apply showStrikes_stays
  with_reducible apply stays_mk
  with_reducible assumption
  with_reducible apply logEvent_stays
  with_reducible assumption

theorem ladderRung_stays {s : State} (h : Stays q n M s) {a1 a2} : Stays q n M (ladderRung s a1 a2) := by
  unfold ladderRung
  lift_lets
  intro t1; clear_value t1
  split
  with_reducible apply logEvent_stays
  with_reducible refine stays_of_snd (by assumption) ?_
  with_reducible apply takeFree_stays
  with_reducible apply incF_stays
  with_reducible assumption

theorem engineTry_stays {s : State} (h : Stays q n M s) {a1} : Stays q n M (engineTry s a1).1 := by
  unfold engineTry
  lift_lets
  intro t1; clear_value t1
  split
  dsimp only
  with_reducible assumption
  dsimp only
  with_reducible apply strike_stays
  with_reducible apply ladderRung_stays
  with_reducible assumption
  dsimp only
  with_reducible apply ladderRung_stays
  with_reducible apply ladderRung_stays
  with_reducible assumption
  dsimp only
  with_reducible apply ladderRung_stays
  with_reducible apply ladderRung_stays
  with_reducible assumption

theorem endTimeout_stays {s : State} (h : Stays q n M s) {a1} : Stays q n M (endTimeout s a1) := by
  unfold endTimeout
  lift_lets
  intro t1; clear_value t1
  with_reducible apply stays_mk
  with_reducible assumption

theorem recordFence_stays {s : State} (h : Stays q n M s) {a1} : Stays q n M (recordFence s a1) := by
  unfold recordFence
  lift_lets
  intro t1; clear_value t1
  intro t2; clear_value t2
  with_reducible apply stays_mk
  with_reducible assumption

theorem fenceEngine_stays {s : State} (h : Stays q n M s) {a1 a2} : Stays q n M (fenceEngine s a1 a2) := by
  unfold fenceEngine
  split
  lift_lets
  intro t1; refine (have h1 : Stays q n M t1 := ?_; ?_) <;> [subst t1; clear_value t1]
  with_reducible apply recordFence_stays
  with_reducible apply setBitF_stays
  with_reducible assumption
  intro t2; clear_value t2
  with_reducible apply redealWork_stays
  with_reducible apply logEvent_stays
  with_reducible assumption

theorem engineRun_stays {s : State} (h : Stays q n M s) {a1 a2 f} (hf : ∀ s, Stays q n M s → Stays q n M (f s)): Stays q n M (engineRun s a1 a2 f) := by
  unfold engineRun
  split
  lift_lets
  intro t1; refine (have h1 : Stays q n M t1 := ?_; ?_) <;> [subst t1; clear_value t1]
  with_reducible apply stays_ite
  with_reducible apply hf
  with_reducible apply endTimeout_stays
  with_reducible refine stays_of_fst (by assumption) ?_
  with_reducible apply engineTry_stays
  with_reducible assumption
  with_reducible refine stays_of_fst (by assumption) ?_
  with_reducible apply engineTry_stays
  with_reducible assumption
  with_reducible apply stays_ite
  with_reducible apply fenceEngine_stays
  with_reducible assumption
  with_reducible assumption

theorem noteSounds_stays {s : State} (h : Stays q n M s) {a1} : Stays q n M (noteSounds s a1) := by
  unfold noteSounds
  lift_lets
  intro t1; clear_value t1
  intro t2; clear_value t2
  with_reducible apply stays_mk
  with_reducible assumption

end Sys2Proof.Machine
end

