-- ==== Sys2Proof/Laws/KeepsTourbillon.lean ====
section
/-!
SUPPORT. What each function of Machine/Tourbillon.lean keeps of a state: the queue, the time, the form of the registers and a condition on memory (`Stays`).
-/
set_option Elab.async false
set_option linter.all false
set_option maxRecDepth 4000
namespace Sys2Proof.Machine
variable {q : List Instr} {n : Nat} {M : List Host.Cell → Prop}

theorem advanceDraws_stays {s : State} (h : Stays q n M s) : Stays q n M (advanceDraws s) := by
  unfold advanceDraws
  with_reducible apply stays_foldl
  with_reducible assumption
  intro x1
  intro x2
  intro x3
  with_reducible apply stays_ite
  with_reducible assumption
  with_reducible apply wr_stays
  with_reducible assumption

theorem noteSkew_stays {s : State} (h : Stays q n M s) {a1 a2} : Stays q n M (noteSkew s a1 a2) := by
  unfold noteSkew
  lift_lets
  intro t1; clear_value t1
  with_reducible apply note_stays
  with_reducible assumption

end Sys2Proof.Machine
end

