-- ==== Sys2Proof/Laws/KeepsHbm.lean ====
section
/-!
SUPPORT. What each function of Machine/Hbm.lean keeps of a state: the queue, the time, the form of the registers and a condition on memory (`Stays`).
-/
set_option Elab.async false
set_option linter.all false
set_option maxRecDepth 4000
namespace Sys2Proof.Machine
variable {q : List Instr} {n : Nat} {M : List Host.Cell → Prop}

theorem govBeat_stays {s : State} (h : Stays q n M s) : Stays q n M (govBeat s) := by
  unfold govBeat
  lift_lets
  intro t1; clear_value t1
  with_reducible apply stays_foldl
  with_reducible apply stays_mk
  with_reducible assumption
  intro x2
  intro x3
  intro x4
  with_reducible apply wr_stays
  with_reducible assumption

theorem showRetired_stays {s : State} (h : Stays q n M s) {a1} : Stays q n M (showRetired s a1) := by
  unfold showRetired
  with_reducible apply setF_stays
  with_reducible assumption

theorem unitDone_stays {s : State} (h : Stays q n M s) {a1 a2 a3 a4} : Stays q n M (unitDone s a1 a2 a3 a4) := by
  unfold unitDone
  with_reducible apply stays_ite
  with_reducible apply endCmd_stays
  with_reducible assumption
  with_reducible apply modCmd_stays
  with_reducible assumption

theorem moveFrame_stays {s : State} (hM : MemOk M) (h : Stays q n M s) {a1 a2 a3} : Stays q n M (moveFrame s a1 a2 a3) := by
  unfold moveFrame
  refine stays_foldl (stays_foldl (moved_stays (stays_mem h (hM.move _ _ _ _ (hM.move _ _ _ _ h.mem)))) fun _ _ h => unpoison_stays h) fun _ _ h => poisonBlock_stays h

theorem meetFrame_stays {s : State} (h : Stays q n M s) {a1 a2} : Stays q n M (meetFrame s a1 a2) := by
  unfold meetFrame
  with_reducible apply meetEcc_stays
  with_reducible assumption

theorem retireMove_stays {s : State} (hM : MemOk M) (h : Stays q n M s) {a1 a2 a3} : Stays q n M (retireMove s a1 a2 a3) := by
  unfold retireMove
  lift_lets
  intro t1; refine (have h1 : Stays q n M t1 := ?_; ?_) <;> [subst t1; clear_value t1]
  split
  with_reducible assumption
  split
  with_reducible apply setFrame_stays
  with_reducible assumption
  with_reducible apply setFrame_stays
  with_reducible apply setFrame_stays
  with_reducible apply moveFrame_stays
  assumption
  with_reducible apply meetFrame_stays
  with_reducible assumption
  intro t2; clear_value t2
  with_reducible apply stays_mk
  with_reducible assumption

theorem donate_stays {s : State} (h : Stays q n M s) : Stays q n M (donate s) := by
  unfold donate
  lift_lets
  intro t1; clear_value t1
  intro t2; clear_value t2
  intro t3; clear_value t3
  split
  with_reducible apply setF_stays
  with_reducible assumption
  lift_lets
  intro t4; refine (have h4 : Stays q n M t4 := ?_; ?_) <;> [subst t4; clear_value t4]
  with_reducible apply stays_foldl
  with_reducible apply setFrame_stays
  with_reducible apply setFrame_stays
  with_reducible assumption
  intro x5
  intro x6
  intro x7
  with_reducible apply poisonBlock_stays
  with_reducible assumption
  with_reducible apply setF_stays
  with_reducible apply setF_stays
  with_reducible assumption

theorem afterRelease_stays {s : State} (hM : MemOk M) (h : Stays q n M s) : Stays q n M (afterRelease s) := by
  unfold afterRelease
  lift_lets
  intro t1; clear_value t1
  intro t2; refine (have h2 : Stays q n M t2 := ?_; ?_) <;> [subst t2; clear_value t2]
  with_reducible apply stays_ite
  split
  with_reducible apply retireMove_stays
  assumption
  with_reducible apply stays_mk
  with_reducible assumption
  with_reducible assumption
  intro t3; clear_value t3
  with_reducible apply stays_ite
  with_reducible apply donate_stays
  with_reducible apply stays_mk
  with_reducible assumption
  with_reducible assumption

theorem copyUnit_stays (hM : MemOk M) {a0 a1 a2 a3 a4 a5} : StaysMM q n M (copyUnit a0 a1 a2 a3 a4 a5) := by
  unfold copyUnit
  with_reducible apply staysMM_ite
  with_reducible apply staysMM_bind
  with_reducible apply readBlock_stays
  intro x1
  apply staysMM_getBind
  intro x2
  intro x3
  lift_lets
  intro t4; clear_value t4
  split
  with_reducible apply staysMM_set
  with_reducible apply putBlockRaw_stays
  assumption
  with_reducible apply moved_stays
  with_reducible assumption
  with_reducible apply staysMM_throw
  with_reducible apply staysMM_throw
  with_reducible apply staysMM_bind
  with_reducible apply readPart_stays
  intro x5
  with_reducible apply writeBytes_stays
  assumption

theorem copyWork_stays {s : State} (hM : MemOk M) (h : Stays q n M s) {a1 a2} : Stays q n M (copyWork s a1 a2) := by
  unfold copyWork
  split
  with_reducible assumption
  lift_lets
  intro t1; clear_value t1
  intro t2; clear_value t2
  intro t3; clear_value t3
  intro t4; clear_value t4
  split
  with_reducible apply unitDone_stays
  with_reducible apply staleRange_stays
  with_reducible refine stays_of_snd (by assumption) ?_
  with_reducible apply runMM_stays
  with_reducible assumption
  with_reducible apply copyUnit_stays
  assumption
  with_reducible apply failMem_stays
  with_reducible refine stays_of_snd (by assumption) ?_
  with_reducible apply runMM_stays
  with_reducible assumption
  with_reducible apply copyUnit_stays
  assumption

theorem execCopy_stays {s : State} (hM : MemOk M) (h : Stays q n M s) {a0} : StaysReply q n M (execCopy a0 s) := by
  unfold execCopy
  with_reducible apply staysReply_done
  split
  with_reducible apply intakeWork_stays
  with_reducible assumption
  with_reducible apply onlyIf_stays
  with_reducible assumption
  intro x1
  intro x2
  with_reducible apply inClass_stays
  with_reducible assumption
  intro x3
  intro x4
  with_reducible apply withUpsets_stays
  assumption
  with_reducible assumption
  intro x5
  intro x6
  with_reducible apply copyWork_stays
  assumption
  with_reducible assumption

theorem fillWork_stays {s : State} (hM : MemOk M) (h : Stays q n M s) {a1 a2} : Stays q n M (fillWork s a1 a2) := by
  unfold fillWork
  split
  with_reducible assumption
  lift_lets
  intro t1; clear_value t1
  intro t2; clear_value t2
  intro t3; clear_value t3
  intro t4; clear_value t4
  split
  with_reducible apply unitDone_stays
  with_reducible apply staleRange_stays
  with_reducible refine stays_of_snd (by assumption) ?_
  with_reducible apply runMM_stays
  with_reducible assumption
  with_reducible apply writeBytes_stays
  assumption
  with_reducible apply failMem_stays
  with_reducible refine stays_of_snd (by assumption) ?_
  with_reducible apply runMM_stays
  with_reducible assumption
  with_reducible apply writeBytes_stays
  assumption

theorem execFill_stays {s : State} (hM : MemOk M) (h : Stays q n M s) {a0} : StaysReply q n M (execFill a0 s) := by
  unfold execFill
  with_reducible apply staysReply_done
  split
  with_reducible apply intakeWork_stays
  with_reducible assumption
  with_reducible apply onlyIf_stays
  with_reducible assumption
  intro x1
  intro x2
  with_reducible apply inClass_stays
  with_reducible assumption
  intro x3
  intro x4
  with_reducible apply withUpsets_stays
  assumption
  with_reducible assumption
  intro x5
  intro x6
  with_reducible apply fillWork_stays
  assumption
  with_reducible assumption

theorem writeDonate_stays {s : State} (h : Stays q n M s) {a1} : Stays q n M (writeDonate s a1) := by
  unfold writeDonate
  lift_lets
  intro t1; refine (have h1 : Stays q n M t1 := ?_; ?_) <;> [subst t1; clear_value t1]
  with_reducible apply setF_stays
  with_reducible apply setF_stays
  with_reducible apply setF_stays
  with_reducible assumption
  intro t2; clear_value t2
  intro t3; clear_value t3
  with_reducible apply stays_ite
  with_reducible assumption
  with_reducible apply stays_ite
  with_reducible assumption
  with_reducible apply stays_ite
  with_reducible apply setF_stays
  with_reducible assumption
  with_reducible apply stays_ite
  with_reducible apply setF_stays
  with_reducible apply setF_stays
  with_reducible apply stays_mk
  with_reducible assumption
  with_reducible apply donate_stays
  with_reducible assumption

theorem execHbmDonate_stays {s : State} (h : Stays q n M s) {a0} : StaysReply q n M (execHbmDonate a0 s) := by
  unfold execHbmDonate
  with_reducible apply staysReply_done
  with_reducible apply writeDonate_stays
  with_reducible assumption

theorem writeGov_stays {s : State} (h : Stays q n M s) {a1 a2 a3} : Stays q n M (writeGov s a1 a2 a3) := by
  unfold writeGov
  lift_lets
  intro t1; clear_value t1
  intro t2; clear_value t2
  intro t3; clear_value t3
  with_reducible apply stays_ite
  with_reducible apply stays_mk
  with_reducible assumption
  with_reducible apply refuseAs_stays
  with_reducible assumption

theorem execHbmGovWrite_stays {s : State} (h : Stays q n M s) {a0 a1} : StaysReply q n M (execHbmGovWrite a0 a1 s) := by
  unfold execHbmGovWrite
  with_reducible apply staysReply_done
  with_reducible apply onlyIf_stays
  with_reducible assumption
  intro x1
  intro x2
  with_reducible apply writeGov_stays
  with_reducible assumption

theorem writeRetire_stays {s : State} (hM : MemOk M) (h : Stays q n M s) {a1} : Stays q n M (writeRetire s a1) := by
  unfold writeRetire
  lift_lets
  intro t1; refine (have h1 : Stays q n M t1 := ?_; ?_) <;> [subst t1; clear_value t1]
  with_reducible apply setF_stays
  with_reducible apply setF_stays
  with_reducible apply setF_stays
  with_reducible assumption
  intro t2; refine (have h2 : Stays q n M t2 := ?_; ?_) <;> [subst t2; clear_value t2]
  with_reducible apply setF_stays
  with_reducible apply setF_stays
  with_reducible assumption
  intro t3; clear_value t3
  with_reducible apply stays_ite
  with_reducible assumption
  with_reducible apply stays_ite
  with_reducible assumption
  split
  lift_lets
  intro t4; clear_value t4
  with_reducible apply stays_ite
  with_reducible apply setF_stays
  with_reducible assumption
  with_reducible apply stays_ite
  with_reducible apply stays_mk
  with_reducible assumption
  with_reducible apply retireMove_stays
  assumption
  with_reducible assumption

theorem execHbmRetire_stays {s : State} (hM : MemOk M) (h : Stays q n M s) {a0 a1} : StaysReply q n M (execHbmRetire a0 a1 s) := by
  unfold execHbmRetire
  with_reducible apply staysReply_done
  with_reducible apply inClass_stays
  with_reducible assumption
  intro x1
  intro x2
  with_reducible apply withUpsets_stays
  assumption
  with_reducible assumption
  intro x3
  intro x4
  with_reducible apply writeRetire_stays
  assumption
  with_reducible assumption

theorem execRetirementEnd_stays {s : State} (h : Stays q n M s) {a0} : StaysReply q n M (execRetirementEnd a0 s) := by
  unfold execRetirementEnd
  lift_lets
  intro t1; clear_value t1
  intro t2; refine (have h2 : Stays q n M t2 := ?_; ?_) <;> [subst t2; clear_value t2]
  with_reducible apply setF_stays
  with_reducible apply stays_mk
  with_reducible assumption
  intro t3; clear_value t3
  intro t4; clear_value t4
  with_reducible apply staysReply_done
  split
  with_reducible assumption
  lift_lets
  intro t5; clear_value t5
  intro t6; refine (have h6 : Stays q n M t6 := ?_; ?_) <;> [subst t6; clear_value t6]
  with_reducible apply stays_mk
  with_reducible assumption
  with_reducible apply stays_ite
  with_reducible apply showRetired_stays
  with_reducible apply setF_stays
  with_reducible assumption
  with_reducible apply note_stays
  with_reducible apply setF_stays
  with_reducible assumption

theorem scrubUe_stays {s : State} (h : Stays q n M s) {a1} : Stays q n M (scrubUe s a1) := by
  unfold scrubUe
  lift_lets
  intro t1; clear_value t1
  intro t2; clear_value t2
  intro t3; clear_value t3
  intro t4; refine (have h4 : Stays q n M t4 := ?_; ?_) <;> [subst t4; clear_value t4]
  with_reducible apply stays_foldl
  with_reducible assumption
  intro x5
  intro x6
  intro x7
  with_reducible apply poisonBlock_stays
  with_reducible assumption
  intro t8; refine (have h8 : Stays q n M t8 := ?_; ?_) <;> [subst t8; clear_value t8]
  with_reducible apply uncorrectedAt_stays
  with_reducible assumption
  with_reducible apply stays_ite
  with_reducible apply advise_stays
  with_reducible apply incF_stays
  with_reducible assumption
  split
  with_reducible apply blockFailed_stays
  with_reducible assumption
  with_reducible assumption

theorem scrubStack_stays {s : State} (h : Stays q n M s) {a1} : Stays q n M (scrubStack s a1) := by
  unfold scrubStack
  lift_lets
  intro t1; clear_value t1
  with_reducible apply stays_ite
  with_reducible assumption
  with_reducible apply stays_foldl
  with_reducible apply moved_stays
  with_reducible assumption
  intro x2
  intro x3
  intro x4
  split
  with_reducible apply stays_ite
  with_reducible apply dropUpset_stays
  with_reducible apply correctedAt_stays
  with_reducible assumption
  with_reducible assumption
  with_reducible apply stays_ite
  with_reducible apply dropUpset_stays
  with_reducible apply scrubUe_stays
  with_reducible assumption
  with_reducible assumption
  with_reducible assumption

theorem execScrubRead_stays {s : State} (hM : MemOk M) (h : Stays q n M s) {a0} : StaysReply q n M (execScrubRead a0 s) := by
  unfold execScrubRead
  with_reducible apply staysReply_done
  with_reducible apply onlyIf_stays
  with_reducible assumption
  intro x1
  intro x2
  lift_lets
  intro t3; refine (have h3 : Stays q n M t3 := ?_; ?_) <;> [subst t3; clear_value t3]
  with_reducible apply inClass_stays
  with_reducible assumption
  intro x4
  intro x5
  with_reducible apply withUpsets_stays
  assumption
  with_reducible assumption
  intro x6
  intro x7
  with_reducible apply stays_foldl
  with_reducible assumption
  intro x8
  intro x9
  intro x10
  with_reducible apply scrubStack_stays
  with_reducible assumption
  intro t11; clear_value t11
  with_reducible apply stays_ite
  with_reducible apply incF_stays
  with_reducible apply setF_stays
  with_reducible assumption
  with_reducible apply setF_stays
  with_reducible assumption

end Sys2Proof.Machine
end

