-- ==== Sys2Proof/Laws/KeepsTraining.lean ====
section
/-!
SUPPORT. What each function of Machine/Training.lean keeps of a state: the queue, the time, the form of the registers and a condition on memory (`Stays`).
-/
set_option Elab.async false
set_option linter.all false
set_option maxRecDepth 4000
namespace Sys2Proof.Machine
variable {q : List Instr} {n : Nat} {M : List Host.Cell → Prop}

theorem ferryFail_stays {s : State} (h : Stays q n M s) {a1 a2} : Stays q n M (ferryFail s a1 a2) := by
  unfold ferryFail
  with_reducible apply failRun_stays
  with_reducible assumption

theorem ferryLost_stays {s : State} (h : Stays q n M s) {a1 a2} : Stays q n M (ferryLost s a1 a2) := by
  unfold ferryLost
  split
  split
  with_reducible apply ferryFail_stays
  with_reducible assumption
  with_reducible assumption
  split
  with_reducible apply ferryFail_stays
  with_reducible assumption
  with_reducible assumption
  with_reducible assumption

theorem freeEntries_stays {s : State} (h : Stays q n M s) {a1 a2} : Stays q n M (freeEntries s a1 a2) := by
  unfold freeEntries
  lift_lets
  intro t1; clear_value t1
  with_reducible apply stays_mk
  with_reducible assumption

theorem dropFerry_stays {s : State} (h : Stays q n M s) {a1 a2} : Stays q n M (dropFerry s a1 a2) := by
  unfold dropFerry
  lift_lets
  intro t1; clear_value t1
  with_reducible apply stays_mk
  with_reducible assumption

theorem ferryAcked_stays {s : State} (h : Stays q n M s) {a1 a2} : Stays q n M (ferryAcked s a1 a2) := by
  unfold ferryAcked
  lift_lets
  intro t1; refine (have h1 : Stays q n M t1 := ?_; ?_) <;> [subst t1; clear_value t1]
  with_reducible apply incF_stays
  with_reducible assumption
  split
  split
  with_reducible apply modCmd_stays
  with_reducible assumption
  with_reducible assumption
  split
  with_reducible apply stays_ite
  with_reducible apply dropFerry_stays
  with_reducible apply endCmd_stays
  with_reducible assumption
  with_reducible assumption
  with_reducible assumption
  with_reducible assumption

theorem readSpan_stays {a0 a1 a2 a3 a4} : StaysMM q n M (readSpan a0 a1 a2 a3 a4) := by
  unfold readSpan
  lift_lets
  intro t1; clear_value t1
  with_reducible apply staysMM_bind
  with_reducible apply staysMM_forIn
  intro x2
  intro x3
  lift_lets
  intro t4; clear_value t4
  intro t5; refine (have h5 : ∀ y0, StaysMM q n M (t5 y0) := ?_; ?_) <;> [subst t5; clear_value t5]
  intro x6
  beta_reduce
  lift_lets
  intro t7; clear_value t7
  with_reducible apply staysMM_pure
  with_reducible apply staysMM_ite
  with_reducible apply staysMM_bind
  with_reducible apply readBlock_stays
  intro x8
  with_reducible apply h5
  with_reducible apply staysMM_bind
  with_reducible apply readPart_stays
  intro x9
  with_reducible apply h5
  intro x10
  lift_lets
  intro t11; clear_value t11
  with_reducible apply staysMM_pure

theorem retireDraw_stays {s : State} (h : Stays q n M s) {a1} : Stays q n M (retireDraw s a1).1 := by
  unfold retireDraw
  lift_lets
  intro t1; clear_value t1
  intro t2; refine (have h2 : Stays q n M t2 := ?_; ?_) <;> [subst t2; clear_value t2]
  with_reducible apply setF_stays
  with_reducible apply wr_stays
  with_reducible assumption
  dsimp only
  with_reducible assumption

theorem updateBegin_stays {s : State} (h : Stays q n M s) {a1 a2 a3} : Stays q n M (updateBegin s a1 a2 a3) := by
  unfold updateBegin
  lift_lets
  intro t1; clear_value t1
  intro t2; clear_value t2
  intro t3; clear_value t3
  intro t4; clear_value t4
  with_reducible apply stays_mk
  with_reducible assumption

theorem ferryBegin_stays {s : State} (h : Stays q n M s) {a1 a2 a3} : Stays q n M (ferryBegin s a1 a2 a3) := by
  unfold ferryBegin
  lift_lets
  intro t1; clear_value t1
  split
  with_reducible assumption
  with_reducible apply stays_mk
  with_reducible assumption

theorem ferryPut_stays {s : State} (h : Stays q n M s) {a1 a2} : Stays q n M (ferryPut s a1 a2) := by
  unfold ferryPut
  lift_lets
  intro t1; clear_value t1
  intro t2; refine (have h2 : Stays q n M t2 := ?_; ?_) <;> [subst t2; clear_value t2]
  with_reducible apply stays_ite
  with_reducible apply note_stays
  with_reducible assumption
  with_reducible assumption
  intro t3; clear_value t3
  intro t4; clear_value t4
  with_reducible apply stays_mk
  with_reducible assumption

theorem takeFerry_stays {s : State} (hM : MemOk M) (h : Stays q n M s) {a1} : Stays q n M (takeFerry s a1) := by
  unfold takeFerry
  split
  with_reducible assumption
  lift_lets
  intro t1; clear_value t1
  split
  with_reducible apply ferryPut_stays
  with_reducible assumption
  with_reducible apply stays_ite
  with_reducible apply noteAt_stays
  with_reducible assumption
  split
  with_reducible assumption
  split
  with_reducible apply ferryPut_stays
  with_reducible apply staleRange_stays
  with_reducible refine stays_of_snd (by assumption) ?_
  with_reducible apply runMM_stays
  with_reducible assumption
  with_reducible apply writeBlock_stays
  assumption
  with_reducible apply blockFailed_stays
  with_reducible refine stays_of_snd (by assumption) ?_
  with_reducible apply runMM_stays
  with_reducible assumption
  with_reducible apply writeBlock_stays
  assumption

theorem execFerryBlock_stays {s : State} (hM : MemOk M) (h : Stays q n M s) {a0} : StaysReply q n M (execFerryBlock a0 s) := by
  unfold execFerryBlock
  with_reducible apply staysReply_done
  with_reducible apply onlyIf_stays
  with_reducible assumption
  intro x1
  intro x2
  with_reducible apply inClass_stays
  with_reducible assumption
  intro x3
  intro x4
  with_reducible apply takeFerry_stays
  assumption
  with_reducible assumption

theorem ferryWork_stays {s : State} (h : Stays q n M s) {a1 a2} : Stays q n M (ferryWork s a1 a2) := by
  unfold ferryWork
  split
  lift_lets
  intro t1; clear_value t1
  intro t2; clear_value t2
  intro t3; clear_value t3
  intro t4; clear_value t4
  with_reducible apply stays_ite
  with_reducible assumption
  split
  with_reducible apply ferryFail_stays
  with_reducible assumption
  split
  with_reducible apply ferryFail_stays
  with_reducible assumption
  split
  with_reducible apply failMem_stays
  with_reducible refine stays_of_snd (by assumption) ?_
  with_reducible apply runMM_stays
  with_reducible assumption
  with_reducible apply readBlock_stays
  lift_lets
  intro t5; clear_value t5
  intro t6; refine (have h6 : Stays q n M t6 := ?_; ?_) <;> [subst t6; clear_value t6]
  with_reducible apply stays_mk
  with_reducible refine stays_of_snd (by assumption) ?_
  with_reducible apply runMM_stays
  with_reducible assumption
  with_reducible apply readBlock_stays
  split
  lift_lets
  intro t7; refine (have h7 : Stays q n M t7 := ?_; ?_) <;> [subst t7; clear_value t7]
  with_reducible apply sendOnPort_stays
  with_reducible assumption
  with_reducible apply stays_ite
  with_reducible apply sendOnPort_stays
  with_reducible assumption
  with_reducible assumption
  with_reducible assumption

theorem execFerryOut_stays {s : State} (hM : MemOk M) (h : Stays q n M s) {a0} : StaysReply q n M (execFerryOut a0 s) := by
  unfold execFerryOut
  with_reducible apply staysReply_done
  split
  with_reducible apply intakeWork_stays
  with_reducible assumption
  with_reducible apply onlyIf_stays
  with_reducible assumption
  intro x1
  intro x2
  with_reducible apply inClass_stays
  with_reducible assumption
  intro x3
  intro x4
  with_reducible apply withUpsets_stays
  assumption
  with_reducible assumption
  intro x5
  intro x6
  with_reducible apply ferryWork_stays
  with_reducible assumption

theorem execFerryVoid_stays {s : State} (h : Stays q n M s) {a0 a1} : StaysReply q n M (execFerryVoid a0 a1 s) := by
  unfold execFerryVoid
  lift_lets
  intro t1; clear_value t1
  with_reducible apply staysReply_done
  split
  with_reducible assumption
  with_reducible apply stays_ite
  with_reducible apply logEvent_stays
  with_reducible apply stays_mk
  with_reducible assumption
  with_reducible assumption

theorem execSetDrawCounter_stays {s : State} (h : Stays q n M s) : StaysReply q n M (execSetDrawCounter s) := by
  unfold execSetDrawCounter
  with_reducible apply staysReply_done
  with_reducible apply intakeWork_stays
  with_reducible assumption

theorem execUpdate_stays {s : State} (h : Stays q n M s) : StaysReply q n M (execUpdate s) := by
  unfold execUpdate
  with_reducible apply staysReply_done
  with_reducible apply intakeWork_stays
  with_reducible assumption

theorem updWork_stays (hM : MemOk M) {a0 a1 a2 a3 a4 a5} : StaysMM q n M (updWork a0 a1 a2 a3 a4 a5) := by
  unfold updWork
  lift_lets
  intro t1; clear_value t1
  intro t2; clear_value t2
  intro t3; clear_value t3
  intro t4; refine (have h4 : ∀ y0, StaysMM q n M (t4 y0) := ?_; ?_) <;> [subst t4; clear_value t4]
  intro x5
  beta_reduce
  with_reducible apply readSpan_stays
  with_reducible apply staysMM_bind
  with_reducible apply h4
  intro x6
  with_reducible apply staysMM_bind
  with_reducible apply h4
  intro x7
  with_reducible apply staysMM_bind
  with_reducible apply h4
  intro x8
  lift_lets
  intro t9; refine (have h9 : ∀ y0, StaysMM q n M (t9 y0) := ?_; ?_) <;> [subst t9; clear_value t9]
  intro x10
  beta_reduce
  lift_lets
  intro t11; refine (have h11 : ∀ y0, StaysMM q n M (t11 y0) := ?_; ?_) <;> [subst t11; clear_value t11]
  intro x12
  beta_reduce
  lift_lets
  intro t13; clear_value t13
  apply staysMM_getBind
  intro x14
  intro x15
  lift_lets
  intro t16; clear_value t16
  intro t17; refine (have h17 : ∀ y0, StaysMM q n M (t17 y0) := ?_; ?_) <;> [subst t17; clear_value t17]
  intro x18
  beta_reduce
  with_reducible apply staysMM_pure
  with_reducible apply staysMM_bind
  with_reducible apply writeBytes_stays
  assumption
  intro x19
  with_reducible apply staysMM_bind
  with_reducible apply writeBytes_stays
  assumption
  intro x20
  with_reducible apply staysMM_bind
  with_reducible apply writeBytes_stays
  assumption
  intro x21
  with_reducible apply staysMM_ite
  with_reducible apply staysMM_bind
  with_reducible apply writeBytes_stays
  assumption
  intro x22
  with_reducible apply h17
  with_reducible apply h17
  with_reducible apply staysMM_ite
  with_reducible apply staysMM_bind
  with_reducible apply readSpan_stays
  intro x23
  with_reducible apply h11
  with_reducible apply staysMM_bind
  with_reducible apply h4
  intro x24
  with_reducible apply h11
  with_reducible apply staysMM_ite
  with_reducible apply staysMM_bind
  with_reducible apply h4
  intro x25
  with_reducible apply h9
  with_reducible apply staysMM_bind
  with_reducible apply staysMM_pure
  intro x26
  with_reducible apply h9

theorem updSound_stays {s : State} (hM : MemOk M) (h : Stays q n M s) {a0 a1 a2 a3 a4} : Stays q n M (updSound a0 a1 a2 a3 a4 s) := by
  unfold updSound
  lift_lets
  intro t1; clear_value t1
  split
  with_reducible apply noteSounds_stays
  with_reducible apply staleRange_stays
  with_reducible refine stays_of_snd (by assumption) ?_
  with_reducible apply runMM_stays
  with_reducible assumption
  with_reducible apply writeBytes_stays
  assumption
  with_reducible apply failMem_stays
  with_reducible refine stays_of_snd (by assumption) ?_
  with_reducible apply runMM_stays
  with_reducible assumption
  with_reducible apply writeBytes_stays
  assumption

theorem updDone_stays {s : State} (hM : MemOk M) (h : Stays q n M s) {a1 a2 a3 a4 a5} : Stays q n M (updDone s a1 a2 a3 a4 a5) := by
  unfold updDone
  lift_lets
  intro t1; clear_value t1
  intro t2; clear_value t2
  intro t3; refine (have h3 : Stays q n M t3 := ?_; ?_) <;> [subst t3; clear_value t3]
  with_reducible apply stays_foldl
  with_reducible assumption
  intro x4
  intro x5
  intro x6
  with_reducible apply staleRange_stays
  with_reducible assumption
  intro t7; refine (have h7 : Stays q n M t7 := ?_; ?_) <;> [subst t7; clear_value t7]
  with_reducible apply stays_ite
  with_reducible apply staleRange_stays
  with_reducible assumption
  with_reducible assumption
  intro t8; refine (have h8 : Stays q n M t8 := ?_; ?_) <;> [subst t8; clear_value t8]
  with_reducible apply incF_stays
  with_reducible assumption
  intro t9; clear_value t9
  intro t10; clear_value t10
  intro t11; clear_value t11
  intro t12; clear_value t12
  intro t13; clear_value t13
  intro t14; clear_value t14
  intro t15; refine (have h15 : Stays q n M t15 := ?_; ?_) <;> [subst t15; clear_value t15]
  with_reducible apply stays_mk
  with_reducible assumption
  intro t16; refine (have h16 : Stays q n M t16 := ?_; ?_) <;> [subst t16; clear_value t16]
  with_reducible apply stays_ite
  with_reducible apply updSound_stays
  assumption
  with_reducible assumption
  with_reducible assumption
  intro t17; refine (have h17 : Stays q n M t17 := ?_; ?_) <;> [subst t17; clear_value t17]
  with_reducible apply modCmd_stays
  with_reducible assumption
  intro t18; clear_value t18
  with_reducible apply stays_ite
  with_reducible apply endCmd_stays
  with_reducible apply stays_mk
  with_reducible assumption
  with_reducible assumption

theorem execUpdateBlock_stays {s : State} (hM : MemOk M) (h : Stays q n M s) {a0 a1} : StaysReply q n M (execUpdateBlock a0 a1 s) := by
  unfold execUpdateBlock
  with_reducible apply staysReply_done
  with_reducible apply onlyIf_stays
  with_reducible assumption
  intro x1
  intro x2
  split
  with_reducible assumption
  with_reducible apply inClass_stays
  with_reducible assumption
  intro x3
  intro x4
  with_reducible apply withUpsets_stays
  assumption
  with_reducible assumption
  intro x5
  intro x6
  with_reducible apply engineRun_stays
  with_reducible assumption
  intro x7
  intro x8
  split
  with_reducible apply updDone_stays
  assumption
  with_reducible refine stays_of_snd (by assumption) ?_
  with_reducible apply runMM_stays
  with_reducible assumption
  with_reducible apply updWork_stays
  assumption
  with_reducible apply failMem_stays
  with_reducible refine stays_of_snd (by assumption) ?_
  with_reducible apply runMM_stays
  with_reducible assumption
  with_reducible apply updWork_stays
  assumption

end Sys2Proof.Machine
end

