-- ==== Sys2Proof/Laws/KeepsReport.lean ====
section
/-!
SUPPORT. What each function of Machine/Report.lean keeps of a state: the queue, the time, the form of the registers and a condition on memory (`Stays`).
-/
set_option Elab.async false
set_option linter.all false
set_option maxRecDepth 4000
namespace Sys2Proof.Machine
variable {q : List Instr} {n : Nat} {M : List Host.Cell → Prop}

theorem signWith_stays {s : State} (h : Stays q n M s) {a1} : Stays q n M (signWith s a1).2 := by
  unfold signWith
  with_reducible apply stays_ite_snd
  dsimp only
  with_reducible assumption
  dsimp only
  with_reducible apply stays_mk
  with_reducible assumption

theorem makeReport_stays {s : State} (h : Stays q n M s) {a1 a2} : Stays q n M (makeReport s a1 a2).2 := by
  unfold makeReport
  lift_lets
  intro t1; clear_value t1
  split
  dsimp only
  with_reducible refine stays_of_snd (by assumption) ?_
  with_reducible apply signWith_stays
  with_reducible assumption

theorem sendReport_stays {s : State} (h : Stays q n M s) {a1} : Stays q n M (sendReport s a1) := by
  unfold sendReport
  split
  with_reducible apply bluvisen_stays
  with_reducible refine stays_of_snd (by assumption) ?_
  with_reducible apply makeReport_stays
  with_reducible assumption

theorem bootReport_stays {s : State} (h : Stays q n M s) : Stays q n M (bootReport s) := by
  unfold bootReport
  with_reducible apply sendReport_stays
  with_reducible assumption

theorem takeRandom_stays {s : State} (h : Stays q n M s) {a1} : Stays q n M (takeRandom s a1).2 := by
  unfold takeRandom
  dsimp only
  with_reducible apply stays_mk
  with_reducible assumption

theorem hostOut_stays {s : State} (h : Stays q n M s) {a1 a2 a3} : Stays q n M (hostOut s a1 a2 a3) := by
  unfold hostOut
  with_reducible apply stays_ite
  with_reducible apply hostWrite_stays
  with_reducible assumption
  with_reducible apply toPilot_stays
  with_reducible assumption

theorem attestRun_stays {s : State} (h : Stays q n M s) {a1 a2 a3} : Stays q n M (attestRun s a1 a2 a3) := by
  unfold attestRun
  lift_lets
  intro t1; clear_value t1
  split
  with_reducible apply endCmd_stays
  with_reducible apply hostOut_stays
  with_reducible refine stays_of_snd (by assumption) ?_
  with_reducible apply makeReport_stays
  with_reducible assumption

theorem execAttest_stays {s : State} (h : Stays q n M s) : StaysReply q n M (execAttest s) := by
  unfold execAttest
  with_reducible apply staysReply_done
  with_reducible apply intakeWork_stays
  with_reducible assumption

theorem execAttestationRequest_stays {s : State} (h : Stays q n M s) {a0} : StaysReply q n M (execAttestationRequest a0 s) := by
  unfold execAttestationRequest
  with_reducible apply staysReply_done
  with_reducible apply onlyIf_stays
  with_reducible assumption
  intro x1
  intro x2
  lift_lets
  intro t3; clear_value t3
  intro t4; clear_value t4
  intro t5; clear_value t5
  with_reducible apply stays_ite
  with_reducible apply sendReport_stays
  with_reducible apply stays_mk
  with_reducible assumption
  with_reducible apply tellBluvisen_stays
  with_reducible assumption

theorem setAuthority_stays {s : State} (h : Stays q n M s) {a1} : Stays q n M (setAuthority s a1) := by
  unfold setAuthority
  lift_lets
  intro t1; clear_value t1
  with_reducible apply setF_stays
  with_reducible apply stays_mk
  with_reducible assumption

theorem execAuthorityHandover_stays {s : State} (h : Stays q n M s) {a0 a1} : StaysReply q n M (execAuthorityHandover a0 a1 s) := by
  unfold execAuthorityHandover
  with_reducible apply staysReply_done
  with_reducible apply onlyIf_stays
  with_reducible assumption
  intro x1
  intro x2
  lift_lets
  intro t3; clear_value t3
  with_reducible apply setAuthority_stays
  with_reducible assumption

theorem execDebugAccess_stays {s : State} (hM : MemOk M) (h : Stays q n M s) {a0 a1 a2} : StaysReply q n M (execDebugAccess a0 a1 a2 s) := by
  unfold execDebugAccess
  with_reducible apply staysReply_done
  with_reducible apply stays_ite
  split
  with_reducible apply runMM_stays
  with_reducible assumption
  with_reducible apply writeBytes_stays
  assumption
  split
  with_reducible apply send_stays
  with_reducible refine stays_of_snd (by assumption) ?_
  with_reducible apply runMM_stays
  with_reducible assumption
  with_reducible apply readRaw_stays
  with_reducible refine stays_of_snd (by assumption) ?_
  with_reducible apply runMM_stays
  with_reducible assumption
  with_reducible apply readRaw_stays
  with_reducible apply noteAt_stays
  with_reducible assumption

theorem execDebugUnlock_stays {s : State} (h : Stays q n M s) {a0} : StaysReply q n M (execDebugUnlock a0 s) := by
  unfold execDebugUnlock
  with_reducible apply staysReply_done
  with_reducible apply onlyIf_stays
  with_reducible assumption
  intro x1
  intro x2
  with_reducible apply setF_stays
  with_reducible assumption

theorem execEnrolment_stays {s : State} (h : Stays q n M s) {a0 a1 a2 a3} : StaysReply q n M (execEnrolment a0 a1 a2 a3 s) := by
  unfold execEnrolment
  with_reducible apply staysReply_done
  with_reducible apply onlyIf_stays
  with_reducible assumption
  intro x1
  intro x2
  with_reducible apply setAuthority_stays
  with_reducible assumption

end Sys2Proof.Machine
end

