-- ==== Sys2Proof/Laws/KeepsPorts.lean ====
section
/-!
SUPPORT. What each function of Machine/Ports.lean keeps of a state: the queue, the time, the form of the registers and a condition on memory (`Stays`).
-/
set_option Elab.async false
set_option linter.all false
set_option maxRecDepth 4000
namespace Sys2Proof.Machine
variable {q : List Instr} {n : Nat} {M : List Host.Cell → Prop}

theorem requeue_stays {s : State} (h : Stays q n M s) {a1} : Stays q n M (requeue s a1) := by
  unfold requeue
  lift_lets
  intro t1; clear_value t1
  with_reducible apply stays_foldl
  with_reducible apply modPort_stays
  with_reducible assumption
  intro x2
  intro x3
  intro x4
  with_reducible apply routeFrame_stays
  with_reducible assumption

theorem discover_stays {s : State} (h : Stays q n M s) : Stays q n M (discover s) := by
  unfold discover
  lift_lets
  intro t1; clear_value t1
  intro t2; clear_value t2
  with_reducible apply stays_ite
  split
  lift_lets
  intro t3; clear_value t3
  with_reducible apply bluvisen_stays
  with_reducible apply stays_mk
  with_reducible refine stays_of_snd (by assumption) ?_
  with_reducible apply signWith_stays
  with_reducible assumption
  with_reducible apply stays_mk
  with_reducible assumption

theorem discoverChange_stays {s : State} (h : Stays q n M s) : Stays q n M (discoverChange s) := by
  unfold discoverChange
  with_reducible apply stays_ite
  with_reducible apply discover_stays
  with_reducible assumption
  with_reducible assumption

theorem setPortState_stays {s : State} (h : Stays q n M s) {a1 a2} : Stays q n M (setPortState s a1 a2) := by
  unfold setPortState
  lift_lets
  intro t1; clear_value t1
  intro t2; clear_value t2
  intro t3; clear_value t3
  intro t4; clear_value t4
  intro t5; refine (have h5 : Stays q n M t5 := ?_; ?_) <;> [subst t5; clear_value t5]
  with_reducible apply stays_ite
  with_reducible apply setF_stays
  with_reducible assumption
  with_reducible assumption
  intro t6; refine (have h6 : Stays q n M t6 := ?_; ?_) <;> [subst t6; clear_value t6]
  with_reducible apply stays_ite
  with_reducible apply incF_stays
  with_reducible assumption
  with_reducible assumption
  intro t7; clear_value t7
  intro t8; refine (have h8 : Stays q n M t8 := ?_; ?_) <;> [subst t8; clear_value t8]
  with_reducible apply setF_stays
  with_reducible assumption
  intro t9; refine (have h9 : Stays q n M t9 := ?_; ?_) <;> [subst t9; clear_value t9]
  with_reducible apply setBitF_stays
  with_reducible assumption
  intro t10; clear_value t10
  intro t11; refine (have h11 : Stays q n M t11 := ?_; ?_) <;> [subst t11; clear_value t11]
  with_reducible apply setBitF_stays
  with_reducible assumption
  intro t12; refine (have h12 : Stays q n M t12 := ?_; ?_) <;> [subst t12; clear_value t12]
  with_reducible apply modPort_stays
  with_reducible assumption
  intro t13; refine (have h13 : Stays q n M t13 := ?_; ?_) <;> [subst t13; clear_value t13]
  with_reducible apply showPorts_stays
  with_reducible assumption
  intro t14; refine (have h14 : Stays q n M t14 := ?_; ?_) <;> [subst t14; clear_value t14]
  with_reducible apply stays_ite
  with_reducible apply requeue_stays
  with_reducible assumption
  with_reducible assumption
  intro t15; refine (have h15 : Stays q n M t15 := ?_; ?_) <;> [subst t15; clear_value t15]
  with_reducible apply stays_ite
  with_reducible apply retryRoutes_stays
  with_reducible apply pump_stays
  with_reducible assumption
  with_reducible assumption
  with_reducible apply stays_ite
  with_reducible assumption
  with_reducible apply discoverChange_stays
  with_reducible assumption

theorem retrain_stays {s : State} (h : Stays q n M s) {a1} : Stays q n M (retrain s a1) := by
  unfold retrain
  with_reducible apply stays_ite
  with_reducible apply modPort_stays
  with_reducible assumption
  with_reducible apply setPortState_stays
  with_reducible assumption

theorem setLaneMap_stays {s : State} (h : Stays q n M s) {a1 a2 a3} : Stays q n M (setLaneMap s a1 a2 a3) := by
  unfold setLaneMap
  lift_lets
  intro t1; clear_value t1
  intro t2; clear_value t2
  intro t3; refine (have h3 : Stays q n M t3 := ?_; ?_) <;> [subst t3; clear_value t3]
  with_reducible apply setF_stays
  with_reducible assumption
  intro t4; refine (have h4 : Stays q n M t4 := ?_; ?_) <;> [subst t4; clear_value t4]
  with_reducible apply setF_stays
  with_reducible assumption
  with_reducible apply setF_stays
  with_reducible assumption

theorem lanesChanged_stays {s : State} (h : Stays q n M s) {a1} : Stays q n M (lanesChanged s a1) := by
  unfold lanesChanged
  with_reducible apply stays_ite
  with_reducible apply setPortState_stays
  with_reducible assumption
  with_reducible assumption

theorem dropHold_stays {s : State} (h : Stays q n M s) {a1} : Stays q n M (dropHold s a1) := by
  unfold dropHold
  with_reducible apply modPort_stays
  with_reducible assumption

theorem putHold_stays {s : State} (h : Stays q n M s) {a1 a2 a3 a4} : Stays q n M (putHold s a1 a2 a3 a4) := by
  unfold putHold
  lift_lets
  intro t1; clear_value t1
  intro t2; refine (have h2 : Stays q n M t2 := ?_; ?_) <;> [subst t2; clear_value t2]
  with_reducible apply dropHold_stays
  with_reducible assumption
  intro t3; clear_value t3
  intro t4; refine (have h4 : Stays q n M t4 := ?_; ?_) <;> [subst t4; clear_value t4]
  with_reducible apply modPort_stays
  with_reducible assumption
  intro t5; clear_value t5
  with_reducible apply stays_ite
  with_reducible apply stays_mk
  with_reducible assumption
  with_reducible assumption

theorem sendHold_stays {s : State} (h : Stays q n M s) {a1 a2 a3 a4} : Stays q n M (sendHold s a1 a2 a3 a4) := by
  unfold sendHold
  with_reducible apply putHold_stays
  with_reducible apply sendBlock_stays
  with_reducible assumption

theorem sendHello_stays {s : State} (h : Stays q n M s) {a1} : Stays q n M (sendHello s a1) := by
  unfold sendHello
  lift_lets
  intro t1; clear_value t1
  intro t2; refine (have h2 : Stays q n M t2 := ?_; ?_) <;> [subst t2; clear_value t2]
  with_reducible apply modPort_stays
  with_reducible assumption
  with_reducible apply sendBlock_stays
  with_reducible apply sendBlock_stays
  with_reducible assumption

theorem discoverLate_stays {s : State} (h : Stays q n M s) : Stays q n M (discoverLate s) := by
  unfold discoverLate
  with_reducible apply stays_ite
  with_reducible apply discover_stays
  with_reducible assumption
  with_reducible assumption

theorem cleanBlock_stays {s : State} (h : Stays q n M s) {a1} : Stays q n M (cleanBlock s a1) := by
  unfold cleanBlock
  split
  with_reducible apply stays_ite
  with_reducible apply dropHold_stays
  with_reducible assumption
  with_reducible assumption
  with_reducible assumption

theorem showPeer_stays {s : State} (h : Stays q n M s) {a1 a2} : Stays q n M (showPeer s a1 a2) := by
  unfold showPeer
  lift_lets
  intro t1; refine (have h1 : Stays q n M t1 := ?_; ?_) <;> [subst t1; clear_value t1]
  with_reducible apply setF_stays
  with_reducible apply setF_stays
  with_reducible assumption
  intro t2; refine (have h2 : Stays q n M t2 := ?_; ?_) <;> [subst t2; clear_value t2]
  with_reducible apply wr_stays
  with_reducible assumption
  intro t3; refine (have h3 : Stays q n M t3 := ?_; ?_) <;> [subst t3; clear_value t3]
  with_reducible apply setF_stays
  with_reducible apply setF_stays
  with_reducible assumption
  with_reducible apply setF_stays
  with_reducible apply setF_stays
  with_reducible assumption

end Sys2Proof.Machine
end

