-- ==== Sys2Proof/Laws/KeepsBearing.lean ====
section
/-!
SUPPORT. What each function of Machine/Bearing.lean keeps of a state: the queue, the time, the form of the registers and a condition on memory (`Stays`).
-/
set_option Elab.async false
set_option linter.all false
set_option maxRecDepth 4000
namespace Sys2Proof.Machine
variable {q : List Instr} {n : Nat} {M : List Host.Cell → Prop}

theorem modRing_stays {s : State} (h : Stays q n M s) {a1 a2} : Stays q n M (modRing s a1 a2) := by
  unfold modRing
  lift_lets
  intro t1; clear_value t1
  with_reducible apply stays_mk
  with_reducible assumption

theorem askChange_stays {s : State} (h : Stays q n M s) {a1 a2 a3 a4} : Stays q n M (askChange s a1 a2 a3 a4) := by
  unfold askChange
  lift_lets
  intro t1; clear_value t1
  intro t2; refine (have h2 : Stays q n M t2 := ?_; ?_) <;> [subst t2; clear_value t2]
  with_reducible apply sendBlock_stays
  with_reducible assumption
  with_reducible apply modPort_stays
  with_reducible assumption

theorem takeLaneOut_stays {s : State} (h : Stays q n M s) {a1 a2} : Stays q n M (takeLaneOut s a1 a2) := by
  unfold takeLaneOut
  lift_lets
  intro t1; clear_value t1
  intro t2; clear_value t2
  with_reducible apply stays_ite
  with_reducible assumption
  with_reducible apply stays_ite
  with_reducible apply askChange_stays
  with_reducible assumption
  with_reducible apply stays_ite
  with_reducible apply retrain_stays
  with_reducible assumption
  with_reducible apply askChange_stays
  with_reducible assumption

theorem misbear_stays {s : State} (h : Stays q n M s) {a1} : Stays q n M (misbear s a1) := by
  unfold misbear
  lift_lets
  intro t1; refine (have h1 : Stays q n M t1 := ?_; ?_) <;> [subst t1; clear_value t1]
  with_reducible apply modRing_stays
  with_reducible assumption
  with_reducible apply stays_ite
  with_reducible assumption
  with_reducible apply incF_stays
  with_reducible assumption

theorem checkWaves_stays {s : State} (h : Stays q n M s) {a1 a2 a3 a4} : Stays q n M (checkWaves s a1 a2 a3 a4) := by
  unfold checkWaves
  lift_lets
  intro t1; clear_value t1
  intro t2; clear_value t2
  with_reducible apply stays_ite
  with_reducible apply stays_foldl
  with_reducible assumption
  intro x3
  intro x4
  intro x5
  with_reducible apply modRing_stays
  with_reducible assumption
  with_reducible apply stays_foldl
  with_reducible assumption
  intro x6
  intro x7
  intro x8
  with_reducible apply misbear_stays
  with_reducible assumption

theorem bringBack_stays {s : State} (h : Stays q n M s) {a1 a2} : Stays q n M (bringBack s a1 a2) := by
  unfold bringBack
  lift_lets
  intro t1; clear_value t1
  with_reducible apply stays_ite
  with_reducible assumption
  split
  with_reducible apply askChange_stays
  with_reducible assumption
  split
  with_reducible apply stays_ite
  with_reducible assumption
  with_reducible apply askChange_stays
  with_reducible assumption
  with_reducible assumption

theorem alignBlock_stays {s : State} (h : Stays q n M s) {a1 a2} : Stays q n M (alignBlock s a1 a2) := by
  unfold alignBlock
  lift_lets
  intro t1; clear_value t1
  intro t2; clear_value t2
  intro t3; clear_value t3
  intro t4; clear_value t4
  intro t5; clear_value t5
  intro t6; clear_value t6
  intro t7; refine (have h7 : Stays q n M t7 := ?_; ?_) <;> [subst t7; clear_value t7]
  with_reducible apply modPort_stays
  with_reducible assumption
  intro t8; clear_value t8
  intro t9; refine (have h9 : Stays q n M t9 := ?_; ?_) <;> [subst t9; clear_value t9]
  with_reducible apply modRing_stays
  with_reducible apply modPort_stays
  with_reducible assumption
  intro t10; refine (have h10 : Stays q n M t10 := ?_; ?_) <;> [subst t10; clear_value t10]
  with_reducible apply modPort_stays
  with_reducible assumption
  intro t11; clear_value t11
  intro t12; clear_value t12
  intro t13; refine (have h13 : Stays q n M t13 := ?_; ?_) <;> [subst t13; clear_value t13]
  with_reducible apply modRing_stays
  with_reducible assumption
  intro t14; clear_value t14
  intro t15; refine (have h15 : Stays q n M t15 := ?_; ?_) <;> [subst t15; clear_value t15]
  with_reducible apply modRing_stays
  with_reducible assumption
  with_reducible apply stays_ite
  with_reducible apply modPort_stays
  with_reducible assumption
  with_reducible apply stays_ite
  with_reducible assumption
  with_reducible apply stays_ite
  with_reducible apply stays_ite
  split
  with_reducible apply takeLaneOut_stays
  with_reducible assumption
  with_reducible assumption
  with_reducible assumption
  with_reducible apply stays_ite
  with_reducible apply checkWaves_stays
  split
  with_reducible apply takeLaneOut_stays
  with_reducible assumption
  with_reducible assumption
  with_reducible apply stays_ite
  split
  with_reducible apply takeLaneOut_stays
  with_reducible assumption
  with_reducible assumption
  with_reducible apply stays_ite
  with_reducible apply stays_ite
  with_reducible apply bringBack_stays
  with_reducible assumption
  with_reducible assumption
  with_reducible assumption

theorem execLaneChange_stays {s : State} (h : Stays q n M s) {a0 a1 a2 a3 a4} : StaysReply q n M (execLaneChange a0 a1 a2 a3 a4 s) := by
  unfold execLaneChange
  with_reducible apply staysReply_done
  with_reducible apply onlyIf_stays
  with_reducible assumption
  intro x1
  intro x2
  lift_lets
  intro t3; refine (have h3 : Stays q n M t3 := ?_; ?_) <;> [subst t3; clear_value t3]
  with_reducible apply sendBlock_stays
  with_reducible assumption
  with_reducible apply stays_ite
  with_reducible apply stays_ite
  with_reducible apply setLaneMap_stays
  with_reducible assumption
  with_reducible apply modPort_stays
  with_reducible assumption
  with_reducible apply stays_ite
  with_reducible apply modPort_stays
  with_reducible assumption
  with_reducible assumption

theorem execLaneOut_stays {s : State} (h : Stays q n M s) {a0 a1 a2} : StaysReply q n M (execLaneOut a0 a1 a2 s) := by
  unfold execLaneOut
  with_reducible apply staysReply_done
  with_reducible apply onlyIf_stays
  with_reducible assumption
  intro x1
  intro x2
  lift_lets
  intro t3; refine (have h3 : Stays q n M t3 := ?_; ?_) <;> [subst t3; clear_value t3]
  with_reducible apply modPort_stays
  with_reducible assumption
  split
  with_reducible apply stays_ite
  with_reducible apply takeLaneOut_stays
  with_reducible assumption
  with_reducible assumption
  lift_lets
  intro t4; refine (have h4 : Stays q n M t4 := ?_; ?_) <;> [subst t4; clear_value t4]
  with_reducible apply incF_stays
  with_reducible assumption
  with_reducible apply stays_ite
  with_reducible apply takeLaneOut_stays
  with_reducible assumption
  with_reducible assumption
  lift_lets
  intro t5; refine (have h5 : Stays q n M t5 := ?_; ?_) <;> [subst t5; clear_value t5]
  with_reducible apply incF_stays
  with_reducible assumption
  with_reducible apply stays_ite
  with_reducible apply takeLaneOut_stays
  with_reducible assumption
  with_reducible assumption
  with_reducible apply stays_ite
  with_reducible apply takeLaneOut_stays
  with_reducible assumption
  with_reducible assumption
  with_reducible apply stays_ite
  with_reducible apply setPortState_stays
  with_reducible assumption
  with_reducible apply takeLaneOut_stays
  with_reducible assumption

theorem execLaneRestripe_stays {s : State} (h : Stays q n M s) {a0 a1 a2} : StaysReply q n M (execLaneRestripe a0 a1 a2 s) := by
  unfold execLaneRestripe
  with_reducible apply staysReply_done
  split
  with_reducible assumption
  lift_lets
  intro t1; refine (have h1 : Stays q n M t1 := ?_; ?_) <;> [subst t1; clear_value t1]
  with_reducible apply modPort_stays
  with_reducible assumption
  intro t2; refine (have h2 : Stays q n M t2 := ?_; ?_) <;> [subst t2; clear_value t2]
  with_reducible apply setLaneMap_stays
  with_reducible assumption
  intro t3; refine (have h3 : Stays q n M t3 := ?_; ?_) <;> [subst t3; clear_value t3]
  with_reducible apply stays_ite
  with_reducible assumption
  with_reducible apply modRing_stays
  with_reducible assumption
  with_reducible apply stays_ite
  with_reducible apply askChange_stays
  with_reducible apply modPort_stays
  with_reducible assumption
  with_reducible apply lanesChanged_stays
  with_reducible assumption

theorem takeWaveOut_stays {s : State} (h : Stays q n M s) {a1 a2} : Stays q n M (takeWaveOut s a1 a2) := by
  unfold takeWaveOut
  split
  with_reducible apply takeLaneOut_stays
  with_reducible assumption
  with_reducible assumption

end Sys2Proof.Machine
end

