-- ==== Sys2Proof/Laws/KeepsKeys.lean ====
section
/-!
SUPPORT. What each function of Machine/Keys.lean keeps of a state: the queue, the time, the form of the registers and a condition on memory (`Stays`).
-/
set_option Elab.async false
set_option linter.all false
set_option maxRecDepth 4000
namespace Sys2Proof.Machine
variable {q : List Instr} {n : Nat} {M : List Host.Cell → Prop}

theorem retireKeys_stays {s : State} (h : Stays q n M s) {a1} : Stays q n M (retireKeys s a1) := by
  unfold retireKeys
  split
  with_reducible apply stays_ite
  with_reducible apply modPort_stays
  with_reducible assumption
  with_reducible assumption
  with_reducible assumption

theorem putKx_stays {s : State} (h : Stays q n M s) {a1 a2 a3} : Stays q n M (putKx s a1 a2 a3) := by
  unfold putKx
  lift_lets
  intro t1; clear_value t1
  with_reducible apply stays_mk
  with_reducible assumption

theorem sendSetup_stays {s : State} (h : Stays q n M s) {a1 a2 a3 a4} : Stays q n M (sendSetup s a1 a2 a3 a4) := by
  unfold sendSetup
  with_reducible apply stays_ite
  with_reducible apply sendBlock_stays
  with_reducible assumption
  with_reducible apply sendOnPort_stays
  with_reducible assumption

theorem startKx_stays {s : State} (h : Stays q n M s) {a1 a2 a3} : Stays q n M (startKx s a1 a2 a3) := by
  unfold startKx
  split
  lift_lets
  intro t1; clear_value t1
  intro t2; refine (have h2 : Stays q n M t2 := ?_; ?_) <;> [subst t2; clear_value t2]
  with_reducible apply stays_mk
  with_reducible refine stays_of_snd (by assumption) ?_
  with_reducible apply takeRandom_stays
  with_reducible assumption
  intro t3; clear_value t3
  split
  split
  dsimp only
  with_reducible apply sendSetup_stays
  with_reducible apply putKx_stays
  with_reducible apply makeReport_stays
  with_reducible refine stays_of_snd (by assumption) ?_
  with_reducible apply signWith_stays
  with_reducible assumption
  dsimp only
  with_reducible apply sendSetup_stays
  with_reducible apply putKx_stays
  with_reducible refine stays_of_snd (by assumption) ?_
  with_reducible apply signWith_stays
  with_reducible assumption

theorem dropKx_stays {s : State} (h : Stays q n M s) {a1 a2} : Stays q n M (dropKx s a1 a2) := by
  unfold dropKx
  lift_lets
  intro t1; clear_value t1
  with_reducible apply stays_mk
  with_reducible assumption

theorem rotationWatch_stays {s : State} (h : Stays q n M s) : Stays q n M (rotationWatch s) := by
  unfold rotationWatch
  lift_lets
  intro t1; clear_value t1
  with_reducible apply stays_foldl
  with_reducible assumption
  intro x2
  intro x3
  intro x4
  split
  with_reducible apply stays_ite
  with_reducible apply startKx_stays
  with_reducible apply dropKx_stays
  with_reducible assumption
  with_reducible assumption
  with_reducible assumption

theorem showKeys_stays {s : State} (h : Stays q n M s) {a1} : Stays q n M (showKeys s a1) := by
  unfold showKeys
  lift_lets
  intro t1; refine (have h1 : Stays q n M t1 := ?_; ?_) <;> [subst t1; clear_value t1]
  split
  with_reducible apply setBitF_stays
  with_reducible apply setF_stays
  with_reducible assumption
  with_reducible apply setBitF_stays
  with_reducible assumption
  with_reducible apply showPorts_stays
  with_reducible assumption

theorem sendConfirm_stays {s : State} (h : Stays q n M s) {a1} : Stays q n M (sendConfirm s a1) := by
  unfold sendConfirm
  split
  with_reducible apply sendOnPort_stays
  with_reducible assumption
  with_reducible assumption

theorem deriveSlice_stays {s : State} (h : Stays q n M s) {a1} : Stays q n M (deriveSlice s a1) := by
  unfold deriveSlice
  lift_lets
  intro t1; refine (have h1 : Stays q n M t1 := ?_; ?_) <;> [subst t1; clear_value t1]
  with_reducible apply modPort_stays
  with_reducible assumption
  with_reducible apply stays_ite
  with_reducible apply showKeys_stays
  with_reducible apply sendConfirm_stays
  with_reducible assumption
  with_reducible apply showKeys_stays
  with_reducible assumption

theorem showRotation_stays {s : State} (h : Stays q n M s) : Stays q n M (showRotation s) := by
  unfold showRotation
  with_reducible apply setF_stays
  with_reducible assumption

theorem execKeyRotation_stays {s : State} (h : Stays q n M s) : StaysReply q n M (execKeyRotation s) := by
  unfold execKeyRotation
  with_reducible apply staysReply_done
  with_reducible apply onlyIf_stays
  with_reducible assumption
  intro x1
  intro x2
  lift_lets
  intro t3; refine (have h3 : Stays q n M t3 := ?_; ?_) <;> [subst t3; clear_value t3]
  with_reducible apply stays_foldl
  with_reducible assumption
  intro x4
  intro x5
  intro x6
  with_reducible apply stays_ite
  with_reducible apply noteAt_stays
  with_reducible assumption
  with_reducible assumption
  with_reducible apply showRotation_stays
  with_reducible apply stays_foldl
  with_reducible assumption
  intro x7
  intro x8
  intro x9
  with_reducible apply stays_ite
  with_reducible assumption
  with_reducible apply showKeys_stays
  with_reducible assumption

theorem execKeySetupTimeout_stays {s : State} (h : Stays q n M s) {a0} : StaysReply q n M (execKeySetupTimeout a0 s) := by
  unfold execKeySetupTimeout
  with_reducible apply staysReply_done
  with_reducible apply onlyIf_stays
  with_reducible assumption
  intro x1
  intro x2
  lift_lets
  intro t3; clear_value t3
  intro t4; refine (have h4 : Stays q n M t4 := ?_; ?_) <;> [subst t4; clear_value t4]
  with_reducible apply stays_ite
  with_reducible apply dropKx_stays
  with_reducible assumption
  with_reducible assumption
  intro t5; refine (have h5 : Stays q n M t5 := ?_; ?_) <;> [subst t5; clear_value t5]
  with_reducible apply dropKx_stays
  with_reducible assumption
  with_reducible apply stays_ite
  with_reducible apply stays_ite
  with_reducible apply setPortState_stays
  with_reducible assumption
  with_reducible assumption
  with_reducible assumption

theorem kxFail_stays {s : State} (h : Stays q n M s) {a1 a2} : Stays q n M (kxFail s a1 a2) := by
  unfold kxFail
  with_reducible apply setPortState_stays
  with_reducible apply dropKx_stays
  with_reducible assumption

theorem installKeys_stays {s : State} (h : Stays q n M s) {a1 a2 a3 a4 a5} : Stays q n M (installKeys s a1 a2 a3 a4 a5) := by
  unfold installKeys
  lift_lets
  intro t1; clear_value t1
  intro t2; clear_value t2
  intro t3; refine (have h3 : Stays q n M t3 := ?_; ?_) <;> [subst t3; clear_value t3]
  with_reducible apply dropKx_stays
  with_reducible assumption
  intro t4; refine (have h4 : Stays q n M t4 := ?_; ?_) <;> [subst t4; clear_value t4]
  with_reducible apply modPort_stays
  with_reducible assumption
  intro t5; clear_value t5
  intro t6; clear_value t6
  intro t7; clear_value t7
  intro t8; refine (have h8 : Stays q n M t8 := ?_; ?_) <;> [subst t8; clear_value t8]
  with_reducible apply modPort_stays
  with_reducible assumption
  intro t9; refine (have h9 : Stays q n M t9 := ?_; ?_) <;> [subst t9; clear_value t9]
  with_reducible apply modPort_stays
  with_reducible assumption
  intro t10; refine (have h10 : Stays q n M t10 := ?_; ?_) <;> [subst t10; clear_value t10]
  with_reducible apply modPort_stays
  with_reducible apply setBitF_stays
  with_reducible assumption
  with_reducible apply stays_ite
  with_reducible apply pump_stays
  with_reducible apply showKeys_stays
  with_reducible assumption
  with_reducible apply stays_ite
  with_reducible apply pump_stays
  with_reducible apply showKeys_stays
  with_reducible assumption
  with_reducible apply deriveSlice_stays
  with_reducible assumption

theorem execKxCt_stays {s : State} (h : Stays q n M s) {a0 a1 a2 a3} : StaysReply q n M (execKxCt a0 a1 a2 a3 s) := by
  unfold execKxCt
  with_reducible apply staysReply_done
  split
  split
  with_reducible assumption
  lift_lets
  intro t1; clear_value t1
  with_reducible apply onlyIf_stays
  with_reducible assumption
  intro x2
  intro x3
  with_reducible apply stays_ite
  with_reducible apply kxFail_stays
  with_reducible assumption
  split
  with_reducible apply installKeys_stays
  with_reducible assumption
  with_reducible apply kxFail_stays
  with_reducible assumption
  with_reducible assumption

theorem execKxHello_stays {s : State} (h : Stays q n M s) {a0 a1 a2} : StaysReply q n M (execKxHello a0 a1 a2 s) := by
  unfold execKxHello
  lift_lets
  intro t1; clear_value t1
  intro t2; clear_value t2
  intro t3; clear_value t3
  with_reducible apply staysReply_done
  with_reducible apply onlyIf_stays
  with_reducible assumption
  intro x4
  intro x5
  lift_lets
  intro t6; refine (have h6 : Stays q n M t6 := ?_; ?_) <;> [subst t6; clear_value t6]
  with_reducible apply stays_ite
  with_reducible assumption
  with_reducible apply startKx_stays
  with_reducible assumption
  split
  dsimp only
  split
  with_reducible apply stays_ite
  with_reducible apply kxFail_stays
  with_reducible assumption
  with_reducible apply dropKx_stays
  with_reducible assumption
  with_reducible assumption
  dsimp only
  split
  with_reducible apply stays_ite
  with_reducible apply kxFail_stays
  with_reducible assumption
  with_reducible apply stays_ite
  with_reducible apply installKeys_stays
  with_reducible apply sendSetup_stays
  with_reducible apply signWith_stays
  with_reducible apply stays_mk
  with_reducible apply putKx_stays
  with_reducible assumption
  with_reducible apply putKx_stays
  with_reducible assumption
  with_reducible assumption

theorem expireKeys_stays {s : State} (h : Stays q n M s) {a1} : Stays q n M (expireKeys s a1) := by
  unfold expireKeys
  lift_lets
  intro t1; refine (have h1 : Stays q n M t1 := ?_; ?_) <;> [subst t1; clear_value t1]
  with_reducible apply modPort_stays
  with_reducible assumption
  with_reducible apply showKeys_stays
  with_reducible assumption

theorem execOldKeyExpiry_stays {s : State} (h : Stays q n M s) : StaysReply q n M (execOldKeyExpiry s) := by
  unfold execOldKeyExpiry
  with_reducible apply staysReply_done
  with_reducible apply onlyIf_stays
  with_reducible assumption
  intro x1
  intro x2
  with_reducible apply stays_foldl
  with_reducible assumption
  intro x3
  intro x4
  intro x5
  with_reducible apply stays_ite
  with_reducible assumption
  with_reducible apply expireKeys_stays
  with_reducible assumption

theorem execSliceKeyConfirmation_stays {s : State} (h : Stays q n M s) {a0 a1} : StaysReply q n M (execSliceKeyConfirmation a0 a1 s) := by
  unfold execSliceKeyConfirmation
  with_reducible apply staysReply_done
  with_reducible apply onlyIf_stays
  with_reducible assumption
  intro x1
  intro x2
  lift_lets
  intro t3; refine (have h3 : Stays q n M t3 := ?_; ?_) <;> [subst t3; clear_value t3]
  with_reducible apply setBitF_stays
  with_reducible assumption
  intro t4; refine (have h4 : Stays q n M t4 := ?_; ?_) <;> [subst t4; clear_value t4]
  with_reducible apply incF_stays
  with_reducible assumption
  intro t5; refine (have h5 : Stays q n M t5 := ?_; ?_) <;> [subst t5; clear_value t5]
  with_reducible apply setF_stays
  with_reducible assumption
  split
  with_reducible apply stays_ite
  with_reducible apply stays_ite
  with_reducible assumption
  with_reducible apply retryRoutes_stays
  with_reducible apply pump_stays
  with_reducible apply sendConfirm_stays
  with_reducible apply showKeys_stays
  with_reducible assumption
  with_reducible apply tellBluvisen_stays
  with_reducible apply noteAt_stays
  with_reducible assumption
  with_reducible assumption

end Sys2Proof.Machine
end

