-- ==== Sys2Proof/Laws/KeepsData.lean ====
section
/-!
SUPPORT. What each function of Machine/Data.lean keeps of a state: the queue, the time, the form of the registers and a condition on memory (`Stays`).
-/
set_option Elab.async false
set_option linter.all false
set_option maxRecDepth 4000
namespace Sys2Proof.Machine
variable {q : List Instr} {n : Nat} {M : List Host.Cell → Prop}

theorem recordLost_stays {s : State} (h : Stays q n M s) {a1} : Stays q n M (recordLost s a1) := by
  unfold recordLost
  split
  split
  with_reducible apply stays_ite
  with_reducible apply failRun_stays
  with_reducible assumption
  with_reducible assumption
  with_reducible assumption
  with_reducible assumption

theorem recordPlaced_stays {s : State} (h : Stays q n M s) {a1 a2 a3} : Stays q n M (recordPlaced s a1 a2 a3) := by
  unfold recordPlaced
  split
  lift_lets
  intro t1; clear_value t1
  intro t2; refine (have h2 : Stays q n M t2 := ?_; ?_) <;> [subst t2; clear_value t2]
  with_reducible apply stays_ite
  with_reducible apply incF_stays
  with_reducible assumption
  with_reducible assumption
  with_reducible apply stays_ite
  with_reducible assumption
  with_reducible apply stays_ite
  with_reducible apply stays_ite
  with_reducible apply dropFerry_stays
  with_reducible apply endCmd_stays
  with_reducible assumption
  with_reducible assumption
  with_reducible apply modCmd_stays
  with_reducible assumption
  with_reducible assumption

theorem recordAcked_stays {s : State} (h : Stays q n M s) {a1} : Stays q n M (recordAcked s a1) := by
  unfold recordAcked
  split
  with_reducible apply recordPlaced_stays
  with_reducible assumption
  with_reducible assumption

theorem beginMove_stays {s : State} (h : Stays q n M s) {a1 a2 a3 a4} : Stays q n M (beginMove s a1 a2 a3 a4) := by
  unfold beginMove
  lift_lets
  intro t1; clear_value t1
  with_reducible apply stays_mk
  with_reducible assumption

theorem dataInBegin_stays {s : State} (h : Stays q n M s) {a1 a2 a3} : Stays q n M (dataInBegin s a1 a2 a3) := by
  unfold dataInBegin
  lift_lets
  intro t1; clear_value t1
  intro t2; refine (have h2 : Stays q n M t2 := ?_; ?_) <;> [subst t2; clear_value t2]
  with_reducible apply beginMove_stays
  with_reducible assumption
  intro t3; refine (have h3 : Stays q n M t3 := ?_; ?_) <;> [subst t3; clear_value t3]
  with_reducible apply modCmd_stays
  with_reducible assumption
  with_reducible apply stays_ite
  with_reducible apply dropFerry_stays
  with_reducible apply endCmd_stays
  with_reducible assumption
  with_reducible assumption

theorem dataOutBegin_stays {s : State} (h : Stays q n M s) {a1 a2 a3} : Stays q n M (dataOutBegin s a1 a2 a3) := by
  unfold dataOutBegin
  lift_lets
  intro t1; clear_value t1
  intro t2; refine (have h2 : Stays q n M t2 := ?_; ?_) <;> [subst t2; clear_value t2]
  with_reducible apply beginMove_stays
  with_reducible assumption
  intro t3; clear_value t3
  with_reducible apply stays_mk
  with_reducible assumption

theorem inWork_stays {s : State} (hM : MemOk M) (h : Stays q n M s) {a1 a2} : Stays q n M (inWork s a1 a2) := by
  unfold inWork
  split
  lift_lets
  intro t1; clear_value t1
  intro t2; clear_value t2
  intro t3; clear_value t3
  intro t4; clear_value t4
  with_reducible apply stays_ite
  with_reducible apply failRun_stays
  with_reducible assumption
  split
  with_reducible apply failRun_stays
  with_reducible apply incF_stays
  with_reducible assumption
  split
  with_reducible apply failMem_stays
  with_reducible refine stays_of_snd (by assumption) ?_
  with_reducible apply runMM_stays
  with_reducible assumption
  with_reducible apply writeBlock_stays
  assumption
  lift_lets
  intro t5; refine (have h5 : Stays q n M t5 := ?_; ?_) <;> [subst t5; clear_value t5]
  with_reducible apply unitDone_stays
  with_reducible apply staleRange_stays
  with_reducible refine stays_of_snd (by assumption) ?_
  with_reducible apply runMM_stays
  with_reducible assumption
  with_reducible apply writeBlock_stays
  assumption
  with_reducible apply stays_ite
  with_reducible apply dropFerry_stays
  with_reducible assumption
  with_reducible assumption
  with_reducible assumption

theorem execDataIn_stays {s : State} (hM : MemOk M) (h : Stays q n M s) {a0} : StaysReply q n M (execDataIn a0 s) := by
  unfold execDataIn
  with_reducible apply staysReply_done
  split
  with_reducible apply intakeWork_stays
  with_reducible assumption
  with_reducible apply onlyIf_stays
  with_reducible assumption
  intro x1
  intro x2
  with_reducible apply inClass_stays
  with_reducible assumption
  intro x3
  intro x4
  with_reducible apply withUpsets_stays
  assumption
  with_reducible assumption
  intro x5
  intro x6
  with_reducible apply inWork_stays
  assumption
  with_reducible assumption

theorem outWork_stays {s : State} (h : Stays q n M s) {a1 a2} : Stays q n M (outWork s a1 a2) := by
  unfold outWork
  split
  lift_lets
  intro t1; clear_value t1
  intro t2; clear_value t2
  intro t3; refine (have h3 : ∀ y0 y1 y2, Stays q n M y0 → Stays q n M (t3 y0 y1 y2) := ?_; ?_) <;> [subst t3; clear_value t3]
  intro x4
  intro x5
  intro x6
  intro x7
  beta_reduce
  lift_lets
  intro t8; clear_value t8
  intro t9; refine (have h9 : Stays q n M t9 := ?_; ?_) <;> [subst t9; clear_value t9]
  with_reducible apply stays_mk
  with_reducible assumption
  beta_reduce
  lift_lets
  intro t10; clear_value t10
  with_reducible apply stays_ite
  with_reducible apply recordPlaced_stays
  with_reducible apply hostWrite_stays
  with_reducible assumption
  with_reducible apply toPilot_stays
  with_reducible assumption
  with_reducible apply stays_ite
  with_reducible assumption
  with_reducible apply stays_ite
  with_reducible apply failRun_stays
  with_reducible assumption
  with_reducible apply stays_ite
  with_reducible apply h3
  with_reducible assumption
  split
  with_reducible apply failMem_stays
  with_reducible refine stays_of_snd (by assumption) ?_
  with_reducible apply runMM_stays
  with_reducible assumption
  with_reducible apply readBlock_stays
  with_reducible apply h3
  with_reducible refine stays_of_snd (by assumption) ?_
  with_reducible apply runMM_stays
  with_reducible assumption
  with_reducible apply readBlock_stays
  with_reducible assumption

theorem execDataOut_stays {s : State} (hM : MemOk M) (h : Stays q n M s) {a0} : StaysReply q n M (execDataOut a0 s) := by
  unfold execDataOut
  with_reducible apply staysReply_done
  split
  with_reducible apply intakeWork_stays
  with_reducible assumption
  with_reducible apply onlyIf_stays
  with_reducible assumption
  intro x1
  intro x2
  with_reducible apply inClass_stays
  with_reducible assumption
  intro x3
  intro x4
  with_reducible apply withUpsets_stays
  assumption
  with_reducible assumption
  intro x5
  intro x6
  with_reducible apply outWork_stays
  with_reducible assumption

theorem execSnapshotOut_stays {s : State} (hM : MemOk M) (h : Stays q n M s) {a0} : StaysReply q n M (execSnapshotOut a0 s) := by
  unfold execSnapshotOut
  with_reducible apply staysReply_done
  split
  with_reducible apply intakeWork_stays
  with_reducible assumption
  with_reducible apply onlyIf_stays
  with_reducible assumption
  intro x1
  intro x2
  with_reducible apply inClass_stays
  with_reducible assumption
  intro x3
  intro x4
  with_reducible apply withUpsets_stays
  assumption
  with_reducible assumption
  intro x5
  intro x6
  with_reducible apply outWork_stays
  with_reducible assumption

theorem snapBegin_stays {s : State} (h : Stays q n M s) {a1 a2 a3} : Stays q n M (snapBegin s a1 a2 a3) := by
  unfold snapBegin
  lift_lets
  intro t1; refine (have h1 : Stays q n M t1 := ?_; ?_) <;> [subst t1; clear_value t1]
  with_reducible apply beginMove_stays
  with_reducible assumption
  intro t2; clear_value t2
  with_reducible apply stays_mk
  with_reducible assumption

end Sys2Proof.Machine
end

