-- ==== Sys2Proof/Laws/KeepsDarend.lean ====
section
/-!
SUPPORT. What each function of Machine/Darend.lean keeps of a state: the queue, the time, the form of the registers and a condition on memory (`Stays`).
-/
set_option Elab.async false
set_option linter.all false
set_option maxRecDepth 4000
namespace Sys2Proof.Machine
variable {q : List Instr} {n : Nat} {M : List Host.Cell → Prop}

theorem frameLost_stays {s : State} (h : Stays q n M s) {a1 a2} : Stays q n M (frameLost s a1 a2) := by
  unfold frameLost
  with_reducible apply recordLost_stays
  with_reducible apply ferryLost_stays
  with_reducible assumption

theorem discardStore_stays {s : State} (h : Stays q n M s) {a1} : Stays q n M (discardStore s a1) := by
  unfold discardStore
  lift_lets
  intro t1; clear_value t1
  intro t2; clear_value t2
  intro t3; refine (have h3 : Stays q n M t3 := ?_; ?_) <;> [subst t3; clear_value t3]
  with_reducible apply incF_stays
  with_reducible assumption
  intro t4; refine (have h4 : Stays q n M t4 := ?_; ?_) <;> [subst t4; clear_value t4]
  with_reducible apply note_stays
  with_reducible assumption
  intro t5; refine (have h5 : Stays q n M t5 := ?_; ?_) <;> [subst t5; clear_value t5]
  with_reducible apply modPort_stays
  with_reducible assumption
  with_reducible apply stays_ite
  with_reducible assumption
  with_reducible apply stays_foldl
  with_reducible assumption
  intro x6
  intro x7
  intro x8
  with_reducible apply frameLost_stays
  with_reducible assumption

theorem portWatch_stays {s : State} (h : Stays q n M s) {a1} : Stays q n M (portWatch s a1) := by
  unfold portWatch
  lift_lets
  intro t1; refine (have h1 : Stays q n M t1 := ?_; ?_) <;> [subst t1; clear_value t1]
  with_reducible apply stays_ite
  with_reducible assumption
  with_reducible apply setF_stays
  with_reducible assumption
  with_reducible apply retireKeys_stays
  with_reducible apply modPort_stays
  with_reducible assumption

theorem frameAcked_stays {s : State} (h : Stays q n M s) {a1 a2} : Stays q n M (frameAcked s a1 a2) := by
  unfold frameAcked
  with_reducible apply recordAcked_stays
  with_reducible apply ferryAcked_stays
  with_reducible assumption

theorem freeStore_stays {s : State} (h : Stays q n M s) {a1 a2} : Stays q n M (freeStore s a1 a2) := by
  unfold freeStore
  lift_lets
  intro t1; clear_value t1
  intro t2; refine (have h2 : Stays q n M t2 := ?_; ?_) <;> [subst t2; clear_value t2]
  with_reducible apply modPort_stays
  with_reducible assumption
  with_reducible apply stays_ite
  with_reducible assumption
  with_reducible apply stays_foldl
  with_reducible assumption
  intro x3
  intro x4
  intro x5
  with_reducible apply frameAcked_stays
  with_reducible assumption

theorem takeExtension_stays {s : State} (h : Stays q n M s) {a1} : Stays q n M (takeExtension s a1) := by
  unfold takeExtension
  lift_lets
  intro t1; clear_value t1
  intro t2; clear_value t2
  intro t3; clear_value t3
  intro t4; clear_value t4
  with_reducible apply setF_stays
  with_reducible apply modPort_stays
  with_reducible assumption

theorem measureTrip_stays {s : State} (h : Stays q n M s) {a1} : Stays q n M (measureTrip s a1) := by
  unfold measureTrip
  split
  with_reducible apply setF_stays
  with_reducible assumption
  with_reducible assumption

theorem comeUp_stays {s : State} (h : Stays q n M s) {a1} : Stays q n M (comeUp s a1) := by
  unfold comeUp
  split
  with_reducible assumption
  lift_lets
  intro t1; refine (have h1 : Stays q n M t1 := ?_; ?_) <;> [subst t1; clear_value t1]
  with_reducible apply freeStore_stays
  with_reducible assumption
  intro t2; clear_value t2
  intro t3; clear_value t3
  intro t4; refine (have h4 : Stays q n M t4 := ?_; ?_) <;> [subst t4; clear_value t4]
  with_reducible apply stays_ite
  with_reducible assumption
  with_reducible apply discardStore_stays
  with_reducible assumption
  intro t5; clear_value t5
  intro t6; refine (have h6 : Stays q n M t6 := ?_; ?_) <;> [subst t6; clear_value t6]
  with_reducible apply modPort_stays
  with_reducible assumption
  intro t7; refine (have h7 : Stays q n M t7 := ?_; ?_) <;> [subst t7; clear_value t7]
  with_reducible apply showKeys_stays
  with_reducible apply takeExtension_stays
  with_reducible apply measureTrip_stays
  with_reducible assumption
  intro t8; clear_value t8
  intro t9; refine (have h9 : Stays q n M t9 := ?_; ?_) <;> [subst t9; clear_value t9]
  with_reducible apply setPortState_stays
  with_reducible assumption
  intro t10; clear_value t10
  with_reducible apply stays_ite
  with_reducible apply retrain_stays
  with_reducible assumption
  with_reducible apply stays_ite
  with_reducible assumption
  with_reducible apply modPort_stays
  with_reducible apply incF_stays
  with_reducible apply stays_mk
  with_reducible assumption

theorem alignedLanes_stays {s : State} (h : Stays q n M s) {a1} : Stays q n M (alignedLanes s a1) := by
  unfold alignedLanes
  lift_lets
  intro t1; clear_value t1
  intro t2; clear_value t2
  intro t3; clear_value t3
  intro t4; clear_value t4
  intro t5; clear_value t5
  intro t6; clear_value t6
  intro t7; clear_value t7
  intro t8; refine (have h8 : Stays q n M t8 := ?_; ?_) <;> [subst t8; clear_value t8]
  with_reducible apply setLaneMap_stays
  with_reducible apply setLaneMap_stays
  with_reducible assumption
  intro t9; refine (have h9 : Stays q n M t9 := ?_; ?_) <;> [subst t9; clear_value t9]
  with_reducible apply stays_foldl
  with_reducible assumption
  intro x10
  intro x11
  intro x12
  with_reducible apply stays_ite
  with_reducible apply sendBlock_stays
  with_reducible assumption
  with_reducible assumption
  intro t13; refine (have h13 : Stays q n M t13 := ?_; ?_) <;> [subst t13; clear_value t13]
  with_reducible apply modPort_stays
  with_reducible assumption
  with_reducible apply sendHello_stays
  with_reducible assumption

theorem alignPhase_stays {s : State} (h : Stays q n M s) {a1} : Stays q n M (alignPhase s a1) := by
  unfold alignPhase
  lift_lets
  intro t1; clear_value t1
  intro t2; clear_value t2
  with_reducible apply stays_ite
  with_reducible apply alignedLanes_stays
  with_reducible assumption
  with_reducible assumption

theorem portBeat_stays {s : State} (h : Stays q n M s) {a1 a2} : Stays q n M (portBeat s a1 a2) := by
  unfold portBeat
  lift_lets
  intro t1; clear_value t1
  intro t2; refine (have h2 : Stays q n M t2 := ?_; ?_) <;> [subst t2; clear_value t2]
  with_reducible apply modPort_stays
  with_reducible assumption
  intro t3; clear_value t3
  intro t4; clear_value t4
  intro t5; refine (have h5 : Stays q n M t5 := ?_; ?_) <;> [subst t5; clear_value t5]
  with_reducible apply setPortState_stays
  with_reducible apply modPort_stays
  with_reducible assumption
  intro t6; clear_value t6
  with_reducible apply stays_ite
  with_reducible assumption
  with_reducible apply stays_ite
  with_reducible apply stays_ite
  with_reducible assumption
  with_reducible apply setPortState_stays
  with_reducible assumption
  with_reducible apply stays_ite
  with_reducible apply stays_ite
  with_reducible apply stays_ite
  with_reducible apply modPort_stays
  with_reducible assumption
  with_reducible assumption
  with_reducible assumption
  with_reducible apply stays_ite
  with_reducible apply stays_ite
  with_reducible apply modPort_stays
  with_reducible assumption
  with_reducible apply stays_ite
  with_reducible apply comeUp_stays
  with_reducible assumption
  with_reducible apply alignPhase_stays
  with_reducible assumption
  with_reducible assumption

theorem trainFully_stays {s : State} (h : Stays q n M s) {a1} : Stays q n M (trainFully s a1) := by
  unfold trainFully
  with_reducible apply modPort_stays
  with_reducible assumption

theorem quickMatch_stays {s : State} (h : Stays q n M s) {a1 a2} : Stays q n M (quickMatch s a1 a2) := by
  unfold quickMatch
  lift_lets
  intro t1; refine (have h1 : Stays q n M t1 := ?_; ?_) <;> [subst t1; clear_value t1]
  with_reducible apply modPort_stays
  with_reducible assumption
  with_reducible apply showKeys_stays
  with_reducible assumption

theorem checkPeer_stays {s : State} (h : Stays q n M s) {a1} : Stays q n M (checkPeer s a1) := by
  unfold checkPeer
  lift_lets
  intro t1; clear_value t1
  split
  with_reducible assumption
  lift_lets
  intro t2; refine (have h2 : Stays q n M t2 := ?_; ?_) <;> [subst t2; clear_value t2]
  with_reducible apply stays_ite
  with_reducible apply sendOnPort_stays
  with_reducible apply modPort_stays
  with_reducible assumption
  with_reducible assumption
  intro t3; clear_value t3
  intro t4; clear_value t4
  intro t5; refine (have h5 : Stays q n M t5 := ?_; ?_) <;> [subst t5; clear_value t5]
  with_reducible apply setF_stays
  with_reducible assumption
  intro t6; clear_value t6
  intro t7; refine (have h7 : Stays q n M t7 := ?_; ?_) <;> [subst t7; clear_value t7]
  with_reducible apply stays_ite
  with_reducible assumption
  with_reducible apply setPortState_stays
  with_reducible assumption
  intro t8; refine (have h8 : Stays q n M t8 := ?_; ?_) <;> [subst t8; clear_value t8]
  with_reducible apply modPort_stays
  with_reducible assumption
  intro t9; refine (have h9 : Stays q n M t9 := ?_; ?_) <;> [subst t9; clear_value t9]
  with_reducible apply setF_stays
  with_reducible assumption
  intro t10; refine (have h10 : Stays q n M t10 := ?_; ?_) <;> [subst t10; clear_value t10]
  with_reducible apply setF_stays
  with_reducible assumption
  with_reducible apply stays_ite
  with_reducible apply trainFully_stays
  with_reducible assumption
  split
  lift_lets
  intro t11; refine (have h11 : Stays q n M t11 := ?_; ?_) <;> [subst t11; clear_value t11]
  with_reducible apply setPortState_stays
  with_reducible assumption
  with_reducible apply stays_ite
  with_reducible apply tellBluvisen_stays
  with_reducible apply noteAt_stays
  with_reducible assumption
  with_reducible assumption
  split
  with_reducible apply quickMatch_stays
  with_reducible assumption
  with_reducible apply startKx_stays
  with_reducible apply dropKx_stays
  with_reducible apply stays_ite
  with_reducible apply sendHello_stays
  with_reducible assumption
  with_reducible assumption

theorem sendAck_stays {s : State} (h : Stays q n M s) {a1 a2} : Stays q n M (sendAck s a1 a2) := by
  unfold sendAck
  lift_lets
  intro t1; clear_value t1
  with_reducible apply sendBlock_stays
  with_reducible assumption

theorem acceptSeq_stays {s : State} (h : Stays q n M s) {a1 a2 a3 a4} : Stays q n M (acceptSeq s a1 a2 a3 a4) := by
  unfold acceptSeq
  lift_lets
  intro t1; refine (have h1 : Stays q n M t1 := ?_; ?_) <;> [subst t1; clear_value t1]
  with_reducible apply modPort_stays
  with_reducible assumption
  with_reducible apply sendAck_stays
  with_reducible apply stays_ite
  with_reducible apply freeCredits_stays
  with_reducible assumption
  with_reducible assumption

theorem spread_stays {s : State} (h : Stays q n M s) {a1 a2 a3} : Stays q n M (spread s a1 a2 a3) := by
  unfold spread
  with_reducible apply stays_foldl
  with_reducible assumption
  intro x1
  intro x2
  intro x3
  with_reducible apply stays_ite
  with_reducible apply giveFrame_stays
  with_reducible assumption
  with_reducible assumption

theorem deliver_stays {s : State} (h : Stays q n M s) {a1 a2 a3} : Stays q n M (deliver s a1 a2 a3) := by
  unfold deliver
  lift_lets
  intro t1; clear_value t1
  intro t2; clear_value t2
  intro t3; refine (have h3 : Stays q n M t3 := ?_; ?_) <;> [subst t3; clear_value t3]
  with_reducible apply stays_mk
  with_reducible assumption
  with_reducible apply stays_ite
  with_reducible assumption
  with_reducible apply stays_ite
  with_reducible apply spread_stays
  with_reducible assumption
  with_reducible assumption

theorem replayAll_stays {s : State} (h : Stays q n M s) {a1} : Stays q n M (replayAll s a1) := by
  unfold replayAll
  lift_lets
  intro t1; clear_value t1
  intro t2; refine (have h2 : Stays q n M t2 := ?_; ?_) <;> [subst t2; clear_value t2]
  with_reducible apply incF_stays
  with_reducible apply stays_mk
  with_reducible assumption
  intro t3; refine (have h3 : Stays q n M t3 := ?_; ?_) <;> [subst t3; clear_value t3]
  with_reducible apply modPort_stays
  with_reducible assumption
  with_reducible apply stays_ite
  with_reducible assumption
  with_reducible apply stays_ite
  with_reducible apply setPortState_stays
  with_reducible apply modPort_stays
  with_reducible assumption
  with_reducible assumption

theorem takeAck_stays {s : State} (h : Stays q n M s) {a1 a2} : Stays q n M (takeAck s a1 a2) := by
  unfold takeAck
  lift_lets
  intro t1; refine (have h1 : Stays q n M t1 := ?_; ?_) <;> [subst t1; clear_value t1]
  with_reducible apply modPort_stays
  with_reducible assumption
  intro t2; refine (have h2 : Stays q n M t2 := ?_; ?_) <;> [subst t2; clear_value t2]
  with_reducible apply freeStore_stays
  with_reducible assumption
  intro t3; refine (have h3 : Stays q n M t3 := ?_; ?_) <;> [subst t3; clear_value t3]
  with_reducible apply stays_ite
  with_reducible apply replayAll_stays
  with_reducible assumption
  with_reducible assumption
  with_reducible apply pump_stays
  with_reducible assumption

theorem execAck_stays {s : State} (h : Stays q n M s) {a0 a1} : StaysReply q n M (execAck a0 a1 s) := by
  unfold execAck
  with_reducible apply staysReply_done
  with_reducible apply onlyIf_stays
  with_reducible assumption
  intro x1
  intro x2
  with_reducible apply takeAck_stays
  with_reducible apply cleanBlock_stays
  with_reducible assumption

theorem execAlign_stays {s : State} (h : Stays q n M s) {a0 a1} : StaysReply q n M (execAlign a0 a1 s) := by
  unfold execAlign
  with_reducible apply staysReply_done
  with_reducible apply onlyIf_stays
  with_reducible assumption
  intro x1
  intro x2
  with_reducible apply alignPhase_stays
  with_reducible apply alignBlock_stays
  with_reducible apply stays_ite
  with_reducible apply cleanBlock_stays
  with_reducible assumption
  with_reducible assumption

theorem tagFailed_stays {s : State} (h : Stays q n M s) {a1} : Stays q n M (tagFailed s a1) := by
  unfold tagFailed
  lift_lets
  intro t1; refine (have h1 : Stays q n M t1 := ?_; ?_) <;> [subst t1; clear_value t1]
  with_reducible apply incF_stays
  with_reducible apply sendAck_stays
  with_reducible assumption
  intro t2; clear_value t2
  intro t3; refine (have h3 : Stays q n M t3 := ?_; ?_) <;> [subst t3; clear_value t3]
  with_reducible apply modPort_stays
  with_reducible assumption
  with_reducible apply stays_ite
  with_reducible apply setPortState_stays
  with_reducible apply setPortState_stays
  with_reducible assumption
  with_reducible assumption

theorem forward_stays {s : State} (h : Stays q n M s) {a1 a2 a3} : Stays q n M (forward s a1 a2 a3) := by
  unfold forward
  lift_lets
  intro t1; clear_value t1
  intro t2
  intro t3; refine (have h3 : Stays q n M t3 := ?_; ?_) <;> [subst t3; clear_value t3]
  with_reducible apply acceptSeq_stays
  with_reducible assumption
  intro t4; clear_value t4
  with_reducible apply stays_ite
  with_reducible apply routeFrame_stays
  with_reducible apply acceptSeq_stays
  with_reducible assumption
  with_reducible apply stays_mk
  with_reducible assumption

theorem takeBody_stays {s : State} (h : Stays q n M s) {a1 a2 a3} : Stays q n M (takeBody s a1 a2 a3) := by
  unfold takeBody
  lift_lets
  intro t1; clear_value t1
  intro t2; clear_value t2
  intro t3; clear_value t3
  intro t4; clear_value t4
  with_reducible apply stays_ite
  with_reducible apply incF_stays
  with_reducible apply acceptSeq_stays
  with_reducible assumption
  with_reducible apply stays_ite
  with_reducible apply incF_stays
  with_reducible apply acceptSeq_stays
  with_reducible assumption
  with_reducible apply stays_ite
  with_reducible apply deliver_stays
  with_reducible apply acceptSeq_stays
  with_reducible assumption
  with_reducible apply forward_stays
  with_reducible assumption

theorem execDarendFrame_stays {s : State} (h : Stays q n M s) {a0 a1} : StaysReply q n M (execDarendFrame a0 a1 s) := by
  unfold execDarendFrame
  lift_lets
  intro t1; clear_value t1
  with_reducible apply staysReply_done
  with_reducible apply onlyIf_stays
  with_reducible assumption
  intro x2
  intro x3
  lift_lets
  intro t4; refine (have h4 : Stays q n M t4 := ?_; ?_) <;> [subst t4; clear_value t4]
  with_reducible apply takeAck_stays
  with_reducible apply cleanBlock_stays
  with_reducible assumption
  intro t5; clear_value t5
  intro t6; refine (have h6 : Stays q n M t6 := ?_; ?_) <;> [subst t6; clear_value t6]
  with_reducible apply acceptSeq_stays
  with_reducible assumption
  with_reducible apply stays_ite
  with_reducible apply sendAck_stays
  with_reducible apply incF_stays
  with_reducible assumption
  with_reducible apply stays_ite
  with_reducible apply sendAck_stays
  with_reducible assumption
  with_reducible apply stays_ite
  with_reducible apply noteAt_stays
  with_reducible apply incF_stays
  with_reducible assumption
  split
  dsimp only
  split
  with_reducible apply tagFailed_stays
  with_reducible assumption
  with_reducible apply takeBody_stays
  with_reducible apply stays_ite
  with_reducible apply modPort_stays
  with_reducible assumption
  with_reducible assumption
  lift_lets
  intro t7; clear_value t7
  intro t8; refine (have h8 : Stays q n M t8 := ?_; ?_) <;> [subst t8; clear_value t8]
  with_reducible apply stays_ite
  with_reducible apply modPort_stays
  with_reducible assumption
  with_reducible assumption
  split
  with_reducible apply tagFailed_stays
  with_reducible assumption
  with_reducible apply takeBody_stays
  with_reducible assumption

theorem writeReplayRegion_stays {s : State} (h : Stays q n M s) {a1 a2} : Stays q n M (writeReplayRegion s a1 a2) := by
  unfold writeReplayRegion
  lift_lets
  intro t1; clear_value t1
  intro t2; clear_value t2
  intro t3; clear_value t3
  with_reducible apply stays_ite
  with_reducible apply refuseAs_stays
  with_reducible assumption
  with_reducible apply wr_stays
  with_reducible assumption

theorem execDrdReplayRegionWrite_stays {s : State} (h : Stays q n M s) {a0} : StaysReply q n M (execDrdReplayRegionWrite a0 s) := by
  unfold execDrdReplayRegionWrite
  with_reducible apply staysReply_done
  with_reducible apply writeReplayRegion_stays
  with_reducible assumption

theorem execHello0_stays {s : State} (h : Stays q n M s) {a0 a1} : StaysReply q n M (execHello0 a0 a1 s) := by
  unfold execHello0
  with_reducible apply staysReply_done
  with_reducible apply onlyIf_stays
  with_reducible assumption
  intro x1
  intro x2
  with_reducible apply modPort_stays
  with_reducible assumption

theorem execHello1_stays {s : State} (h : Stays q n M s) {a0 a1} : StaysReply q n M (execHello1 a0 a1 s) := by
  unfold execHello1
  with_reducible apply staysReply_done
  split
  with_reducible assumption
  lift_lets
  intro t1; clear_value t1
  with_reducible apply onlyIf_stays
  with_reducible assumption
  intro x2
  intro x3
  lift_lets
  intro t4; clear_value t4
  intro t5; clear_value t5
  intro t6; refine (have h6 : Stays q n M t6 := ?_; ?_) <;> [subst t6; clear_value t6]
  with_reducible apply showPeer_stays
  with_reducible apply modPort_stays
  with_reducible assumption
  intro t7; refine (have h7 : Stays q n M t7 := ?_; ?_) <;> [subst t7; clear_value t7]
  with_reducible apply showPeer_stays
  with_reducible apply modPort_stays
  with_reducible assumption
  intro t8; refine (have h8 : Stays q n M t8 := ?_; ?_) <;> [subst t8; clear_value t8]
  with_reducible apply showPeer_stays
  with_reducible apply modPort_stays
  with_reducible assumption
  intro t9; refine (have h9 : Stays q n M t9 := ?_; ?_) <;> [subst t9; clear_value t9]
  with_reducible apply setF_stays
  with_reducible assumption
  with_reducible apply stays_ite
  with_reducible apply stays_ite
  with_reducible apply checkPeer_stays
  with_reducible assumption
  with_reducible assumption
  with_reducible apply stays_ite
  with_reducible apply stays_ite
  with_reducible apply discoverChange_stays
  with_reducible apply checkPeer_stays
  with_reducible assumption
  with_reducible assumption
  with_reducible apply stays_ite
  with_reducible apply retryRoutes_stays
  with_reducible apply pump_stays
  with_reducible apply showPorts_stays
  with_reducible assumption
  with_reducible apply modPort_stays
  with_reducible assumption

theorem execHelloResend_stays {s : State} (h : Stays q n M s) {a0} : StaysReply q n M (execHelloResend a0 s) := by
  unfold execHelloResend
  with_reducible apply staysReply_done
  with_reducible apply onlyIf_stays
  with_reducible assumption
  intro x1
  intro x2
  lift_lets
  intro t3; clear_value t3
  with_reducible apply stays_ite
  with_reducible apply stays_ite
  with_reducible apply setPortState_stays
  with_reducible assumption
  with_reducible apply sendHello_stays
  with_reducible apply modPort_stays
  with_reducible assumption
  with_reducible apply sendHello_stays
  with_reducible assumption

theorem execHold_stays {s : State} (h : Stays q n M s) {a0 a1 a2 a3} : StaysReply q n M (execHold a0 a1 a2 a3 s) := by
  unfold execHold
  with_reducible apply staysReply_done
  with_reducible apply onlyIf_stays
  with_reducible assumption
  intro x1
  intro x2
  with_reducible apply putHold_stays
  with_reducible assumption

theorem execHoldResumeTimeout_stays {s : State} (h : Stays q n M s) {a0} : StaysReply q n M (execHoldResumeTimeout a0 s) := by
  unfold execHoldResumeTimeout
  with_reducible apply staysReply_done
  split
  with_reducible apply onlyIf_stays
  with_reducible assumption
  intro x1
  intro x2
  with_reducible apply setPortState_stays
  with_reducible assumption
  with_reducible assumption

theorem execIdentityResend_stays {s : State} (h : Stays q n M s) {a0} : StaysReply q n M (execIdentityResend a0 s) := by
  unfold execIdentityResend
  with_reducible apply staysReply_done
  with_reducible apply onlyIf_stays
  with_reducible assumption
  intro x1
  intro x2
  with_reducible apply sendHello_stays
  with_reducible assumption

theorem execPortLostTimeout_stays {s : State} (h : Stays q n M s) {a0} : StaysReply q n M (execPortLostTimeout a0 s) := by
  unfold execPortLostTimeout
  with_reducible apply staysReply_done
  split
  with_reducible apply onlyIf_stays
  with_reducible assumption
  intro x1
  intro x2
  with_reducible apply modPort_stays
  with_reducible apply discardStore_stays
  with_reducible assumption
  with_reducible assumption

theorem execReplayTimeout_stays {s : State} (h : Stays q n M s) {a0} : StaysReply q n M (execReplayTimeout a0 s) := by
  unfold execReplayTimeout
  with_reducible apply staysReply_done
  with_reducible apply onlyIf_stays
  with_reducible assumption
  intro x1
  intro x2
  with_reducible apply replayAll_stays
  with_reducible assumption

theorem execTrainingTimeout_stays {s : State} (h : Stays q n M s) {a0} : StaysReply q n M (execTrainingTimeout a0 s) := by
  unfold execTrainingTimeout
  with_reducible apply staysReply_done
  with_reducible apply onlyIf_stays
  with_reducible assumption
  intro x1
  intro x2
  with_reducible apply setPortState_stays
  with_reducible assumption

end Sys2Proof.Machine
end

