-- ==== Sys2Proof/Laws/KeepsRedraw.lean ====
section
/-!
SUPPORT. What each function of Machine/Redraw.lean keeps of a state: the queue, the time, the form of the registers and a condition on memory (`Stays`).
-/
set_option Elab.async false
set_option linter.all false
set_option maxRecDepth 4000
namespace Sys2Proof.Machine
variable {q : List Instr} {n : Nat} {M : List Host.Cell → Prop}

theorem storeLink_stays {s : State} (h : Stays q n M s) {a1} : Stays q n M (storeLink s a1) := by
  unfold storeLink
  split
  with_reducible assumption
  split
  with_reducible apply modPort_stays
  with_reducible refine stays_of_snd (by assumption) ?_
  with_reducible apply takeFree_stays
  with_reducible assumption

theorem showPending_stays {s : State} (h : Stays q n M s) : Stays q n M (showPending s) := by
  unfold showPending
  with_reducible apply stays_foldl
  with_reducible assumption
  intro x1
  intro x2
  intro x3
  split
  with_reducible apply setF_stays
  with_reducible apply setF_stays
  with_reducible apply setF_stays
  with_reducible assumption
  with_reducible apply setF_stays
  with_reducible apply setF_stays
  with_reducible apply setF_stays
  with_reducible assumption

theorem putRedraw_stays {s : State} (h : Stays q n M s) {a1} : Stays q n M (putRedraw s a1) := by
  unfold putRedraw
  lift_lets
  intro t1; clear_value t1
  with_reducible apply showPending_stays
  with_reducible apply stays_mk
  with_reducible assumption

theorem scheduleBeat_stays {s : State} (h : Stays q n M s) : Stays q n M (scheduleBeat s) := by
  unfold scheduleBeat
  lift_lets
  intro t1; clear_value t1
  split
  with_reducible assumption
  lift_lets
  intro t2; clear_value t2
  intro t3; clear_value t3
  intro t4; refine (have h4 : Stays q n M t4 := ?_; ?_) <;> [subst t4; clear_value t4]
  with_reducible apply stays_mk
  with_reducible assumption
  split
  with_reducible assumption
  with_reducible apply putRedraw_stays
  with_reducible assumption

theorem holdForRedraw_stays {s : State} (h : Stays q n M s) {a1 a2} : Stays q n M (holdForRedraw s a1 a2) := by
  unfold holdForRedraw
  with_reducible apply stays_foldl
  with_reducible assumption
  intro x1
  intro x2
  intro x3
  with_reducible apply stays_ite
  with_reducible apply stays_ite
  with_reducible apply sendHold_stays
  with_reducible assumption
  with_reducible apply sendHold_stays
  with_reducible assumption
  with_reducible assumption

theorem retune_stays {s : State} (h : Stays q n M s) {s1 a2} (h1 : Stays q n M s1): Stays q n M (retune s s1 a2) := by
  unfold retune
  lift_lets
  intro t1; refine (have h1 : Stays q n M t1 := ?_; ?_) <;> [subst t1; clear_value t1]
  with_reducible apply stays_foldl
  with_reducible assumption
  intro x2
  intro x3
  intro x4
  with_reducible apply incF_stays
  with_reducible apply setF_stays
  with_reducible assumption
  intro t5; refine (have h5 : Stays q n M t5 := ?_; ?_) <;> [subst t5; clear_value t5]
  with_reducible apply stays_foldl
  with_reducible assumption
  intro x6
  intro x7
  intro x8
  with_reducible apply stays_ite
  with_reducible apply putHold_stays
  with_reducible assumption
  with_reducible assumption
  intro t9; clear_value t9
  with_reducible apply stays_mk
  with_reducible assumption

theorem redrawNow_stays {s : State} (h : Stays q n M s) {a1} : Stays q n M (redrawNow s a1) := by
  unfold redrawNow
  with_reducible apply stays_ite
  with_reducible assumption
  with_reducible apply retune_stays
  with_reducible assumption
  with_reducible assumption

theorem setOrigin_stays {s : State} (h : Stays q n M s) {a1} : Stays q n M (setOrigin s a1) := by
  unfold setOrigin
  lift_lets
  intro t1; clear_value t1
  with_reducible apply stays_mk
  with_reducible assumption

theorem changePeer_stays {s : State} (h : Stays q n M s) {a1} : Stays q n M (changePeer s a1) := by
  unfold changePeer
  lift_lets
  intro t1; refine (have h1 : Stays q n M t1 := ?_; ?_) <;> [subst t1; clear_value t1]
  with_reducible apply stays_ite
  with_reducible apply storeLink_stays
  with_reducible assumption
  with_reducible assumption
  intro t2; refine (have h2 : Stays q n M t2 := ?_; ?_) <;> [subst t2; clear_value t2]
  with_reducible apply discardStore_stays
  with_reducible assumption
  intro t3; refine (have h3 : Stays q n M t3 := ?_; ?_) <;> [subst t3; clear_value t3]
  with_reducible apply stays_ite
  with_reducible apply retrain_stays
  with_reducible assumption
  with_reducible apply setPortState_stays
  with_reducible assumption
  with_reducible apply stays_ite
  with_reducible apply setPortState_stays
  with_reducible assumption
  with_reducible apply stays_ite
  with_reducible apply modPort_stays
  with_reducible assumption
  with_reducible assumption

theorem execRedraw_stays {s : State} (h : Stays q n M s) : StaysReply q n M (execRedraw s) := by
  unfold execRedraw
  with_reducible apply staysReply_done
  split
  with_reducible apply onlyIf_stays
  with_reducible assumption
  intro x1
  intro x2
  with_reducible apply stays_ite
  with_reducible apply redrawNow_stays
  with_reducible apply putRedraw_stays
  with_reducible assumption
  with_reducible apply putRedraw_stays
  with_reducible assumption
  with_reducible assumption

theorem execRedrawSettled_stays {s : State} (h : Stays q n M s) {a0} : StaysReply q n M (execRedrawSettled a0 s) := by
  unfold execRedrawSettled
  with_reducible apply staysReply_done
  split
  with_reducible assumption
  with_reducible apply onlyIf_stays
  with_reducible assumption
  intro x1
  intro x2
  lift_lets
  intro t3; clear_value t3
  intro t4; clear_value t4
  intro t5; refine (have h5 : Stays q n M t5 := ?_; ?_) <;> [subst t5; clear_value t5]
  with_reducible apply stays_mk
  with_reducible assumption
  with_reducible apply stays_foldl
  with_reducible assumption
  intro x6
  intro x7
  intro x8
  lift_lets
  intro t9; clear_value t9
  intro t10; clear_value t10
  with_reducible apply stays_ite
  with_reducible apply changePeer_stays
  with_reducible assumption
  with_reducible assumption

end Sys2Proof.Machine
end

