-- ==== Sys2Proof/Laws/KeepsIntake.lean ====
section
/-!
SUPPORT. What each function of Machine/Intake.lean keeps of a state: the queue, the time, the form of the registers and a condition on memory (`Stays`).
-/
set_option Elab.async false
set_option linter.all false
set_option maxRecDepth 4000
namespace Sys2Proof.Machine
variable {q : List Instr} {n : Nat} {M : List Host.Cell → Prop}

theorem settleClears_stays {s : State} (h : Stays q n M s) {a0 a2} : Stays q n M (settleClears a0 s a2) := by
  induction a0 generalizing s with
  | zero =>
    unfold settleClears
    with_reducible assumption
  | succ k ih =>
    unfold settleClears
    lift_lets
    intro t1; clear_value t1
    split
    lift_lets
    intro t2; clear_value t2
    split
    split
    dsimp only
    split
    with_reducible assumption
    with_reducible apply stays_ite
    with_reducible assumption
    with_reducible apply ih
    with_reducible apply stays_foldl
    with_reducible apply emitRecord_stays
    with_reducible apply keepRec_stays
    with_reducible apply setStream_stays
    with_reducible assumption
    intro x3
    intro x4
    intro x5
    with_reducible apply emitRecord_stays
    with_reducible assumption
    dsimp only
    split
    with_reducible assumption
    with_reducible apply stays_ite
    with_reducible assumption
    with_reducible apply ih
    with_reducible apply stays_foldl
    with_reducible apply emitRecord_stays
    with_reducible apply keepRec_stays
    with_reducible apply setStream_stays
    with_reducible assumption
    intro x6
    intro x7
    intro x8
    with_reducible apply emitRecord_stays
    with_reducible assumption
    split
    dsimp only
    split
    with_reducible assumption
    with_reducible apply stays_ite
    with_reducible assumption
    with_reducible apply ih
    with_reducible apply stays_foldl
    with_reducible apply emitRecord_stays
    with_reducible apply keepRec_stays
    with_reducible apply setStream_stays
    with_reducible assumption
    intro x9
    intro x10
    intro x11
    with_reducible apply emitRecord_stays
    with_reducible assumption
    dsimp only
    split
    with_reducible assumption
    with_reducible apply stays_ite
    with_reducible assumption
    with_reducible apply ih
    with_reducible apply stays_foldl
    with_reducible apply emitRecord_stays
    with_reducible apply keepRec_stays
    with_reducible apply setStream_stays
    with_reducible assumption
    intro x12
    intro x13
    intro x14
    with_reducible apply emitRecord_stays
    with_reducible assumption
    split
    dsimp only
    split
    with_reducible assumption
    with_reducible apply stays_ite
    with_reducible assumption
    with_reducible apply ih
    with_reducible apply stays_foldl
    with_reducible apply emitRecord_stays
    with_reducible apply keepRec_stays
    with_reducible apply setStream_stays
    with_reducible assumption
    intro x15
    intro x16
    intro x17
    with_reducible apply emitRecord_stays
    with_reducible assumption
    dsimp only
    split
    with_reducible assumption
    with_reducible apply stays_ite
    with_reducible assumption
    with_reducible apply ih
    with_reducible apply stays_foldl
    with_reducible apply emitRecord_stays
    with_reducible apply keepRec_stays
    with_reducible apply setStream_stays
    with_reducible assumption
    intro x18
    intro x19
    intro x20
    with_reducible apply emitRecord_stays
    with_reducible assumption

theorem abortStarted_stays {s : State} (h : Stays q n M s) {a1 a2} : Stays q n M (abortStarted s a1 a2) := by
  unfold abortStarted
  with_reducible apply modCmd_stays
  with_reducible assumption

theorem acceptControl_stays {s : State} (h : Stays q n M s) {a1 a2 a3} : Stays q n M (acceptControl s a1 a2 a3) := by
  unfold acceptControl
  with_reducible apply setStream_stays
  with_reducible assumption

theorem controlNow_stays {s : State} (h : Stays q n M s) {a1 a2 a3} : Stays q n M (controlNow s a1 a2 a3) := by
  unfold controlNow
  with_reducible apply emitRecord_stays
  with_reducible apply acceptControl_stays
  with_reducible assumption

theorem countIncomplete_stays {s : State} (h : Stays q n M s) : Stays q n M (countIncomplete s) := by
  unfold countIncomplete
  with_reducible apply incF_stays
  with_reducible assumption

theorem discardWaiting_stays {s : State} (h : Stays q n M s) {a1} : Stays q n M (discardWaiting s a1) := by
  unfold discardWaiting
  lift_lets
  intro t1; clear_value t1
  intro t2; clear_value t2
  with_reducible apply stays_foldl
  with_reducible apply stays_mk
  with_reducible assumption
  intro x3
  intro x4
  intro x5
  with_reducible apply logEvent_stays
  with_reducible assumption

theorem dropWrite_stays {s : State} (h : Stays q n M s) : Stays q n M (dropWrite s) := by
  unfold dropWrite
  with_reducible apply incF_stays
  with_reducible assumption

theorem settleAbort_stays {s : State} (h : Stays q n M s) {a1 a2 a3} : Stays q n M (settleAbort s a1 a2 a3) := by
  unfold settleAbort
  lift_lets
  intro t1; clear_value t1
  intro t2; clear_value t2
  intro t3; clear_value t3
  intro t4; clear_value t4
  intro t5; refine (have h5 : Stays q n M t5 := ?_; ?_) <;> [subst t5; clear_value t5]
  with_reducible apply acceptControl_stays
  with_reducible assumption
  with_reducible apply stays_ite
  with_reducible apply controlNow_stays
  with_reducible assumption
  split
  with_reducible apply controlNow_stays
  with_reducible assumption
  with_reducible apply stays_ite
  with_reducible apply controlNow_stays
  with_reducible assumption
  with_reducible apply stays_ite
  with_reducible apply haltAt_stays
  with_reducible apply modCmd_stays
  with_reducible assumption
  with_reducible apply stays_ite
  with_reducible apply failStart_stays
  with_reducible assumption
  with_reducible apply haltAt_stays
  with_reducible apply abortStarted_stays
  with_reducible assumption

theorem execAbort_stays {s : State} (h : Stays q n M s) : StaysReply q n M (execAbort s) := by
  unfold execAbort
  with_reducible apply staysReply_done
  with_reducible apply takePacket_stays
  with_reducible assumption
  intro x1
  intro x2
  intro x3
  intro x4
  intro x5
  with_reducible apply settleAbort_stays
  with_reducible assumption

theorem execClearStream_stays {s : State} (h : Stays q n M s) : StaysReply q n M (execClearStream s) := by
  unfold execClearStream
  with_reducible apply staysReply_done
  with_reducible apply takePacket_stays
  with_reducible assumption
  intro x1
  intro x2
  intro x3
  intro x4
  intro x5
  lift_lets
  intro t6; clear_value t6
  intro t7; clear_value t7
  intro t8; refine (have h8 : Stays q n M t8 := ?_; ?_) <;> [subst t8; clear_value t8]
  with_reducible apply acceptControl_stays
  with_reducible assumption
  intro t9; clear_value t9
  intro t10; refine (have h10 : Stays q n M t10 := ?_; ?_) <;> [subst t10; clear_value t10]
  with_reducible apply setStream_stays
  with_reducible assumption
  with_reducible apply stays_ite
  with_reducible apply controlNow_stays
  with_reducible assumption
  with_reducible apply stays_ite
  with_reducible apply controlNow_stays
  with_reducible assumption
  with_reducible apply settleClears_stays
  with_reducible assumption

theorem writeRingConsumed_stays {s : State} (h : Stays q n M s) {a1 a2 a3} : Stays q n M (writeRingConsumed s a1 a2 a3) := by
  unfold writeRingConsumed
  lift_lets
  intro t1; clear_value t1
  with_reducible apply stays_ite
  with_reducible apply refuseAs_stays
  with_reducible assumption
  with_reducible apply drainRing_stays
  with_reducible apply wr_stays
  with_reducible assumption

theorem execCmdRingConsumedWrite_stays {s : State} (h : Stays q n M s) {a0 a1} : StaysReply q n M (execCmdRingConsumedWrite a0 a1 s) := by
  unfold execCmdRingConsumedWrite
  with_reducible apply staysReply_done
  with_reducible apply onlyIf_stays
  with_reducible assumption
  intro x1
  intro x2
  with_reducible apply writeRingConsumed_stays
  with_reducible assumption

theorem writeRingCtrl_stays {s : State} (h : Stays q n M s) {a1 a2 a3} : Stays q n M (writeRingCtrl s a1 a2 a3) := by
  unfold writeRingCtrl
  lift_lets
  intro t1; clear_value t1
  intro t2; clear_value t2
  intro t3; refine (have h3 : Stays q n M t3 := ?_; ?_) <;> [subst t3; clear_value t3]
  with_reducible apply setF_stays
  with_reducible apply setF_stays
  with_reducible assumption
  with_reducible apply stays_ite
  with_reducible apply stays_ite
  with_reducible assumption
  with_reducible apply discardWaiting_stays
  with_reducible apply setF_stays
  with_reducible assumption
  with_reducible apply stays_ite
  with_reducible assumption
  with_reducible apply stays_ite
  with_reducible apply wr_stays
  with_reducible apply wr_stays
  with_reducible apply setF_stays
  with_reducible assumption
  with_reducible apply refuseAs_stays
  with_reducible assumption

theorem execCmdRingCtrlWrite_stays {s : State} (h : Stays q n M s) {a0 a1} : StaysReply q n M (execCmdRingCtrlWrite a0 a1 s) := by
  unfold execCmdRingCtrlWrite
  with_reducible apply staysReply_done
  with_reducible apply onlyIf_stays
  with_reducible assumption
  intro x1
  intro x2
  with_reducible apply writeRingCtrl_stays
  with_reducible assumption

theorem setSlot_stays {s : State} (h : Stays q n M s) {a1 a2} : Stays q n M (setSlot s a1 a2) := by
  unfold setSlot
  lift_lets
  intro t1; clear_value t1
  split
  with_reducible apply setBitF_stays
  with_reducible apply stays_mk
  with_reducible assumption
  with_reducible apply setBitF_stays
  with_reducible apply stays_mk
  with_reducible assumption

theorem pilotRecord_stays {s : State} (h : Stays q n M s) {a1 a2 a3} : Stays q n M (pilotRecord s a1 a2 a3) := by
  unfold pilotRecord
  with_reducible apply refuse_stays
  with_reducible assumption

theorem forwardPacket_stays {s : State} (h : Stays q n M s) {a1} : Stays q n M (forwardPacket s a1) := by
  unfold forwardPacket
  lift_lets
  intro t1; clear_value t1
  intro t2; clear_value t2
  with_reducible apply stays_ite
  with_reducible apply stays_mk
  with_reducible assumption
  split
  with_reducible apply pilotRecord_stays
  with_reducible assumption
  with_reducible apply sendInst_stays
  with_reducible assumption

theorem settleSlot_stays {s : State} (h : Stays q n M s) {a1 a2} : Stays q n M (settleSlot s a1 a2) := by
  unfold settleSlot
  split
  with_reducible apply setSlot_stays
  with_reducible assumption
  lift_lets
  intro t1; clear_value t1
  with_reducible apply stays_ite
  with_reducible apply stays_ite
  with_reducible apply forwardPacket_stays
  with_reducible apply setSlot_stays
  with_reducible assumption
  with_reducible apply setSlot_stays
  with_reducible assumption
  with_reducible apply stays_ite
  with_reducible apply pilotRecord_stays
  with_reducible apply setSlot_stays
  with_reducible assumption
  with_reducible apply setSlot_stays
  with_reducible assumption

theorem writeSlot_stays {s : State} (h : Stays q n M s) {a1 a2 a3} : Stays q n M (writeSlot s a1 a2 a3) := by
  unfold writeSlot
  lift_lets
  intro t1; refine (have h1 : Stays q n M t1 := ?_; ?_) <;> [subst t1; clear_value t1]
  with_reducible apply dropWrite_stays
  with_reducible assumption
  split
  with_reducible apply stays_ite
  with_reducible apply dropWrite_stays
  with_reducible assumption
  with_reducible apply settleSlot_stays
  with_reducible assumption
  with_reducible apply stays_ite
  with_reducible apply dropWrite_stays
  with_reducible apply setSlot_stays
  with_reducible assumption
  split
  with_reducible apply stays_ite
  with_reducible apply stays_ite
  with_reducible assumption
  with_reducible apply settleSlot_stays
  with_reducible assumption
  with_reducible apply settleSlot_stays
  with_reducible assumption
  with_reducible apply settleSlot_stays
  with_reducible assumption

theorem writeSlots_stays {s : State} (h : Stays q n M s) {a0 a2 a3} : Stays q n M (writeSlots a0 s a2 a3) := by
  induction a0 generalizing s a2 a3 with
  | zero =>
    unfold writeSlots
    with_reducible assumption
  | succ k ih =>
    unfold writeSlots
    lift_lets
    intro t1; clear_value t1
    with_reducible apply stays_ite
    with_reducible assumption
    with_reducible apply ih
    with_reducible apply writeSlot_stays
    with_reducible assumption

theorem execCommandSlotWrite_stays {s : State} (h : Stays q n M s) {a0 a1} : StaysReply q n M (execCommandSlotWrite a0 a1 s) := by
  unfold execCommandSlotWrite
  with_reducible apply staysReply_done
  with_reducible apply onlyIf_stays
  with_reducible assumption
  intro x1
  intro x2
  with_reducible apply stays_ite
  with_reducible apply writeSlots_stays
  with_reducible assumption
  with_reducible apply dropWrite_stays
  with_reducible assumption

theorem execFenceOnly_stays {s : State} (h : Stays q n M s) : StaysReply q n M (execFenceOnly s) := by
  unfold execFenceOnly
  with_reducible apply staysReply_done
  with_reducible apply intakeWork_stays
  with_reducible assumption

theorem execNop_stays {s : State} (h : Stays q n M s) : StaysReply q n M (execNop s) := by
  unfold execNop
  with_reducible apply staysReply_done
  with_reducible apply intakeWork_stays
  with_reducible assumption

theorem execQueryStream_stays {s : State} (h : Stays q n M s) : StaysReply q n M (execQueryStream s) := by
  unfold execQueryStream
  with_reducible apply staysReply_done
  with_reducible apply takePacket_stays
  with_reducible assumption
  intro x1
  intro x2
  intro x3
  intro x4
  intro x5
  lift_lets
  intro t6; clear_value t6
  intro t7; clear_value t7
  with_reducible apply controlNow_stays
  with_reducible assumption

theorem execRingFullWait_stays {s : State} (h : Stays q n M s) {a0} : StaysReply q n M (execRingFullWait a0 s) := by
  unfold execRingFullWait
  with_reducible apply staysReply_done
  with_reducible apply onlyIf_stays
  with_reducible assumption
  intro x1
  intro x2
  lift_lets
  intro t3; clear_value t3
  split
  with_reducible assumption
  with_reducible apply logEvent_stays
  with_reducible apply stays_mk
  with_reducible assumption

theorem execSetStream_stays {s : State} (h : Stays q n M s) : StaysReply q n M (execSetStream s) := by
  unfold execSetStream
  with_reducible apply staysReply_done
  with_reducible apply takePacket_stays
  with_reducible assumption
  intro x1
  intro x2
  intro x3
  intro x4
  intro x5
  lift_lets
  intro t6; refine (have h6 : Stays q n M t6 := ?_; ?_) <;> [subst t6; clear_value t6]
  with_reducible apply acceptWork_stays
  with_reducible assumption
  intro t7; clear_value t7
  with_reducible apply stays_ite
  with_reducible apply setStream_stays
  with_reducible assumption
  with_reducible assumption

theorem execSlotQuietExpiry_stays {s : State} (h : Stays q n M s) {a0} : StaysReply q n M (execSlotQuietExpiry a0 s) := by
  unfold execSlotQuietExpiry
  with_reducible apply staysReply_done
  split
  with_reducible assumption
  with_reducible apply stays_ite
  with_reducible apply setSlot_stays
  with_reducible assumption
  with_reducible assumption

theorem execSlotTimeout_stays {s : State} (h : Stays q n M s) {a0} : StaysReply q n M (execSlotTimeout a0 s) := by
  unfold execSlotTimeout
  with_reducible apply staysReply_done
  split
  with_reducible assumption
  lift_lets
  intro t1; clear_value t1
  intro t2; refine (have h2 : Stays q n M t2 := ?_; ?_) <;> [subst t2; clear_value t2]
  with_reducible apply stays_ite
  with_reducible apply setSlot_stays
  with_reducible assumption
  with_reducible apply setSlot_stays
  with_reducible assumption
  with_reducible apply stays_ite
  with_reducible assumption
  with_reducible apply stays_ite
  with_reducible apply pilotRecord_stays
  with_reducible assumption
  with_reducible apply countIncomplete_stays
  with_reducible assumption

end Sys2Proof.Machine
end

