-- ==== Sys2Proof/Laws/KeepsFinish.lean ====
section
/-!
SUPPORT. What each function of Machine/Finish.lean keeps of a state: the queue, the time, the form of the registers and a condition on memory (`Stays`).
-/
set_option Elab.async false
set_option linter.all false
set_option maxRecDepth 4000
namespace Sys2Proof.Machine
variable {q : List Instr} {n : Nat} {M : List Host.Cell → Prop}

theorem writeRecord_stays {s : State} (h : Stays q n M s) {a1 a2} : Stays q n M (writeRecord s a1 a2) := by
  unfold writeRecord
  lift_lets
  intro t1; refine (have h1 : Stays q n M t1 := ?_; ?_) <;> [subst t1; clear_value t1]
  with_reducible apply emitRecord_stays
  with_reducible apply keepRec_stays
  with_reducible assumption
  with_reducible apply stays_foldl
  with_reducible assumption
  intro x2
  intro x3
  intro x4
  split
  with_reducible apply emitRecord_stays
  with_reducible assumption
  with_reducible apply emitRecord_stays
  with_reducible assumption

end Sys2Proof.Machine
end

