-- ==== Sys2Proof/Laws/KeepsCrcUnits.lean ====
section
/-!
SUPPORT. What each function of Machine/CrcUnits.lean keeps of a state: the queue, the time, the form of the registers and a condition on memory (`Stays`).
-/
set_option Elab.async false
set_option linter.all false
set_option maxRecDepth 4000
namespace Sys2Proof.Machine
variable {q : List Instr} {n : Nat} {M : List Host.Cell → Prop}

theorem unitReset_stays {s : State} (h : Stays q n M s) {a1} : Stays q n M (unitReset s a1) := by
  unfold unitReset
  with_reducible apply stays_foldl
  with_reducible assumption
  intro x1
  intro x2
  intro x3
  with_reducible apply resetReg_stays
  with_reducible assumption

theorem unitSignal_stays {s : State} (h : Stays q n M s) {a1} : Stays q n M (unitSignal s a1) := by
  unfold unitSignal
  with_reducible apply stays_ite
  with_reducible apply msix_stays
  with_reducible apply setF_stays
  with_reducible assumption
  with_reducible assumption

theorem unitCompare_stays {s : State} (h : Stays q n M s) {a1} : Stays q n M (unitCompare s a1) := by
  unfold unitCompare
  lift_lets
  intro t1; clear_value t1
  intro t2; clear_value t2
  intro t3; refine (have h3 : Stays q n M t3 := ?_; ?_) <;> [subst t3; clear_value t3]
  with_reducible apply setBitF_stays
  with_reducible apply setF_stays
  with_reducible assumption
  with_reducible apply stays_ite
  with_reducible assumption
  with_reducible apply unitSignal_stays
  with_reducible apply note_stays
  with_reducible assumption

theorem unitEnd_stays {s : State} (h : Stays q n M s) {a1 a2} : Stays q n M (unitEnd s a1 a2) := by
  unfold unitEnd
  lift_lets
  intro t1; clear_value t1
  intro t2; refine (have h2 : Stays q n M t2 := ?_; ?_) <;> [subst t2; clear_value t2]
  with_reducible apply setF_stays
  with_reducible apply setF_stays
  with_reducible apply setF_stays
  with_reducible assumption
  intro t3; refine (have h3 : Stays q n M t3 := ?_; ?_) <;> [subst t3; clear_value t3]
  with_reducible apply unitSignal_stays
  with_reducible apply setBitF_stays
  with_reducible assumption
  with_reducible apply stays_ite
  with_reducible apply unitCompare_stays
  with_reducible assumption
  with_reducible assumption

theorem unitsTake_stays {s : State} (h : Stays q n M s) {a1} : Stays q n M (unitsTake s a1) := by
  unfold unitsTake
  lift_lets
  intro t1; refine (have h1 : Stays q n M t1 := ?_; ?_) <;> [subst t1; clear_value t1]
  with_reducible apply stays_foldl
  with_reducible assumption
  intro x2
  intro x3
  intro x4
  with_reducible apply unitReset_stays
  with_reducible apply stays_ite
  with_reducible apply unitEnd_stays
  with_reducible assumption
  with_reducible assumption
  with_reducible apply setF_stays
  with_reducible assumption

theorem scanBlock_stays {a0 a1} : StaysMM q n M (scanBlock a0 a1) := by
  unfold scanBlock
  with_reducible apply staysMM_bind
  with_reducible apply readBlock_stays
  intro x1
  with_reducible apply staysMM_pure

theorem unitFeed_stays {s : State} (h : Stays q n M s) {a1 a2} : Stays q n M (unitFeed s a1 a2) := by
  unfold unitFeed
  with_reducible apply wr_stays
  with_reducible assumption

theorem scanTo_stays {s : State} (h : Stays q n M s) {a0 a2 a3} : Stays q n M (scanTo a0 s a2 a3).1 := by
  induction a0 generalizing s with
  | zero =>
    unfold scanTo
    dsimp only
    with_reducible assumption
  | succ k ih =>
    unfold scanTo
    lift_lets
    intro t1; clear_value t1
    with_reducible apply stays_ite_fst
    dsimp only
    with_reducible assumption
    split
    with_reducible apply ih
    with_reducible apply setF_stays
    with_reducible apply unitFeed_stays
    with_reducible refine stays_of_snd (by assumption) ?_
    with_reducible apply runMM_stays
    with_reducible assumption
    with_reducible apply scanBlock_stays
    dsimp only
    with_reducible apply blockFailed_stays
    with_reducible refine stays_of_snd (by assumption) ?_
    with_reducible apply runMM_stays
    with_reducible assumption
    with_reducible apply scanBlock_stays

theorem scanEnd_stays {s : State} (h : Stays q n M s) {a1 a2 a3} : Stays q n M (scanEnd s a1 a2 a3) := by
  unfold scanEnd
  split
  with_reducible apply unitEnd_stays
  with_reducible refine stays_of_fst (by assumption) ?_
  with_reducible apply scanTo_stays
  with_reducible assumption
  with_reducible apply unitEnd_stays
  with_reducible refine stays_of_fst (by assumption) ?_
  with_reducible apply scanTo_stays
  with_reducible assumption

theorem unitGo_stays {s : State} (h : Stays q n M s) {a1} : Stays q n M (unitGo s a1) := by
  unfold unitGo
  lift_lets
  intro t1; clear_value t1
  intro t2; clear_value t2
  intro t3; refine (have h3 : Stays q n M t3 := ?_; ?_) <;> [subst t3; clear_value t3]
  with_reducible apply setF_stays
  with_reducible apply setF_stays
  with_reducible apply setF_stays
  with_reducible assumption
  intro t4; refine (have h4 : Stays q n M t4 := ?_; ?_) <;> [subst t4; clear_value t4]
  with_reducible apply stays_ite
  with_reducible assumption
  with_reducible apply wr_stays
  with_reducible assumption
  with_reducible apply stays_ite
  with_reducible apply setF_stays
  with_reducible apply setF_stays
  with_reducible assumption
  with_reducible apply stays_ite
  with_reducible apply unitEnd_stays
  with_reducible assumption
  with_reducible assumption

theorem writeCrcCtrl_stays {s : State} (h : Stays q n M s) {a1 a2 a3 a4 a5} : Stays q n M (writeCrcCtrl s a1 a2 a3 a4 a5) := by
  unfold writeCrcCtrl
  lift_lets
  intro t1; clear_value t1
  intro t2; refine (have h2 : Stays q n M t2 := ?_; ?_) <;> [subst t2; clear_value t2]
  with_reducible apply wr_stays
  with_reducible assumption
  intro t3; refine (have h3 : Stays q n M t3 := ?_; ?_) <;> [subst t3; clear_value t3]
  with_reducible apply stays_ite
  with_reducible apply unitGo_stays
  with_reducible assumption
  with_reducible assumption
  with_reducible apply stays_ite
  with_reducible apply logAccess_stays
  with_reducible assumption
  with_reducible apply stays_ite
  with_reducible apply stays_ite
  with_reducible apply scanEnd_stays
  with_reducible assumption
  with_reducible apply stays_ite
  with_reducible assumption
  with_reducible apply refuseAs_stays
  with_reducible assumption
  with_reducible apply stays_ite
  with_reducible apply unitCompare_stays
  with_reducible assumption
  with_reducible assumption

theorem execCrcCheck_stays {s : State} (h : Stays q n M s) {a0 a1} : StaysReply q n M (execCrcCheck a0 a1 s) := by
  unfold execCrcCheck
  with_reducible apply staysReply_done
  with_reducible apply onlyIf_stays
  with_reducible assumption
  intro x1
  intro x2
  with_reducible apply writeCrcCtrl_stays
  with_reducible assumption

theorem writeCrcData_stays {s : State} (h : Stays q n M s) {a1 a2 a3 a4 a5} : Stays q n M (writeCrcData s a1 a2 a3 a4 a5) := by
  unfold writeCrcData
  lift_lets
  intro t1; clear_value t1
  with_reducible apply stays_ite
  with_reducible apply logAccess_stays
  with_reducible assumption
  with_reducible apply stays_ite
  with_reducible apply refuseAs_stays
  with_reducible assumption
  with_reducible apply unitFeed_stays
  with_reducible assumption

theorem execCrcData_stays {s : State} (h : Stays q n M s) {a0 a1 a2} : StaysReply q n M (execCrcData a0 a1 a2 s) := by
  unfold execCrcData
  with_reducible apply staysReply_done
  with_reducible apply onlyIf_stays
  with_reducible assumption
  intro x1
  intro x2
  with_reducible apply writeCrcData_stays
  with_reducible assumption

theorem execCrcGo_stays {s : State} (h : Stays q n M s) {a0 a1} : StaysReply q n M (execCrcGo a0 a1 s) := by
  unfold execCrcGo
  with_reducible apply staysReply_done
  with_reducible apply onlyIf_stays
  with_reducible assumption
  intro x1
  intro x2
  with_reducible apply writeCrcCtrl_stays
  with_reducible assumption

theorem execCrcScanEnd_stays {s : State} (hM : MemOk M) (h : Stays q n M s) {a0 a1 a2} : StaysReply q n M (execCrcScanEnd a0 a1 a2 s) := by
  unfold execCrcScanEnd
  with_reducible apply staysReply_done
  with_reducible apply onlyIf_stays
  with_reducible assumption
  intro x1
  intro x2
  with_reducible apply inClass_stays
  with_reducible assumption
  intro x3
  intro x4
  with_reducible apply withUpsets_stays
  assumption
  with_reducible assumption
  intro x5
  intro x6
  split
  with_reducible apply scanEnd_stays
  with_reducible assumption
  with_reducible apply scanEnd_stays
  with_reducible assumption

theorem execCrcStop_stays {s : State} (hM : MemOk M) (h : Stays q n M s) {a0 a1 a2 a3} : StaysReply q n M (execCrcStop a0 a1 a2 a3 s) := by
  unfold execCrcStop
  with_reducible apply staysReply_done
  with_reducible apply onlyIf_stays
  with_reducible assumption
  intro x1
  intro x2
  with_reducible apply inClass_stays
  with_reducible assumption
  intro x3
  intro x4
  with_reducible apply withUpsets_stays
  assumption
  with_reducible assumption
  intro x5
  intro x6
  with_reducible apply writeCrcCtrl_stays
  with_reducible assumption

end Sys2Proof.Machine
end

