-- ==== Sys2Proof/Laws/KeepsFeeders.lean ====
section
/-!
SUPPORT. What each function of Machine/Feeders.lean keeps of a state: the queue, the time, the form of the registers and a condition on memory (`Stays`).
-/
set_option Elab.async false
set_option linter.all false
set_option maxRecDepth 4000
namespace Sys2Proof.Machine
variable {q : List Instr} {n : Nat} {M : List Host.Cell → Prop}

theorem readRow_stays {a0 a1 a2 a3 a4 a5 a6} : StaysMM q n M (readRow a0 a1 a2 a3 a4 a5 a6) := by
  unfold readRow
  lift_lets
  intro t1; clear_value t1
  intro t2; clear_value t2
  intro t3; clear_value t3
  intro t4; clear_value t4
  intro t5; clear_value t5
  with_reducible apply staysMM_ite
  with_reducible apply staysMM_bind
  with_reducible apply readSpan_stays
  intro x6
  with_reducible apply staysMM_bind
  with_reducible apply readSpan_stays
  intro x7
  lift_lets
  intro t8; refine (have h8 : ∀ y0, StaysMM q n M (t8 y0) := ?_; ?_) <;> [subst t8; clear_value t8]
  intro x9
  beta_reduce
  lift_lets
  intro t10; clear_value t10
  with_reducible apply staysMM_pure
  with_reducible apply staysMM_ite
  with_reducible apply staysMM_bind
  with_reducible apply readSpan_stays
  intro x11
  with_reducible apply h8
  with_reducible apply staysMM_bind
  with_reducible apply staysMM_pure
  intro x12
  with_reducible apply h8
  with_reducible apply staysMM_bind
  with_reducible apply readSpan_stays
  intro x13
  with_reducible apply staysMM_pure

theorem readOperand_stays {a0 a1 a2 a3 a4 a5 a6 a7} : StaysMM q n M (readOperand a0 a1 a2 a3 a4 a5 a6 a7) := by
  unfold readOperand
  lift_lets
  intro t1; clear_value t1
  intro t2; clear_value t2
  with_reducible apply staysMM_ite
  with_reducible apply staysMM_bind
  with_reducible apply staysMM_forIn
  intro x3
  intro x4
  lift_lets
  intro t5; clear_value t5
  with_reducible apply staysMM_bind
  with_reducible apply readRow_stays
  intro x6
  lift_lets
  intro t7; clear_value t7
  with_reducible apply staysMM_pure
  intro x8
  lift_lets
  intro t9; clear_value t9
  with_reducible apply staysMM_pure
  with_reducible apply staysMM_bind
  with_reducible apply staysMM_forIn
  intro x10
  intro x11
  lift_lets
  intro t12; clear_value t12
  intro t13; clear_value t13
  with_reducible apply staysMM_bind
  with_reducible apply readRow_stays
  intro x14
  lift_lets
  intro t15; clear_value t15
  intro t16; clear_value t16
  with_reducible apply staysMM_pure
  intro x17
  lift_lets
  intro t18; clear_value t18
  intro t19; clear_value t19
  with_reducible apply staysMM_pure

theorem readPromo_stays {a0 a1 a2 a3 a4} : StaysMM q n M (readPromo a0 a1 a2 a3 a4) := by
  unfold readPromo
  lift_lets
  intro t1; clear_value t1
  intro t2; clear_value t2
  split
  with_reducible apply staysMM_pure
  with_reducible apply staysMM_ite
  with_reducible apply staysMM_bind
  with_reducible apply readSpan_stays
  intro x3
  with_reducible apply staysMM_pure
  with_reducible apply staysMM_pure

theorem readPromoRow_stays {a0 a1 a2 a3 a4 a5} : StaysMM q n M (readPromoRow a0 a1 a2 a3 a4 a5) := by
  unfold readPromoRow
  lift_lets
  intro t1; clear_value t1
  with_reducible apply staysMM_bind
  with_reducible apply readSpan_stays
  intro x2
  with_reducible apply staysMM_bind
  with_reducible apply readSpan_stays
  intro x3
  with_reducible apply staysMM_pure

theorem readXRow_stays {a0 a1 a2 a3 a4 a5 a6 a7 a8} : StaysMM q n M (readXRow a0 a1 a2 a3 a4 a5 a6 a7 a8) := by
  unfold readXRow
  lift_lets
  intro t1; clear_value t1
  intro t2; clear_value t2
  intro t3; clear_value t3
  with_reducible apply staysMM_bind
  with_reducible apply staysMM_forIn
  intro x4
  intro x5
  lift_lets
  intro t6; clear_value t6
  intro t7; clear_value t7
  with_reducible apply staysMM_ite
  with_reducible apply staysMM_bind
  with_reducible apply readPromoRow_stays
  intro x8
  lift_lets
  intro t9; clear_value t9
  with_reducible apply staysMM_pure
  with_reducible apply staysMM_bind
  with_reducible apply readRow_stays
  intro x10
  lift_lets
  intro t11; clear_value t11
  intro t12; clear_value t12
  with_reducible apply staysMM_pure
  intro x13
  lift_lets
  intro t14; clear_value t14
  intro t15; clear_value t15
  with_reducible apply staysMM_pure

end Sys2Proof.Machine
end

