-- ==== Sys2Proof/Laws/KeepsRelay.lean ====
section
/-!
SUPPORT. What each function of Machine/Relay.lean keeps of a state: the queue, the time, the form of the registers and a condition on memory (`Stays`).
-/
set_option Elab.async false
set_option linter.all false
set_option maxRecDepth 4000
namespace Sys2Proof.Machine
variable {q : List Instr} {n : Nat} {M : List Host.Cell → Prop}

theorem showRelay_stays {s : State} (h : Stays q n M s) : Stays q n M (showRelay s) := by
  unfold showRelay
  with_reducible apply setF_stays
  with_reducible apply setF_stays
  with_reducible assumption

theorem dropRelay_stays {s : State} (h : Stays q n M s) {a1 a2} : Stays q n M (dropRelay s a1 a2) := by
  unfold dropRelay
  lift_lets
  intro t1; clear_value t1
  with_reducible apply showRelay_stays
  with_reducible apply stays_mk
  with_reducible assumption

theorem holdBody_stays {s : State} (h : Stays q n M s) {a1 a2 a3} : Stays q n M (holdBody s a1 a2 a3) := by
  unfold holdBody
  lift_lets
  intro t1; clear_value t1
  with_reducible apply stays_ite
  with_reducible apply showRelay_stays
  with_reducible apply stays_mk
  with_reducible assumption
  with_reducible assumption

theorem writeSeg_stays (hM : MemOk M) {a0 a1 a2} : StaysMM q n M (writeSeg a0 a1 a2) := by
  unfold writeSeg
  split
  with_reducible apply writeBytes_stays
  assumption
  with_reducible apply staysMM_pure

theorem sendHop_stays {s : State} (h : Stays q n M s) {a1 a2 a3 a4 a5 a6 a7} : Stays q n M (sendHop s a1 a2 a3 a4 a5 a6 a7) := by
  unfold sendHop
  lift_lets
  intro t1; clear_value t1
  intro t2; clear_value t2
  with_reducible apply stays_foldl
  with_reducible assumption
  intro x3
  intro x4
  intro x5
  with_reducible apply sendSlice_stays
  with_reducible assumption

theorem putRelay_stays {s : State} (h : Stays q n M s) {a1} : Stays q n M (putRelay s a1) := by
  unfold putRelay
  lift_lets
  intro t1; clear_value t1
  with_reducible apply stays_mk
  with_reducible assumption

theorem hopDone_stays {s : State} (h : Stays q n M s) {a1 a2 a3 a4} : Stays q n M (hopDone s a1 a2 a3 a4) := by
  unfold hopDone
  lift_lets
  intro t1; refine (have h1 : Stays q n M t1 := ?_; ?_) <;> [subst t1; clear_value t1]
  with_reducible apply incF_stays
  with_reducible assumption
  split
  lift_lets
  intro t2; clear_value t2
  intro t3; clear_value t3
  intro t4; refine (have h4 : Stays q n M t4 := ?_; ?_) <;> [subst t4; clear_value t4]
  with_reducible apply putRelay_stays
  with_reducible assumption
  intro t5; clear_value t5
  intro t6; refine (have h6 : Stays q n M t6 := ?_; ?_) <;> [subst t6; clear_value t6]
  with_reducible apply modCmd_stays
  with_reducible assumption
  with_reducible apply stays_ite
  with_reducible apply endCmd_stays
  with_reducible apply dropRelay_stays
  with_reducible assumption
  with_reducible assumption
  with_reducible assumption

theorem copyHop_stays {s : State} (hM : MemOk M) (h : Stays q n M s) {a1 a2 a3 a4 a5} : Stays q n M (copyHop s a1 a2 a3 a4 a5) := by
  unfold copyHop
  lift_lets
  intro t1; clear_value t1
  intro t2; clear_value t2
  intro t3; clear_value t3
  split
  with_reducible assumption
  split
  with_reducible apply failMem_stays
  with_reducible refine stays_of_snd (by assumption) ?_
  with_reducible apply runMM_stays
  with_reducible assumption
  with_reducible apply staysMM_ite
  with_reducible apply writeSeg_stays
  assumption
  with_reducible apply staysMM_pure
  lift_lets
  intro t4; refine (have h4 : Stays q n M t4 := ?_; ?_) <;> [subst t4; clear_value t4]
  with_reducible apply stays_ite
  with_reducible apply staleRange_stays
  with_reducible refine stays_of_snd (by assumption) ?_
  with_reducible apply runMM_stays
  with_reducible assumption
  with_reducible apply staysMM_ite
  with_reducible apply writeSeg_stays
  assumption
  with_reducible apply staysMM_pure
  with_reducible refine stays_of_snd (by assumption) ?_
  with_reducible apply runMM_stays
  with_reducible assumption
  with_reducible apply staysMM_ite
  with_reducible apply writeSeg_stays
  assumption
  with_reducible apply staysMM_pure
  intro t5; refine (have h5 : Stays q n M t5 := ?_; ?_) <;> [subst t5; clear_value t5]
  with_reducible apply stays_ite
  with_reducible apply sendHop_stays
  with_reducible assumption
  with_reducible assumption
  with_reducible apply hopDone_stays
  with_reducible assumption

theorem execHeldFrameExpiry_stays {s : State} (h : Stays q n M s) {a0} : StaysReply q n M (execHeldFrameExpiry a0 s) := by
  unfold execHeldFrameExpiry
  with_reducible apply staysReply_done
  split
  with_reducible assumption
  with_reducible apply onlyIf_stays
  with_reducible assumption
  intro x1
  intro x2
  lift_lets
  intro t3; clear_value t3
  with_reducible apply showRelay_stays
  with_reducible apply incF_stays
  with_reducible apply stays_mk
  with_reducible assumption

theorem execHopTimeout_stays {s : State} (h : Stays q n M s) {a0 a1} : StaysReply q n M (execHopTimeout a0 a1 s) := by
  unfold execHopTimeout
  with_reducible apply staysReply_done
  split
  split
  with_reducible assumption
  with_reducible apply onlyIf_stays
  with_reducible assumption
  intro x1
  intro x2
  with_reducible apply askStop_stays
  with_reducible apply incF_stays
  with_reducible assumption
  with_reducible assumption

theorem relayTry_stays {s : State} (h : Stays q n M s) {f} (hf : ∀ s, Stays q n M s → Stays q n M (f s)): Stays q n M (relayTry s f) := by
  unfold relayTry
  lift_lets
  intro t1; clear_value t1
  intro t2; refine (have h2 : Stays q n M t2 := ?_; ?_) <;> [subst t2; clear_value t2]
  with_reducible apply endTimeout_stays
  with_reducible assumption
  split
  with_reducible apply hf
  with_reducible assumption
  with_reducible apply hf
  with_reducible apply ladderRung_stays
  with_reducible assumption
  with_reducible apply hf
  with_reducible apply ladderRung_stays
  with_reducible apply ladderRung_stays
  with_reducible assumption

theorem readSeg_stays {a0 a1 a2 a3} : StaysMM q n M (readSeg a0 a1 a2 a3) := by
  unfold readSeg
  split
  with_reducible apply readSpan_stays
  with_reducible apply staysMM_pure

theorem reduceHop_stays {s : State} (hM : MemOk M) (h : Stays q n M s) {a1 a2 a3 a4} : Stays q n M (reduceHop s a1 a2 a3 a4) := by
  unfold reduceHop
  lift_lets
  intro t1; clear_value t1
  intro t2; clear_value t2
  intro t3; clear_value t3
  intro t4; clear_value t4
  intro t5; clear_value t5
  split
  split
  split
  split
  dsimp only
  split
  with_reducible apply failMem_stays
  with_reducible refine stays_of_snd (by assumption) ?_
  with_reducible apply runMM_stays
  with_reducible assumption
  with_reducible apply readSeg_stays
  with_reducible apply hopDone_stays
  with_reducible apply sendHop_stays
  with_reducible refine stays_of_snd (by assumption) ?_
  with_reducible apply runMM_stays
  with_reducible assumption
  with_reducible apply readSeg_stays
  split
  dsimp only
  split
  with_reducible apply failMem_stays
  with_reducible refine stays_of_snd (by assumption) ?_
  with_reducible apply runMM_stays
  with_reducible assumption
  with_reducible apply readSeg_stays
  split
  with_reducible apply failMem_stays
  with_reducible refine stays_of_snd (by assumption) ?_
  with_reducible apply runMM_stays
  with_reducible refine stays_of_snd (by assumption) ?_
  with_reducible apply runMM_stays
  with_reducible assumption
  with_reducible apply readSeg_stays
  with_reducible apply writeSeg_stays
  assumption
  split
  with_reducible apply copyHop_stays
  assumption
  with_reducible apply hopDone_stays
  with_reducible apply staleRange_stays
  with_reducible refine stays_of_snd (by assumption) ?_
  with_reducible apply runMM_stays
  with_reducible refine stays_of_snd (by assumption) ?_
  with_reducible apply runMM_stays
  with_reducible assumption
  with_reducible apply readSeg_stays
  with_reducible apply writeSeg_stays
  assumption
  with_reducible apply hopDone_stays
  with_reducible apply staleRange_stays
  with_reducible refine stays_of_snd (by assumption) ?_
  with_reducible apply runMM_stays
  with_reducible refine stays_of_snd (by assumption) ?_
  with_reducible apply runMM_stays
  with_reducible assumption
  with_reducible apply readSeg_stays
  with_reducible apply writeSeg_stays
  assumption
  dsimp only
  split
  with_reducible apply failMem_stays
  with_reducible refine stays_of_snd (by assumption) ?_
  with_reducible apply runMM_stays
  with_reducible assumption
  with_reducible apply readSeg_stays
  split
  with_reducible apply failMem_stays
  with_reducible refine stays_of_snd (by assumption) ?_
  with_reducible apply runMM_stays
  with_reducible refine stays_of_snd (by assumption) ?_
  with_reducible apply runMM_stays
  with_reducible assumption
  with_reducible apply readSeg_stays
  with_reducible apply writeSeg_stays
  assumption
  with_reducible apply hopDone_stays
  with_reducible apply staleRange_stays
  with_reducible refine stays_of_snd (by assumption) ?_
  with_reducible apply runMM_stays
  with_reducible refine stays_of_snd (by assumption) ?_
  with_reducible apply runMM_stays
  with_reducible assumption
  with_reducible apply readSeg_stays
  with_reducible apply writeSeg_stays
  assumption
  split
  dsimp only
  split
  with_reducible apply failMem_stays
  with_reducible refine stays_of_snd (by assumption) ?_
  with_reducible apply runMM_stays
  with_reducible assumption
  with_reducible apply readSeg_stays
  with_reducible apply hopDone_stays
  with_reducible apply sendHop_stays
  with_reducible refine stays_of_snd (by assumption) ?_
  with_reducible apply runMM_stays
  with_reducible assumption
  with_reducible apply readSeg_stays
  split
  dsimp only
  split
  with_reducible apply failMem_stays
  with_reducible refine stays_of_snd (by assumption) ?_
  with_reducible apply runMM_stays
  with_reducible assumption
  with_reducible apply readSeg_stays
  split
  with_reducible apply failMem_stays
  with_reducible refine stays_of_snd (by assumption) ?_
  with_reducible apply runMM_stays
  with_reducible refine stays_of_snd (by assumption) ?_
  with_reducible apply runMM_stays
  with_reducible assumption
  with_reducible apply readSeg_stays
  with_reducible apply writeSeg_stays
  assumption
  split
  with_reducible apply copyHop_stays
  assumption
  with_reducible apply hopDone_stays
  with_reducible apply staleRange_stays
  with_reducible refine stays_of_snd (by assumption) ?_
  with_reducible apply runMM_stays
  with_reducible refine stays_of_snd (by assumption) ?_
  with_reducible apply runMM_stays
  with_reducible assumption
  with_reducible apply readSeg_stays
  with_reducible apply writeSeg_stays
  assumption
  with_reducible apply hopDone_stays
  with_reducible apply staleRange_stays
  with_reducible refine stays_of_snd (by assumption) ?_
  with_reducible apply runMM_stays
  with_reducible refine stays_of_snd (by assumption) ?_
  with_reducible apply runMM_stays
  with_reducible assumption
  with_reducible apply readSeg_stays
  with_reducible apply writeSeg_stays
  assumption
  dsimp only
  split
  with_reducible apply failMem_stays
  with_reducible refine stays_of_snd (by assumption) ?_
  with_reducible apply runMM_stays
  with_reducible assumption
  with_reducible apply readSeg_stays
  split
  with_reducible apply failMem_stays
  with_reducible refine stays_of_snd (by assumption) ?_
  with_reducible apply runMM_stays
  with_reducible refine stays_of_snd (by assumption) ?_
  with_reducible apply runMM_stays
  with_reducible assumption
  with_reducible apply readSeg_stays
  with_reducible apply writeSeg_stays
  assumption
  with_reducible apply hopDone_stays
  with_reducible apply staleRange_stays
  with_reducible refine stays_of_snd (by assumption) ?_
  with_reducible apply runMM_stays
  with_reducible refine stays_of_snd (by assumption) ?_
  with_reducible apply runMM_stays
  with_reducible assumption
  with_reducible apply readSeg_stays
  with_reducible apply writeSeg_stays
  assumption
  split
  split
  dsimp only
  split
  with_reducible apply failMem_stays
  with_reducible refine stays_of_snd (by assumption) ?_
  with_reducible apply runMM_stays
  with_reducible assumption
  with_reducible apply readSeg_stays
  with_reducible apply hopDone_stays
  with_reducible apply sendHop_stays
  with_reducible refine stays_of_snd (by assumption) ?_
  with_reducible apply runMM_stays
  with_reducible assumption
  with_reducible apply readSeg_stays
  split
  dsimp only
  split
  with_reducible apply failMem_stays
  with_reducible refine stays_of_snd (by assumption) ?_
  with_reducible apply runMM_stays
  with_reducible assumption
  with_reducible apply readSeg_stays
  split
  with_reducible apply failMem_stays
  with_reducible refine stays_of_snd (by assumption) ?_
  with_reducible apply runMM_stays
  with_reducible refine stays_of_snd (by assumption) ?_
  with_reducible apply runMM_stays
  with_reducible assumption
  with_reducible apply readSeg_stays
  with_reducible apply writeSeg_stays
  assumption
  split
  with_reducible apply copyHop_stays
  assumption
  with_reducible apply hopDone_stays
  with_reducible apply staleRange_stays
  with_reducible refine stays_of_snd (by assumption) ?_
  with_reducible apply runMM_stays
  with_reducible refine stays_of_snd (by assumption) ?_
  with_reducible apply runMM_stays
  with_reducible assumption
  with_reducible apply readSeg_stays
  with_reducible apply writeSeg_stays
  assumption
  with_reducible apply hopDone_stays
  with_reducible apply staleRange_stays
  with_reducible refine stays_of_snd (by assumption) ?_
  with_reducible apply runMM_stays
  with_reducible refine stays_of_snd (by assumption) ?_
  with_reducible apply runMM_stays
  with_reducible assumption
  with_reducible apply readSeg_stays
  with_reducible apply writeSeg_stays
  assumption
  dsimp only
  split
  with_reducible apply failMem_stays
  with_reducible refine stays_of_snd (by assumption) ?_
  with_reducible apply runMM_stays
  with_reducible assumption
  with_reducible apply readSeg_stays
  split
  with_reducible apply failMem_stays
  with_reducible refine stays_of_snd (by assumption) ?_
  with_reducible apply runMM_stays
  with_reducible refine stays_of_snd (by assumption) ?_
  with_reducible apply runMM_stays
  with_reducible assumption
  with_reducible apply readSeg_stays
  with_reducible apply writeSeg_stays
  assumption
  with_reducible apply hopDone_stays
  with_reducible apply staleRange_stays
  with_reducible refine stays_of_snd (by assumption) ?_
  with_reducible apply runMM_stays
  with_reducible refine stays_of_snd (by assumption) ?_
  with_reducible apply runMM_stays
  with_reducible assumption
  with_reducible apply readSeg_stays
  with_reducible apply writeSeg_stays
  assumption
  split
  dsimp only
  split
  with_reducible apply failMem_stays
  with_reducible refine stays_of_snd (by assumption) ?_
  with_reducible apply runMM_stays
  with_reducible assumption
  with_reducible apply readSeg_stays
  with_reducible apply hopDone_stays
  with_reducible apply sendHop_stays
  with_reducible refine stays_of_snd (by assumption) ?_
  with_reducible apply runMM_stays
  with_reducible assumption
  with_reducible apply readSeg_stays
  split
  dsimp only
  split
  with_reducible apply failMem_stays
  with_reducible refine stays_of_snd (by assumption) ?_
  with_reducible apply runMM_stays
  with_reducible assumption
  with_reducible apply readSeg_stays
  split
  with_reducible apply failMem_stays
  with_reducible refine stays_of_snd (by assumption) ?_
  with_reducible apply runMM_stays
  with_reducible refine stays_of_snd (by assumption) ?_
  with_reducible apply runMM_stays
  with_reducible assumption
  with_reducible apply readSeg_stays
  with_reducible apply writeSeg_stays
  assumption
  split
  with_reducible apply copyHop_stays
  assumption
  with_reducible apply hopDone_stays
  with_reducible apply staleRange_stays
  with_reducible refine stays_of_snd (by assumption) ?_
  with_reducible apply runMM_stays
  with_reducible refine stays_of_snd (by assumption) ?_
  with_reducible apply runMM_stays
  with_reducible assumption
  with_reducible apply readSeg_stays
  with_reducible apply writeSeg_stays
  assumption
  with_reducible apply hopDone_stays
  with_reducible apply staleRange_stays
  with_reducible refine stays_of_snd (by assumption) ?_
  with_reducible apply runMM_stays
  with_reducible refine stays_of_snd (by assumption) ?_
  with_reducible apply runMM_stays
  with_reducible assumption
  with_reducible apply readSeg_stays
  with_reducible apply writeSeg_stays
  assumption
  dsimp only
  split
  with_reducible apply failMem_stays
  with_reducible refine stays_of_snd (by assumption) ?_
  with_reducible apply runMM_stays
  with_reducible assumption
  with_reducible apply readSeg_stays
  split
  with_reducible apply failMem_stays
  with_reducible refine stays_of_snd (by assumption) ?_
  with_reducible apply runMM_stays
  with_reducible refine stays_of_snd (by assumption) ?_
  with_reducible apply runMM_stays
  with_reducible assumption
  with_reducible apply readSeg_stays
  with_reducible apply writeSeg_stays
  assumption
  with_reducible apply hopDone_stays
  with_reducible apply staleRange_stays
  with_reducible refine stays_of_snd (by assumption) ?_
  with_reducible apply runMM_stays
  with_reducible refine stays_of_snd (by assumption) ?_
  with_reducible apply runMM_stays
  with_reducible assumption
  with_reducible apply readSeg_stays
  with_reducible apply writeSeg_stays
  assumption
  with_reducible assumption

theorem relayWork_stays {s : State} (hM : MemOk M) (h : Stays q n M s) {a1 a2} : Stays q n M (relayWork s a1 a2) := by
  unfold relayWork
  split
  split
  with_reducible assumption
  with_reducible apply stays_ite
  split
  with_reducible apply failMem_stays
  with_reducible refine stays_of_snd (by assumption) ?_
  with_reducible apply runMM_stays
  with_reducible assumption
  with_reducible apply readSeg_stays
  with_reducible apply copyHop_stays
  assumption
  with_reducible refine stays_of_snd (by assumption) ?_
  with_reducible apply runMM_stays
  with_reducible assumption
  with_reducible apply readSeg_stays
  with_reducible apply reduceHop_stays
  assumption
  with_reducible assumption
  with_reducible assumption

theorem execRelay_stays {s : State} (hM : MemOk M) (h : Stays q n M s) {a0} : StaysReply q n M (execRelay a0 s) := by
  unfold execRelay
  with_reducible apply staysReply_done
  split
  with_reducible apply intakeWork_stays
  with_reducible assumption
  with_reducible apply onlyIf_stays
  with_reducible assumption
  intro x1
  intro x2
  with_reducible apply inClass_stays
  with_reducible assumption
  intro x3
  intro x4
  with_reducible apply withUpsets_stays
  assumption
  with_reducible assumption
  intro x5
  intro x6
  with_reducible apply relayTry_stays
  with_reducible assumption
  intro x7
  intro x8
  with_reducible apply relayWork_stays
  assumption
  with_reducible assumption

theorem relayMismatch_stays {s : State} (h : Stays q n M s) {a1 a2 a3 a4} : Stays q n M (relayMismatch s a1 a2 a3 a4) := by
  unfold relayMismatch
  split
  with_reducible apply stays_ite
  with_reducible assumption
  with_reducible apply askStop_stays
  with_reducible apply incF_stays
  with_reducible assumption
  with_reducible assumption

theorem takeRelayFrame_stays {s : State} (hM : MemOk M) (h : Stays q n M s) {a1 a2} : Stays q n M (takeRelayFrame s a1 a2) := by
  unfold takeRelayFrame
  lift_lets
  intro t1; clear_value t1
  intro t2; clear_value t2
  intro t3; clear_value t3
  intro t4; clear_value t4
  split
  with_reducible assumption
  lift_lets
  intro t5; clear_value t5
  intro t6; clear_value t6
  intro t7; clear_value t7
  intro t8; clear_value t8
  intro t9; clear_value t9
  intro t10; refine (have h10 : Stays q n M t10 := ?_; ?_) <;> [subst t10; clear_value t10]
  with_reducible apply putRelay_stays
  with_reducible assumption
  with_reducible apply stays_ite
  with_reducible assumption
  with_reducible apply stays_ite
  with_reducible apply relayMismatch_stays
  with_reducible assumption
  with_reducible apply stays_ite
  with_reducible apply relayMismatch_stays
  with_reducible assumption
  with_reducible apply stays_ite
  with_reducible assumption
  split
  with_reducible assumption
  with_reducible apply stays_ite
  with_reducible apply copyHop_stays
  assumption
  with_reducible assumption
  with_reducible apply reduceHop_stays
  assumption
  with_reducible assumption

theorem execRelayFrame_stays {s : State} (hM : MemOk M) (h : Stays q n M s) {a0 a1 a2} : StaysReply q n M (execRelayFrame a0 a1 a2 s) := by
  unfold execRelayFrame
  with_reducible apply staysReply_done
  with_reducible apply onlyIf_stays
  with_reducible assumption
  intro x1
  intro x2
  split
  with_reducible apply inClass_stays
  with_reducible assumption
  intro x3
  intro x4
  with_reducible apply withUpsets_stays
  assumption
  with_reducible assumption
  intro x5
  intro x6
  with_reducible apply relayTry_stays
  with_reducible assumption
  intro x7
  intro x8
  with_reducible apply takeRelayFrame_stays
  assumption
  with_reducible assumption
  with_reducible apply holdBody_stays
  with_reducible assumption

theorem relayBegin_stays {s : State} (hM : MemOk M) (h : Stays q n M s) {a1 a2 a3} : Stays q n M (relayBegin s a1 a2 a3) := by
  unfold relayBegin
  lift_lets
  intro t1; clear_value t1
  split
  with_reducible assumption
  lift_lets
  intro t2; clear_value t2
  intro t3; clear_value t3
  intro t4; clear_value t4
  intro t5; refine (have h5 : Stays q n M t5 := ?_; ?_) <;> [subst t5; clear_value t5]
  with_reducible apply showRelay_stays
  with_reducible apply stays_mk
  with_reducible assumption
  intro t6; refine (have h6 : Stays q n M t6 := ?_; ?_) <;> [subst t6; clear_value t6]
  with_reducible apply modCmd_stays
  with_reducible assumption
  intro t7; refine (have h7 : Stays q n M t7 := ?_; ?_) <;> [subst t7; clear_value t7]
  with_reducible apply stays_ite
  with_reducible apply endCmd_stays
  with_reducible apply dropRelay_stays
  with_reducible assumption
  with_reducible assumption
  with_reducible apply stays_foldl
  with_reducible assumption
  intro x8
  intro x9
  intro x10
  split
  with_reducible apply takeRelayFrame_stays
  assumption
  with_reducible assumption
  with_reducible assumption

end Sys2Proof.Machine
end

