-- ==== Sys2Proof/Laws/KeepsReckoning.lean ====
section
/-!
SUPPORT. What each function of Machine/Reckoning.lean keeps of a state: the queue, the time, the form of the registers and a condition on memory (`Stays`).
-/
set_option Elab.async false
set_option linter.all false
set_option maxRecDepth 4000
namespace Sys2Proof.Machine
variable {q : List Instr} {n : Nat} {M : List Host.Cell → Prop}

theorem auditAsk_stays {s : State} (h : Stays q n M s) : Stays q n M (auditAsk s) := by
  unfold auditAsk
  with_reducible apply stays_ite
  with_reducible assumption
  with_reducible apply startRead_stays
  with_reducible assumption

theorem auditBegin_stays {s : State} (h : Stays q n M s) : Stays q n M (auditBegin s) := by
  unfold auditBegin
  lift_lets
  intro t1; clear_value t1
  with_reducible apply stays_ite
  with_reducible apply auditAsk_stays
  with_reducible apply stays_mk
  with_reducible assumption
  with_reducible assumption

theorem askStreams_stays {s : State} (h : Stays q n M s) {a1 a2} : Stays q n M (askStreams s a1 a2) := by
  unfold askStreams
  split
  with_reducible apply sendSlice_stays
  with_reducible assumption
  with_reducible assumption

theorem dropParity_stays {s : State} (h : Stays q n M s) : Stays q n M (dropParity s) := by
  unfold dropParity
  lift_lets
  intro t1; clear_value t1
  with_reducible apply stays_mk
  with_reducible assumption

theorem sendReading_stays {s : State} (h : Stays q n M s) {a1 a2 a3 a4 a5 a6} : Stays q n M (sendReading s a1 a2 a3 a4 a5 a6) := by
  unfold sendReading
  with_reducible apply sendSlice_stays
  with_reducible assumption

theorem answerReading_stays {s : State} (h : Stays q n M s) {a1 a2 a3 a4 a5} : Stays q n M (answerReading s a1 a2 a3 a4 a5) := by
  unfold answerReading
  with_reducible apply stays_ite
  with_reducible apply sendReading_stays
  with_reducible assumption
  split
  with_reducible apply sendReading_stays
  with_reducible assumption
  with_reducible apply stays_ite
  with_reducible apply sendReading_stays
  with_reducible assumption
  with_reducible apply stays_ite
  with_reducible apply sendReading_stays
  with_reducible assumption
  split
  with_reducible apply sendReading_stays
  with_reducible refine stays_of_snd (by assumption) ?_
  with_reducible apply runMM_stays
  with_reducible assumption
  with_reducible apply readBlock_stays
  with_reducible apply sendReading_stays
  with_reducible apply blockFailed_stays
  with_reducible refine stays_of_snd (by assumption) ?_
  with_reducible apply runMM_stays
  with_reducible assumption
  with_reducible apply readBlock_stays

theorem answerHeld_stays {s : State} (h : Stays q n M s) : Stays q n M (answerHeld s) := by
  unfold answerHeld
  lift_lets
  intro t1; clear_value t1
  intro t2; clear_value t2
  with_reducible apply stays_foldl
  with_reducible apply stays_mk
  with_reducible assumption
  intro x3
  intro x4
  intro x5
  with_reducible apply answerReading_stays
  with_reducible assumption

theorem askAgain_stays {s : State} (h : Stays q n M s) : Stays q n M (askAgain s) := by
  unfold askAgain
  with_reducible apply stays_foldl
  with_reducible assumption
  intro x1
  intro x2
  intro x3
  lift_lets
  intro t4; clear_value t4
  intro t5; refine (have h5 : Stays q n M t5 := ?_; ?_) <;> [subst t5; clear_value t5]
  with_reducible apply stays_mk
  with_reducible assumption
  with_reducible apply stays_foldl
  with_reducible assumption
  intro x6
  intro x7
  intro x8
  with_reducible apply askReading_stays
  with_reducible assumption

theorem sendDelta_stays {s : State} (h : Stays q n M s) {a1 a2 a3 a4} : Stays q n M (sendDelta s a1 a2 a3 a4) := by
  unfold sendDelta
  with_reducible apply stays_foldl
  with_reducible assumption
  intro x1
  intro x2
  intro x3
  lift_lets
  intro t4; clear_value t4
  split
  with_reducible assumption
  with_reducible apply sendSlice_stays
  with_reducible apply stays_mk
  with_reducible assumption

theorem tellStale_stays {s : State} (h : Stays q n M s) : Stays q n M (tellStale s) := by
  unfold tellStale
  lift_lets
  intro t1; clear_value t1
  intro t2; clear_value t2
  with_reducible apply stays_ite
  with_reducible apply stays_foldl
  with_reducible apply stays_mk
  with_reducible assumption
  intro x3
  intro x4
  intro x5
  with_reducible apply sendDelta_stays
  with_reducible assumption
  with_reducible assumption

theorem viewBlock_stays {a0 a1} : StaysMM q n M (viewBlock a0 a1) := by
  unfold viewBlock
  lift_lets
  intro t1; clear_value t1
  with_reducible apply staysMM_bind
  with_reducible apply staysMM_forIn
  intro x2
  intro x3
  lift_lets
  intro t4; clear_value t4
  with_reducible apply staysMM_ite
  with_reducible apply staysMM_bind
  with_reducible apply readBlock_stays
  intro x5
  lift_lets
  intro t6; clear_value t6
  with_reducible apply staysMM_pure
  with_reducible apply staysMM_ite
  split
  with_reducible apply staysMM_bind
  with_reducible apply staysMM_pure
  intro x7
  beta_reduce
  with_reducible apply staysMM_bind
  with_reducible apply readBlock_stays
  intro x8
  lift_lets
  intro t9; clear_value t9
  with_reducible apply staysMM_pure
  with_reducible apply staysMM_bind
  with_reducible apply readBlock_stays
  intro x10
  beta_reduce
  with_reducible apply staysMM_bind
  with_reducible apply readBlock_stays
  intro x11
  lift_lets
  intro t12; clear_value t12
  with_reducible apply staysMM_pure
  with_reducible apply staysMM_pure
  intro x13
  lift_lets
  intro t14; clear_value t14
  split
  with_reducible apply staysMM_pure
  with_reducible apply readBlock_stays

theorem foldDelta_stays {s : State} (h : Stays q n M s) {a1 a2} : Stays q n M (foldDelta s a1 a2) := by
  unfold foldDelta
  with_reducible apply stays_ite
  split
  with_reducible apply sendDelta_stays
  with_reducible assumption
  with_reducible assumption
  with_reducible assumption

theorem failFold_stays {s : State} (h : Stays q n M s) {a1} : Stays q n M (failFold s a1) := by
  unfold failFold
  lift_lets
  intro t1; refine (have h1 : Stays q n M t1 := ?_; ?_) <;> [subst t1; clear_value t1]
  with_reducible apply blockFailed_stays
  with_reducible assumption
  intro t2; clear_value t2
  with_reducible apply stays_mk
  with_reducible assumption

theorem foldRows_stays {s : State} (h : Stays q n M s) : Stays q n M (foldRows s) := by
  unfold foldRows
  lift_lets
  intro t1; clear_value t1
  intro t2; clear_value t2
  intro t3; clear_value t3
  intro t4; refine (have h4 : Stays q n M t4 := ?_; ?_) <;> [subst t4; clear_value t4]
  with_reducible apply stays_foldl
  with_reducible assumption
  intro x5
  intro x6
  intro x7
  with_reducible apply stays_ite
  split
  with_reducible apply foldDelta_stays
  with_reducible refine stays_of_snd (by assumption) ?_
  with_reducible apply runMM_stays
  with_reducible assumption
  with_reducible apply viewBlock_stays
  with_reducible apply failFold_stays
  with_reducible refine stays_of_snd (by assumption) ?_
  with_reducible apply runMM_stays
  with_reducible assumption
  with_reducible apply viewBlock_stays
  with_reducible assumption
  intro t8; clear_value t8
  with_reducible apply stays_mk
  with_reducible assumption

theorem copyPage_stays {s : State} (hM : MemOk M) (h : Stays q n M s) {a1 a2} : Stays q n M (copyPage s a1 a2) := by
  unfold copyPage
  lift_lets
  intro t1; clear_value t1
  split
  lift_lets
  intro t2; refine (have h2 : Stays q n M t2 := ?_; ?_) <;> [subst t2; clear_value t2]
  with_reducible apply moved_stays
  with_reducible apply stays_memCopy
  with_reducible assumption
  with_reducible assumption
  assumption
  with_reducible apply stays_foldl
  with_reducible assumption
  intro x3
  intro x4
  intro x5
  lift_lets
  intro t6; refine (have h6 : Stays q n M t6 := ?_; ?_) <;> [subst t6; clear_value t6]
  with_reducible apply setHallmark_stays
  assumption
  with_reducible assumption
  with_reducible apply stays_ite
  with_reducible apply poisonBlock_stays
  with_reducible assumption
  with_reducible apply unpoison_stays
  with_reducible assumption
  with_reducible assumption

theorem touchParity_stays {s : State} (hM : MemOk M) (h : Stays q n M s) {a1} : Stays q n M (touchParity s a1) := by
  unfold touchParity
  lift_lets
  intro t1; clear_value t1
  intro t2; refine (have h2 : Stays q n M t2 := ?_; ?_) <;> [subst t2; clear_value t2]
  with_reducible apply stays_mk
  with_reducible assumption
  with_reducible apply stays_ite
  with_reducible assumption
  split
  with_reducible apply copyPage_stays
  assumption
  with_reducible assumption
  with_reducible assumption

theorem ackDelta_stays {s : State} (h : Stays q n M s) {a1 a2 a3 a4} : Stays q n M (ackDelta s a1 a2 a3 a4) := by
  unfold ackDelta
  with_reducible apply sendSlice_stays
  with_reducible assumption

theorem xorStage_stays {s : State} (hM : MemOk M) (h : Stays q n M s) {a1 a2 a3} : Stays q n M (xorStage s a1 a2 a3) := by
  unfold xorStage
  split
  with_reducible assumption
  lift_lets
  intro t1; clear_value t1
  intro t2; clear_value t2
  intro t3; refine (have h3 : Stays q n M t3 := ?_; ?_) <;> [subst t3; clear_value t3]
  with_reducible apply moved_stays
  with_reducible assumption
  with_reducible apply setHallmark_stays
  assumption
  with_reducible apply stays_memWrite
  with_reducible assumption
  with_reducible assumption
  assumption

theorem foldNext_stays {s : State} (h : Stays q n M s) : Stays q n M (foldNext s) := by
  unfold foldNext
  with_reducible apply stays_ite
  with_reducible assumption
  split
  with_reducible assumption
  with_reducible apply startRead_stays
  with_reducible assumption

theorem takeDelta_stays {s : State} (hM : MemOk M) (h : Stays q n M s) {a1} : Stays q n M (takeDelta s a1) := by
  unfold takeDelta
  split
  with_reducible assumption
  lift_lets
  intro t1; clear_value t1
  split
  with_reducible assumption
  lift_lets
  intro t2; refine (have h2 : Stays q n M t2 := ?_; ?_) <;> [subst t2; clear_value t2]
  with_reducible apply touchParity_stays
  assumption
  with_reducible assumption
  intro t3; clear_value t3
  intro t4; clear_value t4
  intro t5; clear_value t5
  intro t6; clear_value t6
  split
  with_reducible apply ackDelta_stays
  with_reducible apply xorStage_stays
  assumption
  with_reducible assumption
  with_reducible apply foldNext_stays
  with_reducible apply stays_mk
  with_reducible assumption

theorem takeDeltaAck_stays {s : State} (h : Stays q n M s) {a1 a2 a3 a4} : Stays q n M (takeDeltaAck s a1 a2 a3 a4) := by
  unfold takeDeltaAck
  lift_lets
  intro t1; clear_value t1
  split
  with_reducible apply stays_mk
  with_reducible assumption
  with_reducible assumption

theorem writeRebuilt_stays {s : State} (hM : MemOk M) (h : Stays q n M s) {a1 a2} : Stays q n M (writeRebuilt s a1 a2) := by
  unfold writeRebuilt
  with_reducible apply runMM_stays
  with_reducible assumption
  with_reducible apply writeBlock_stays
  assumption

theorem rebuildNext_stays {s : State} (h : Stays q n M s) : Stays q n M (rebuildNext s) := by
  unfold rebuildNext
  with_reducible apply stays_ite
  with_reducible assumption
  split
  with_reducible assumption
  split
  lift_lets
  intro t1; clear_value t1
  intro t2; clear_value t2
  intro t3; clear_value t3
  with_reducible apply startRead_stays
  with_reducible assumption

theorem takeStreams_stays {s : State} (h : Stays q n M s) {a1 a2} : Stays q n M (takeStreams s a1 a2) := by
  unfold takeStreams
  lift_lets
  intro t1; refine (have h1 : Stays q n M t1 := ?_; ?_) <;> [subst t1; clear_value t1]
  with_reducible apply wr_stays
  with_reducible assumption
  intro t2; refine (have h2 : Stays q n M t2 := ?_; ?_) <;> [subst t2; clear_value t2]
  with_reducible apply stays_foldl
  with_reducible assumption
  intro x3
  intro x4
  intro x5
  with_reducible apply setF_stays
  with_reducible apply wr_stays
  with_reducible assumption
  with_reducible apply rebuildNext_stays
  with_reducible assumption

theorem foldDone_stays {s : State} (hM : MemOk M) (h : Stays q n M s) {a1} : Stays q n M (foldDone s a1) := by
  unfold foldDone
  lift_lets
  intro t1; clear_value t1
  split
  dsimp only
  split
  with_reducible assumption
  with_reducible apply foldNext_stays
  with_reducible apply stays_mk
  split
  split
  with_reducible apply writeRebuilt_stays
  assumption
  with_reducible assumption
  with_reducible assumption
  with_reducible assumption
  dsimp only
  split
  with_reducible assumption
  with_reducible apply foldNext_stays
  with_reducible apply stays_foldl
  with_reducible apply stays_mk
  split
  split
  with_reducible apply writeRebuilt_stays
  assumption
  with_reducible assumption
  with_reducible assumption
  with_reducible assumption
  intro x2
  intro x3
  intro x4
  with_reducible apply ackDelta_stays
  with_reducible assumption

theorem dropRead_stays {s : State} (h : Stays q n M s) {a1} : Stays q n M (dropRead s a1) := by
  unfold dropRead
  lift_lets
  intro t1; clear_value t1
  with_reducible apply stays_mk
  with_reducible assumption

theorem reckNote_stays {s : State} (h : Stays q n M s) : Stays q n M (reckNote s) := by
  unfold reckNote
  with_reducible apply note_stays
  with_reducible assumption

theorem diverge_stays {s : State} (h : Stays q n M s) {a1 a2} : Stays q n M (diverge s a1 a2) := by
  unfold diverge
  lift_lets
  intro t1; refine (have h1 : Stays q n M t1 := ?_; ?_) <;> [subst t1; clear_value t1]
  with_reducible apply logEvent_stays
  with_reducible assumption
  intro t2; refine (have h2 : Stays q n M t2 := ?_; ?_) <;> [subst t2; clear_value t2]
  with_reducible apply incF_stays
  with_reducible assumption
  intro t3; clear_value t3
  with_reducible apply showReckon_stays
  with_reducible apply setF_stays
  with_reducible apply stays_mk
  with_reducible assumption

theorem sendRewrite_stays {s : State} (h : Stays q n M s) {a1 a2 a3 a4 a5} : Stays q n M (sendRewrite s a1 a2 a3 a4 a5) := by
  unfold sendRewrite
  split
  with_reducible apply sendReading_stays
  with_reducible assumption
  with_reducible assumption

theorem auditCheck_stays {s : State} (hM : MemOk M) (h : Stays q n M s) {a1} : Stays q n M (auditCheck s a1) := by
  unfold auditCheck
  lift_lets
  intro t1; clear_value t1
  intro t2; clear_value t2
  intro t3; clear_value t3
  intro t4; clear_value t4
  intro t5; refine (have h5 : ∀ y0, Stays q n M y0 → Stays q n M (t5 y0) := ?_; ?_) <;> [subst t5; clear_value t5]
  intro x6
  intro x7
  beta_reduce
  lift_lets
  intro t8; refine (have h8 : Stays q n M t8 := ?_; ?_) <;> [subst t8; clear_value t8]
  with_reducible apply reckNote_stays
  with_reducible assumption
  intro t9; clear_value t9
  with_reducible apply stays_mk
  with_reducible assumption
  intro t10; clear_value t10
  intro t11; clear_value t11
  split
  with_reducible assumption
  split
  dsimp only
  split
  with_reducible apply blockFailed_stays
  with_reducible apply stays_mk
  with_reducible refine stays_of_snd (by assumption) ?_
  with_reducible apply runMM_stays
  with_reducible assumption
  with_reducible apply readBlock_stays
  with_reducible apply stays_ite
  with_reducible apply stays_ite
  with_reducible refine stays_of_snd (by assumption) ?_
  with_reducible apply runMM_stays
  with_reducible assumption
  with_reducible apply readBlock_stays
  with_reducible apply diverge_stays
  with_reducible apply h5
  with_reducible refine stays_of_snd (by assumption) ?_
  with_reducible apply runMM_stays
  with_reducible assumption
  with_reducible apply readBlock_stays
  with_reducible apply stays_ite
  with_reducible refine stays_of_snd (by assumption) ?_
  with_reducible apply runMM_stays
  with_reducible assumption
  with_reducible apply readBlock_stays
  with_reducible apply writeRebuilt_stays
  assumption
  with_reducible apply h5
  with_reducible refine stays_of_snd (by assumption) ?_
  with_reducible apply runMM_stays
  with_reducible assumption
  with_reducible apply readBlock_stays
  dsimp only
  split
  with_reducible apply blockFailed_stays
  with_reducible apply stays_mk
  with_reducible refine stays_of_snd (by assumption) ?_
  with_reducible apply runMM_stays
  with_reducible assumption
  with_reducible apply readBlock_stays
  with_reducible apply stays_ite
  with_reducible apply stays_ite
  with_reducible refine stays_of_snd (by assumption) ?_
  with_reducible apply runMM_stays
  with_reducible assumption
  with_reducible apply readBlock_stays
  with_reducible apply diverge_stays
  with_reducible apply h5
  with_reducible refine stays_of_snd (by assumption) ?_
  with_reducible apply runMM_stays
  with_reducible assumption
  with_reducible apply readBlock_stays
  with_reducible apply stays_ite
  with_reducible refine stays_of_snd (by assumption) ?_
  with_reducible apply runMM_stays
  with_reducible assumption
  with_reducible apply readBlock_stays
  with_reducible apply stays_ite
  with_reducible apply sendRewrite_stays
  with_reducible apply h5
  with_reducible refine stays_of_snd (by assumption) ?_
  with_reducible apply runMM_stays
  with_reducible assumption
  with_reducible apply readBlock_stays
  split
  with_reducible apply sendRewrite_stays
  with_reducible apply h5
  with_reducible refine stays_of_snd (by assumption) ?_
  with_reducible apply runMM_stays
  with_reducible assumption
  with_reducible apply readBlock_stays
  with_reducible apply diverge_stays
  with_reducible apply h5
  with_reducible refine stays_of_snd (by assumption) ?_
  with_reducible apply runMM_stays
  with_reducible assumption
  with_reducible apply readBlock_stays

theorem auditStripeEnd_stays {s : State} (h : Stays q n M s) {a1} : Stays q n M (auditStripeEnd s a1) := by
  unfold auditStripeEnd
  lift_lets
  intro t1; clear_value t1
  intro t2; refine (have h2 : Stays q n M t2 := ?_; ?_) <;> [subst t2; clear_value t2]
  with_reducible apply stays_ite
  with_reducible apply incF_stays
  with_reducible assumption
  with_reducible assumption
  intro t3; clear_value t3
  intro t4; clear_value t4
  with_reducible apply stays_mk
  with_reducible assumption

theorem auditDone_stays {s : State} (hM : MemOk M) (h : Stays q n M s) {a1} : Stays q n M (auditDone s a1) := by
  unfold auditDone
  lift_lets
  intro t1; refine (have h1 : Stays q n M t1 := ?_; ?_) <;> [subst t1; clear_value t1]
  with_reducible apply auditCheck_stays
  assumption
  with_reducible assumption
  intro t2; clear_value t2
  with_reducible apply auditAsk_stays
  with_reducible apply stays_ite
  with_reducible apply stays_mk
  with_reducible assumption
  with_reducible apply auditStripeEnd_stays
  with_reducible assumption

theorem rebuildEnd_stays {s : State} (h : Stays q n M s) : Stays q n M (rebuildEnd s) := by
  unfold rebuildEnd
  lift_lets
  intro t1; clear_value t1
  intro t2; refine (have h2 : Stays q n M t2 := ?_; ?_) <;> [subst t2; clear_value t2]
  with_reducible apply showReckon_stays
  with_reducible apply setBitF_stays
  with_reducible assumption
  intro t3; refine (have h3 : Stays q n M t3 := ?_; ?_) <;> [subst t3; clear_value t3]
  with_reducible apply reckNote_stays
  with_reducible apply tellBluvisen_stays
  with_reducible assumption
  split
  with_reducible apply stays_mk
  with_reducible assumption
  with_reducible apply stays_ite
  with_reducible apply stays_foldl
  with_reducible assumption
  intro x4
  intro x5
  intro x6
  with_reducible apply stays_ite
  with_reducible assumption
  with_reducible apply sendReading_stays
  with_reducible assumption
  with_reducible apply showReckon_stays
  with_reducible assumption

theorem rebuildUnit_stays {s : State} (h : Stays q n M s) {a1} : Stays q n M (rebuildUnit s a1) := by
  unfold rebuildUnit
  lift_lets
  intro t1; clear_value t1
  split
  with_reducible assumption
  lift_lets
  intro t2; refine (have h2 : Stays q n M t2 := ?_; ?_) <;> [subst t2; clear_value t2]
  with_reducible apply stays_mk
  with_reducible assumption
  intro t3; refine (have h3 : Stays q n M t3 := ?_; ?_) <;> [subst t3; clear_value t3]
  with_reducible apply stays_ite
  with_reducible apply showStale_stays
  with_reducible apply incF_stays
  with_reducible assumption
  with_reducible assumption
  with_reducible apply stays_ite
  with_reducible apply rebuildEnd_stays
  with_reducible assumption
  with_reducible assumption

theorem loseStripe_stays {s : State} (h : Stays q n M s) {a1} : Stays q n M (loseStripe s a1) := by
  unfold loseStripe
  lift_lets
  intro t1; clear_value t1
  with_reducible apply showReckon_stays
  with_reducible apply stays_mk
  with_reducible assumption

theorem failRead_stays {s : State} (h : Stays q n M s) {a1} : Stays q n M (failRead s a1) := by
  unfold failRead
  lift_lets
  intro t1; refine (have h1 : Stays q n M t1 := ?_; ?_) <;> [subst t1; clear_value t1]
  with_reducible apply dropRead_stays
  with_reducible assumption
  intro t2; clear_value t2
  split
  split
  with_reducible apply loseBlock_stays
  with_reducible assumption
  with_reducible assumption
  with_reducible apply rebuildNext_stays
  with_reducible apply rebuildUnit_stays
  with_reducible apply loseStripe_stays
  with_reducible assumption
  with_reducible apply rebuildNext_stays
  with_reducible apply rebuildUnit_stays
  with_reducible apply loseStripe_stays
  with_reducible assumption
  with_reducible apply foldNext_stays
  with_reducible apply stays_mk
  with_reducible assumption
  with_reducible apply auditAsk_stays
  with_reducible apply auditStripeEnd_stays
  with_reducible assumption

theorem rebuildBlock_stays {s : State} (hM : MemOk M) (h : Stays q n M s) {a1 a2} : Stays q n M (rebuildBlock s a1 a2) := by
  unfold rebuildBlock
  split
  with_reducible assumption
  split
  with_reducible assumption
  lift_lets
  intro t1; refine (have h1 : Stays q n M t1 := ?_; ?_) <;> [subst t1; clear_value t1]
  with_reducible apply writeRebuilt_stays
  assumption
  with_reducible assumption
  intro t2; clear_value t2
  with_reducible apply stays_ite
  with_reducible apply stays_mk
  with_reducible assumption
  with_reducible apply rebuildUnit_stays
  with_reducible assumption

theorem solveDone_stays {s : State} (hM : MemOk M) (h : Stays q n M s) {a1} : Stays q n M (solveDone s a1) := by
  unfold solveDone
  lift_lets
  intro t1; clear_value t1
  intro t2; clear_value t2
  intro t3; clear_value t3
  intro t4; refine (have h4 : Stays q n M t4 := ?_; ?_) <;> [subst t4; clear_value t4]
  with_reducible apply diverge_stays
  with_reducible apply reckNote_stays
  with_reducible apply dropRead_stays
  with_reducible assumption
  intro t5; refine (have h5 : Stays q n M t5 := ?_; ?_) <;> [subst t5; clear_value t5]
  with_reducible apply dropRead_stays
  with_reducible assumption
  split
  with_reducible apply failRead_stays
  with_reducible assumption
  with_reducible apply stays_ite
  with_reducible assumption
  with_reducible apply rebuildNext_stays
  with_reducible apply rebuildUnit_stays
  with_reducible assumption
  lift_lets
  intro t6; refine (have h6 : Stays q n M t6 := ?_; ?_) <;> [subst t6; clear_value t6]
  split
  with_reducible apply sendRewrite_stays
  with_reducible apply reckNote_stays
  with_reducible assumption
  with_reducible assumption
  with_reducible apply stays_ite
  split
  with_reducible apply reckNote_stays
  with_reducible apply incF_stays
  with_reducible apply writeRebuilt_stays
  assumption
  with_reducible assumption
  with_reducible assumption
  with_reducible apply rebuildNext_stays
  with_reducible apply rebuildBlock_stays
  assumption
  with_reducible assumption

theorem settleRead_stays {s : State} (hM : MemOk M) (h : Stays q n M s) {a1} : Stays q n M (settleRead s a1) := by
  unfold settleRead
  with_reducible apply stays_ite
  split
  with_reducible apply foldDone_stays
  assumption
  with_reducible apply dropRead_stays
  with_reducible assumption
  with_reducible apply auditDone_stays
  assumption
  with_reducible apply dropRead_stays
  with_reducible assumption
  with_reducible apply solveDone_stays
  assumption
  with_reducible assumption
  with_reducible assumption

theorem putRead_stays {s : State} (hM : MemOk M) (h : Stays q n M s) {a1} : Stays q n M (putRead s a1) := by
  unfold putRead
  lift_lets
  intro t1; clear_value t1
  with_reducible apply settleRead_stays
  assumption
  with_reducible apply stays_mk
  with_reducible assumption

theorem losePosition_stays {s : State} (hM : MemOk M) (h : Stays q n M s) {a1 a2} : Stays q n M (losePosition s a1 a2) := by
  unfold losePosition
  lift_lets
  intro t1; clear_value t1
  with_reducible apply stays_ite
  with_reducible apply failRead_stays
  with_reducible assumption
  with_reducible apply putRead_stays
  assumption
  with_reducible assumption

theorem gather_stays {s : State} (hM : MemOk M) (h : Stays q n M s) {a1 a2 a3} : Stays q n M (gather s a1 a2 a3) := by
  unfold gather
  lift_lets
  intro t1; refine (have h1 : Stays q n M t1 := ?_; ?_) <;> [subst t1; clear_value t1]
  with_reducible apply noteBlockErr_stays
  with_reducible assumption
  split
  with_reducible apply stays_ite
  with_reducible apply putRead_stays
  assumption
  with_reducible assumption
  with_reducible apply stays_ite
  with_reducible apply losePosition_stays
  assumption
  with_reducible assumption
  with_reducible apply askReading_stays
  with_reducible apply putRead_stays
  assumption
  with_reducible assumption
  with_reducible apply putRead_stays
  assumption
  with_reducible assumption
  with_reducible apply losePosition_stays
  assumption
  with_reducible assumption
  with_reducible apply failRead_stays
  with_reducible assumption
  with_reducible assumption

theorem takeReading_stays {s : State} (hM : MemOk M) (h : Stays q n M s) {a1 a2 a3 a4} : Stays q n M (takeReading s a1 a2 a3 a4) := by
  unfold takeReading
  split
  split
  with_reducible apply showReckon_stays
  with_reducible apply setBitF_stays
  with_reducible assumption
  with_reducible assumption
  split
  with_reducible apply writeRebuilt_stays
  assumption
  with_reducible assumption
  with_reducible assumption
  with_reducible apply stays_ite
  with_reducible assumption
  with_reducible apply takeStreams_stays
  with_reducible assumption
  split
  with_reducible assumption
  with_reducible apply gather_stays
  assumption
  with_reducible assumption

theorem entryDelta_stays {a0 a1 a2 a3} : StaysMM q n M (entryDelta a0 a1 a2 a3) := by
  unfold entryDelta
  with_reducible apply staysMM_ite
  with_reducible apply staysMM_bind
  with_reducible apply viewBlock_stays
  intro x1
  with_reducible apply staysMM_bind
  with_reducible apply viewBlock_stays
  intro x2
  with_reducible apply staysMM_pure
  with_reducible apply staysMM_bind
  with_reducible apply readBlock_stays
  intro x3
  with_reducible apply staysMM_pure

theorem remark_stays {s : State} (hM : MemOk M) (h : Stays q n M s) {a1 a2 a3} : Stays q n M (remark s a1 a2 a3) := by
  unfold remark
  split
  with_reducible assumption
  with_reducible apply stays_foldl
  with_reducible assumption
  intro x1
  intro x2
  intro x3
  with_reducible apply setHallmark_stays
  assumption
  with_reducible assumption

theorem exchangePages_stays {s : State} (hM : MemOk M) (h : Stays q n M s) {a1 a2} : Stays q n M (exchangePages s a1 a2) := by
  unfold exchangePages
  lift_lets
  intro t1; clear_value t1
  intro t2; clear_value t2
  intro t3; clear_value t3
  intro t4; clear_value t4
  intro t5; clear_value t5
  intro t6; refine (have h6 : Stays q n M t6 := ?_; ?_) <;> [subst t6; clear_value t6]
  with_reducible apply setFrame_stays
  with_reducible apply setFrame_stays
  with_reducible assumption
  with_reducible apply remark_stays
  assumption
  with_reducible apply remark_stays
  assumption
  with_reducible assumption

theorem foldEntry_stays {s : State} (h : Stays q n M s) {a1 a2} : Stays q n M (foldEntry s a1 a2) := by
  unfold foldEntry
  with_reducible apply stays_foldl
  with_reducible assumption
  intro x1
  intro x2
  intro x3
  lift_lets
  intro t4; clear_value t4
  intro t5; clear_value t5
  split
  with_reducible apply stays_ite
  with_reducible apply foldDelta_stays
  with_reducible refine stays_of_snd (by assumption) ?_
  with_reducible apply runMM_stays
  with_reducible assumption
  with_reducible apply entryDelta_stays
  with_reducible refine stays_of_snd (by assumption) ?_
  with_reducible apply runMM_stays
  with_reducible assumption
  with_reducible apply entryDelta_stays
  with_reducible apply failFold_stays
  with_reducible refine stays_of_snd (by assumption) ?_
  with_reducible apply runMM_stays
  with_reducible assumption
  with_reducible apply entryDelta_stays

theorem releaseParity_stays {s : State} (hM : MemOk M) (h : Stays q n M s) : Stays q n M (releaseParity s) := by
  unfold releaseParity
  lift_lets
  intro t1; refine (have h1 : Stays q n M t1 := ?_; ?_) <;> [subst t1; clear_value t1]
  with_reducible apply stays_foldl
  with_reducible assumption
  intro x2
  intro x3
  intro x4
  split
  with_reducible apply exchangePages_stays
  assumption
  with_reducible assumption
  with_reducible assumption
  intro t5; clear_value t5
  intro t6; clear_value t6
  with_reducible apply showStale_stays
  with_reducible apply stays_mk
  with_reducible assumption

theorem settleReads_stays {s : State} (hM : MemOk M) (h : Stays q n M s) : Stays q n M (settleReads s) := by
  unfold settleReads
  with_reducible apply stays_foldl
  with_reducible assumption
  intro x1
  intro x2
  intro x3
  with_reducible apply stays_ite
  with_reducible apply settleRead_stays
  assumption
  with_reducible assumption
  with_reducible assumption

end Sys2Proof.Machine
end

