-- ==== Sys2Proof/Laws/KeepsEscapement.lean ====
section
/-!
SUPPORT. What each function of Machine/Escapement.lean keeps of a state: the queue, the time, the form of the registers and a condition on memory (`Stays`).
-/
set_option Elab.async false
set_option linter.all false
set_option maxRecDepth 4000
namespace Sys2Proof.Machine
variable {q : List Instr} {n : Nat} {M : List Host.Cell → Prop}

theorem showEsc_stays {s : State} (h : Stays q n M s) : Stays q n M (showEsc s) := by
  unfold showEsc
  lift_lets
  intro t1; refine (have h1 : Stays q n M t1 := ?_; ?_) <;> [subst t1; clear_value t1]
  with_reducible apply setF_stays
  with_reducible apply setF_stays
  with_reducible assumption
  with_reducible apply setF_stays
  with_reducible assumption

theorem setEsc_stays {s : State} (h : Stays q n M s) {a1} : Stays q n M (setEsc s a1) := by
  unfold setEsc
  with_reducible apply setF_stays
  with_reducible assumption

theorem commitStop_stays {s : State} (h : Stays q n M s) {a1 a2} : Stays q n M (commitStop s a1 a2) := by
  unfold commitStop
  split
  lift_lets
  intro t1; refine (have h1 : Stays q n M t1 := ?_; ?_) <;> [subst t1; clear_value t1]
  with_reducible apply setEsc_stays
  with_reducible assumption
  intro t2; clear_value t2
  with_reducible apply stays_ite
  with_reducible apply stays_mk
  with_reducible assumption
  with_reducible assumption
  with_reducible assumption

theorem nextStep_stays {s : State} (h : Stays q n M s) : Stays q n M (nextStep s) := by
  unfold nextStep
  lift_lets
  intro t1; clear_value t1
  intro t2; clear_value t2
  intro t3; clear_value t3
  intro t4; clear_value t4
  intro t5; clear_value t5
  with_reducible apply setF_stays
  with_reducible apply stays_mk
  with_reducible assumption

theorem endCommit_stays {s : State} (h : Stays q n M s) {a1 a2} : Stays q n M (endCommit s a1 a2) := by
  unfold endCommit
  with_reducible apply endCmd_stays
  with_reducible assumption

theorem dropStage_stays {s : State} (h : Stays q n M s) : Stays q n M (dropStage s) := by
  unfold dropStage
  lift_lets
  intro t1; clear_value t1
  intro t2; clear_value t2
  intro t3; clear_value t3
  intro t4; refine (have h4 : Stays q n M t4 := ?_; ?_) <;> [subst t4; clear_value t4]
  with_reducible apply stays_mk
  with_reducible assumption
  with_reducible apply showEsc_stays
  with_reducible apply setF_stays
  with_reducible apply dropParity_stays
  with_reducible assumption

theorem afterDecision_stays {s : State} (h : Stays q n M s) : Stays q n M (afterDecision s) := by
  unfold afterDecision
  with_reducible apply answerHeld_stays
  with_reducible apply askAgain_stays
  with_reducible assumption

theorem actOn_stays {s : State} (h : Stays q n M s) {a1 a2} : Stays q n M (actOn s a1 a2) := by
  unfold actOn
  lift_lets
  intro t1; clear_value t1
  intro t2; refine (have h2 : Stays q n M t2 := ?_; ?_) <;> [subst t2; clear_value t2]
  with_reducible apply stays_mk
  with_reducible assumption
  intro t3; refine (have h3 : ∀ y0, Stays q n M y0 → Stays q n M (t3 y0) := ?_; ?_) <;> [subst t3; clear_value t3]
  intro x4
  intro x5
  beta_reduce
  lift_lets
  intro t6; clear_value t6
  intro t7; refine (have h7 : Stays q n M t7 := ?_; ?_) <;> [subst t7; clear_value t7]
  with_reducible apply stays_ite
  with_reducible apply stays_mk
  with_reducible assumption
  with_reducible assumption
  intro t8; clear_value t8
  intro t9; clear_value t9
  with_reducible apply stays_mk
  with_reducible assumption
  intro t10; refine (have h10 : Stays q n M t10 := ?_; ?_) <;> [subst t10; clear_value t10]
  with_reducible apply setF_stays
  with_reducible apply setEsc_stays
  with_reducible apply nextStep_stays
  with_reducible apply h3
  with_reducible assumption
  intro t11; clear_value t11
  intro t12; refine (have h12 : Stays q n M t12 := ?_; ?_) <;> [subst t12; clear_value t12]
  with_reducible apply endCommit_stays
  with_reducible assumption
  intro t13; refine (have h13 : Stays q n M t13 := ?_; ?_) <;> [subst t13; clear_value t13]
  with_reducible apply setEsc_stays
  with_reducible assumption
  intro t14; clear_value t14
  intro t15; refine (have h15 : Stays q n M t15 := ?_; ?_) <;> [subst t15; clear_value t15]
  with_reducible apply endCommit_stays
  with_reducible assumption
  intro t16; refine (have h16 : Stays q n M t16 := ?_; ?_) <;> [subst t16; clear_value t16]
  with_reducible apply incF_stays
  with_reducible apply dropStage_stays
  with_reducible apply h3
  with_reducible assumption
  intro t17; refine (have h17 : Stays q n M t17 := ?_; ?_) <;> [subst t17; clear_value t17]
  with_reducible apply setEsc_stays
  with_reducible assumption
  intro t18; clear_value t18
  split
  with_reducible apply stays_mk
  with_reducible assumption
  with_reducible apply stays_mk
  with_reducible assumption
  with_reducible apply afterDecision_stays
  with_reducible apply stays_mk
  with_reducible assumption

theorem actOrWait_stays {s : State} (h : Stays q n M s) {a1 a2} : Stays q n M (actOrWait s a1 a2) := by
  unfold actOrWait
  lift_lets
  intro t1; clear_value t1
  with_reducible apply stays_ite
  with_reducible apply actOn_stays
  with_reducible assumption
  with_reducible apply stays_mk
  with_reducible assumption

theorem keepDecision_stays {s : State} (h : Stays q n M s) {a1} : Stays q n M (keepDecision s a1) := by
  unfold keepDecision
  lift_lets
  intro t1; clear_value t1
  with_reducible apply setF_stays
  with_reducible apply stays_mk
  with_reducible assumption

theorem sendDecision_stays {s : State} (h : Stays q n M s) {a1 a2 a3 a4} : Stays q n M (sendDecision s a1 a2 a3 a4) := by
  unfold sendDecision
  lift_lets
  intro t1; clear_value t1
  with_reducible apply sendSlice_stays
  with_reducible assumption

theorem decide__stays {s : State} (h : Stays q n M s) {a1 a2 a3} : Stays q n M (decide_ s a1 a2 a3) := by
  unfold decide_
  lift_lets
  intro t1; clear_value t1
  intro t2; clear_value t2
  intro t3; refine (have h3 : Stays q n M t3 := ?_; ?_) <;> [subst t3; clear_value t3]
  with_reducible apply keepDecision_stays
  with_reducible assumption
  intro t4; refine (have h4 : Stays q n M t4 := ?_; ?_) <;> [subst t4; clear_value t4]
  split
  with_reducible apply sendDecision_stays
  with_reducible assumption
  with_reducible assumption
  with_reducible apply actOrWait_stays
  with_reducible assumption

theorem castVote_stays {s : State} (h : Stays q n M s) : Stays q n M (castVote s) := by
  unfold castVote
  split
  with_reducible assumption
  lift_lets
  intro t1; clear_value t1
  intro t2; clear_value t2
  intro t3; refine (have h3 : Stays q n M t3 := ?_; ?_) <;> [subst t3; clear_value t3]
  with_reducible apply setF_stays
  with_reducible assumption
  intro t4; refine (have h4 : Stays q n M t4 := ?_; ?_) <;> [subst t4; clear_value t4]
  with_reducible apply stays_ite
  with_reducible apply incF_stays
  with_reducible assumption
  with_reducible assumption
  intro t5; clear_value t5
  intro t6; clear_value t6
  intro t7; refine (have h7 : Stays q n M t7 := ?_; ?_) <;> [subst t7; clear_value t7]
  with_reducible apply setEsc_stays
  with_reducible apply stays_mk
  with_reducible assumption
  with_reducible apply stays_ite
  with_reducible assumption
  split
  with_reducible assumption
  lift_lets
  intro t8; clear_value t8
  intro t9; clear_value t9
  split
  with_reducible apply sendSlice_stays
  with_reducible assumption
  with_reducible apply decide__stays
  with_reducible assumption

theorem checkReplay_stays {s : State} (h : Stays q n M s) {a1 a2 a3} : Stays q n M (checkReplay s a1 a2 a3).2 := by
  unfold checkReplay
  lift_lets
  intro t1; clear_value t1
  with_reducible apply stays_ite_snd
  split
  lift_lets
  intro t2; refine (have h2 : Stays q n M t2 := ?_; ?_) <;> [subst t2; clear_value t2]
  with_reducible apply logEvent_stays
  with_reducible apply stays_mk
  with_reducible assumption
  with_reducible apply stays_ite_snd
  dsimp only
  with_reducible assumption
  dsimp only
  with_reducible apply tellBluvisen_stays
  with_reducible assumption
  dsimp only
  with_reducible assumption
  dsimp only
  with_reducible assumption

theorem commitBegin_stays {s : State} (h : Stays q n M s) {a1 a2 a3 a4} : Stays q n M (commitBegin s a1 a2 a3 a4) := by
  unfold commitBegin
  lift_lets
  intro t1; clear_value t1
  intro t2; clear_value t2
  intro t3; refine (have h3 : Stays q n M t3 := ?_; ?_) <;> [subst t3; clear_value t3]
  with_reducible apply setEsc_stays
  with_reducible assumption
  intro t4; clear_value t4
  with_reducible apply stays_ite
  with_reducible apply stays_ite
  split
  with_reducible apply actOn_stays
  with_reducible assumption
  with_reducible assumption
  with_reducible apply stays_ite
  with_reducible apply sendSlice_stays
  with_reducible apply stays_mk
  with_reducible assumption
  with_reducible apply castVote_stays
  with_reducible apply stays_mk
  with_reducible assumption
  with_reducible apply stays_mk
  with_reducible assumption

theorem doubtAbandon_stays {s : State} (h : Stays q n M s) {a1} : Stays q n M (doubtAbandon s a1) := by
  unfold doubtAbandon
  lift_lets
  intro t1; refine (have h1 : Stays q n M t1 := ?_; ?_) <;> [subst t1; clear_value t1]
  with_reducible apply endCommit_stays
  with_reducible assumption
  intro t2; refine (have h2 : Stays q n M t2 := ?_; ?_) <;> [subst t2; clear_value t2]
  with_reducible apply dropStage_stays
  with_reducible assumption
  intro t3; refine (have h3 : Stays q n M t3 := ?_; ?_) <;> [subst t3; clear_value t3]
  with_reducible apply stays_ite
  with_reducible apply showReckon_stays
  with_reducible apply setBitF_stays
  with_reducible assumption
  with_reducible assumption
  intro t4; refine (have h4 : Stays q n M t4 := ?_; ?_) <;> [subst t4; clear_value t4]
  with_reducible apply incF_stays
  with_reducible assumption
  intro t5; refine (have h5 : Stays q n M t5 := ?_; ?_) <;> [subst t5; clear_value t5]
  with_reducible apply setEsc_stays
  with_reducible assumption
  intro t6; clear_value t6
  with_reducible apply afterDecision_stays
  with_reducible apply stays_mk
  with_reducible assumption

theorem execCommit_stays {s : State} (h : Stays q n M s) : StaysReply q n M (execCommit s) := by
  unfold execCommit
  with_reducible apply staysReply_done
  with_reducible apply intakeWork_stays
  with_reducible assumption

theorem execCommitBeat_stays {s : State} (h : Stays q n M s) : StaysReply q n M (execCommitBeat s) := by
  unfold execCommitBeat
  lift_lets
  intro t1; refine (have h1 : ∀ y0, Stays q n M (t1 y0) := ?_; ?_) <;> [subst t1; clear_value t1]
  intro x2
  beta_reduce
  lift_lets
  intro t3; refine (have h3 : Stays q n M t3 := ?_; ?_) <;> [subst t3; clear_value t3]
  with_reducible apply keepDecision_stays
  with_reducible assumption
  intro t4; clear_value t4
  with_reducible apply stays_mk
  with_reducible assumption
  with_reducible apply staysReply_done
  split
  with_reducible assumption
  lift_lets
  intro t5; clear_value t5
  intro t6; clear_value t6
  with_reducible apply stays_ite
  with_reducible assumption
  split
  with_reducible apply actOn_stays
  with_reducible assumption
  with_reducible apply stays_ite
  with_reducible apply stays_ite
  with_reducible apply decide__stays
  with_reducible assumption
  split
  with_reducible apply sendDecision_stays
  with_reducible apply h1
  with_reducible apply h1
  with_reducible assumption

theorem passDecision_stays {s : State} (h : Stays q n M s) {a1} : Stays q n M (passDecision s a1) := by
  unfold passDecision
  split
  with_reducible assumption
  split
  with_reducible assumption
  with_reducible apply stays_ite
  split
  with_reducible apply sendDecision_stays
  with_reducible assumption
  with_reducible assumption
  with_reducible assumption

theorem learnLate_stays {s : State} (h : Stays q n M s) {a1} : Stays q n M (learnLate s a1) := by
  unfold learnLate
  lift_lets
  intro t1; clear_value t1
  intro t2; refine (have h2 : Stays q n M t2 := ?_; ?_) <;> [subst t2; clear_value t2]
  with_reducible apply stays_mk
  with_reducible assumption
  with_reducible apply stays_ite
  with_reducible apply stays_ite
  with_reducible apply showReckon_stays
  with_reducible apply setBitF_stays
  with_reducible assumption
  with_reducible assumption
  with_reducible assumption

theorem takeDecision_stays {s : State} (h : Stays q n M s) {a1 a2} : Stays q n M (takeDecision s a1 a2) := by
  unfold takeDecision
  lift_lets
  intro t1; clear_value t1
  intro t2; refine (have h2 : Stays q n M t2 := ?_; ?_) <;> [subst t2; clear_value t2]
  with_reducible apply keepDecision_stays
  with_reducible assumption
  intro t3; refine (have h3 : Stays q n M t3 := ?_; ?_) <;> [subst t3; clear_value t3]
  with_reducible apply stays_ite
  with_reducible assumption
  with_reducible apply passDecision_stays
  with_reducible assumption
  intro t4; clear_value t4
  split
  with_reducible apply stays_ite
  with_reducible apply actOrWait_stays
  with_reducible assumption
  with_reducible apply stays_ite
  with_reducible apply stays_mk
  with_reducible assumption
  with_reducible apply learnLate_stays
  with_reducible assumption
  with_reducible apply stays_ite
  with_reducible apply learnLate_stays
  with_reducible apply stays_mk
  with_reducible assumption
  with_reducible apply learnLate_stays
  with_reducible assumption

theorem execDecisionFrame_stays {s : State} (h : Stays q n M s) {a0 a1} : StaysReply q n M (execDecisionFrame a0 a1 s) := by
  unfold execDecisionFrame
  with_reducible apply staysReply_done
  with_reducible apply onlyIf_stays
  with_reducible assumption
  intro x1
  intro x2
  with_reducible apply takeDecision_stays
  with_reducible assumption

theorem execDecisionRequest_stays {s : State} (h : Stays q n M s) : StaysReply q n M (execDecisionRequest s) := by
  unfold execDecisionRequest
  lift_lets
  intro t1; clear_value t1
  with_reducible apply staysReply_done
  split
  with_reducible assumption
  lift_lets
  intro t2; clear_value t2
  intro t3; clear_value t3
  intro t4; clear_value t4
  with_reducible apply stays_ite
  with_reducible assumption
  with_reducible apply sendSlice_stays
  with_reducible apply stays_mk
  with_reducible assumption

theorem execDecisionRequestReceipt_stays {s : State} (h : Stays q n M s) {a0 a1} : StaysReply q n M (execDecisionRequestReceipt a0 a1 s) := by
  unfold execDecisionRequestReceipt
  with_reducible apply staysReply_done
  with_reducible apply onlyIf_stays
  with_reducible assumption
  intro x1
  intro x2
  split
  with_reducible apply sendDecision_stays
  with_reducible assumption
  with_reducible assumption

theorem execDigestFetchAnswer_stays {s : State} (h : Stays q n M s) {a0 a1} : StaysReply q n M (execDigestFetchAnswer a0 a1 s) := by
  unfold execDigestFetchAnswer
  lift_lets
  intro t1; clear_value t1
  intro t2; clear_value t2
  with_reducible apply staysReply_done
  split
  with_reducible assumption
  with_reducible apply stays_ite
  with_reducible apply castVote_stays
  with_reducible apply stays_mk
  with_reducible assumption
  with_reducible assumption

theorem execDigestFetchRequest_stays {s : State} (h : Stays q n M s) {a0 a1} : StaysReply q n M (execDigestFetchRequest a0 a1 s) := by
  unfold execDigestFetchRequest
  with_reducible apply staysReply_done
  with_reducible apply onlyIf_stays
  with_reducible assumption
  intro x1
  intro x2
  split
  with_reducible apply sendSlice_stays
  with_reducible assumption
  with_reducible apply sendSlice_stays
  with_reducible assumption

theorem execEscInDoubt_stays {s : State} (h : Stays q n M s) : StaysReply q n M (execEscInDoubt s) := by
  unfold execEscInDoubt
  with_reducible apply staysReply_done
  split
  lift_lets
  intro t1; refine (have h1 : Stays q n M t1 := ?_; ?_) <;> [subst t1; clear_value t1]
  with_reducible apply endCommit_stays
  with_reducible assumption
  intro t2; clear_value t2
  with_reducible apply stays_ite
  with_reducible apply stays_mk
  with_reducible assumption
  with_reducible assumption
  with_reducible assumption

theorem sealNow_stays {s : State} (h : Stays q n M s) {a1} : Stays q n M (sealNow s a1) := by
  unfold sealNow
  lift_lets
  intro t1; clear_value t1
  split
  lift_lets
  intro t2; clear_value t2
  intro t3; refine (have h3 : Stays q n M t3 := ?_; ?_) <;> [subst t3; clear_value t3]
  with_reducible apply dropStage_stays
  with_reducible refine stays_of_snd (by assumption) ?_
  with_reducible apply checkReplay_stays
  with_reducible assumption
  intro t4; refine (have h4 : Stays q n M t4 := ?_; ?_) <;> [subst t4; clear_value t4]
  with_reducible apply setEsc_stays
  with_reducible assumption
  intro t5; clear_value t5
  intro t6; refine (have h6 : Stays q n M t6 := ?_; ?_) <;> [subst t6; clear_value t6]
  with_reducible apply stays_mk
  with_reducible assumption
  intro t7; clear_value t7
  with_reducible apply stays_ite
  with_reducible apply afterDecision_stays
  with_reducible apply endCommit_stays
  with_reducible assumption
  with_reducible apply castVote_stays
  with_reducible apply stays_mk
  with_reducible refine stays_of_snd (by assumption) ?_
  with_reducible apply checkReplay_stays
  with_reducible assumption

theorem sealTry_stays {s : State} (h : Stays q n M s) : Stays q n M (sealTry s) := by
  unfold sealTry
  split
  with_reducible assumption
  with_reducible apply stays_ite
  with_reducible apply sealNow_stays
  with_reducible assumption
  with_reducible assumption

theorem sealFold_stays {s : State} (h : Stays q n M s) {a1 a2} : Stays q n M (sealFold s a1 a2) := by
  unfold sealFold
  lift_lets
  intro t1; clear_value t1
  split
  lift_lets
  intro t2; clear_value t2
  intro t3; clear_value t3
  with_reducible apply sealTry_stays
  with_reducible apply tellStale_stays
  with_reducible apply foldRows_stays
  with_reducible apply stays_mk
  with_reducible refine stays_of_snd (by assumption) ?_
  with_reducible apply stays_ite_snd
  dsimp only
  with_reducible assumption
  split
  dsimp only
  with_reducible refine stays_of_snd (by assumption) ?_
  with_reducible apply runMM_stays
  with_reducible assumption
  with_reducible apply readPart_stays
  lift_lets
  intro t4; refine (have h4 : Stays q n M t4 := ?_; ?_) <;> [subst t4; clear_value t4]
  with_reducible apply blockFailed_stays
  with_reducible refine stays_of_snd (by assumption) ?_
  with_reducible apply runMM_stays
  with_reducible assumption
  with_reducible apply readPart_stays
  intro t5; clear_value t5
  dsimp only
  with_reducible apply stays_mk
  with_reducible assumption

theorem sealStep_stays {s : State} (h : Stays q n M s) {a1 a2} : Stays q n M (sealStep s a1 a2) := by
  unfold sealStep
  lift_lets
  intro t1; clear_value t1
  split
  with_reducible apply actOn_stays
  with_reducible assumption
  with_reducible apply stays_ite
  with_reducible apply stays_ite
  with_reducible apply doubtAbandon_stays
  with_reducible assumption
  with_reducible apply castVote_stays
  with_reducible apply stays_mk
  with_reducible assumption
  with_reducible apply sealFold_stays
  with_reducible assumption

theorem execEscapementSeal_stays {s : State} (hM : MemOk M) (h : Stays q n M s) {a0} : StaysReply q n M (execEscapementSeal a0 s) := by
  unfold execEscapementSeal
  with_reducible apply staysReply_done
  split
  with_reducible assumption
  split
  with_reducible assumption
  with_reducible apply onlyIf_stays
  with_reducible assumption
  intro x1
  intro x2
  with_reducible apply inClass_stays
  with_reducible assumption
  intro x3
  intro x4
  with_reducible apply withUpsets_stays
  assumption
  with_reducible assumption
  intro x5
  intro x6
  with_reducible apply sealStep_stays
  with_reducible assumption

theorem execInDoubtEntry_stays {s : State} (h : Stays q n M s) : StaysReply q n M (execInDoubtEntry s) := by
  unfold execInDoubtEntry
  lift_lets
  intro t1; clear_value t1
  with_reducible apply staysReply_done
  split
  with_reducible assumption
  with_reducible apply stays_ite
  with_reducible assumption
  with_reducible apply setEsc_stays
  with_reducible apply stays_mk
  with_reducible assumption

theorem execParityDelta_stays {s : State} (hM : MemOk M) (h : Stays q n M s) {a0} : StaysReply q n M (execParityDelta a0 s) := by
  unfold execParityDelta
  with_reducible apply staysReply_done
  with_reducible apply onlyIf_stays
  with_reducible assumption
  intro x1
  intro x2
  with_reducible apply inClass_stays
  with_reducible assumption
  intro x3
  intro x4
  with_reducible apply takeDelta_stays
  assumption
  with_reducible assumption

theorem execParityDeltaAck_stays {s : State} (h : Stays q n M s) {a0 a1 a2 a3} : StaysReply q n M (execParityDeltaAck a0 a1 a2 a3 s) := by
  unfold execParityDeltaAck
  with_reducible apply staysReply_done
  with_reducible apply onlyIf_stays
  with_reducible assumption
  intro x1
  intro x2
  with_reducible apply sealTry_stays
  with_reducible apply takeDeltaAck_stays
  with_reducible assumption

theorem standInDone_stays {s : State} (h : Stays q n M s) : Stays q n M (standInDone s) := by
  unfold standInDone
  split
  with_reducible apply stays_ite
  with_reducible apply endCmd_stays
  with_reducible assumption
  with_reducible assumption
  with_reducible assumption

theorem execReading_stays {s : State} (hM : MemOk M) (h : Stays q n M s) {a0 a1 a2 a3 a4} : StaysReply q n M (execReading a0 a1 a2 a3 a4 s) := by
  unfold execReading
  with_reducible apply staysReply_done
  with_reducible apply onlyIf_stays
  with_reducible assumption
  intro x1
  intro x2
  with_reducible apply inClass_stays
  with_reducible assumption
  intro x3
  intro x4
  with_reducible apply withUpsets_stays
  assumption
  with_reducible assumption
  intro x5
  intro x6
  with_reducible apply standInDone_stays
  with_reducible apply sealTry_stays
  with_reducible apply takeReading_stays
  assumption
  with_reducible assumption

theorem execReadingRequest_stays {s : State} (hM : MemOk M) (h : Stays q n M s) {a0 a1 a2 a3 a4 a5} : StaysReply q n M (execReadingRequest a0 a1 a2 a3 a4 a5 s) := by
  unfold execReadingRequest
  with_reducible apply staysReply_done
  with_reducible apply onlyIf_stays
  with_reducible assumption
  intro x1
  intro x2
  with_reducible apply inClass_stays
  with_reducible assumption
  intro x3
  intro x4
  with_reducible apply withUpsets_stays
  assumption
  with_reducible assumption
  intro x5
  intro x6
  lift_lets
  intro t7; clear_value t7
  split
  with_reducible apply sendReading_stays
  with_reducible assumption
  with_reducible apply stays_ite
  with_reducible apply stays_mk
  with_reducible assumption
  with_reducible apply answerReading_stays
  with_reducible assumption

theorem execVoteFrame_stays {s : State} (h : Stays q n M s) {a0} : StaysReply q n M (execVoteFrame a0 s) := by
  unfold execVoteFrame
  with_reducible apply staysReply_done
  with_reducible apply onlyIf_stays
  with_reducible assumption
  intro x1
  intro x2
  lift_lets
  intro t3; clear_value t3
  with_reducible apply castVote_stays
  with_reducible apply stays_mk
  with_reducible assumption

end Sys2Proof.Machine
end

