-- ==== Sys2Proof/Laws/KeepsEmbedding.lean ====
section
/-!
SUPPORT. What each function of Machine/Embedding.lean keeps of a state: the queue, the time, the form of the registers and a condition on memory (`Stays`).
-/
set_option Elab.async false
set_option linter.all false
set_option maxRecDepth 4000
namespace Sys2Proof.Machine
variable {q : List Instr} {n : Nat} {M : List Host.Cell → Prop}

theorem showEmb_stays {s : State} (h : Stays q n M s) : Stays q n M (showEmb s) := by
  unfold showEmb
  lift_lets
  intro t1; clear_value t1
  with_reducible apply showRelay_stays
  with_reducible apply setF_stays
  with_reducible apply setF_stays
  with_reducible assumption

theorem dropExch_stays {s : State} (h : Stays q n M s) {a1 a2} : Stays q n M (dropExch s a1 a2) := by
  unfold dropExch
  lift_lets
  intro t1; clear_value t1
  with_reducible apply showEmb_stays
  with_reducible apply stays_mk
  with_reducible assumption

theorem embSend_stays {s : State} (h : Stays q n M s) {a1 a2 a3 a4 a5 a6} : Stays q n M (embSend s a1 a2 a3 a4 a5 a6) := by
  unfold embSend
  with_reducible apply sendSlice_stays
  with_reducible assumption

theorem embTellStop_stays {s : State} (h : Stays q n M s) {a1 a2} : Stays q n M (embTellStop s a1 a2) := by
  unfold embTellStop
  with_reducible apply stays_foldl
  with_reducible assumption
  intro x1
  intro x2
  intro x3
  with_reducible apply embSend_stays
  with_reducible assumption

theorem putExch_stays {s : State} (h : Stays q n M s) {a1} : Stays q n M (putExch s a1) := by
  unfold putExch
  lift_lets
  intro t1; clear_value t1
  with_reducible apply showEmb_stays
  with_reducible apply stays_mk
  with_reducible assumption

theorem ackContribution_stays {s : State} (h : Stays q n M s) {a1 a2 a3 a4} : Stays q n M (ackContribution s a1 a2 a3 a4) := by
  unfold ackContribution
  with_reducible apply stays_ite
  split
  with_reducible apply putExch_stays
  with_reducible assumption
  with_reducible assumption
  with_reducible apply embSend_stays
  with_reducible assumption

theorem embStopAsk_stays {s : State} (h : Stays q n M s) {a1 a2 a3 a4 a5 a6} : Stays q n M (embStopAsk s a1 a2 a3 a4 a5 a6) := by
  unfold embStopAsk
  split
  with_reducible apply stays_ite
  with_reducible assumption
  with_reducible apply askStop_stays
  split
  with_reducible apply incF_stays
  with_reducible assumption
  with_reducible assumption
  with_reducible assumption

theorem readRowFor_stays {a0 a1 a2 a3 a4} : StaysMM q n M (readRowFor a0 a1 a2 a3 a4) := by
  unfold readRowFor
  apply staysMM_getBind
  intro x1
  intro x2
  split
  split
  with_reducible apply staysMM_pure
  with_reducible apply staysMM_bind
  with_reducible apply readPart_stays
  intro x3
  with_reducible apply staysMM_bind
  with_reducible apply readPart_stays
  intro x4
  with_reducible apply staysMM_pure

theorem showCounts_stays {s : State} (h : Stays q n M s) : Stays q n M (showCounts s) := by
  unfold showCounts
  with_reducible apply setF_stays
  with_reducible assumption

theorem setApplied_stays {s : State} (h : Stays q n M s) {a1 a2 a3 a4} : Stays q n M (setApplied s a1 a2 a3 a4) := by
  unfold setApplied
  lift_lets
  intro t1; clear_value t1
  intro t2; clear_value t2
  with_reducible apply showCounts_stays
  with_reducible apply stays_mk
  with_reducible assumption

theorem applyOne_stays {s : State} (hM : MemOk M) (h : Stays q n M s) {a1 a2 a3} : Stays q n M (applyOne s a1 a2 a3).1 := by
  unfold applyOne
  lift_lets
  intro t1; clear_value t1
  intro t2; clear_value t2
  intro t3; clear_value t3
  intro t4; clear_value t4
  intro t5; clear_value t5
  intro t6; clear_value t6
  intro t7; clear_value t7
  intro t8; clear_value t8
  intro t9; clear_value t9
  with_reducible apply stays_ite_fst
  dsimp only
  with_reducible apply ackContribution_stays
  with_reducible assumption
  with_reducible apply stays_ite_fst
  dsimp only
  with_reducible apply embStopAsk_stays
  with_reducible assumption
  split
  split
  split
  dsimp only
  with_reducible apply stays_ite_fst
  dsimp only
  with_reducible apply embStopAsk_stays
  with_reducible assumption
  split
  dsimp only
  with_reducible apply failMem_stays
  with_reducible refine stays_of_snd (by assumption) ?_
  with_reducible apply runMM_stays
  with_reducible assumption
  with_reducible apply readRowFor_stays
  split
  dsimp only
  with_reducible apply failMem_stays
  with_reducible refine stays_of_snd (by assumption) ?_
  with_reducible apply runMM_stays
  with_reducible refine stays_of_snd (by assumption) ?_
  with_reducible apply runMM_stays
  with_reducible assumption
  with_reducible apply readRowFor_stays
  with_reducible apply staysMM_modify
  intro x10
  intro x11
  with_reducible apply showEsc_stays
  with_reducible apply stays_mk
  with_reducible assumption
  dsimp only
  with_reducible apply ackContribution_stays
  with_reducible apply setApplied_stays
  with_reducible refine stays_of_snd (by assumption) ?_
  with_reducible apply runMM_stays
  with_reducible refine stays_of_snd (by assumption) ?_
  with_reducible apply runMM_stays
  with_reducible assumption
  with_reducible apply readRowFor_stays
  with_reducible apply staysMM_modify
  intro x12
  intro x13
  with_reducible apply showEsc_stays
  with_reducible apply stays_mk
  with_reducible assumption
  dsimp only
  with_reducible apply stays_ite_fst
  dsimp only
  with_reducible apply embStopAsk_stays
  with_reducible assumption
  split
  dsimp only
  with_reducible apply failMem_stays
  with_reducible refine stays_of_snd (by assumption) ?_
  with_reducible apply runMM_stays
  with_reducible assumption
  with_reducible apply readRowFor_stays
  split
  dsimp only
  with_reducible apply failMem_stays
  with_reducible refine stays_of_snd (by assumption) ?_
  with_reducible apply runMM_stays
  with_reducible refine stays_of_snd (by assumption) ?_
  with_reducible apply runMM_stays
  with_reducible assumption
  with_reducible apply readRowFor_stays
  with_reducible apply staysMM_modify
  intro x14
  intro x15
  with_reducible apply showEsc_stays
  with_reducible apply stays_mk
  with_reducible assumption
  dsimp only
  with_reducible apply ackContribution_stays
  with_reducible apply incF_stays
  with_reducible apply setApplied_stays
  with_reducible refine stays_of_snd (by assumption) ?_
  with_reducible apply runMM_stays
  with_reducible refine stays_of_snd (by assumption) ?_
  with_reducible apply runMM_stays
  with_reducible assumption
  with_reducible apply readRowFor_stays
  with_reducible apply staysMM_modify
  intro x16
  intro x17
  with_reducible apply showEsc_stays
  with_reducible apply stays_mk
  with_reducible assumption
  split
  dsimp only
  with_reducible apply stays_ite_fst
  dsimp only
  with_reducible apply embStopAsk_stays
  with_reducible assumption
  split
  dsimp only
  with_reducible apply failMem_stays
  with_reducible refine stays_of_snd (by assumption) ?_
  with_reducible apply runMM_stays
  with_reducible assumption
  with_reducible apply readRowFor_stays
  split
  dsimp only
  with_reducible apply failMem_stays
  with_reducible refine stays_of_snd (by assumption) ?_
  with_reducible apply runMM_stays
  with_reducible refine stays_of_snd (by assumption) ?_
  with_reducible apply runMM_stays
  with_reducible assumption
  with_reducible apply readRowFor_stays
  with_reducible apply staysMM_bind
  with_reducible apply writeBytes_stays
  assumption
  intro x18
  with_reducible apply staysMM_ite
  with_reducible apply staysMM_bind
  with_reducible apply writeBytes_stays
  assumption
  intro x19
  with_reducible apply staysMM_modify
  intro x20
  intro x21
  with_reducible apply staleRange_stays
  with_reducible apply staleRange_stays
  with_reducible assumption
  with_reducible apply staysMM_modify
  intro x22
  intro x23
  with_reducible apply staleRange_stays
  with_reducible apply staleRange_stays
  with_reducible assumption
  dsimp only
  with_reducible apply ackContribution_stays
  with_reducible apply setApplied_stays
  with_reducible refine stays_of_snd (by assumption) ?_
  with_reducible apply runMM_stays
  with_reducible refine stays_of_snd (by assumption) ?_
  with_reducible apply runMM_stays
  with_reducible assumption
  with_reducible apply readRowFor_stays
  with_reducible apply staysMM_bind
  with_reducible apply writeBytes_stays
  assumption
  intro x24
  with_reducible apply staysMM_ite
  with_reducible apply staysMM_bind
  with_reducible apply writeBytes_stays
  assumption
  intro x25
  with_reducible apply staysMM_modify
  intro x26
  intro x27
  with_reducible apply staleRange_stays
  with_reducible apply staleRange_stays
  with_reducible assumption
  with_reducible apply staysMM_modify
  intro x28
  intro x29
  with_reducible apply staleRange_stays
  with_reducible apply staleRange_stays
  with_reducible assumption
  dsimp only
  with_reducible apply stays_ite_fst
  dsimp only
  with_reducible apply embStopAsk_stays
  with_reducible assumption
  split
  dsimp only
  with_reducible apply failMem_stays
  with_reducible refine stays_of_snd (by assumption) ?_
  with_reducible apply runMM_stays
  with_reducible assumption
  with_reducible apply readRowFor_stays
  split
  dsimp only
  with_reducible apply failMem_stays
  with_reducible refine stays_of_snd (by assumption) ?_
  with_reducible apply runMM_stays
  with_reducible refine stays_of_snd (by assumption) ?_
  with_reducible apply runMM_stays
  with_reducible assumption
  with_reducible apply readRowFor_stays
  with_reducible apply staysMM_bind
  with_reducible apply writeBytes_stays
  assumption
  intro x30
  with_reducible apply staysMM_ite
  with_reducible apply staysMM_bind
  with_reducible apply writeBytes_stays
  assumption
  intro x31
  with_reducible apply staysMM_modify
  intro x32
  intro x33
  with_reducible apply staleRange_stays
  with_reducible apply staleRange_stays
  with_reducible assumption
  with_reducible apply staysMM_modify
  intro x34
  intro x35
  with_reducible apply staleRange_stays
  with_reducible apply staleRange_stays
  with_reducible assumption
  dsimp only
  with_reducible apply ackContribution_stays
  with_reducible apply incF_stays
  with_reducible apply setApplied_stays
  with_reducible refine stays_of_snd (by assumption) ?_
  with_reducible apply runMM_stays
  with_reducible refine stays_of_snd (by assumption) ?_
  with_reducible apply runMM_stays
  with_reducible assumption
  with_reducible apply readRowFor_stays
  with_reducible apply staysMM_bind
  with_reducible apply writeBytes_stays
  assumption
  intro x36
  with_reducible apply staysMM_ite
  with_reducible apply staysMM_bind
  with_reducible apply writeBytes_stays
  assumption
  intro x37
  with_reducible apply staysMM_modify
  intro x38
  intro x39
  with_reducible apply staleRange_stays
  with_reducible apply staleRange_stays
  with_reducible assumption
  with_reducible apply staysMM_modify
  intro x40
  intro x41
  with_reducible apply staleRange_stays
  with_reducible apply staleRange_stays
  with_reducible assumption

theorem applyDue_stays {s : State} (hM : MemOk M) (h : Stays q n M s) {a0 a2 a3} : Stays q n M (applyDue a0 s a2 a3) := by
  induction a0 generalizing s with
  | zero =>
    unfold applyDue
    with_reducible assumption
  | succ k ih =>
    unfold applyDue
    split
    with_reducible apply stays_ite
    with_reducible assumption
    split
    with_reducible assumption
    split
    with_reducible assumption
    split
    with_reducible apply stays_ite
    with_reducible apply ih
    with_reducible refine stays_of_fst (by assumption) ?_
    with_reducible apply applyOne_stays
    assumption
    with_reducible apply putExch_stays
    with_reducible assumption
    with_reducible refine stays_of_fst (by assumption) ?_
    with_reducible apply applyOne_stays
    assumption
    with_reducible apply putExch_stays
    with_reducible assumption
    with_reducible assumption

theorem lookupWeight_stays {a0 a1 a2 a3 a4 a5} : StaysMM q n M (lookupWeight a0 a1 a2 a3 a4 a5) := by
  unfold lookupWeight
  with_reducible apply staysMM_ite
  with_reducible apply staysMM_bind
  with_reducible apply readPart_stays
  intro x1
  with_reducible apply staysMM_pure
  with_reducible apply staysMM_pure

theorem combineReady_stays {a0 a1 a2 a3 a4 a5 a6} : StaysMM q n M (combineReady a0 a1 a2 a3 a4 a5 a6) := by
  induction a0 generalizing a6 with
  | zero =>
    unfold combineReady
    with_reducible apply staysMM_pure
  | succ k ih =>
    unfold combineReady
    lift_lets
    intro t1; clear_value t1
    split
    with_reducible apply staysMM_pure
    lift_lets
    intro t2; clear_value t2
    with_reducible apply staysMM_ite
    with_reducible apply ih
    with_reducible apply staysMM_bind
    with_reducible apply lookupWeight_stays
    intro x3
    lift_lets
    intro t4; clear_value t4
    intro t5; clear_value t5
    with_reducible apply staysMM_bind
    with_reducible apply staysMM_modify
    intro x6
    intro x7
    with_reducible apply incF_stays
    with_reducible assumption
    intro x8
    with_reducible apply ih

theorem writeBag_stays (hM : MemOk M) {a0 a1 a2 a3 a4} : StaysMM q n M (writeBag a0 a1 a2 a3 a4) := by
  unfold writeBag
  lift_lets
  intro t1; clear_value t1
  intro t2; clear_value t2
  intro t3; clear_value t3
  split
  with_reducible apply staysMM_pure
  lift_lets
  intro t4; clear_value t4
  intro t5; clear_value t5
  intro t6; refine (have h6 : ∀ y0, StaysMM q n M (t6 y0) := ?_; ?_) <;> [subst t6; clear_value t6]
  intro x7
  beta_reduce
  with_reducible apply staysMM_modify
  intro x8
  intro x9
  with_reducible apply staleRange_stays
  with_reducible assumption
  intro t10; clear_value t10
  with_reducible apply staysMM_ite
  with_reducible apply staysMM_bind
  with_reducible apply writeBytes_stays
  assumption
  intro x11
  with_reducible apply staysMM_bind
  with_reducible apply writeBytes_stays
  assumption
  intro x12
  with_reducible apply staysMM_ite
  with_reducible apply staysMM_bind
  with_reducible apply writeBytes_stays
  assumption
  intro x13
  with_reducible apply h6
  with_reducible apply h6
  with_reducible apply staysMM_bind
  with_reducible apply writeBytes_stays
  assumption
  intro x14
  with_reducible apply h6

theorem embProgress_stays {s : State} (h : Stays q n M s) {a1 a2} : Stays q n M (embProgress s a1 a2) := by
  unfold embProgress
  split
  lift_lets
  intro t1; clear_value t1
  intro t2; clear_value t2
  intro t3; refine (have h3 : Stays q n M t3 := ?_; ?_) <;> [subst t3; clear_value t3]
  with_reducible apply stays_ite
  with_reducible apply stays_foldl
  with_reducible assumption
  intro x4
  intro x5
  intro x6
  with_reducible apply embSend_stays
  with_reducible assumption
  with_reducible assumption
  intro t7; clear_value t7
  intro t8; clear_value t8
  intro t9; refine (have h9 : Stays q n M t9 := ?_; ?_) <;> [subst t9; clear_value t9]
  with_reducible apply putExch_stays
  with_reducible assumption
  intro t10; clear_value t10
  intro t11; refine (have h11 : Stays q n M t11 := ?_; ?_) <;> [subst t11; clear_value t11]
  with_reducible apply modCmd_stays
  with_reducible assumption
  with_reducible apply stays_ite
  with_reducible apply endCmd_stays
  with_reducible apply dropExch_stays
  with_reducible assumption
  with_reducible assumption
  with_reducible assumption

theorem closeBag_stays {s : State} (h : Stays q n M s) {a1 a2} : Stays q n M (closeBag s a1 a2) := by
  unfold closeBag
  with_reducible apply embProgress_stays
  with_reducible apply putExch_stays
  with_reducible assumption

theorem bagOn_stays {s : State} (hM : MemOk M) (h : Stays q n M s) {a1 a2 a3} : Stays q n M (bagOn s a1 a2 a3) := by
  unfold bagOn
  lift_lets
  intro t1; refine (have h1 : StaysMM q n M t1 := ?_; ?_) <;> [subst t1; clear_value t1]
  with_reducible apply staysMM_bind
  with_reducible apply combineReady_stays
  intro x2
  lift_lets
  intro t3; refine (have h3 : ∀ y0, StaysMM q n M (t3 y0) := ?_; ?_) <;> [subst t3; clear_value t3]
  intro x4
  beta_reduce
  with_reducible apply staysMM_pure
  apply staysMM_getBind
  intro x5
  intro x6
  with_reducible apply staysMM_ite
  with_reducible apply staysMM_bind
  with_reducible apply writeBag_stays
  assumption
  intro x7
  with_reducible apply h3
  with_reducible apply h3
  split
  with_reducible apply failMem_stays
  with_reducible refine stays_of_snd (by assumption) ?_
  with_reducible apply runMM_stays
  with_reducible assumption
  with_reducible assumption
  with_reducible apply stays_ite
  with_reducible apply closeBag_stays
  with_reducible refine stays_of_snd (by assumption) ?_
  with_reducible apply runMM_stays
  with_reducible assumption
  with_reducible assumption
  with_reducible apply embProgress_stays
  with_reducible apply putExch_stays
  with_reducible refine stays_of_snd (by assumption) ?_
  with_reducible apply runMM_stays
  with_reducible assumption
  with_reducible assumption

theorem bagRange_stays {a0 a1 a2 a3 a4 a5} : StaysMM q n M (bagRange a0 a1 a2 a3 a4 a5) := by
  unfold bagRange
  with_reducible apply staysMM_ite
  with_reducible apply staysMM_pure
  with_reducible apply staysMM_bind
  with_reducible apply readPart_stays
  intro x1
  lift_lets
  intro t2; clear_value t2
  intro t3; clear_value t3
  with_reducible apply staysMM_pure

theorem countKeys_stays {a0 a1 a2 a3 a4 a5} : StaysMM q n M (countKeys a0 a1 a2 a3 a4 a5) := by
  unfold countKeys
  with_reducible apply staysMM_bind
  with_reducible apply readPart_stays
  intro x1
  with_reducible apply staysMM_pure

theorem embMismatch_stays {s : State} (h : Stays q n M s) {a1 a2} : Stays q n M (embMismatch s a1 a2) := by
  unfold embMismatch
  with_reducible apply embStopAsk_stays
  with_reducible assumption

theorem takeRequest_stays {s : State} (h : Stays q n M s) {a1 a2 a3 a4} : Stays q n M (takeRequest s a1 a2 a3 a4) := by
  unfold takeRequest
  split
  with_reducible apply stays_ite
  with_reducible assumption
  split
  split
  with_reducible apply failMem_stays
  with_reducible refine stays_of_snd (by assumption) ?_
  with_reducible apply runMM_stays
  with_reducible assumption
  with_reducible apply staysMM_bind
  with_reducible apply readPart_stays
  intro x1
  with_reducible apply staysMM_bind
  with_reducible apply readPart_stays
  intro x2
  with_reducible apply staysMM_pure
  lift_lets
  intro t3; clear_value t3
  with_reducible apply incF_stays
  with_reducible apply embSend_stays
  with_reducible refine stays_of_snd (by assumption) ?_
  with_reducible apply runMM_stays
  with_reducible assumption
  with_reducible apply staysMM_bind
  with_reducible apply readPart_stays
  intro x4
  with_reducible apply staysMM_bind
  with_reducible apply readPart_stays
  intro x5
  with_reducible apply staysMM_pure

theorem takeContribution_stays {s : State} (hM : MemOk M) (h : Stays q n M s) {a1 a2 a3} : Stays q n M (takeContribution s a1 a2 a3) := by
  unfold takeContribution
  split
  with_reducible assumption
  lift_lets
  intro t1; clear_value t1
  intro t2; refine (have h2 : Stays q n M t2 := ?_; ?_) <;> [subst t2; clear_value t2]
  with_reducible apply putExch_stays
  with_reducible assumption
  with_reducible apply embProgress_stays
  with_reducible apply applyDue_stays
  assumption
  with_reducible assumption

theorem takeEmb_stays {s : State} (hM : MemOk M) (h : Stays q n M s) {a1 a2} : Stays q n M (takeEmb s a1 a2) := by
  unfold takeEmb
  split
  with_reducible apply stays_ite
  with_reducible apply embMismatch_stays
  with_reducible assumption
  with_reducible apply takeRequest_stays
  with_reducible assumption
  with_reducible apply stays_ite
  with_reducible apply embMismatch_stays
  with_reducible assumption
  with_reducible apply takeContribution_stays
  assumption
  with_reducible assumption
  with_reducible apply stays_ite
  with_reducible apply embMismatch_stays
  with_reducible assumption
  with_reducible apply embProgress_stays
  with_reducible apply applyDue_stays
  assumption
  with_reducible apply putExch_stays
  with_reducible assumption
  with_reducible apply stays_ite
  with_reducible apply embMismatch_stays
  with_reducible assumption
  with_reducible apply embStopAsk_stays
  with_reducible assumption
  with_reducible assumption

theorem embBegin_stays {s : State} (hM : MemOk M) (h : Stays q n M s) {a1 a2 a3 a4 a5} : Stays q n M (embBegin s a1 a2 a3 a4 a5) := by
  unfold embBegin
  lift_lets
  intro t1; clear_value t1
  intro t2; clear_value t2
  split
  with_reducible assumption
  lift_lets
  intro t3; clear_value t3
  intro t4; clear_value t4
  intro t5; clear_value t5
  intro t6; refine (have h6 : Stays q n M t6 := ?_; ?_) <;> [subst t6; clear_value t6]
  with_reducible apply showEmb_stays
  with_reducible apply stays_mk
  with_reducible assumption
  intro t7; refine (have h7 : Stays q n M t7 := ?_; ?_) <;> [subst t7; clear_value t7]
  with_reducible apply modCmd_stays
  with_reducible assumption
  intro t8; refine (have h8 : Stays q n M t8 := ?_; ?_) <;> [subst t8; clear_value t8]
  with_reducible apply embProgress_stays
  with_reducible assumption
  with_reducible apply stays_foldl
  with_reducible assumption
  intro x9
  intro x10
  intro x11
  split
  with_reducible apply takeEmb_stays
  assumption
  with_reducible assumption
  with_reducible assumption

theorem embFrame_stays {s : State} (hM : MemOk M) (h : Stays q n M s) {a1 a2 a3 a4 a5} : Stays q n M (embFrame s a1 a2 a3 a4 a5) := by
  unfold embFrame
  with_reducible apply onlyIf_stays
  with_reducible assumption
  intro x1
  intro x2
  split
  with_reducible apply inClass_stays
  with_reducible assumption
  intro x3
  intro x4
  with_reducible apply withUpsets_stays
  assumption
  with_reducible assumption
  intro x5
  intro x6
  with_reducible apply takeEmb_stays
  assumption
  with_reducible assumption
  with_reducible apply holdBody_stays
  with_reducible assumption

theorem execEmbContribution_stays {s : State} (hM : MemOk M) (h : Stays q n M s) {a0 a1 a2 a3 a4} : StaysReply q n M (execEmbContribution a0 a1 a2 a3 a4 s) := by
  unfold execEmbContribution
  with_reducible apply staysReply_done
  with_reducible apply onlyIf_stays
  with_reducible assumption
  intro x1
  intro x2
  split
  with_reducible apply inClass_stays
  with_reducible assumption
  intro x3
  intro x4
  with_reducible apply withUpsets_stays
  assumption
  with_reducible assumption
  intro x5
  intro x6
  with_reducible apply engineRun_stays
  with_reducible assumption
  intro x7
  intro x8
  with_reducible apply takeEmb_stays
  assumption
  with_reducible assumption
  with_reducible apply holdBody_stays
  with_reducible assumption

theorem execEmbEnd_stays {s : State} (hM : MemOk M) (h : Stays q n M s) {a0 a1 a2 a3 a4} : StaysReply q n M (execEmbEnd a0 a1 a2 a3 a4 s) := by
  unfold execEmbEnd
  with_reducible apply staysReply_done
  with_reducible apply embFrame_stays
  assumption
  with_reducible assumption

theorem execEmbGather_stays {s : State} (h : Stays q n M s) : StaysReply q n M (execEmbGather s) := by
  unfold execEmbGather
  with_reducible apply staysReply_done
  with_reducible apply intakeWork_stays
  with_reducible assumption

theorem lookupKey_stays {a0 a1 a2 a3 a4 a5} : StaysMM q n M (lookupKey a0 a1 a2 a3 a4 a5) := by
  unfold lookupKey
  with_reducible apply staysMM_bind
  with_reducible apply readPart_stays
  intro x1
  with_reducible apply staysMM_pure

theorem keyRange_stays {s : State} (h : Stays q n M s) {a1 a2} : Stays q n M (keyRange s a1 a2) := by
  unfold keyRange
  with_reducible apply embStopAsk_stays
  with_reducible assumption

theorem gradRow_stays {a0 a1 a2 a3 a4 a5} : StaysMM q n M (gradRow a0 a1 a2 a3 a4 a5) := by
  unfold gradRow
  lift_lets
  intro t1; clear_value t1
  split
  with_reducible apply staysMM_pure
  with_reducible apply staysMM_bind
  with_reducible apply readPart_stays
  intro x2
  lift_lets
  intro t3; refine (have h3 : ∀ y0, StaysMM q n M (t3 y0) := ?_; ?_) <;> [subst t3; clear_value t3]
  intro x4
  beta_reduce
  with_reducible apply staysMM_pure
  with_reducible apply staysMM_ite
  with_reducible apply staysMM_bind
  with_reducible apply readPart_stays
  intro x5
  with_reducible apply h3
  with_reducible apply staysMM_bind
  with_reducible apply staysMM_pure
  intro x6
  with_reducible apply h3

theorem seqOf_stays {a0 a1 a2 a3 a4 a5 a6 a7} : StaysMM q n M (seqOf a0 a1 a2 a3 a4 a5 a6 a7) := by
  unfold seqOf
  lift_lets
  intro t1; clear_value t1
  with_reducible apply staysMM_bind
  with_reducible apply readPart_stays
  intro x2
  with_reducible apply staysMM_pure

theorem scatterLookup_stays {s : State} (hM : MemOk M) (h : Stays q n M s) {a1 a2 a3} : Stays q n M (scatterLookup s a1 a2 a3) := by
  unfold scatterLookup
  lift_lets
  intro t1; clear_value t1
  intro t2; clear_value t2
  intro t3; clear_value t3
  intro t4; clear_value t4
  intro t5; clear_value t5
  intro t6; clear_value t6
  intro t7; refine (have h7 : ∀ y0 y1, Stays q n M y0 → Stays q n M (t7 y0 y1) := ?_; ?_) <;> [subst t7; clear_value t7]
  intro x8
  intro x9
  intro x10
  beta_reduce
  with_reducible apply stays_ite
  with_reducible apply closeBag_stays
  with_reducible assumption
  with_reducible apply embProgress_stays
  with_reducible apply putExch_stays
  with_reducible assumption
  split
  with_reducible apply failMem_stays
  with_reducible refine stays_of_snd (by assumption) ?_
  with_reducible apply runMM_stays
  with_reducible assumption
  with_reducible apply lookupKey_stays
  with_reducible apply stays_ite
  with_reducible apply h7
  with_reducible refine stays_of_snd (by assumption) ?_
  with_reducible apply runMM_stays
  with_reducible assumption
  with_reducible apply lookupKey_stays
  with_reducible apply stays_ite
  with_reducible apply h7
  with_reducible refine stays_of_snd (by assumption) ?_
  with_reducible apply runMM_stays
  with_reducible assumption
  with_reducible apply lookupKey_stays
  split
  with_reducible apply keyRange_stays
  with_reducible refine stays_of_snd (by assumption) ?_
  with_reducible apply runMM_stays
  with_reducible assumption
  with_reducible apply lookupKey_stays
  lift_lets
  intro t11; clear_value t11
  intro t12; refine (have h12 : StaysMM q n M t12 := ?_; ?_) <;> [subst t12; clear_value t12]
  with_reducible apply staysMM_bind
  with_reducible apply gradRow_stays
  intro x13
  split
  with_reducible apply staysMM_bind
  with_reducible apply lookupWeight_stays
  intro x14
  with_reducible apply staysMM_bind
  with_reducible apply seqOf_stays
  intro x15
  with_reducible apply staysMM_pure
  dsimp only
  split
  with_reducible apply failMem_stays
  with_reducible refine stays_of_snd (by assumption) ?_
  with_reducible apply runMM_stays
  with_reducible refine stays_of_snd (by assumption) ?_
  with_reducible apply runMM_stays
  with_reducible assumption
  with_reducible apply lookupKey_stays
  with_reducible assumption
  with_reducible apply embProgress_stays
  with_reducible apply applyDue_stays
  assumption
  with_reducible apply stays_ite
  with_reducible apply h7
  with_reducible apply incF_stays
  with_reducible refine stays_of_snd (by assumption) ?_
  with_reducible apply runMM_stays
  with_reducible refine stays_of_snd (by assumption) ?_
  with_reducible apply runMM_stays
  with_reducible assumption
  with_reducible apply lookupKey_stays
  with_reducible assumption
  with_reducible apply h7
  with_reducible apply embSend_stays
  with_reducible apply incF_stays
  with_reducible refine stays_of_snd (by assumption) ?_
  with_reducible apply runMM_stays
  with_reducible refine stays_of_snd (by assumption) ?_
  with_reducible apply runMM_stays
  with_reducible assumption
  with_reducible apply lookupKey_stays
  with_reducible assumption

theorem gatherLookup_stays {s : State} (hM : MemOk M) (h : Stays q n M s) {a1 a2 a3} : Stays q n M (gatherLookup s a1 a2 a3) := by
  unfold gatherLookup
  lift_lets
  intro t1; clear_value t1
  intro t2; clear_value t2
  intro t3; clear_value t3
  intro t4; clear_value t4
  intro t5; clear_value t5
  intro t6; clear_value t6
  split
  with_reducible apply failMem_stays
  with_reducible refine stays_of_snd (by assumption) ?_
  with_reducible apply runMM_stays
  with_reducible assumption
  with_reducible apply lookupKey_stays
  with_reducible apply stays_ite
  with_reducible apply bagOn_stays
  assumption
  with_reducible refine stays_of_snd (by assumption) ?_
  with_reducible apply runMM_stays
  with_reducible assumption
  with_reducible apply lookupKey_stays
  split
  with_reducible apply keyRange_stays
  with_reducible refine stays_of_snd (by assumption) ?_
  with_reducible apply runMM_stays
  with_reducible assumption
  with_reducible apply lookupKey_stays
  dsimp only
  with_reducible apply stays_ite
  split
  with_reducible apply failMem_stays
  with_reducible refine stays_of_snd (by assumption) ?_
  with_reducible apply runMM_stays
  with_reducible refine stays_of_snd (by assumption) ?_
  with_reducible apply runMM_stays
  with_reducible assumption
  with_reducible apply lookupKey_stays
  with_reducible apply staysMM_bind
  with_reducible apply readPart_stays
  intro x7
  with_reducible apply staysMM_bind
  with_reducible apply readPart_stays
  intro x8
  with_reducible apply staysMM_pure
  with_reducible apply bagOn_stays
  assumption
  with_reducible refine stays_of_snd (by assumption) ?_
  with_reducible apply runMM_stays
  with_reducible refine stays_of_snd (by assumption) ?_
  with_reducible apply runMM_stays
  with_reducible assumption
  with_reducible apply lookupKey_stays
  with_reducible apply staysMM_bind
  with_reducible apply readPart_stays
  intro x9
  with_reducible apply staysMM_bind
  with_reducible apply readPart_stays
  intro x10
  with_reducible apply staysMM_pure
  with_reducible apply embProgress_stays
  with_reducible apply putExch_stays
  with_reducible apply embSend_stays
  with_reducible refine stays_of_snd (by assumption) ?_
  with_reducible apply runMM_stays
  with_reducible assumption
  with_reducible apply lookupKey_stays

theorem openBag_stays {s : State} (hM : MemOk M) (h : Stays q n M s) {a1 a2 a3 a4} : Stays q n M (openBag s a1 a2 a3 a4) := by
  unfold openBag
  lift_lets
  intro t1; clear_value t1
  intro t2; clear_value t2
  intro t3; refine (have h3 : StaysMM q n M t3 := ?_; ?_) <;> [subst t3; clear_value t3]
  with_reducible apply staysMM_bind
  with_reducible apply bagRange_stays
  intro x4
  split
  with_reducible apply staysMM_pure
  lift_lets
  intro t5; refine (have h5 : ∀ y0, StaysMM q n M (t5 y0) := ?_; ?_) <;> [subst t5; clear_value t5]
  intro x6
  beta_reduce
  with_reducible apply staysMM_pure
  with_reducible apply staysMM_ite
  with_reducible apply staysMM_bind
  with_reducible apply countKeys_stays
  intro x7
  with_reducible apply h5
  with_reducible apply staysMM_bind
  with_reducible apply staysMM_pure
  intro x8
  with_reducible apply h5
  split
  dsimp only
  split
  with_reducible apply failMem_stays
  with_reducible refine stays_of_snd (by assumption) ?_
  with_reducible apply runMM_stays
  with_reducible assumption
  with_reducible assumption
  with_reducible apply embStopAsk_stays
  with_reducible refine stays_of_snd (by assumption) ?_
  with_reducible apply runMM_stays
  with_reducible assumption
  with_reducible assumption
  with_reducible apply stays_ite
  with_reducible apply closeBag_stays
  with_reducible refine stays_of_snd (by assumption) ?_
  with_reducible apply runMM_stays
  with_reducible assumption
  with_reducible assumption
  with_reducible apply scatterLookup_stays
  assumption
  with_reducible refine stays_of_snd (by assumption) ?_
  with_reducible apply runMM_stays
  with_reducible assumption
  with_reducible assumption
  dsimp only
  split
  with_reducible apply failMem_stays
  with_reducible refine stays_of_snd (by assumption) ?_
  with_reducible apply runMM_stays
  with_reducible assumption
  with_reducible assumption
  with_reducible apply embStopAsk_stays
  with_reducible refine stays_of_snd (by assumption) ?_
  with_reducible apply runMM_stays
  with_reducible assumption
  with_reducible assumption
  with_reducible apply stays_ite
  with_reducible apply bagOn_stays
  assumption
  with_reducible refine stays_of_snd (by assumption) ?_
  with_reducible apply runMM_stays
  with_reducible assumption
  with_reducible assumption
  with_reducible apply gatherLookup_stays
  assumption
  with_reducible refine stays_of_snd (by assumption) ?_
  with_reducible apply runMM_stays
  with_reducible assumption
  with_reducible assumption

theorem execEmbLookup_stays {s : State} (hM : MemOk M) (h : Stays q n M s) {a0 a1} : StaysReply q n M (execEmbLookup a0 a1 s) := by
  unfold execEmbLookup
  with_reducible apply staysReply_done
  with_reducible apply onlyIf_stays
  with_reducible assumption
  intro x1
  intro x2
  split
  with_reducible assumption
  with_reducible apply inClass_stays
  with_reducible assumption
  intro x3
  intro x4
  with_reducible apply withUpsets_stays
  assumption
  with_reducible assumption
  intro x5
  intro x6
  with_reducible apply engineRun_stays
  with_reducible assumption
  intro x7
  intro x8
  split
  with_reducible apply openBag_stays
  assumption
  with_reducible assumption
  with_reducible apply stays_ite
  with_reducible apply scatterLookup_stays
  assumption
  with_reducible assumption
  with_reducible apply gatherLookup_stays
  assumption
  with_reducible assumption

theorem execEmbRequest_stays {s : State} (hM : MemOk M) (h : Stays q n M s) {a0 a1 a2 a3 a4 a5 a6} : StaysReply q n M (execEmbRequest a0 a1 a2 a3 a4 a5 a6 s) := by
  unfold execEmbRequest
  with_reducible apply staysReply_done
  with_reducible apply embFrame_stays
  assumption
  with_reducible assumption

theorem execEmbResponse_stays {s : State} (hM : MemOk M) (h : Stays q n M s) {a0 a1 a2 a3 a4} : StaysReply q n M (execEmbResponse a0 a1 a2 a3 a4 s) := by
  unfold execEmbResponse
  with_reducible apply staysReply_done
  split
  with_reducible assumption
  with_reducible apply stays_ite
  with_reducible apply embMismatch_stays
  with_reducible assumption
  split
  with_reducible assumption
  split
  with_reducible apply stays_ite
  with_reducible apply embProgress_stays
  with_reducible apply putExch_stays
  with_reducible assumption
  with_reducible assumption
  split
  with_reducible assumption
  with_reducible apply onlyIf_stays
  with_reducible assumption
  intro x1
  intro x2
  with_reducible apply inClass_stays
  with_reducible assumption
  intro x3
  intro x4
  with_reducible apply withUpsets_stays
  assumption
  with_reducible assumption
  intro x5
  intro x6
  with_reducible apply engineRun_stays
  with_reducible assumption
  intro x7
  intro x8
  with_reducible apply bagOn_stays
  assumption
  with_reducible assumption

theorem execEmbScatterAdd_stays {s : State} (h : Stays q n M s) : StaysReply q n M (execEmbScatterAdd s) := by
  unfold execEmbScatterAdd
  with_reducible apply staysReply_done
  with_reducible apply intakeWork_stays
  with_reducible assumption

theorem execEmbStalled_stays {s : State} (h : Stays q n M s) {a0 a1 a2} : StaysReply q n M (execEmbStalled a0 a1 a2 s) := by
  unfold execEmbStalled
  with_reducible apply staysReply_done
  split
  with_reducible apply onlyIf_stays
  with_reducible assumption
  intro x1
  intro x2
  with_reducible apply embStopAsk_stays
  with_reducible assumption
  with_reducible assumption

theorem execEmbStop_stays {s : State} (hM : MemOk M) (h : Stays q n M s) {a0 a1 a2 a3} : StaysReply q n M (execEmbStop a0 a1 a2 a3 s) := by
  unfold execEmbStop
  with_reducible apply staysReply_done
  with_reducible apply embFrame_stays
  assumption
  with_reducible assumption

theorem tableAt_stays {s : State} (h : Stays q n M s) {a1 a2 a3} : Stays q n M (tableAt s a1 a2 a3).2 := by
  unfold tableAt
  with_reducible apply runMM_stays
  with_reducible assumption
  with_reducible apply readPart_stays

end Sys2Proof.Machine
end

