-- ==== Sys2Proof/Laws/KeepsSlice.lean ====
section
/-!
SUPPORT. What each function of Machine/Slice.lean keeps of a state: the queue, the time, the form of the registers and a condition on memory (`Stays`).
-/
set_option Elab.async false
set_option linter.all false
set_option maxRecDepth 4000
namespace Sys2Proof.Machine
variable {q : List Instr} {n : Nat} {M : List Host.Cell → Prop}

theorem showPolicy_stays {s : State} (h : Stays q n M s) : Stays q n M (showPolicy s) := by
  unfold showPolicy
  with_reducible apply setF_stays
  with_reducible assumption

theorem startFerryKeys_stays {s : State} (h : Stays q n M s) : Stays q n M (startFerryKeys s) := by
  unfold startFerryKeys
  split
  with_reducible assumption
  with_reducible apply stays_foldl
  with_reducible assumption
  intro x1
  intro x2
  intro x3
  lift_lets
  intro t4; clear_value t4
  with_reducible apply stays_ite
  with_reducible apply startKx_stays
  with_reducible assumption
  with_reducible assumption

theorem resetTraining_stays {s : State} (h : Stays q n M s) : Stays q n M (resetTraining s) := by
  unfold resetTraining
  lift_lets
  intro t1; refine (have h1 : Stays q n M t1 := ?_; ?_) <;> [subst t1; clear_value t1]
  with_reducible apply stays_foldl
  with_reducible assumption
  intro x2
  intro x3
  intro x4
  with_reducible apply resetReg_stays
  with_reducible apply resetReg_stays
  with_reducible assumption
  with_reducible apply stays_foldl
  with_reducible assumption
  intro x5
  intro x6
  intro x7
  with_reducible apply resetReg_stays
  with_reducible assumption

theorem showSecKeys_stays {s : State} (h : Stays q n M s) : Stays q n M (showSecKeys s) := by
  unfold showSecKeys
  lift_lets
  intro t1; clear_value t1
  intro t2; refine (have h2 : Stays q n M t2 := ?_; ?_) <;> [subst t2; clear_value t2]
  with_reducible apply setF_stays
  with_reducible apply setF_stays
  with_reducible assumption
  with_reducible apply setF_stays
  with_reducible apply setF_stays
  with_reducible assumption

theorem secEvent_stays {s : State} (h : Stays q n M s) {a1} : Stays q n M (secEvent s a1) := by
  unfold secEvent
  with_reducible apply setF_stays
  with_reducible assumption

theorem setSlice_stays {s : State} (h : Stays q n M s) {a1 a2} : Stays q n M (setSlice s a1 a2) := by
  unfold setSlice
  lift_lets
  intro t1; refine (have h1 : Stays q n M t1 := ?_; ?_) <;> [subst t1; clear_value t1]
  with_reducible apply setF_stays
  with_reducible apply setF_stays
  with_reducible assumption
  with_reducible apply setF_stays
  with_reducible assumption

theorem placeReckon_stays {s : State} (h : Stays q n M s) : Stays q n M (placeReckon s) := by
  unfold placeReckon
  split
  with_reducible assumption
  split
  with_reducible apply resetReg_stays
  with_reducible assumption
  lift_lets
  intro t1; refine (have h1 : Stays q n M t1 := ?_; ?_) <;> [subst t1; clear_value t1]
  with_reducible apply setF_stays
  with_reducible apply setF_stays
  with_reducible apply resetReg_stays
  with_reducible assumption
  intro t2; refine (have h2 : Stays q n M t2 := ?_; ?_) <;> [subst t2; clear_value t2]
  with_reducible apply setF_stays
  with_reducible apply setF_stays
  with_reducible assumption
  with_reducible apply showStale_stays
  with_reducible apply setF_stays
  with_reducible assumption

theorem bindBeat_stays {s : State} (h : Stays q n M s) : Stays q n M (bindBeat s) := by
  unfold bindBeat
  lift_lets
  intro t1; clear_value t1
  intro t2; clear_value t2
  dsimp only
  split
  with_reducible assumption
  with_reducible apply stays_ite
  with_reducible assumption
  with_reducible apply sendReport_stays
  with_reducible apply stays_foldl
  with_reducible apply unitsTake_stays
  with_reducible apply placeReckon_stays
  with_reducible apply showSecKeys_stays
  with_reducible apply showStreams_stays
  with_reducible apply secEvent_stays
  with_reducible apply setSlice_stays
  with_reducible apply wr_stays
  with_reducible apply resetReg_stays
  with_reducible apply resetTraining_stays
  with_reducible apply stays_mk
  with_reducible assumption
  intro x3
  intro x4
  intro x5
  with_reducible apply stays_ite
  with_reducible assumption
  with_reducible apply deriveSlice_stays
  with_reducible assumption

theorem resetSlice_stays {s : State} (h : Stays q n M s) {a1} : Stays q n M (resetSlice s a1) := by
  unfold resetSlice
  lift_lets
  intro t1; clear_value t1
  intro t2; refine (have h2 : Stays q n M t2 := ?_; ?_) <;> [subst t2; clear_value t2]
  with_reducible apply stays_mk
  with_reducible assumption
  intro t3; refine (have h3 : Stays q n M t3 := ?_; ?_) <;> [subst t3; clear_value t3]
  with_reducible apply stays_foldl
  with_reducible assumption
  intro x4
  intro x5
  intro x6
  with_reducible apply stays_ite
  with_reducible apply resetReg_stays
  with_reducible apply resetReg_stays
  with_reducible apply setF_stays
  with_reducible assumption
  with_reducible assumption
  intro t7; clear_value t7
  intro t8; clear_value t8
  intro t9; refine (have h9 : Stays q n M t9 := ?_; ?_) <;> [subst t9; clear_value t9]
  with_reducible apply stays_foldl
  with_reducible apply stays_mk
  with_reducible assumption
  intro x10
  intro x11
  intro x12
  with_reducible apply ringTake_stays
  with_reducible assumption
  intro t13; refine (have h13 : Stays q n M t13 := ?_; ?_) <;> [subst t13; clear_value t13]
  with_reducible apply resetTraining_stays
  with_reducible assumption
  intro t14; refine (have h14 : Stays q n M t14 := ?_; ?_) <;> [subst t14; clear_value t14]
  with_reducible apply redrawNow_stays
  with_reducible apply putRedraw_stays
  with_reducible assumption
  intro t15; refine (have h15 : Stays q n M t15 := ?_; ?_) <;> [subst t15; clear_value t15]
  with_reducible apply stays_foldl
  with_reducible assumption
  intro x16
  intro x17
  intro x18
  with_reducible apply setF_stays
  with_reducible assumption
  intro t19; clear_value t19
  intro t20; refine (have h20 : Stays q n M t20 := ?_; ?_) <;> [subst t20; clear_value t20]
  with_reducible apply stays_mk
  with_reducible assumption
  intro t21; refine (have h21 : Stays q n M t21 := ?_; ?_) <;> [subst t21; clear_value t21]
  with_reducible apply stays_foldl
  with_reducible assumption
  intro x22
  intro x23
  intro x24
  with_reducible apply resetReg_stays
  with_reducible assumption
  with_reducible apply showPorts_stays
  with_reducible apply unitsTake_stays
  with_reducible assumption

theorem becomeAllocated_stays {s : State} (h : Stays q n M s) {a1} : Stays q n M (becomeAllocated s a1) := by
  unfold becomeAllocated
  lift_lets
  intro t1; clear_value t1
  with_reducible apply secEvent_stays
  with_reducible apply setSlice_stays
  with_reducible apply stays_mk
  with_reducible assumption

theorem endRelease_stays {s : State} (h : Stays q n M s) {a1} : Stays q n M (endRelease s a1) := by
  unfold endRelease
  lift_lets
  intro t1; clear_value t1
  intro t2; clear_value t2
  intro t3; refine (have h3 : Stays q n M t3 := ?_; ?_) <;> [subst t3; clear_value t3]
  with_reducible apply stays_mk
  with_reducible assumption
  intro t4; refine (have h4 : Stays q n M t4 := ?_; ?_) <;> [subst t4; clear_value t4]
  with_reducible apply showStreams_stays
  with_reducible assumption
  intro t5; refine (have h5 : Stays q n M t5 := ?_; ?_) <;> [subst t5; clear_value t5]
  with_reducible apply setSlice_stays
  with_reducible assumption
  with_reducible apply stays_ite
  with_reducible apply setSlice_stays
  with_reducible assumption
  split
  with_reducible apply stays_ite
  with_reducible apply becomeAllocated_stays
  with_reducible assumption
  with_reducible assumption
  with_reducible assumption

theorem scrubRun_stays {s : State} (hM : MemOk M) (h : Stays q n M s) {a1} : Stays q n M (scrubRun s a1) := by
  unfold scrubRun
  split
  with_reducible assumption
  split
  lift_lets
  intro t1; refine (have h1 : Stays q n M t1 := ?_; ?_) <;> [subst t1; clear_value t1]
  with_reducible apply applyFlips_stays
  assumption
  with_reducible refine stays_of_snd (by assumption) ?_
  with_reducible apply takeRandom_stays
  with_reducible apply stays_memNil
  with_reducible assumption
  assumption
  intro t2; clear_value t2
  intro t3; refine (have h3 : Stays q n M t3 := ?_; ?_) <;> [subst t3; clear_value t3]
  with_reducible apply incF_stays
  with_reducible assumption
  intro t4; refine (have h4 : Stays q n M t4 := ?_; ?_) <;> [subst t4; clear_value t4]
  with_reducible apply setF_stays
  with_reducible apply setF_stays
  with_reducible assumption
  intro t5; refine (have h5 : Stays q n M t5 := ?_; ?_) <;> [subst t5; clear_value t5]
  with_reducible apply setF_stays
  with_reducible apply setF_stays
  with_reducible assumption
  intro t6; clear_value t6
  intro t7; clear_value t7
  intro t8; refine (have h8 : Stays q n M t8 := ?_; ?_) <;> [subst t8; clear_value t8]
  with_reducible apply resetSlice_stays
  with_reducible assumption
  intro t9; refine (have h9 : Stays q n M t9 := ?_; ?_) <;> [subst t9; clear_value t9]
  with_reducible apply secEvent_stays
  with_reducible apply setF_stays
  with_reducible assumption
  intro t10; clear_value t10
  intro t11; refine (have h11 : Stays q n M t11 := ?_; ?_) <;> [subst t11; clear_value t11]
  with_reducible apply stays_mk
  with_reducible assumption
  intro t12; refine (have h12 : Stays q n M t12 := ?_; ?_) <;> [subst t12; clear_value t12]
  with_reducible apply stays_ite
  with_reducible apply tellBluvisen_stays
  with_reducible assumption
  with_reducible assumption
  with_reducible apply stays_ite
  with_reducible apply stays_mk
  with_reducible assumption
  split
  with_reducible apply stays_ite
  with_reducible apply endCmd_stays
  with_reducible assumption
  with_reducible apply endCmd_stays
  with_reducible assumption
  with_reducible apply endRelease_stays
  with_reducible assumption

theorem destroyKeys_stays {s : State} (h : Stays q n M s) {a1} : Stays q n M (destroyKeys s a1) := by
  unfold destroyKeys
  lift_lets
  intro t1; clear_value t1
  intro t2; clear_value t2
  intro t3; clear_value t3
  intro t4; refine (have h4 : Stays q n M t4 := ?_; ?_) <;> [subst t4; clear_value t4]
  with_reducible apply stays_mk
  with_reducible assumption
  intro t5; refine (have h5 : Stays q n M t5 := ?_; ?_) <;> [subst t5; clear_value t5]
  with_reducible apply setF_stays
  with_reducible assumption
  intro t6; refine (have h6 : Stays q n M t6 := ?_; ?_) <;> [subst t6; clear_value t6]
  with_reducible apply stays_foldl
  with_reducible assumption
  intro x7
  intro x8
  intro x9
  with_reducible apply stays_ite
  with_reducible assumption
  with_reducible apply modPort_stays
  with_reducible apply dropKx_stays
  with_reducible assumption
  with_reducible apply secEvent_stays
  with_reducible apply showSecKeys_stays
  with_reducible apply showStreams_stays
  with_reducible apply showPorts_stays
  with_reducible assumption

theorem stopSlice_stays {s : State} (h : Stays q n M s) {a1} : Stays q n M (stopSlice s a1) := by
  unfold stopSlice
  lift_lets
  intro t1; clear_value t1
  intro t2; refine (have h2 : Stays q n M t2 := ?_; ?_) <;> [subst t2; clear_value t2]
  with_reducible apply stays_foldl
  with_reducible assumption
  intro x3
  intro x4
  intro x5
  lift_lets
  intro t6; refine (have h6 : Stays q n M t6 := ?_; ?_) <;> [subst t6; clear_value t6]
  with_reducible apply dropCmd_stays
  with_reducible assumption
  intro t7; clear_value t7
  intro t8; clear_value t8
  with_reducible apply stays_ite
  with_reducible assumption
  with_reducible apply stays_ite
  with_reducible apply writeRecord_stays
  with_reducible assumption
  with_reducible apply writeRecord_stays
  with_reducible assumption
  with_reducible apply stays_foldl
  with_reducible assumption
  intro x9
  intro x10
  intro x11
  with_reducible apply settleClears_stays
  with_reducible assumption

theorem releaseGo_stays {s : State} (h : Stays q n M s) : Stays q n M (releaseGo s) := by
  unfold releaseGo
  lift_lets
  intro t1; refine (have h1 : Stays q n M t1 := ?_; ?_) <;> [subst t1; clear_value t1]
  with_reducible apply stays_mk
  with_reducible assumption
  intro t2; refine (have h2 : Stays q n M t2 := ?_; ?_) <;> [subst t2; clear_value t2]
  with_reducible apply showRelay_stays
  with_reducible apply showEsc_stays
  with_reducible apply setEsc_stays
  with_reducible assumption
  split
  with_reducible assumption
  lift_lets
  intro t3; refine (have h3 : Stays q n M t3 := ?_; ?_) <;> [subst t3; clear_value t3]
  with_reducible apply destroyKeys_stays
  with_reducible apply stopSlice_stays
  with_reducible assumption
  intro t4; refine (have h4 : Stays q n M t4 := ?_; ?_) <;> [subst t4; clear_value t4]
  with_reducible apply setSlice_stays
  with_reducible assumption
  intro t5; clear_value t5
  intro t6; clear_value t6
  intro t7; refine (have h7 : Stays q n M t7 := ?_; ?_) <;> [subst t7; clear_value t7]
  with_reducible apply stays_mk
  with_reducible assumption
  intro t8; refine (have h8 : Stays q n M t8 := ?_; ?_) <;> [subst t8; clear_value t8]
  with_reducible apply setF_stays
  with_reducible apply setF_stays
  with_reducible apply setF_stays
  with_reducible assumption
  with_reducible apply showPolicy_stays
  with_reducible apply setF_stays
  with_reducible assumption

theorem beginRelease_stays {s : State} (h : Stays q n M s) {a1 a2} : Stays q n M (beginRelease s a1 a2) := by
  unfold beginRelease
  lift_lets
  intro t1; clear_value t1
  intro t2; clear_value t2
  intro t3; refine (have h3 : Stays q n M t3 := ?_; ?_) <;> [subst t3; clear_value t3]
  with_reducible apply stays_mk
  with_reducible assumption
  with_reducible apply stays_ite
  with_reducible apply stays_ite
  with_reducible assumption
  with_reducible apply releaseGo_stays
  with_reducible assumption
  with_reducible assumption

theorem allocateHere_stays {s : State} (h : Stays q n M s) {a1} : Stays q n M (allocateHere s a1) := by
  unfold allocateHere
  lift_lets
  intro t1; clear_value t1
  with_reducible apply stays_ite
  with_reducible apply becomeAllocated_stays
  with_reducible assumption
  with_reducible apply stays_ite
  with_reducible apply stays_mk
  with_reducible assumption
  with_reducible apply tellBluvisen_stays
  with_reducible apply noteAt_stays
  with_reducible assumption

theorem dropFerryKeys_stays {s : State} (h : Stays q n M s) {a1} : Stays q n M (dropFerryKeys s a1) := by
  unfold dropFerryKeys
  with_reducible apply showPorts_stays
  with_reducible apply modPort_stays
  with_reducible apply dropKx_stays
  with_reducible assumption

theorem keyEffect_stays {s : State} (h : Stays q n M s) {a1} : Stays q n M (keyEffect s a1).1 := by
  unfold keyEffect
  lift_lets
  intro t1; clear_value t1
  intro t2; clear_value t2
  intro t3; clear_value t3
  intro t4; clear_value t4
  intro t5; clear_value t5
  intro t6; clear_value t6
  intro t7; refine (have h7 : Stays q n M t7 := ?_; ?_) <;> [subst t7; clear_value t7]
  with_reducible apply showSecKeys_stays
  with_reducible apply stays_mk
  with_reducible assumption
  intro t8; clear_value t8
  intro t9; clear_value t9
  intro t10; refine (have h10 : ∀ y0, Stays q n M (t10 y0) := ?_; ?_) <;> [subst t10; clear_value t10]
  intro x11
  beta_reduce
  split
  with_reducible apply setStream_stays
  with_reducible assumption
  split
  with_reducible apply showSecKeys_stays
  with_reducible apply stays_mk
  with_reducible assumption
  with_reducible apply showSecKeys_stays
  with_reducible apply stays_mk
  with_reducible assumption
  with_reducible apply showSecKeys_stays
  with_reducible apply stays_mk
  with_reducible assumption
  with_reducible apply stays_ite_fst
  dsimp only
  with_reducible assumption
  with_reducible apply stays_ite_fst
  with_reducible apply stays_ite_fst
  dsimp only
  with_reducible apply startFerryKeys_stays
  with_reducible apply showSecKeys_stays
  with_reducible apply stays_mk
  with_reducible assumption
  dsimp only
  split
  with_reducible apply dropFerryKeys_stays
  with_reducible assumption
  with_reducible assumption
  with_reducible apply stays_ite_fst
  dsimp only
  with_reducible apply h10
  split
  dsimp only
  with_reducible apply h10
  dsimp only
  with_reducible apply incF_stays
  with_reducible assumption

theorem refuseBind_stays {s : State} (h : Stays q n M s) {a1} : Stays q n M (refuseBind s a1) := by
  unfold refuseBind
  lift_lets
  intro t1; refine (have h1 : Stays q n M t1 := ?_; ?_) <;> [subst t1; clear_value t1]
  with_reducible apply incF_stays
  with_reducible apply setF_stays
  with_reducible assumption
  with_reducible apply bluvisen_stays
  with_reducible apply noteAt_stays
  with_reducible apply secEvent_stays
  with_reducible assumption

theorem execBindAcceptance_stays {s : State} (h : Stays q n M s) {a0} : StaysReply q n M (execBindAcceptance a0 s) := by
  unfold execBindAcceptance
  lift_lets
  intro t1; clear_value t1
  intro t2; clear_value t2
  intro t3; clear_value t3
  with_reducible apply staysReply_done
  with_reducible apply onlyIf_stays
  with_reducible assumption
  intro x4
  intro x5
  lift_lets
  intro t6; clear_value t6
  intro t7; clear_value t7
  intro t8; clear_value t8
  intro t9; clear_value t9
  intro t10; clear_value t10
  intro t11; refine (have h11 : Stays q n M t11 := ?_; ?_) <;> [subst t11; clear_value t11]
  with_reducible apply stays_mk
  with_reducible assumption
  intro t12; clear_value t12
  with_reducible apply stays_ite
  with_reducible apply refuseBind_stays
  with_reducible assumption
  with_reducible apply stays_ite
  with_reducible apply refuseBind_stays
  with_reducible assumption
  with_reducible apply stays_ite
  with_reducible apply refuseBind_stays
  with_reducible assumption
  with_reducible apply stays_ite
  with_reducible apply refuseBind_stays
  with_reducible assumption
  split
  with_reducible apply refuseBind_stays
  with_reducible assumption
  with_reducible apply stays_ite
  with_reducible apply refuseBind_stays
  with_reducible assumption
  split
  with_reducible apply refuseBind_stays
  with_reducible apply stays_mk
  with_reducible assumption
  lift_lets
  intro t13; clear_value t13
  intro t14; clear_value t14
  with_reducible apply stays_ite
  with_reducible apply refuseBind_stays
  with_reducible assumption
  with_reducible apply stays_mk
  with_reducible assumption

theorem execBindOfferExpiry_stays {s : State} (h : Stays q n M s) : StaysReply q n M (execBindOfferExpiry s) := by
  unfold execBindOfferExpiry
  with_reducible apply staysReply_done
  split
  with_reducible apply onlyIf_stays
  with_reducible assumption
  intro x1
  intro x2
  lift_lets
  intro t3; clear_value t3
  with_reducible apply stays_mk
  with_reducible assumption
  with_reducible assumption

theorem execBindRequest_stays {s : State} (h : Stays q n M s) {a0} : StaysReply q n M (execBindRequest a0 s) := by
  unfold execBindRequest
  with_reducible apply staysReply_done
  with_reducible apply onlyIf_stays
  with_reducible assumption
  intro x1
  intro x2
  lift_lets
  intro t3; clear_value t3
  intro t4; clear_value t4
  dsimp only
  with_reducible apply bluvisen_stays
  with_reducible apply stays_mk
  with_reducible apply makeReport_stays
  with_reducible apply stays_mk
  with_reducible assumption

theorem execKeyInstall_stays {s : State} (h : Stays q n M s) : StaysReply q n M (execKeyInstall s) := by
  unfold execKeyInstall
  with_reducible apply staysReply_done
  with_reducible apply intakeWork_stays
  with_reducible assumption

theorem execSliceRelease_stays {s : State} (hM : MemOk M) (h : Stays q n M s) {a0} : StaysReply q n M (execSliceRelease a0 s) := by
  unfold execSliceRelease
  with_reducible apply staysReply_done
  split
  with_reducible apply intakeWork_stays
  with_reducible assumption
  with_reducible apply onlyIf_stays
  with_reducible assumption
  intro x1
  intro x2
  with_reducible apply scrubRun_stays
  assumption
  with_reducible assumption

end Sys2Proof.Machine
end

