-- ==== Sys2Proof/Laws/KeepsMeridian.lean ====
section
/-!
SUPPORT. What each function of Machine/Meridian.lean keeps of a state: the queue, the time, the form of the registers and a condition on memory (`Stays`).
-/
set_option Elab.async false
set_option linter.all false
set_option maxRecDepth 4000
namespace Sys2Proof.Machine
variable {q : List Instr} {n : Nat} {M : List Host.Cell → Prop}

theorem sendMarker_stays {s : State} (h : Stays q n M s) {a1} : Stays q n M (sendMarker s a1) := by
  unfold sendMarker
  lift_lets
  intro t1; clear_value t1
  intro t2; clear_value t2
  intro t3; clear_value t3
  intro t4; clear_value t4
  intro t5; clear_value t5
  intro t6; clear_value t6
  with_reducible apply modPort_stays
  with_reducible apply sendBlock_stays
  with_reducible assumption

theorem sendMarkers_stays {s : State} (h : Stays q n M s) : Stays q n M (sendMarkers s) := by
  unfold sendMarkers
  with_reducible apply stays_foldl
  with_reducible assumption
  intro x1
  intro x2
  intro x3
  with_reducible apply stays_ite
  with_reducible apply sendMarker_stays
  with_reducible assumption
  with_reducible assumption

theorem showUpstream_stays {s : State} (h : Stays q n M s) : Stays q n M (showUpstream s) := by
  unfold showUpstream
  lift_lets
  intro t1; refine (have h1 : ∀ y0 y1 y2, Stays q n M (t1 y0 y1 y2) := ?_; ?_) <;> [subst t1; clear_value t1]
  intro x2
  intro x3
  intro x4
  beta_reduce
  lift_lets
  intro t5; refine (have h5 : Stays q n M t5 := ?_; ?_) <;> [subst t5; clear_value t5]
  with_reducible apply setF_stays
  with_reducible apply setF_stays
  with_reducible assumption
  beta_reduce
  with_reducible apply setF_stays
  with_reducible apply setF_stays
  with_reducible assumption
  with_reducible apply stays_ite
  with_reducible apply h1
  split
  with_reducible apply h1
  with_reducible apply h1

theorem setLock_stays {s : State} (h : Stays q n M s) {a1} : Stays q n M (setLock s a1) := by
  unfold setLock
  lift_lets
  intro t1; refine (have h1 : Stays q n M t1 := ?_; ?_) <;> [subst t1; clear_value t1]
  with_reducible apply setF_stays
  with_reducible apply setF_stays
  with_reducible assumption
  intro t2; clear_value t2
  with_reducible apply stays_ite
  with_reducible assumption
  with_reducible apply stays_mk
  with_reducible assumption

theorem slew_stays {s : State} (h : Stays q n M s) : Stays q n M (slew s) := by
  unfold slew
  lift_lets
  intro t1; clear_value t1
  split
  with_reducible assumption
  lift_lets
  intro t2; clear_value t2
  intro t3; clear_value t3
  intro t4; clear_value t4
  with_reducible apply stays_ite
  with_reducible assumption
  with_reducible apply stays_ite
  with_reducible apply stays_mk
  with_reducible assumption
  with_reducible apply stays_ite
  with_reducible apply stays_mk
  with_reducible assumption
  with_reducible apply stays_mk
  with_reducible assumption

theorem setSourcing_stays {s : State} (h : Stays q n M s) {a1} : Stays q n M (setSourcing s a1) := by
  unfold setSourcing
  lift_lets
  intro t1; refine (have h1 : Stays q n M t1 := ?_; ?_) <;> [subst t1; clear_value t1]
  with_reducible apply setF_stays
  with_reducible assumption
  intro t2; clear_value t2
  with_reducible apply showUpstream_stays
  with_reducible apply stays_mk
  with_reducible assumption

theorem merBeat_stays {s : State} (h : Stays q n M s) : Stays q n M (merBeat s) := by
  unfold merBeat
  lift_lets
  intro t1; clear_value t1
  intro t2; clear_value t2
  intro t3; clear_value t3
  intro t4; clear_value t4
  intro t5; clear_value t5
  intro t6; clear_value t6
  intro t7; clear_value t7
  intro t8; clear_value t8
  intro t9; refine (have h9 : Stays q n M t9 := ?_; ?_) <;> [subst t9; clear_value t9]
  with_reducible apply showUpstream_stays
  with_reducible apply stays_mk
  with_reducible assumption
  intro t10; refine (have h10 : Stays q n M t10 := ?_; ?_) <;> [subst t10; clear_value t10]
  with_reducible apply stays_ite
  with_reducible apply setLock_stays
  with_reducible assumption
  with_reducible assumption
  intro t11; refine (have h11 : Stays q n M t11 := ?_; ?_) <;> [subst t11; clear_value t11]
  with_reducible apply slew_stays
  with_reducible assumption
  with_reducible apply stays_ite
  with_reducible apply setSourcing_stays
  with_reducible assumption
  with_reducible assumption

theorem chartRole_stays {s : State} (h : Stays q n M s) : Stays q n M (chartRole s) := by
  unfold chartRole
  lift_lets
  intro t1; clear_value t1
  intro t2; refine (have h2 : Stays q n M t2 := ?_; ?_) <;> [subst t2; clear_value t2]
  with_reducible apply setF_stays
  with_reducible assumption
  with_reducible apply stays_ite
  with_reducible apply setSourcing_stays
  with_reducible assumption
  with_reducible assumption

theorem correctCount_stays {s : State} (h : Stays q n M s) {a1} : Stays q n M (correctCount s a1) := by
  unfold correctCount
  lift_lets
  intro t1; clear_value t1
  intro t2; clear_value t2
  intro t3; clear_value t3
  intro t4; clear_value t4
  intro t5; refine (have h5 : ∀ y0, Stays q n M y0 → Stays q n M (t5 y0) := ?_; ?_) <;> [subst t5; clear_value t5]
  intro x6
  intro x7
  beta_reduce
  with_reducible apply setF_stays
  with_reducible apply logEvent_stays
  with_reducible assumption
  intro t8; clear_value t8
  intro t9; refine (have h9 : Stays q n M t9 := ?_; ?_) <;> [subst t9; clear_value t9]
  with_reducible apply h5
  with_reducible assumption
  intro t10; clear_value t10
  with_reducible apply stays_ite
  with_reducible assumption
  with_reducible apply stays_ite
  with_reducible apply stays_mk
  with_reducible assumption
  with_reducible apply stays_ite
  with_reducible apply stays_mk
  with_reducible assumption
  with_reducible apply stays_mk
  with_reducible assumption

theorem execAdriftEntry_stays {s : State} (h : Stays q n M s) : StaysReply q n M (execAdriftEntry s) := by
  unfold execAdriftEntry
  with_reducible apply staysReply_done
  with_reducible apply onlyIf_stays
  with_reducible assumption
  intro x1
  intro x2
  with_reducible apply setLock_stays
  with_reducible assumption

theorem execDeputyTakeover_stays {s : State} (h : Stays q n M s) : StaysReply q n M (execDeputyTakeover s) := by
  unfold execDeputyTakeover
  with_reducible apply staysReply_done
  with_reducible apply onlyIf_stays
  with_reducible assumption
  intro x1
  intro x2
  with_reducible apply setSourcing_stays
  with_reducible assumption

theorem execHoldoverEntry_stays {s : State} (h : Stays q n M s) : StaysReply q n M (execHoldoverEntry s) := by
  unfold execHoldoverEntry
  with_reducible apply staysReply_done
  with_reducible apply onlyIf_stays
  with_reducible assumption
  intro x1
  intro x2
  with_reducible apply setLock_stays
  with_reducible assumption

theorem readAnswer_stays {s : State} (h : Stays q n M s) {a1 a2 a3} : Stays q n M (readAnswer s a1 a2 a3) := by
  unfold readAnswer
  with_reducible apply send_stays
  with_reducible assumption

theorem merCountRead_stays {s : State} (h : Stays q n M s) {a1 a2} : Stays q n M (merCountRead s a1 a2).2 := by
  unfold merCountRead
  lift_lets
  intro t1; clear_value t1
  intro t2; clear_value t2
  with_reducible apply stays_ite_snd
  split
  dsimp only
  with_reducible apply stays_mk
  with_reducible assumption
  dsimp only
  with_reducible assumption
  dsimp only
  with_reducible apply stays_mk
  with_reducible assumption

theorem execMerCountRead_stays {s : State} (h : Stays q n M s) {a0 a1} : StaysReply q n M (execMerCountRead a0 a1 s) := by
  unfold execMerCountRead
  with_reducible apply staysReply_done
  with_reducible apply readAnswer_stays
  with_reducible apply merCountRead_stays
  with_reducible assumption

theorem measured_stays {s : State} (h : Stays q n M s) {a1} : Stays q n M (measured s a1) := by
  unfold measured
  lift_lets
  intro t1; clear_value t1
  intro t2; refine (have h2 : Stays q n M t2 := ?_; ?_) <;> [subst t2; clear_value t2]
  with_reducible apply stays_mk
  with_reducible assumption
  intro t3; refine (have h3 : Stays q n M t3 := ?_; ?_) <;> [subst t3; clear_value t3]
  with_reducible apply stays_ite
  with_reducible apply setLock_stays
  with_reducible assumption
  with_reducible assumption
  with_reducible apply correctCount_stays
  with_reducible assumption

theorem execMerPpsEdge_stays {s : State} (h : Stays q n M s) {a0} : StaysReply q n M (execMerPpsEdge a0 s) := by
  unfold execMerPpsEdge
  with_reducible apply staysReply_done
  with_reducible apply onlyIf_stays
  with_reducible assumption
  intro x1
  intro x2
  with_reducible apply measured_stays
  with_reducible assumption

theorem execPtpMessage_stays {s : State} (h : Stays q n M s) {a0} : StaysReply q n M (execPtpMessage a0 s) := by
  unfold execPtpMessage
  with_reducible apply staysReply_done
  with_reducible apply onlyIf_stays
  with_reducible assumption
  intro x1
  intro x2
  with_reducible apply measured_stays
  with_reducible assumption

theorem execRefLost_stays {s : State} (h : Stays q n M s) {a0} : StaysReply q n M (execRefLost a0 s) := by
  unfold execRefLost
  with_reducible apply staysReply_done
  with_reducible apply onlyIf_stays
  with_reducible assumption
  intro x1
  intro x2
  with_reducible apply logEvent_stays
  with_reducible apply setF_stays
  with_reducible assumption

theorem execSuperframeMarker_stays {s : State} (h : Stays q n M s) {a0} : StaysReply q n M (execSuperframeMarker a0 s) := by
  unfold execSuperframeMarker
  lift_lets
  intro t1; clear_value t1
  intro t2; clear_value t2
  intro t3; clear_value t3
  intro t4; clear_value t4
  with_reducible apply staysReply_done
  with_reducible apply onlyIf_stays
  with_reducible assumption
  intro x5
  intro x6
  lift_lets
  intro t7; clear_value t7
  intro t8; clear_value t8
  intro t9; clear_value t9
  intro t10; refine (have h10 : Stays q n M t10 := ?_; ?_) <;> [subst t10; clear_value t10]
  with_reducible apply modPort_stays
  with_reducible apply stays_mk
  with_reducible assumption
  intro t11; clear_value t11
  intro t12; clear_value t12
  intro t13; refine (have h13 : Stays q n M t13 := ?_; ?_) <;> [subst t13; clear_value t13]
  with_reducible apply stays_ite
  with_reducible apply setSourcing_stays
  with_reducible assumption
  with_reducible assumption
  intro t14; clear_value t14
  intro t15; refine (have h15 : Stays q n M t15 := ?_; ?_) <;> [subst t15; clear_value t15]
  with_reducible apply stays_ite
  with_reducible apply stays_mk
  with_reducible assumption
  with_reducible assumption
  intro t16; refine (have h16 : Stays q n M t16 := ?_; ?_) <;> [subst t16; clear_value t16]
  with_reducible apply showUpstream_stays
  with_reducible assumption
  intro t17; refine (have h17 : Stays q n M t17 := ?_; ?_) <;> [subst t17; clear_value t17]
  with_reducible apply setF_stays
  with_reducible apply setF_stays
  with_reducible assumption
  intro t18; clear_value t18
  with_reducible apply stays_ite
  with_reducible apply incF_stays
  with_reducible assumption
  split
  with_reducible apply stays_ite
  with_reducible apply measured_stays
  with_reducible apply stays_mk
  with_reducible assumption
  with_reducible assumption
  with_reducible assumption

end Sys2Proof.Machine
end

