-- ==== Sys2Proof/Laws/KeepsDocuments.lean ====
section
/-!
SUPPORT. What each function of Machine/Documents.lean keeps of a state: the queue, the time, the form of the registers and a condition on memory (`Stays`).
-/
set_option Elab.async false
set_option linter.all false
set_option maxRecDepth 4000
namespace Sys2Proof.Machine
variable {q : List Instr} {n : Nat} {M : List Host.Cell → Prop}

theorem pilotCheck_stays {s : State} (h : Stays q n M s) : Stays q n M (pilotCheck s) := by
  unfold pilotCheck
  lift_lets
  intro t1; clear_value t1
  intro t2; clear_value t2
  intro t3; clear_value t3
  intro t4; clear_value t4
  intro t5; clear_value t5
  intro t6; refine (have h6 : Stays q n M t6 := ?_; ?_) <;> [subst t6; clear_value t6]
  with_reducible apply setF_stays
  with_reducible apply setF_stays
  with_reducible assumption
  with_reducible apply stays_ite
  with_reducible apply tellBluvisen_stays
  with_reducible apply stays_ite
  with_reducible apply noteAt_stays
  with_reducible assumption
  with_reducible assumption
  with_reducible assumption

theorem takeFid_stays {s : State} (h : Stays q n M s) : Stays q n M (takeFid s) := by
  unfold takeFid
  lift_lets
  intro t1; clear_value t1
  split
  dsimp only
  with_reducible apply stays_ite
  with_reducible apply bootReport_stays
  with_reducible apply setF_stays
  with_reducible apply setF_stays
  with_reducible apply setF_stays
  with_reducible assumption
  with_reducible apply setF_stays
  with_reducible apply setF_stays
  with_reducible apply setF_stays
  with_reducible assumption
  dsimp only
  with_reducible apply stays_ite
  with_reducible apply bootReport_stays
  with_reducible apply setF_stays
  with_reducible apply setF_stays
  with_reducible apply setF_stays
  with_reducible assumption
  with_reducible apply setF_stays
  with_reducible apply setF_stays
  with_reducible apply setF_stays
  with_reducible assumption

theorem recheckPort_stays {s : State} (h : Stays q n M s) {a1 a2 a3} : Stays q n M (recheckPort s a1 a2 a3) := by
  unfold recheckPort
  lift_lets
  intro t1; clear_value t1
  intro t2; clear_value t2
  intro t3; refine (have h3 : Stays q n M t3 := ?_; ?_) <;> [subst t3; clear_value t3]
  with_reducible apply stays_ite
  with_reducible apply modPort_stays
  with_reducible assumption
  with_reducible assumption
  intro t4; clear_value t4
  intro t5; clear_value t5
  with_reducible apply stays_ite
  with_reducible assumption
  with_reducible apply stays_ite
  with_reducible apply stays_ite
  with_reducible assumption
  with_reducible apply setPortState_stays
  with_reducible assumption
  with_reducible apply stays_ite
  with_reducible apply stays_ite
  with_reducible apply setPortState_stays
  with_reducible assumption
  with_reducible assumption
  with_reducible apply stays_ite
  with_reducible apply checkPeer_stays
  with_reducible assumption
  with_reducible apply stays_ite
  split
  lift_lets
  intro t6; refine (have h6 : Stays q n M t6 := ?_; ?_) <;> [subst t6; clear_value t6]
  with_reducible apply setPortState_stays
  with_reducible assumption
  with_reducible apply stays_ite
  with_reducible apply tellBluvisen_stays
  with_reducible apply noteAt_stays
  with_reducible assumption
  with_reducible assumption
  with_reducible apply stays_ite
  with_reducible apply sendHello_stays
  with_reducible apply setF_stays
  with_reducible assumption
  with_reducible assumption
  with_reducible apply stays_ite
  with_reducible apply checkPeer_stays
  with_reducible assumption
  with_reducible assumption

theorem afterChart_stays {s : State} (h : Stays q n M s) {a1 a2} : Stays q n M (afterChart s a1 a2) := by
  unfold afterChart
  lift_lets
  intro t1; refine (have h1 : Stays q n M t1 := ?_; ?_) <;> [subst t1; clear_value t1]
  with_reducible apply pilotCheck_stays
  with_reducible apply chartRole_stays
  with_reducible apply takeFid_stays
  with_reducible assumption
  intro t2; refine (have h2 : Stays q n M t2 := ?_; ?_) <;> [subst t2; clear_value t2]
  with_reducible apply showDogWatch_stays
  with_reducible assumption
  intro t3; refine (have h3 : Stays q n M t3 := ?_; ?_) <;> [subst t3; clear_value t3]
  with_reducible apply stays_foldl
  with_reducible assumption
  intro x4
  intro x5
  intro x6
  with_reducible apply recheckPort_stays
  with_reducible assumption
  with_reducible apply retryRoutes_stays
  with_reducible apply showPorts_stays
  with_reducible assumption

theorem noteLate_stays {s : State} (h : Stays q n M s) {a1} : Stays q n M (noteLate s a1) := by
  unfold noteLate
  lift_lets
  intro t1; refine (have h1 : Stays q n M t1 := ?_; ?_) <;> [subst t1; clear_value t1]
  with_reducible apply incF_stays
  with_reducible assumption
  intro t2; refine (have h2 : Stays q n M t2 := ?_; ?_) <;> [subst t2; clear_value t2]
  with_reducible apply noteAt_stays
  with_reducible assumption
  intro t3; clear_value t3
  with_reducible apply stays_ite
  with_reducible apply stays_mk
  with_reducible assumption
  with_reducible assumption

theorem showHeld_stays {s : State} (h : Stays q n M s) : Stays q n M (showHeld s) := by
  unfold showHeld
  with_reducible apply setF_stays
  with_reducible assumption

theorem addWaiting_stays {s : State} (h : Stays q n M s) {a1} : Stays q n M (addWaiting s a1) := by
  unfold addWaiting
  lift_lets
  intro t1; clear_value t1
  intro t2; clear_value t2
  intro t3; clear_value t3
  with_reducible apply showHeld_stays
  with_reducible apply stays_mk
  with_reducible assumption

theorem sendDoc_stays {s : State} (h : Stays q n M s) {a1 a2} : Stays q n M (sendDoc s a1 a2) := by
  unfold sendDoc
  lift_lets
  intro t1; clear_value t1
  with_reducible apply stays_foldl
  with_reducible assumption
  intro x2
  intro x3
  intro x4
  with_reducible apply sendOnPort_stays
  with_reducible assumption

theorem spreadDoc_stays {s : State} (h : Stays q n M s) {a1 a2} : Stays q n M (spreadDoc s a1 a2) := by
  unfold spreadDoc
  with_reducible apply stays_foldl
  with_reducible assumption
  intro x1
  intro x2
  intro x3
  with_reducible apply stays_ite
  with_reducible apply sendDoc_stays
  with_reducible assumption
  with_reducible assumption

theorem storeChart_stays {s : State} (h : Stays q n M s) : Stays q n M (storeChart s) := by
  unfold storeChart
  lift_lets
  intro t1; clear_value t1
  split
  with_reducible apply stays_mk
  with_reducible assumption
  with_reducible assumption

theorem acceptDoc_stays {s : State} (h : Stays q n M s) {a1 a2} : Stays q n M (acceptDoc s a1 a2) := by
  unfold acceptDoc
  split
  lift_lets
  intro t1; refine (have h1 : Stays q n M t1 := ?_; ?_) <;> [subst t1; clear_value t1]
  with_reducible apply stays_ite
  with_reducible apply noteLate_stays
  with_reducible assumption
  with_reducible assumption
  intro t2; refine (have h2 : Stays q n M t2 := ?_; ?_) <;> [subst t2; clear_value t2]
  with_reducible apply addWaiting_stays
  with_reducible assumption
  intro t3; clear_value t3
  split
  with_reducible apply spreadDoc_stays
  with_reducible apply stays_mk
  with_reducible assumption
  with_reducible apply spreadDoc_stays
  with_reducible apply storeChart_stays
  with_reducible apply stays_mk
  with_reducible assumption
  with_reducible apply stays_mk
  with_reducible assumption
  with_reducible apply stays_mk
  with_reducible assumption

theorem refuseDoc_stays {s : State} (h : Stays q n M s) {a1 a2} : Stays q n M (refuseDoc s a1 a2) := by
  unfold refuseDoc
  lift_lets
  intro t1; refine (have h1 : Stays q n M t1 := ?_; ?_) <;> [subst t1; clear_value t1]
  with_reducible apply setF_stays
  with_reducible assumption
  with_reducible apply tellBluvisen_stays
  with_reducible apply logEvent_stays
  with_reducible assumption

theorem noteDraw_stays {s : State} (h : Stays q n M s) {a1} : Stays q n M (noteDraw s a1) := by
  unfold noteDraw
  split
  split
  split
  with_reducible apply note_stays
  with_reducible assumption
  with_reducible assumption
  with_reducible assumption
  with_reducible assumption

theorem takeDoc_stays {s : State} (h : Stays q n M s) {a1 a2 a3} : Stays q n M (takeDoc s a1 a2 a3) := by
  unfold takeDoc
  lift_lets
  intro t1
  intro t2; clear_value t2
  intro t3; clear_value t3
  with_reducible apply stays_ite
  with_reducible apply refuseDoc_stays
  with_reducible assumption
  with_reducible apply stays_ite
  with_reducible apply refuseDoc_stays
  with_reducible assumption
  with_reducible apply stays_ite
  with_reducible apply refuseDoc_stays
  with_reducible assumption
  with_reducible apply stays_ite
  with_reducible apply refuseDoc_stays
  with_reducible assumption
  split
  with_reducible apply refuseDoc_stays
  with_reducible apply stays_ite
  with_reducible apply noteDraw_stays
  with_reducible assumption
  with_reducible assumption
  with_reducible apply stays_ite
  with_reducible apply refuseDoc_stays
  with_reducible assumption
  with_reducible apply acceptDoc_stays
  with_reducible assumption

theorem execChart_stays {s : State} (h : Stays q n M s) {a0} : StaysReply q n M (execChart a0 s) := by
  unfold execChart
  with_reducible apply staysReply_done
  with_reducible apply onlyIf_stays
  with_reducible assumption
  intro x1
  intro x2
  with_reducible apply takeDoc_stays
  with_reducible assumption

theorem execChartAmendment_stays {s : State} (h : Stays q n M s) {a0} : StaysReply q n M (execChartAmendment a0 s) := by
  unfold execChartAmendment
  with_reducible apply staysReply_done
  with_reducible apply onlyIf_stays
  with_reducible assumption
  intro x1
  intro x2
  with_reducible apply takeDoc_stays
  with_reducible assumption

theorem moveRoutes_stays {s : State} (h : Stays q n M s) {a1 a2} : Stays q n M (moveRoutes s a1 a2) := by
  unfold moveRoutes
  lift_lets
  intro t1; clear_value t1
  split
  with_reducible assumption
  lift_lets
  intro t2; clear_value t2
  intro t3; clear_value t3
  with_reducible apply stays_mk
  with_reducible assumption

theorem memberGone_stays {s : State} (h : Stays q n M s) {a1} : Stays q n M (memberGone s a1) := by
  unfold memberGone
  with_reducible apply stays_ite
  with_reducible assumption
  split
  with_reducible apply showReckon_stays
  with_reducible apply setBitF_stays
  with_reducible assumption
  with_reducible assumption

theorem takePosition_stays {s : State} (h : Stays q n M s) {a1} : Stays q n M (takePosition s a1) := by
  unfold takePosition
  lift_lets
  intro t1; clear_value t1
  intro t2; refine (have h2 : Stays q n M t2 := ?_; ?_) <;> [subst t2; clear_value t2]
  with_reducible apply placeReckon_stays
  with_reducible apply stays_mk
  with_reducible assumption
  intro t3; refine (have h3 : Stays q n M t3 := ?_; ?_) <;> [subst t3; clear_value t3]
  with_reducible apply setF_stays
  with_reducible apply setBitF_stays
  with_reducible assumption
  intro t4; clear_value t4
  intro t5; refine (have h5 : Stays q n M t5 := ?_; ?_) <;> [subst t5; clear_value t5]
  with_reducible apply setF_stays
  with_reducible apply resetReg_stays
  with_reducible assumption
  intro t6; clear_value t6
  intro t7; refine (have h7 : Stays q n M t7 := ?_; ?_) <;> [subst t7; clear_value t7]
  with_reducible apply showReckon_stays
  with_reducible apply stays_mk
  with_reducible assumption
  intro t8; clear_value t8
  with_reducible apply stays_ite
  with_reducible assumption
  with_reducible apply askStreams_stays
  with_reducible apply tellBluvisen_stays
  with_reducible apply stays_mk
  with_reducible assumption

theorem sliceChange_stays {s : State} (h : Stays q n M s) {s1 a2} (h1 : Stays q n M s1): Stays q n M (sliceChange s s1 a2) := by
  unfold sliceChange
  lift_lets
  intro t1; clear_value t1
  split
  with_reducible apply stays_ite
  split
  with_reducible assumption
  lift_lets
  intro t2; refine (have h2 : Stays q n M t2 := ?_; ?_) <;> [subst t2; clear_value t2]
  with_reducible apply moveRoutes_stays
  with_reducible assumption
  intro t3; clear_value t3
  intro t4; refine (have h4 : Stays q n M t4 := ?_; ?_) <;> [subst t4; clear_value t4]
  with_reducible apply stays_mk
  with_reducible assumption
  intro t5; refine (have h5 : Stays q n M t5 := ?_; ?_) <;> [subst t5; clear_value t5]
  with_reducible apply memberGone_stays
  with_reducible assumption
  intro t6; refine (have h6 : Stays q n M t6 := ?_; ?_) <;> [subst t6; clear_value t6]
  with_reducible apply stays_ite
  with_reducible apply setF_stays
  with_reducible assumption
  with_reducible assumption
  with_reducible apply stays_ite
  with_reducible assumption
  with_reducible apply stays_ite
  with_reducible apply takePosition_stays
  with_reducible assumption
  with_reducible assumption
  with_reducible apply stays_ite
  with_reducible apply memberGone_stays
  with_reducible assumption
  with_reducible assumption
  with_reducible assumption

theorem execChartAmendmentEffect_stays {s : State} (h : Stays q n M s) : StaysReply q n M (execChartAmendmentEffect s) := by
  unfold execChartAmendmentEffect
  lift_lets
  intro t1; refine (have h1 : Stays q n M t1 := ?_; ?_) <;> [subst t1; clear_value t1]
  with_reducible assumption
  intro t2; clear_value t2
  intro t3; clear_value t3
  with_reducible apply staysReply_done
  split
  with_reducible assumption
  lift_lets
  intro t4; clear_value t4
  intro t5; clear_value t5
  intro t6; clear_value t6
  intro t7; clear_value t7
  split
  lift_lets
  intro t8; refine (have h8 : Stays q n M t8 := ?_; ?_) <;> [subst t8; clear_value t8]
  with_reducible apply showHeld_stays
  with_reducible apply stays_mk
  with_reducible assumption
  intro t9; refine (have h9 : Stays q n M t9 := ?_; ?_) <;> [subst t9; clear_value t9]
  with_reducible apply storeChart_stays
  with_reducible apply wr_stays
  with_reducible assumption
  intro t10; refine (have h10 : Stays q n M t10 := ?_; ?_) <;> [subst t10; clear_value t10]
  with_reducible apply afterChart_stays
  with_reducible assumption
  intro t11; refine (have h11 : Stays q n M t11 := ?_; ?_) <;> [subst t11; clear_value t11]
  with_reducible apply stays_foldl
  with_reducible assumption
  intro x12
  intro x13
  intro x14
  with_reducible apply sliceChange_stays
  with_reducible assumption
  with_reducible assumption
  with_reducible apply stays_ite
  with_reducible apply beginRelease_stays
  with_reducible assumption
  with_reducible assumption
  with_reducible apply refuseDoc_stays
  with_reducible apply showHeld_stays
  with_reducible apply stays_mk
  with_reducible assumption

theorem execChartChunk_stays {s : State} (h : Stays q n M s) {a0 a1 a2 a3 a4 a5} : StaysReply q n M (execChartChunk a0 a1 a2 a3 a4 a5 s) := by
  unfold execChartChunk
  lift_lets
  intro t1; clear_value t1
  with_reducible apply staysReply_done
  with_reducible apply onlyIf_stays
  with_reducible assumption
  intro x2
  intro x3
  lift_lets
  intro t4; clear_value t4
  intro t5; clear_value t5
  intro t6; clear_value t6
  intro t7; clear_value t7
  with_reducible apply stays_ite
  with_reducible assumption
  with_reducible apply stays_ite
  with_reducible apply takeDoc_stays
  with_reducible apply stays_mk
  with_reducible assumption
  with_reducible apply stays_mk
  with_reducible assumption

theorem execChartEffect_stays {s : State} (h : Stays q n M s) : StaysReply q n M (execChartEffect s) := by
  unfold execChartEffect
  lift_lets
  intro t1; clear_value t1
  intro t2; clear_value t2
  intro t3; clear_value t3
  with_reducible apply staysReply_done
  split
  with_reducible assumption
  split
  with_reducible assumption
  lift_lets
  intro t4; refine (have h4 : Stays q n M t4 := ?_; ?_) <;> [subst t4; clear_value t4]
  with_reducible apply showHeld_stays
  with_reducible apply stays_mk
  with_reducible assumption
  intro t5; refine (have h5 : Stays q n M t5 := ?_; ?_) <;> [subst t5; clear_value t5]
  with_reducible apply storeChart_stays
  with_reducible apply wr_stays
  with_reducible assumption
  intro t6; refine (have h6 : Stays q n M t6 := ?_; ?_) <;> [subst t6; clear_value t6]
  with_reducible apply afterChart_stays
  with_reducible assumption
  with_reducible apply stays_ite
  with_reducible apply beginRelease_stays
  with_reducible assumption
  with_reducible assumption

theorem execChartReq_stays {s : State} (h : Stays q n M s) {a0 a1} : StaysReply q n M (execChartReq a0 a1 s) := by
  unfold execChartReq
  with_reducible apply staysReply_done
  with_reducible apply onlyIf_stays
  with_reducible assumption
  intro x1
  intro x2
  lift_lets
  intro t3; clear_value t3
  intro t4; clear_value t4
  with_reducible apply stays_ite
  with_reducible apply stays_foldl
  with_reducible assumption
  intro x5
  intro x6
  intro x7
  with_reducible apply sendDoc_stays
  with_reducible assumption
  split
  with_reducible apply stays_foldl
  with_reducible apply sendDoc_stays
  with_reducible assumption
  intro x8
  intro x9
  intro x10
  with_reducible apply sendDoc_stays
  with_reducible assumption
  with_reducible assumption

theorem execSliceAllocation_stays {s : State} (h : Stays q n M s) {a0} : StaysReply q n M (execSliceAllocation a0 s) := by
  unfold execSliceAllocation
  with_reducible apply staysReply_done
  with_reducible apply onlyIf_stays
  with_reducible assumption
  intro x1
  intro x2
  with_reducible apply takeDoc_stays
  with_reducible assumption

theorem execSliceAllocationEffect_stays {s : State} (h : Stays q n M s) : StaysReply q n M (execSliceAllocationEffect s) := by
  unfold execSliceAllocationEffect
  lift_lets
  intro t1; clear_value t1
  with_reducible apply staysReply_done
  split
  with_reducible assumption
  lift_lets
  intro t2; refine (have h2 : Stays q n M t2 := ?_; ?_) <;> [subst t2; clear_value t2]
  with_reducible apply stays_mk
  with_reducible assumption
  intro t3; clear_value t3
  intro t4; clear_value t4
  split
  with_reducible assumption
  lift_lets
  intro t5; clear_value t5
  intro t6; refine (have h6 : Stays q n M t6 := ?_; ?_) <;> [subst t6; clear_value t6]
  with_reducible apply showPolicy_stays
  with_reducible apply stays_mk
  with_reducible assumption
  intro t7; refine (have h7 : Stays q n M t7 := ?_; ?_) <;> [subst t7; clear_value t7]
  with_reducible apply placeReckon_stays
  with_reducible apply stays_mk
  with_reducible assumption
  with_reducible apply stays_ite
  with_reducible apply stays_ite
  with_reducible apply showPorts_stays
  with_reducible apply stays_ite
  with_reducible assumption
  with_reducible assumption
  with_reducible apply stays_ite
  with_reducible apply allocateHere_stays
  with_reducible apply showPolicy_stays
  with_reducible apply stays_mk
  with_reducible assumption
  with_reducible apply allocateHere_stays
  with_reducible assumption
  with_reducible apply stays_ite
  with_reducible apply beginRelease_stays
  with_reducible assumption
  with_reducible assumption

theorem execSliceTableSet_stays {s : State} (h : Stays q n M s) {a0} : StaysReply q n M (execSliceTableSet a0 s) := by
  unfold execSliceTableSet
  with_reducible apply staysReply_done
  with_reducible apply onlyIf_stays
  with_reducible assumption
  intro x1
  intro x2
  with_reducible apply takeDoc_stays
  with_reducible assumption

theorem pruneTables_stays {s : State} (h : Stays q n M s) : Stays q n M (pruneTables s) := by
  unfold pruneTables
  lift_lets
  intro t1; clear_value t1
  with_reducible apply stays_mk
  with_reducible assumption

theorem showTables_stays {s : State} (h : Stays q n M s) {a1} : Stays q n M (showTables s a1) := by
  unfold showTables
  lift_lets
  intro t1; refine (have h1 : Stays q n M t1 := ?_; ?_) <;> [subst t1; clear_value t1]
  with_reducible apply wr_stays
  with_reducible assumption
  intro t2; refine (have h2 : Stays q n M t2 := ?_; ?_) <;> [subst t2; clear_value t2]
  with_reducible apply setF_stays
  with_reducible apply setF_stays
  with_reducible assumption
  intro t3; refine (have h3 : Stays q n M t3 := ?_; ?_) <;> [subst t3; clear_value t3]
  with_reducible apply setF_stays
  with_reducible apply setF_stays
  with_reducible assumption
  with_reducible apply stays_foldl
  with_reducible assumption
  intro x4
  intro x5
  intro x6
  with_reducible apply setF_stays
  with_reducible assumption

theorem execSliceTableSetEffect_stays {s : State} (h : Stays q n M s) : StaysReply q n M (execSliceTableSetEffect s) := by
  unfold execSliceTableSetEffect
  lift_lets
  intro t1; clear_value t1
  with_reducible apply staysReply_done
  split
  with_reducible assumption
  lift_lets
  intro t2; refine (have h2 : Stays q n M t2 := ?_; ?_) <;> [subst t2; clear_value t2]
  with_reducible apply stays_mk
  with_reducible assumption
  intro t3; refine (have h3 : Stays q n M t3 := ?_; ?_) <;> [subst t3; clear_value t3]
  with_reducible assumption
  intro t4; clear_value t4
  intro t5; clear_value t5
  split
  with_reducible assumption
  lift_lets
  intro t6; refine (have h6 : Stays q n M t6 := ?_; ?_) <;> [subst t6; clear_value t6]
  with_reducible apply pruneTables_stays
  with_reducible apply stays_mk
  with_reducible assumption
  intro t7; refine (have h7 : Stays q n M t7 := ?_; ?_) <;> [subst t7; clear_value t7]
  with_reducible apply showTables_stays
  with_reducible assumption
  intro t8; refine (have h8 : Stays q n M t8 := ?_; ?_) <;> [subst t8; clear_value t8]
  with_reducible apply putRedraw_stays
  with_reducible assumption
  intro t9; clear_value t9
  intro t10; refine (have h10 : Stays q n M t10 := ?_; ?_) <;> [subst t10; clear_value t10]
  with_reducible apply stays_ite
  with_reducible apply setOrigin_stays
  with_reducible assumption
  with_reducible apply stays_mk
  with_reducible assumption
  intro t11; refine (have h11 : Stays q n M t11 := ?_; ?_) <;> [subst t11; clear_value t11]
  with_reducible apply retune_stays
  with_reducible assumption
  with_reducible assumption
  with_reducible apply stays_ite
  with_reducible apply startFerryKeys_stays
  with_reducible apply retryRoutes_stays
  with_reducible apply showPorts_stays
  with_reducible assumption
  with_reducible assumption

end Sys2Proof.Machine
end

