-- ==== Sys2Proof/Laws/KeepsMatrix.lean ====
section
/-!
SUPPORT. What each function of Machine/Matrix.lean keeps of a state: the queue, the time, the form of the registers and a condition on memory (`Stays`).
-/
set_option Elab.async false
set_option linter.all false
set_option maxRecDepth 4000
namespace Sys2Proof.Machine
variable {q : List Instr} {n : Nat} {M : List Host.Cell → Prop}

theorem dropTile_stays {s : State} (h : Stays q n M s) {a1} : Stays q n M (dropTile s a1) := by
  unfold dropTile
  lift_lets
  intro t1; clear_value t1
  intro t2; clear_value t2
  intro t3; clear_value t3
  with_reducible apply stays_mk
  with_reducible assumption

theorem modMat_stays {s : State} (h : Stays q n M s) {a1 a2 a3} : Stays q n M (modMat s a1 a2 a3) := by
  unfold modMat
  lift_lets
  intro t1; clear_value t1
  with_reducible apply stays_mk
  with_reducible assumption

theorem redealMat_stays {s : State} (h : Stays q n M s) {a1 a2} : Stays q n M (redealMat s a1 a2) := by
  unfold redealMat
  lift_lets
  intro t1; clear_value t1
  intro t2; clear_value t2
  intro t3; refine (have h3 : Stays q n M t3 := ?_; ?_) <;> [subst t3; clear_value t3]
  with_reducible apply stays_foldl
  with_reducible assumption
  intro x4
  intro x5
  intro x6
  with_reducible apply dropTile_stays
  with_reducible assumption
  split
  with_reducible assumption
  lift_lets
  intro t7; clear_value t7
  intro t8; clear_value t8
  intro t9; clear_value t9
  intro t10; clear_value t10
  intro t11; clear_value t11
  with_reducible apply stays_ite
  with_reducible apply fencedOut_stays
  with_reducible apply modMat_stays
  with_reducible assumption
  with_reducible apply modMat_stays
  with_reducible assumption

theorem redealArray_stays {s : State} (h : Stays q n M s) {a1} : Stays q n M (redealArray s a1) := by
  unfold redealArray
  lift_lets
  intro t1; refine (have h1 : Stays q n M t1 := ?_; ?_) <;> [subst t1; clear_value t1]
  with_reducible apply stays_foldl
  with_reducible assumption
  intro x2
  intro x3
  intro x4
  with_reducible apply dropTile_stays
  with_reducible assumption
  with_reducible apply stays_foldl
  with_reducible assumption
  intro x5
  intro x6
  intro x7
  with_reducible apply redealMat_stays
  with_reducible assumption

theorem unrecordFence_stays {s : State} (h : Stays q n M s) {a1} : Stays q n M (unrecordFence s a1) := by
  unfold unrecordFence
  lift_lets
  intro t1; clear_value t1
  intro t2; clear_value t2
  with_reducible apply stays_mk
  with_reducible assumption

theorem recordMap_stays {s : State} (h : Stays q n M s) {a1 a2} : Stays q n M (recordMap s a1 a2) := by
  unfold recordMap
  lift_lets
  intro t1; clear_value t1
  intro t2; clear_value t2
  with_reducible apply stays_mk
  with_reducible assumption

theorem fenceArray_stays {s : State} (h : Stays q n M s) {a1} : Stays q n M (fenceArray s a1) := by
  unfold fenceArray
  lift_lets
  intro t1; clear_value t1
  intro t2; clear_value t2
  intro t3; clear_value t3
  intro t4; clear_value t4
  intro t5; clear_value t5
  intro t6; refine (have h6 : Stays q n M t6 := ?_; ?_) <;> [subst t6; clear_value t6]
  with_reducible apply stays_ite
  with_reducible apply recordFence_stays
  with_reducible apply setF_stays
  with_reducible assumption
  with_reducible assumption
  intro t7; clear_value t7
  intro t8; refine (have h8 : Stays q n M t8 := ?_; ?_) <;> [subst t8; clear_value t8]
  with_reducible apply setF_stays
  with_reducible apply setF_stays
  with_reducible apply setF_stays
  with_reducible assumption
  intro t9; refine (have h9 : Stays q n M t9 := ?_; ?_) <;> [subst t9; clear_value t9]
  with_reducible apply setBitF_stays
  with_reducible apply setBitF_stays
  with_reducible apply setF_stays
  with_reducible assumption
  intro t10; refine (have h10 : Stays q n M t10 := ?_; ?_) <;> [subst t10; clear_value t10]
  with_reducible apply stays_ite
  with_reducible apply unrecordFence_stays
  with_reducible apply setBitF_stays
  with_reducible apply setBitF_stays
  with_reducible assumption
  with_reducible apply setF_stays
  with_reducible assumption
  intro t11; refine (have h11 : Stays q n M t11 := ?_; ?_) <;> [subst t11; clear_value t11]
  with_reducible apply logEvent_stays
  with_reducible apply recordMap_stays
  with_reducible assumption
  with_reducible apply stays_ite
  with_reducible assumption
  with_reducible apply redealArray_stays
  with_reducible assumption

theorem putTile_stays {s : State} (h : Stays q n M s) {a1} : Stays q n M (putTile s a1) := by
  unfold putTile
  lift_lets
  intro t1; clear_value t1
  with_reducible apply stays_mk
  with_reducible assumption

theorem taint_stays {s : State} (h : Stays q n M s) {a1 a2 a3} : Stays q n M (taint s a1 a2 a3) := by
  unfold taint
  split
  with_reducible assumption
  lift_lets
  intro t1; refine (have h1 : Stays q n M t1 := ?_; ?_) <;> [subst t1; clear_value t1]
  with_reducible apply stays_ite
  with_reducible assumption
  with_reducible apply incF_stays
  with_reducible assumption
  with_reducible apply modCmd_stays
  with_reducible assumption

theorem disagree_stays {s : State} (h : Stays q n M s) {a1} : Stays q n M (disagree s a1) := by
  unfold disagree
  lift_lets
  intro t1; refine (have h1 : Stays q n M t1 := ?_; ?_) <;> [subst t1; clear_value t1]
  with_reducible apply incF_stays
  with_reducible apply putTile_stays
  with_reducible assumption
  split
  with_reducible assumption
  with_reducible apply stays_foldl
  with_reducible apply taint_stays
  with_reducible assumption
  intro x2
  intro x3
  intro x4
  with_reducible apply taint_stays
  with_reducible assumption

theorem writeMapBit_stays (hM : MemOk M) {a0 a1 a2} : StaysMM q n M (writeMapBit a0 a1 a2) := by
  unfold writeMapBit
  lift_lets
  intro t1; clear_value t1
  intro t2; clear_value t2
  with_reducible apply staysMM_bind
  with_reducible apply readRaw_stays
  intro x3
  lift_lets
  intro t4; clear_value t4
  with_reducible apply writeBytes_stays
  assumption

theorem writeTile_stays (hM : MemOk M) {a0 a1 a2 a3 a4} : StaysMM q n M (writeTile a0 a1 a2 a3 a4) := by
  unfold writeTile
  lift_lets
  intro t1; clear_value t1
  intro t2; clear_value t2
  intro t3; clear_value t3
  intro t4; clear_value t4
  intro t5; clear_value t5
  intro t6; clear_value t6
  intro t7; clear_value t7
  intro t8; clear_value t8
  intro t9; clear_value t9
  intro t10; clear_value t10
  intro t11; clear_value t11
  intro t12; refine (have h12 : ∀ y0, StaysMM q n M (t12 y0) := ?_; ?_) <;> [subst t12; clear_value t12]
  intro x13
  beta_reduce
  with_reducible apply staysMM_bind
  with_reducible apply writeBytes_stays
  assumption
  intro x14
  with_reducible apply staysMM_pure
  intro t15; refine (have h15 : ∀ y0, StaysMM q n M (t15 y0) := ?_; ?_) <;> [subst t15; clear_value t15]
  intro x16
  beta_reduce
  with_reducible apply staysMM_ite
  with_reducible apply staysMM_bind
  with_reducible apply writeMapBit_stays
  assumption
  intro x17
  with_reducible apply h12
  with_reducible apply h12
  intro t18; clear_value t18
  intro t19; clear_value t19
  intro t20; clear_value t20
  with_reducible apply staysMM_ite
  with_reducible apply staysMM_bind
  with_reducible apply writeBytes_stays
  assumption
  intro x21
  with_reducible apply h15
  with_reducible apply staysMM_bind
  with_reducible apply staysMM_forIn
  intro x22
  intro x23
  with_reducible apply staysMM_ite
  split
  with_reducible apply staysMM_bind
  with_reducible apply writeBytes_stays
  assumption
  intro x24
  with_reducible apply staysMM_bind
  with_reducible apply writeBytes_stays
  assumption
  intro x25
  with_reducible apply staysMM_ite
  with_reducible apply staysMM_bind
  with_reducible apply writeBytes_stays
  assumption
  intro x26
  with_reducible apply staysMM_pure
  with_reducible apply staysMM_pure
  with_reducible apply staysMM_bind
  with_reducible apply writeBytes_stays
  assumption
  intro x27
  with_reducible apply staysMM_pure
  intro x28
  with_reducible apply h15

theorem drainTile_stays {s : State} (hM : MemOk M) (h : Stays q n M s) {a1 a2} : Stays q n M (drainTile s a1 a2) := by
  unfold drainTile
  split
  with_reducible assumption
  split
  with_reducible assumption
  split
  with_reducible apply noteSounds_stays
  with_reducible apply staleRange_stays
  with_reducible refine stays_of_snd (by assumption) ?_
  with_reducible apply runMM_stays
  with_reducible assumption
  with_reducible apply writeTile_stays
  assumption
  with_reducible apply failMem_stays
  with_reducible refine stays_of_snd (by assumption) ?_
  with_reducible apply runMM_stays
  with_reducible assumption
  with_reducible apply writeTile_stays
  assumption

theorem takeTile_stays {s : State} (h : Stays q n M s) {a1} : Stays q n M (takeTile s a1) := by
  unfold takeTile
  split
  with_reducible assumption
  split
  with_reducible apply failMem_stays
  with_reducible refine stays_of_snd (by assumption) ?_
  with_reducible apply runMM_stays
  with_reducible assumption
  with_reducible apply readPromo_stays
  lift_lets
  intro t1; clear_value t1
  intro t2; refine (have h2 : Stays q n M t2 := ?_; ?_) <;> [subst t2; clear_value t2]
  with_reducible apply modMat_stays
  with_reducible refine stays_of_snd (by assumption) ?_
  with_reducible apply runMM_stays
  with_reducible assumption
  with_reducible apply readPromo_stays
  intro t3; clear_value t3
  with_reducible apply stays_mk
  with_reducible assumption

theorem setArray_stays {s : State} (h : Stays q n M s) {a1 a2} : Stays q n M (setArray s a1 a2) := by
  unfold setArray
  lift_lets
  intro t1; clear_value t1
  with_reducible apply stays_mk
  with_reducible assumption

theorem loadChunk_stays {s : State} (h : Stays q n M s) {a1 a2 a3} : Stays q n M (loadChunk s a1 a2 a3) := by
  unfold loadChunk
  lift_lets
  intro t1; clear_value t1
  intro t2; clear_value t2
  intro t3; clear_value t3
  intro t4; clear_value t4
  intro t5; clear_value t5
  split
  split
  split
  dsimp only
  split
  with_reducible apply failMem_stays
  with_reducible refine stays_of_snd (by assumption) ?_
  with_reducible apply runMM_stays
  with_reducible assumption
  with_reducible apply readOperand_stays
  with_reducible apply setArray_stays
  with_reducible apply putTile_stays
  with_reducible refine stays_of_snd (by assumption) ?_
  with_reducible apply runMM_stays
  with_reducible assumption
  with_reducible apply readOperand_stays
  lift_lets
  intro t6; clear_value t6
  dsimp only
  split
  with_reducible apply failMem_stays
  with_reducible refine stays_of_snd (by assumption) ?_
  with_reducible apply runMM_stays
  with_reducible assumption
  with_reducible apply readOperand_stays
  with_reducible apply setArray_stays
  with_reducible apply putTile_stays
  with_reducible refine stays_of_snd (by assumption) ?_
  with_reducible apply runMM_stays
  with_reducible assumption
  with_reducible apply readOperand_stays
  split
  dsimp only
  split
  with_reducible apply failMem_stays
  with_reducible refine stays_of_snd (by assumption) ?_
  with_reducible apply runMM_stays
  with_reducible assumption
  with_reducible apply readOperand_stays
  with_reducible apply setArray_stays
  with_reducible apply putTile_stays
  with_reducible refine stays_of_snd (by assumption) ?_
  with_reducible apply runMM_stays
  with_reducible assumption
  with_reducible apply readOperand_stays
  lift_lets
  intro t7; clear_value t7
  dsimp only
  split
  with_reducible apply failMem_stays
  with_reducible refine stays_of_snd (by assumption) ?_
  with_reducible apply runMM_stays
  with_reducible assumption
  with_reducible apply readOperand_stays
  with_reducible apply setArray_stays
  with_reducible apply putTile_stays
  with_reducible refine stays_of_snd (by assumption) ?_
  with_reducible apply runMM_stays
  with_reducible assumption
  with_reducible apply readOperand_stays
  with_reducible assumption

theorem execLoad_stays {s : State} (hM : MemOk M) (h : Stays q n M s) {a0 a1} : StaysReply q n M (execLoad a0 a1 s) := by
  unfold execLoad
  with_reducible apply staysReply_done
  with_reducible apply onlyIf_stays
  with_reducible assumption
  intro x1
  intro x2
  with_reducible apply inClass_stays
  with_reducible assumption
  intro x3
  intro x4
  with_reducible apply withUpsets_stays
  assumption
  with_reducible assumption
  intro x5
  intro x6
  lift_lets
  intro t7; refine (have h7 : Stays q n M t7 := ?_; ?_) <;> [subst t7; clear_value t7]
  with_reducible apply stays_ite
  with_reducible assumption
  with_reducible apply takeTile_stays
  with_reducible assumption
  split
  with_reducible apply loadChunk_stays
  with_reducible apply endTimeout_stays
  with_reducible assumption
  with_reducible assumption

theorem execMatmul_stays {s : State} (h : Stays q n M s) : StaysReply q n M (execMatmul s) := by
  unfold execMatmul
  with_reducible apply staysReply_done
  with_reducible apply intakeWork_stays
  with_reducible assumption

theorem passRows_stays {a0 a1 a2 a3 a4 a5 a6 a7 a8 a9} : StaysMM q n M (passRows a0 a1 a2 a3 a4 a5 a6 a7 a8 a9) := by
  unfold passRows
  lift_lets
  intro t1; clear_value t1
  intro t2; clear_value t2
  with_reducible apply staysMM_ite
  with_reducible apply readOperand_stays
  with_reducible apply staysMM_bind
  with_reducible apply staysMM_forIn
  intro x3
  intro x4
  lift_lets
  intro t5; clear_value t5
  intro t6; clear_value t6
  with_reducible apply staysMM_bind
  with_reducible apply readXRow_stays
  intro x7
  lift_lets
  intro t8; clear_value t8
  intro t9; clear_value t9
  with_reducible apply staysMM_pure
  intro x10
  lift_lets
  intro t11; clear_value t11
  intro t12; clear_value t12
  with_reducible apply staysMM_pure

theorem noteMatIssued_stays {s : State} (h : Stays q n M s) {a1 a2} : Stays q n M (noteMatIssued s a1 a2) := by
  unfold noteMatIssued
  split
  with_reducible apply stays_ite
  with_reducible apply modCmd_stays
  with_reducible assumption
  with_reducible assumption
  with_reducible assumption

theorem runPass_stays {s : State} (h : Stays q n M s) {a1 a2 a3 a4 a5 a6} : Stays q n M (runPass s a1 a2 a3 a4 a5 a6) := by
  unfold runPass
  lift_lets
  intro t1; clear_value t1
  intro t2; clear_value t2
  intro t3; clear_value t3
  intro t4; clear_value t4
  intro t5; clear_value t5
  split
  dsimp only
  split
  with_reducible apply failMem_stays
  with_reducible refine stays_of_snd (by assumption) ?_
  with_reducible apply runMM_stays
  with_reducible assumption
  with_reducible apply passRows_stays
  with_reducible apply noteMatIssued_stays
  with_reducible apply stays_ite
  with_reducible apply setArray_stays
  with_reducible apply putTile_stays
  with_reducible refine stays_of_snd (by assumption) ?_
  with_reducible apply runMM_stays
  with_reducible assumption
  with_reducible apply passRows_stays
  with_reducible apply putTile_stays
  with_reducible refine stays_of_snd (by assumption) ?_
  with_reducible apply runMM_stays
  with_reducible assumption
  with_reducible apply passRows_stays
  with_reducible assumption

theorem execPass_stays {s : State} (hM : MemOk M) (h : Stays q n M s) {a0 a1} : StaysReply q n M (execPass a0 a1 s) := by
  unfold execPass
  with_reducible apply staysReply_done
  with_reducible apply onlyIf_stays
  with_reducible assumption
  intro x1
  intro x2
  split
  with_reducible assumption
  split
  with_reducible assumption
  split
  with_reducible assumption
  lift_lets
  intro t3; clear_value t3
  intro t4; clear_value t4
  with_reducible apply stays_ite
  with_reducible assumption
  split
  with_reducible apply inClass_stays
  with_reducible assumption
  intro x5
  intro x6
  with_reducible apply withUpsets_stays
  assumption
  with_reducible assumption
  intro x7
  intro x8
  with_reducible apply runPass_stays
  with_reducible apply endTimeout_stays
  with_reducible assumption
  with_reducible assumption

theorem releaseTile_stays {s : State} (h : Stays q n M s) {a1} : Stays q n M (releaseTile s a1) := by
  unfold releaseTile
  lift_lets
  intro t1; clear_value t1
  intro t2; clear_value t2
  intro t3; refine (have h3 : Stays q n M t3 := ?_; ?_) <;> [subst t3; clear_value t3]
  with_reducible apply dropTile_stays
  with_reducible assumption
  intro t4; refine (have h4 : Stays q n M t4 := ?_; ?_) <;> [subst t4; clear_value t4]
  with_reducible apply modMat_stays
  with_reducible assumption
  dsimp only
  split
  with_reducible apply stays_ite
  with_reducible apply endCmd_stays
  with_reducible apply stays_mk
  with_reducible apply modCmd_stays
  with_reducible assumption
  with_reducible apply modCmd_stays
  with_reducible assumption
  with_reducible assumption

theorem settleTile_stays {s : State} (h : Stays q n M s) {a1} : Stays q n M (settleTile s a1) := by
  unfold settleTile
  lift_lets
  intro t1; refine (have h1 : Stays q n M t1 := ?_; ?_) <;> [subst t1; clear_value t1]
  with_reducible apply putTile_stays
  with_reducible assumption
  with_reducible apply stays_ite
  with_reducible apply releaseTile_stays
  with_reducible assumption
  with_reducible assumption

theorem execTileDrain_stays {s : State} (hM : MemOk M) (h : Stays q n M s) {a0 a1 a2 a3} : StaysReply q n M (execTileDrain a0 a1 a2 a3 s) := by
  unfold execTileDrain
  with_reducible apply staysReply_done
  split
  with_reducible assumption
  lift_lets
  intro t1; clear_value t1
  with_reducible apply stays_ite
  with_reducible assumption
  with_reducible apply inClass_stays
  with_reducible assumption
  intro x2
  intro x3
  with_reducible apply withUpsets_stays
  assumption
  with_reducible assumption
  intro x4
  intro x5
  lift_lets
  intro t6; refine (have h6 : Stays q n M t6 := ?_; ?_) <;> [subst t6; clear_value t6]
  with_reducible apply incF_stays
  with_reducible apply drainTile_stays
  assumption
  with_reducible assumption
  with_reducible apply settleTile_stays
  with_reducible assumption

theorem execTileHandoff_stays {s : State} (h : Stays q n M s) {a0 a1 a2 a3 a4} : StaysReply q n M (execTileHandoff a0 a1 a2 a3 a4 s) := by
  unfold execTileHandoff
  with_reducible apply staysReply_done
  split
  with_reducible assumption
  lift_lets
  intro t1; clear_value t1
  intro t2; clear_value t2
  intro t3; clear_value t3
  intro t4; refine (have h4 : Stays q n M t4 := ?_; ?_) <;> [subst t4; clear_value t4]
  with_reducible apply stays_ite
  with_reducible assumption
  with_reducible apply incF_stays
  with_reducible assumption
  split
  with_reducible assumption
  with_reducible apply stays_ite
  with_reducible assumption
  with_reducible apply putTile_stays
  with_reducible assumption

theorem execVernierVerdict_stays {s : State} (h : Stays q n M s) {a0 a1 a2 a3} : StaysReply q n M (execVernierVerdict a0 a1 a2 a3 s) := by
  unfold execVernierVerdict
  with_reducible apply staysReply_done
  split
  with_reducible assumption
  lift_lets
  intro t1; clear_value t1
  with_reducible apply stays_ite
  with_reducible assumption
  with_reducible apply stays_ite
  with_reducible apply putTile_stays
  with_reducible assumption
  with_reducible apply stays_ite
  with_reducible apply settleTile_stays
  with_reducible assumption
  with_reducible apply disagree_stays
  with_reducible assumption

theorem fenceVernier_stays {s : State} (h : Stays q n M s) {a1} : Stays q n M (fenceVernier s a1) := by
  unfold fenceVernier
  lift_lets
  intro t1; clear_value t1
  intro t2; clear_value t2
  intro t3; clear_value t3
  intro t4; clear_value t4
  intro t5; refine (have h5 : Stays q n M t5 := ?_; ?_) <;> [subst t5; clear_value t5]
  with_reducible apply recordFence_stays
  with_reducible apply setBitF_stays
  with_reducible assumption
  intro t6; clear_value t6
  intro t7; refine (have h7 : Stays q n M t7 := ?_; ?_) <;> [subst t7; clear_value t7]
  with_reducible apply logEvent_stays
  with_reducible assumption
  intro t8; refine (have h8 : Stays q n M t8 := ?_; ?_) <;> [subst t8; clear_value t8]
  with_reducible apply fenceArray_stays
  with_reducible assumption
  with_reducible apply stays_ite
  with_reducible assumption
  with_reducible apply stays_ite
  with_reducible apply stays_ite
  with_reducible apply fenceArray_stays
  with_reducible assumption
  with_reducible assumption
  with_reducible apply recordMap_stays
  with_reducible apply setBitF_stays
  with_reducible apply setF_stays
  with_reducible assumption

theorem matmulBegin_stays {s : State} (h : Stays q n M s) {a1 a2 a3} : Stays q n M (matmulBegin s a1 a2 a3) := by
  unfold matmulBegin
  lift_lets
  intro t1; clear_value t1
  intro t2; clear_value t2
  with_reducible apply stays_mk
  with_reducible assumption

theorem strikeArray_stays {s : State} (h : Stays q n M s) {a1 a2} : Stays q n M (strikeArray s a1 a2) := by
  unfold strikeArray
  lift_lets
  intro t1; clear_value t1
  intro t2; refine (have h2 : Stays q n M t2 := ?_; ?_) <;> [subst t2; clear_value t2]
  with_reducible apply strike_stays
  with_reducible assumption
  with_reducible apply stays_ite
  with_reducible apply fenceArray_stays
  with_reducible assumption
  with_reducible assumption

theorem strikeVernier_stays {s : State} (h : Stays q n M s) {a1 a2} : Stays q n M (strikeVernier s a1 a2) := by
  unfold strikeVernier
  lift_lets
  intro t1; clear_value t1
  intro t2; refine (have h2 : Stays q n M t2 := ?_; ?_) <;> [subst t2; clear_value t2]
  with_reducible apply strike_stays
  with_reducible assumption
  with_reducible apply stays_ite
  with_reducible apply fenceVernier_stays
  with_reducible assumption
  with_reducible assumption

theorem settleThird_stays {s : State} (hM : MemOk M) (h : Stays q n M s) {a1 a2} : Stays q n M (settleThird s a1 a2) := by
  unfold settleThird
  lift_lets
  intro t1; clear_value t1
  split
  split
  dsimp only
  with_reducible apply stays_ite
  with_reducible apply stays_mk
  with_reducible apply stays_ite
  with_reducible apply stays_foldl
  with_reducible apply stays_ite
  with_reducible apply stays_foldl
  with_reducible apply releaseTile_stays
  with_reducible apply dropTile_stays
  with_reducible apply inClass_stays
  with_reducible apply incF_stays
  with_reducible assumption
  intro x2
  intro x3
  with_reducible apply drainTile_stays
  assumption
  with_reducible assumption
  intro x4
  intro x5
  intro x6
  with_reducible apply strikeArray_stays
  with_reducible assumption
  with_reducible apply releaseTile_stays
  with_reducible apply dropTile_stays
  with_reducible apply inClass_stays
  with_reducible apply incF_stays
  with_reducible assumption
  intro x7
  intro x8
  with_reducible apply drainTile_stays
  assumption
  with_reducible assumption
  intro x9
  intro x10
  intro x11
  with_reducible apply strikeVernier_stays
  with_reducible assumption
  with_reducible apply stays_ite
  with_reducible apply stays_foldl
  with_reducible apply releaseTile_stays
  with_reducible apply dropTile_stays
  with_reducible apply inClass_stays
  with_reducible apply incF_stays
  with_reducible assumption
  intro x12
  intro x13
  with_reducible apply drainTile_stays
  assumption
  with_reducible assumption
  intro x14
  intro x15
  intro x16
  with_reducible apply strikeArray_stays
  with_reducible assumption
  with_reducible apply releaseTile_stays
  with_reducible apply dropTile_stays
  with_reducible apply inClass_stays
  with_reducible apply incF_stays
  with_reducible assumption
  intro x17
  intro x18
  with_reducible apply drainTile_stays
  assumption
  with_reducible assumption
  with_reducible apply stays_ite
  with_reducible apply stays_foldl
  with_reducible apply stays_ite
  with_reducible apply stays_foldl
  with_reducible apply releaseTile_stays
  with_reducible apply dropTile_stays
  with_reducible apply inClass_stays
  with_reducible apply incF_stays
  with_reducible assumption
  intro x19
  intro x20
  with_reducible apply drainTile_stays
  assumption
  with_reducible assumption
  intro x21
  intro x22
  intro x23
  with_reducible apply strikeArray_stays
  with_reducible assumption
  with_reducible apply releaseTile_stays
  with_reducible apply dropTile_stays
  with_reducible apply inClass_stays
  with_reducible apply incF_stays
  with_reducible assumption
  intro x24
  intro x25
  with_reducible apply drainTile_stays
  assumption
  with_reducible assumption
  intro x26
  intro x27
  intro x28
  with_reducible apply strikeVernier_stays
  with_reducible assumption
  with_reducible apply stays_ite
  with_reducible apply stays_foldl
  with_reducible apply releaseTile_stays
  with_reducible apply dropTile_stays
  with_reducible apply inClass_stays
  with_reducible apply incF_stays
  with_reducible assumption
  intro x29
  intro x30
  with_reducible apply drainTile_stays
  assumption
  with_reducible assumption
  intro x31
  intro x32
  intro x33
  with_reducible apply strikeArray_stays
  with_reducible assumption
  with_reducible apply releaseTile_stays
  with_reducible apply dropTile_stays
  with_reducible apply inClass_stays
  with_reducible apply incF_stays
  with_reducible assumption
  intro x34
  intro x35
  with_reducible apply drainTile_stays
  assumption
  with_reducible assumption
  dsimp only
  with_reducible apply stays_ite
  with_reducible apply stays_mk
  with_reducible apply stays_ite
  with_reducible apply stays_foldl
  with_reducible apply stays_ite
  with_reducible apply stays_foldl
  with_reducible apply releaseTile_stays
  with_reducible apply dropTile_stays
  with_reducible apply incF_stays
  with_reducible apply inClass_stays
  with_reducible apply incF_stays
  with_reducible assumption
  intro x36
  intro x37
  with_reducible apply drainTile_stays
  assumption
  with_reducible assumption
  intro x38
  intro x39
  intro x40
  with_reducible apply strikeArray_stays
  with_reducible assumption
  with_reducible apply releaseTile_stays
  with_reducible apply dropTile_stays
  with_reducible apply incF_stays
  with_reducible apply inClass_stays
  with_reducible apply incF_stays
  with_reducible assumption
  intro x41
  intro x42
  with_reducible apply drainTile_stays
  assumption
  with_reducible assumption
  intro x43
  intro x44
  intro x45
  with_reducible apply strikeVernier_stays
  with_reducible assumption
  with_reducible apply stays_ite
  with_reducible apply stays_foldl
  with_reducible apply releaseTile_stays
  with_reducible apply dropTile_stays
  with_reducible apply incF_stays
  with_reducible apply inClass_stays
  with_reducible apply incF_stays
  with_reducible assumption
  intro x46
  intro x47
  with_reducible apply drainTile_stays
  assumption
  with_reducible assumption
  intro x48
  intro x49
  intro x50
  with_reducible apply strikeArray_stays
  with_reducible assumption
  with_reducible apply releaseTile_stays
  with_reducible apply dropTile_stays
  with_reducible apply incF_stays
  with_reducible apply inClass_stays
  with_reducible apply incF_stays
  with_reducible assumption
  intro x51
  intro x52
  with_reducible apply drainTile_stays
  assumption
  with_reducible assumption
  with_reducible apply stays_ite
  with_reducible apply stays_foldl
  with_reducible apply stays_ite
  with_reducible apply stays_foldl
  with_reducible apply releaseTile_stays
  with_reducible apply dropTile_stays
  with_reducible apply incF_stays
  with_reducible apply inClass_stays
  with_reducible apply incF_stays
  with_reducible assumption
  intro x53
  intro x54
  with_reducible apply drainTile_stays
  assumption
  with_reducible assumption
  intro x55
  intro x56
  intro x57
  with_reducible apply strikeArray_stays
  with_reducible assumption
  with_reducible apply releaseTile_stays
  with_reducible apply dropTile_stays
  with_reducible apply incF_stays
  with_reducible apply inClass_stays
  with_reducible apply incF_stays
  with_reducible assumption
  intro x58
  intro x59
  with_reducible apply drainTile_stays
  assumption
  with_reducible assumption
  intro x60
  intro x61
  intro x62
  with_reducible apply strikeVernier_stays
  with_reducible assumption
  with_reducible apply stays_ite
  with_reducible apply stays_foldl
  with_reducible apply releaseTile_stays
  with_reducible apply dropTile_stays
  with_reducible apply incF_stays
  with_reducible apply inClass_stays
  with_reducible apply incF_stays
  with_reducible assumption
  intro x63
  intro x64
  with_reducible apply drainTile_stays
  assumption
  with_reducible assumption
  intro x65
  intro x66
  intro x67
  with_reducible apply strikeArray_stays
  with_reducible assumption
  with_reducible apply releaseTile_stays
  with_reducible apply dropTile_stays
  with_reducible apply incF_stays
  with_reducible apply inClass_stays
  with_reducible apply incF_stays
  with_reducible assumption
  intro x68
  intro x69
  with_reducible apply drainTile_stays
  assumption
  with_reducible assumption
  lift_lets
  intro t70; clear_value t70
  split
  dsimp only
  with_reducible apply stays_ite
  with_reducible apply stays_mk
  with_reducible apply stays_ite
  with_reducible apply stays_foldl
  with_reducible apply stays_ite
  with_reducible apply stays_foldl
  with_reducible apply releaseTile_stays
  with_reducible apply inClass_stays
  with_reducible apply incF_stays
  with_reducible assumption
  intro x71
  intro x72
  with_reducible apply drainTile_stays
  assumption
  with_reducible assumption
  intro x73
  intro x74
  intro x75
  with_reducible apply strikeArray_stays
  with_reducible assumption
  with_reducible apply releaseTile_stays
  with_reducible apply inClass_stays
  with_reducible apply incF_stays
  with_reducible assumption
  intro x76
  intro x77
  with_reducible apply drainTile_stays
  assumption
  with_reducible assumption
  intro x78
  intro x79
  intro x80
  with_reducible apply strikeVernier_stays
  with_reducible assumption
  with_reducible apply stays_ite
  with_reducible apply stays_foldl
  with_reducible apply releaseTile_stays
  with_reducible apply inClass_stays
  with_reducible apply incF_stays
  with_reducible assumption
  intro x81
  intro x82
  with_reducible apply drainTile_stays
  assumption
  with_reducible assumption
  intro x83
  intro x84
  intro x85
  with_reducible apply strikeArray_stays
  with_reducible assumption
  with_reducible apply releaseTile_stays
  with_reducible apply inClass_stays
  with_reducible apply incF_stays
  with_reducible assumption
  intro x86
  intro x87
  with_reducible apply drainTile_stays
  assumption
  with_reducible assumption
  with_reducible apply stays_ite
  with_reducible apply stays_foldl
  with_reducible apply stays_ite
  with_reducible apply stays_foldl
  with_reducible apply releaseTile_stays
  with_reducible apply inClass_stays
  with_reducible apply incF_stays
  with_reducible assumption
  intro x88
  intro x89
  with_reducible apply drainTile_stays
  assumption
  with_reducible assumption
  intro x90
  intro x91
  intro x92
  with_reducible apply strikeArray_stays
  with_reducible assumption
  with_reducible apply releaseTile_stays
  with_reducible apply inClass_stays
  with_reducible apply incF_stays
  with_reducible assumption
  intro x93
  intro x94
  with_reducible apply drainTile_stays
  assumption
  with_reducible assumption
  intro x95
  intro x96
  intro x97
  with_reducible apply strikeVernier_stays
  with_reducible assumption
  with_reducible apply stays_ite
  with_reducible apply stays_foldl
  with_reducible apply releaseTile_stays
  with_reducible apply inClass_stays
  with_reducible apply incF_stays
  with_reducible assumption
  intro x98
  intro x99
  with_reducible apply drainTile_stays
  assumption
  with_reducible assumption
  intro x100
  intro x101
  intro x102
  with_reducible apply strikeArray_stays
  with_reducible assumption
  with_reducible apply releaseTile_stays
  with_reducible apply inClass_stays
  with_reducible apply incF_stays
  with_reducible assumption
  intro x103
  intro x104
  with_reducible apply drainTile_stays
  assumption
  with_reducible assumption
  dsimp only
  with_reducible apply stays_ite
  with_reducible apply stays_mk
  with_reducible apply stays_ite
  with_reducible apply stays_foldl
  with_reducible apply stays_ite
  with_reducible apply stays_foldl
  with_reducible apply releaseTile_stays
  with_reducible apply incF_stays
  with_reducible apply inClass_stays
  with_reducible apply incF_stays
  with_reducible assumption
  intro x105
  intro x106
  with_reducible apply drainTile_stays
  assumption
  with_reducible assumption
  intro x107
  intro x108
  intro x109
  with_reducible apply strikeArray_stays
  with_reducible assumption
  with_reducible apply releaseTile_stays
  with_reducible apply incF_stays
  with_reducible apply inClass_stays
  with_reducible apply incF_stays
  with_reducible assumption
  intro x110
  intro x111
  with_reducible apply drainTile_stays
  assumption
  with_reducible assumption
  intro x112
  intro x113
  intro x114
  with_reducible apply strikeVernier_stays
  with_reducible assumption
  with_reducible apply stays_ite
  with_reducible apply stays_foldl
  with_reducible apply releaseTile_stays
  with_reducible apply incF_stays
  with_reducible apply inClass_stays
  with_reducible apply incF_stays
  with_reducible assumption
  intro x115
  intro x116
  with_reducible apply drainTile_stays
  assumption
  with_reducible assumption
  intro x117
  intro x118
  intro x119
  with_reducible apply strikeArray_stays
  with_reducible assumption
  with_reducible apply releaseTile_stays
  with_reducible apply incF_stays
  with_reducible apply inClass_stays
  with_reducible apply incF_stays
  with_reducible assumption
  intro x120
  intro x121
  with_reducible apply drainTile_stays
  assumption
  with_reducible assumption
  with_reducible apply stays_ite
  with_reducible apply stays_foldl
  with_reducible apply stays_ite
  with_reducible apply stays_foldl
  with_reducible apply releaseTile_stays
  with_reducible apply incF_stays
  with_reducible apply inClass_stays
  with_reducible apply incF_stays
  with_reducible assumption
  intro x122
  intro x123
  with_reducible apply drainTile_stays
  assumption
  with_reducible assumption
  intro x124
  intro x125
  intro x126
  with_reducible apply strikeArray_stays
  with_reducible assumption
  with_reducible apply releaseTile_stays
  with_reducible apply incF_stays
  with_reducible apply inClass_stays
  with_reducible apply incF_stays
  with_reducible assumption
  intro x127
  intro x128
  with_reducible apply drainTile_stays
  assumption
  with_reducible assumption
  intro x129
  intro x130
  intro x131
  with_reducible apply strikeVernier_stays
  with_reducible assumption
  with_reducible apply stays_ite
  with_reducible apply stays_foldl
  with_reducible apply releaseTile_stays
  with_reducible apply incF_stays
  with_reducible apply inClass_stays
  with_reducible apply incF_stays
  with_reducible assumption
  intro x132
  intro x133
  with_reducible apply drainTile_stays
  assumption
  with_reducible assumption
  intro x134
  intro x135
  intro x136
  with_reducible apply strikeArray_stays
  with_reducible assumption
  with_reducible apply releaseTile_stays
  with_reducible apply incF_stays
  with_reducible apply inClass_stays
  with_reducible apply incF_stays
  with_reducible assumption
  intro x137
  intro x138
  with_reducible apply drainTile_stays
  assumption
  with_reducible assumption

end Sys2Proof.Machine
end

