-- ==== Sys2Proof/Laws/KeepsVector.lean ====
section
/-!
SUPPORT. What each function of Machine/Vector.lean keeps of a state: the queue, the time, the form of the registers and a condition on memory (`Stays`).
-/
set_option Elab.async false
set_option linter.all false
set_option maxRecDepth 4000
namespace Sys2Proof.Machine
variable {q : List Instr} {n : Nat} {M : List Host.Cell → Prop}

theorem setEngine_stays {s : State} (h : Stays q n M s) {a1 a2} : Stays q n M (setEngine s a1 a2) := by
  unfold setEngine
  lift_lets
  intro t1; clear_value t1
  intro t2; refine (have h2 : Stays q n M t2 := ?_; ?_) <;> [subst t2; clear_value t2]
  with_reducible apply stays_mk
  with_reducible assumption
  with_reducible apply setBitF_stays
  with_reducible assumption

theorem laneBegin_stays {s : State} (h : Stays q n M s) {a1 a2 a3} : Stays q n M (laneBegin s a1 a2 a3) := by
  unfold laneBegin
  lift_lets
  intro t1; clear_value t1
  intro t2; clear_value t2
  intro t3; clear_value t3
  with_reducible apply stays_ite
  with_reducible apply endCmd_stays
  with_reducible assumption
  with_reducible apply modCmd_stays
  with_reducible apply stays_mk
  with_reducible assumption

theorem countWave_stays {s : State} (h : Stays q n M s) {a1} : Stays q n M (countWave s a1) := by
  unfold countWave
  with_reducible apply incF_stays
  with_reducible assumption

theorem rowDone_stays {s : State} (h : Stays q n M s) {a1 a2 a3} : Stays q n M (rowDone s a1 a2 a3) := by
  unfold rowDone
  lift_lets
  intro t1; refine (have h1 : Stays q n M t1 := ?_; ?_) <;> [subst t1; clear_value t1]
  with_reducible apply setEngine_stays
  with_reducible assumption
  intro t2; clear_value t2
  split
  lift_lets
  intro t3; clear_value t3
  intro t4; refine (have h4 : Stays q n M t4 := ?_; ?_) <;> [subst t4; clear_value t4]
  with_reducible apply stays_mk
  with_reducible assumption
  intro t5; clear_value t5
  intro t6; refine (have h6 : Stays q n M t6 := ?_; ?_) <;> [subst t6; clear_value t6]
  with_reducible apply modCmd_stays
  with_reducible assumption
  intro t7; clear_value t7
  with_reducible apply stays_ite
  with_reducible apply endCmd_stays
  with_reducible apply stays_mk
  with_reducible assumption
  with_reducible assumption
  with_reducible assumption

theorem openApply_stays {s : State} (h : Stays q n M s) {a1 a2 a3} : Stays q n M (openApply s a1 a2 a3) := by
  unfold openApply
  lift_lets
  intro t1; clear_value t1
  intro t2; clear_value t2
  with_reducible apply stays_ite
  with_reducible apply stays_ite
  with_reducible apply rowDone_stays
  with_reducible assumption
  with_reducible apply setEngine_stays
  with_reducible assumption
  with_reducible apply setEngine_stays
  with_reducible assumption

theorem segRecord_stays (hM : MemOk M) {a0 a1 a2 a3 a4} : StaysMM q n M (segRecord a0 a1 a2 a3 a4) := by
  unfold segRecord
  split
  with_reducible apply staysMM_pure
  with_reducible apply writeBytes_stays
  assumption

theorem segEnd_stays {s : State} (hM : MemOk M) (h : Stays q n M s) {a1 a2 a3} : Stays q n M (segEnd s a1 a2 a3).2 := by
  unfold segEnd
  lift_lets
  intro t1; clear_value t1
  intro t2; clear_value t2
  intro t3; clear_value t3
  intro t4; clear_value t4
  intro t5; clear_value t5
  intro t6; refine (have h6 : StaysMM q n M t6 := ?_; ?_) <;> [subst t6; clear_value t6]
  with_reducible apply staysMM_bind
  with_reducible apply staysMM_forIn
  intro x7
  intro x8
  with_reducible apply staysMM_bind
  with_reducible apply segRecord_stays
  assumption
  intro x9
  with_reducible apply staysMM_pure
  intro x10
  with_reducible apply staysMM_pure
  intro t11; clear_value t11
  with_reducible apply stays_ite_snd
  dsimp only
  with_reducible assumption
  split
  lift_lets
  intro t12; refine (have h12 : Stays q n M t12 := ?_; ?_) <;> [subst t12; clear_value t12]
  with_reducible apply stays_foldl
  with_reducible refine stays_of_snd (by assumption) ?_
  with_reducible apply runMM_stays
  with_reducible assumption
  with_reducible assumption
  intro x13
  intro x14
  intro x15
  with_reducible apply noteSounds_stays
  with_reducible apply staleRange_stays
  with_reducible assumption
  dsimp only
  with_reducible assumption
  dsimp only
  with_reducible refine stays_of_snd (by assumption) ?_
  with_reducible apply runMM_stays
  with_reducible assumption
  with_reducible assumption

theorem rowFailed_stays {s : State} (h : Stays q n M s) {a1 a2 a3} : Stays q n M (rowFailed s a1 a2 a3) := by
  unfold rowFailed
  with_reducible apply failMem_stays
  with_reducible apply setEngine_stays
  with_reducible assumption

theorem vecAdvance_stays {s : State} (hM : MemOk M) (h : Stays q n M s) {a1 a2 a3} : Stays q n M (vecAdvance s a1 a2 a3) := by
  unfold vecAdvance
  lift_lets
  intro t1; clear_value t1
  intro t2; clear_value t2
  intro t3; refine (have h3 : Stays q n M t3 := ?_; ?_) <;> [subst t3; clear_value t3]
  with_reducible apply countWave_stays
  with_reducible assumption
  split
  with_reducible apply stays_ite
  with_reducible apply setEngine_stays
  with_reducible assumption
  with_reducible apply stays_ite
  with_reducible apply setEngine_stays
  with_reducible assumption
  with_reducible apply openApply_stays
  with_reducible assumption
  with_reducible apply openApply_stays
  with_reducible assumption
  with_reducible apply stays_ite
  with_reducible apply setEngine_stays
  with_reducible assumption
  dsimp only
  split
  with_reducible apply rowFailed_stays
  with_reducible refine stays_of_snd (by assumption) ?_
  with_reducible apply segEnd_stays
  assumption
  with_reducible apply countWave_stays
  with_reducible assumption
  with_reducible apply stays_ite
  with_reducible apply setEngine_stays
  with_reducible refine stays_of_snd (by assumption) ?_
  with_reducible apply segEnd_stays
  assumption
  with_reducible apply countWave_stays
  with_reducible assumption
  with_reducible apply stays_ite
  with_reducible apply rowDone_stays
  with_reducible refine stays_of_snd (by assumption) ?_
  with_reducible apply segEnd_stays
  assumption
  with_reducible apply countWave_stays
  with_reducible assumption
  with_reducible apply setEngine_stays
  with_reducible refine stays_of_snd (by assumption) ?_
  with_reducible apply segEnd_stays
  assumption
  with_reducible apply countWave_stays
  with_reducible assumption

theorem laneStep_stays {s : State} (hM : MemOk M) (h : Stays q n M s) {a1 a2 a3 a4} (hf : ∀ x, StaysMM q n M (a4 x)): Stays q n M (laneStep s a1 a2 a3 a4) := by
  unfold laneStep
  with_reducible apply onlyIf_stays
  with_reducible assumption
  intro x1
  intro x2
  split
  with_reducible assumption
  split
  with_reducible assumption
  lift_lets
  intro t3; clear_value t3
  with_reducible apply stays_ite
  with_reducible assumption
  with_reducible apply inClass_stays
  with_reducible assumption
  intro x4
  intro x5
  with_reducible apply withUpsets_stays
  assumption
  with_reducible assumption
  intro x6
  intro x7
  with_reducible apply engineRun_stays
  with_reducible assumption
  intro x8
  intro x9
  lift_lets
  intro t10; clear_value t10
  split
  with_reducible apply vecAdvance_stays
  assumption
  with_reducible refine stays_of_snd (by assumption) ?_
  with_reducible apply runMM_stays
  with_reducible assumption
  with_reducible apply hf
  with_reducible apply rowFailed_stays
  with_reducible refine stays_of_snd (by assumption) ?_
  with_reducible apply runMM_stays
  with_reducible assumption
  with_reducible apply hf

theorem floatOp_stays {a0 a1} : StaysMM q n M (floatOp a0 a1) := by
  unfold floatOp
  lift_lets
  intro t1; clear_value t1
  with_reducible apply staysMM_pure

theorem execFabs_stays {s : State} (hM : MemOk M) (h : Stays q n M s) {a0 a1} : StaysReply q n M (execFabs a0 a1 s) := by
  unfold execFabs
  with_reducible apply staysReply_done
  with_reducible apply laneStep_stays
  assumption
  with_reducible assumption
  intro x1
  with_reducible apply floatOp_stays

theorem execFadd_stays {s : State} (hM : MemOk M) (h : Stays q n M s) {a0 a1} : StaysReply q n M (execFadd a0 a1 s) := by
  unfold execFadd
  with_reducible apply staysReply_done
  with_reducible apply laneStep_stays
  assumption
  with_reducible assumption
  intro x1
  with_reducible apply floatOp_stays

theorem execFcmp_stays {s : State} (hM : MemOk M) (h : Stays q n M s) {a0 a1} : StaysReply q n M (execFcmp a0 a1 s) := by
  unfold execFcmp
  with_reducible apply staysReply_done
  with_reducible apply laneStep_stays
  assumption
  with_reducible assumption
  intro x1
  with_reducible apply floatOp_stays

theorem execFerf_stays {s : State} (hM : MemOk M) (h : Stays q n M s) {a0 a1} : StaysReply q n M (execFerf a0 a1 s) := by
  unfold execFerf
  with_reducible apply staysReply_done
  with_reducible apply laneStep_stays
  assumption
  with_reducible assumption
  intro x1
  with_reducible apply floatOp_stays

theorem execFexp2_stays {s : State} (hM : MemOk M) (h : Stays q n M s) {a0 a1} : StaysReply q n M (execFexp2 a0 a1 s) := by
  unfold execFexp2
  with_reducible apply staysReply_done
  with_reducible apply laneStep_stays
  assumption
  with_reducible assumption
  intro x1
  with_reducible apply floatOp_stays

theorem execFlog2_stays {s : State} (hM : MemOk M) (h : Stays q n M s) {a0 a1} : StaysReply q n M (execFlog2 a0 a1 s) := by
  unfold execFlog2
  with_reducible apply staysReply_done
  with_reducible apply laneStep_stays
  assumption
  with_reducible assumption
  intro x1
  with_reducible apply floatOp_stays

theorem execFma_stays {s : State} (hM : MemOk M) (h : Stays q n M s) {a0 a1} : StaysReply q n M (execFma a0 a1 s) := by
  unfold execFma
  with_reducible apply staysReply_done
  with_reducible apply laneStep_stays
  assumption
  with_reducible assumption
  intro x1
  with_reducible apply floatOp_stays

theorem execFmax_stays {s : State} (hM : MemOk M) (h : Stays q n M s) {a0 a1} : StaysReply q n M (execFmax a0 a1 s) := by
  unfold execFmax
  with_reducible apply staysReply_done
  with_reducible apply laneStep_stays
  assumption
  with_reducible assumption
  intro x1
  with_reducible apply floatOp_stays

theorem execFmin_stays {s : State} (hM : MemOk M) (h : Stays q n M s) {a0 a1} : StaysReply q n M (execFmin a0 a1 s) := by
  unfold execFmin
  with_reducible apply staysReply_done
  with_reducible apply laneStep_stays
  assumption
  with_reducible assumption
  intro x1
  with_reducible apply floatOp_stays

theorem execFmul_stays {s : State} (hM : MemOk M) (h : Stays q n M s) {a0 a1} : StaysReply q n M (execFmul a0 a1 s) := by
  unfold execFmul
  with_reducible apply staysReply_done
  with_reducible apply laneStep_stays
  assumption
  with_reducible assumption
  intro x1
  with_reducible apply floatOp_stays

theorem execFneg_stays {s : State} (hM : MemOk M) (h : Stays q n M s) {a0 a1} : StaysReply q n M (execFneg a0 a1 s) := by
  unfold execFneg
  with_reducible apply staysReply_done
  with_reducible apply laneStep_stays
  assumption
  with_reducible assumption
  intro x1
  with_reducible apply floatOp_stays

theorem execFrcp_stays {s : State} (hM : MemOk M) (h : Stays q n M s) {a0 a1} : StaysReply q n M (execFrcp a0 a1 s) := by
  unfold execFrcp
  with_reducible apply staysReply_done
  with_reducible apply laneStep_stays
  assumption
  with_reducible assumption
  intro x1
  with_reducible apply floatOp_stays

theorem execFrnd_stays {s : State} (hM : MemOk M) (h : Stays q n M s) {a0 a1} : StaysReply q n M (execFrnd a0 a1 s) := by
  unfold execFrnd
  with_reducible apply staysReply_done
  with_reducible apply laneStep_stays
  assumption
  with_reducible assumption
  intro x1
  with_reducible apply floatOp_stays

theorem execFrsqrt_stays {s : State} (hM : MemOk M) (h : Stays q n M s) {a0 a1} : StaysReply q n M (execFrsqrt a0 a1 s) := by
  unfold execFrsqrt
  with_reducible apply staysReply_done
  with_reducible apply laneStep_stays
  assumption
  with_reducible assumption
  intro x1
  with_reducible apply floatOp_stays

theorem execFsel_stays {s : State} (hM : MemOk M) (h : Stays q n M s) {a0 a1} : StaysReply q n M (execFsel a0 a1 s) := by
  unfold execFsel
  with_reducible apply staysReply_done
  with_reducible apply laneStep_stays
  assumption
  with_reducible assumption
  intro x1
  with_reducible apply staysMM_pure

theorem execFsigm_stays {s : State} (hM : MemOk M) (h : Stays q n M s) {a0 a1} : StaysReply q n M (execFsigm a0 a1 s) := by
  unfold execFsigm
  with_reducible apply staysReply_done
  with_reducible apply laneStep_stays
  assumption
  with_reducible assumption
  intro x1
  with_reducible apply floatOp_stays

theorem execFsqrt_stays {s : State} (hM : MemOk M) (h : Stays q n M s) {a0 a1} : StaysReply q n M (execFsqrt a0 a1 s) := by
  unfold execFsqrt
  with_reducible apply staysReply_done
  with_reducible apply laneStep_stays
  assumption
  with_reducible assumption
  intro x1
  with_reducible apply floatOp_stays

theorem execFsub_stays {s : State} (hM : MemOk M) (h : Stays q n M s) {a0 a1} : StaysReply q n M (execFsub a0 a1 s) := by
  unfold execFsub
  with_reducible apply staysReply_done
  with_reducible apply laneStep_stays
  assumption
  with_reducible assumption
  intro x1
  with_reducible apply floatOp_stays

theorem execFtanh_stays {s : State} (hM : MemOk M) (h : Stays q n M s) {a0 a1} : StaysReply q n M (execFtanh a0 a1 s) := by
  unfold execFtanh
  with_reducible apply staysReply_done
  with_reducible apply laneStep_stays
  assumption
  with_reducible assumption
  intro x1
  with_reducible apply floatOp_stays

theorem wordOp_stays {a0 a1} : StaysMM q n M (wordOp a0 a1) := by
  unfold wordOp
  with_reducible apply staysMM_pure

theorem execIadd_stays {s : State} (hM : MemOk M) (h : Stays q n M s) {a0 a1} : StaysReply q n M (execIadd a0 a1 s) := by
  unfold execIadd
  with_reducible apply staysReply_done
  with_reducible apply laneStep_stays
  assumption
  with_reducible assumption
  intro x1
  with_reducible apply wordOp_stays

theorem execIand_stays {s : State} (hM : MemOk M) (h : Stays q n M s) {a0 a1} : StaysReply q n M (execIand a0 a1 s) := by
  unfold execIand
  with_reducible apply staysReply_done
  with_reducible apply laneStep_stays
  assumption
  with_reducible assumption
  intro x1
  with_reducible apply wordOp_stays

theorem execIor_stays {s : State} (hM : MemOk M) (h : Stays q n M s) {a0 a1} : StaysReply q n M (execIor a0 a1 s) := by
  unfold execIor
  with_reducible apply staysReply_done
  with_reducible apply laneStep_stays
  assumption
  with_reducible assumption
  intro x1
  with_reducible apply wordOp_stays

theorem execIshl_stays {s : State} (hM : MemOk M) (h : Stays q n M s) {a0 a1} : StaysReply q n M (execIshl a0 a1 s) := by
  unfold execIshl
  with_reducible apply staysReply_done
  with_reducible apply laneStep_stays
  assumption
  with_reducible assumption
  intro x1
  with_reducible apply wordOp_stays

theorem execIshr_stays {s : State} (hM : MemOk M) (h : Stays q n M s) {a0 a1} : StaysReply q n M (execIshr a0 a1 s) := by
  unfold execIshr
  with_reducible apply staysReply_done
  with_reducible apply laneStep_stays
  assumption
  with_reducible assumption
  intro x1
  with_reducible apply wordOp_stays

theorem execIxor_stays {s : State} (hM : MemOk M) (h : Stays q n M s) {a0 a1} : StaysReply q n M (execIxor a0 a1 s) := by
  unfold execIxor
  with_reducible apply staysReply_done
  with_reducible apply laneStep_stays
  assumption
  with_reducible assumption
  intro x1
  with_reducible apply wordOp_stays

theorem execLaneNop_stays {s : State} (hM : MemOk M) (h : Stays q n M s) {a0 a1} : StaysReply q n M (execLaneNop a0 a1 s) := by
  unfold execLaneNop
  with_reducible apply staysReply_done
  with_reducible apply laneStep_stays
  assumption
  with_reducible assumption
  intro x1
  with_reducible apply staysMM_pure

theorem execLaneProgram_stays {s : State} (h : Stays q n M s) : StaysReply q n M (execLaneProgram s) := by
  unfold execLaneProgram
  with_reducible apply staysReply_done
  with_reducible apply intakeWork_stays
  with_reducible assumption

theorem laneLoad_stays {a0} : StaysMM q n M (laneLoad a0) := by
  unfold laneLoad
  lift_lets
  intro t1; clear_value t1
  intro t2; clear_value t2
  intro t3; clear_value t3
  split
  with_reducible apply staysMM_pure
  lift_lets
  intro t4; clear_value t4
  with_reducible apply staysMM_bind
  with_reducible apply readRow_stays
  intro x5
  lift_lets
  intro t6; clear_value t6
  with_reducible apply staysMM_pure

theorem execLd_stays {s : State} (hM : MemOk M) (h : Stays q n M s) {a0 a1} : StaysReply q n M (execLd a0 a1 s) := by
  unfold execLd
  with_reducible apply staysReply_done
  with_reducible apply laneStep_stays
  assumption
  with_reducible assumption
  intro x1
  with_reducible apply laneLoad_stays

theorem execLdc_stays {s : State} (hM : MemOk M) (h : Stays q n M s) {a0 a1} : StaysReply q n M (execLdc a0 a1 s) := by
  unfold execLdc
  with_reducible apply staysReply_done
  with_reducible apply laneStep_stays
  assumption
  with_reducible assumption
  intro x1
  lift_lets
  intro t2; clear_value t2
  intro t3; clear_value t3
  with_reducible apply staysMM_pure

theorem execLid_stays {s : State} (hM : MemOk M) (h : Stays q n M s) {a0 a1} : StaysReply q n M (execLid a0 a1 s) := by
  unfold execLid
  with_reducible apply staysReply_done
  with_reducible apply laneStep_stays
  assumption
  with_reducible assumption
  intro x1
  with_reducible apply staysMM_pure

theorem execMov_stays {s : State} (hM : MemOk M) (h : Stays q n M s) {a0 a1} : StaysReply q n M (execMov a0 a1 s) := by
  unfold execMov
  with_reducible apply staysReply_done
  with_reducible apply laneStep_stays
  assumption
  with_reducible assumption
  intro x1
  with_reducible apply wordOp_stays

theorem execRdr_stays {s : State} (hM : MemOk M) (h : Stays q n M s) {a0 a1} : StaysReply q n M (execRdr a0 a1 s) := by
  unfold execRdr
  with_reducible apply staysReply_done
  with_reducible apply laneStep_stays
  assumption
  with_reducible assumption
  intro x1
  lift_lets
  intro t2; clear_value t2
  with_reducible apply staysMM_pure

theorem execRed_stays {s : State} (hM : MemOk M) (h : Stays q n M s) {a0 a1} : StaysReply q n M (execRed a0 a1 s) := by
  unfold execRed
  with_reducible apply staysReply_done
  with_reducible apply laneStep_stays
  assumption
  with_reducible assumption
  intro x1
  lift_lets
  intro t2; clear_value t2
  intro t3; clear_value t3
  intro t4; clear_value t4
  with_reducible apply staysMM_pure

theorem rowResult_stays {s : State} (hM : MemOk M) (h : Stays q n M s) {a1 a2 a3 a4 a5} : Stays q n M (rowResult s a1 a2 a3 a4 a5) := by
  unfold rowResult
  lift_lets
  intro t1; clear_value t1
  intro t2; clear_value t2
  intro t3; clear_value t3
  intro t4; clear_value t4
  intro t5; refine (have h5 : StaysMM q n M t5 := ?_; ?_) <;> [subst t5; clear_value t5]
  with_reducible apply staysMM_ite
  with_reducible apply staysMM_pure
  with_reducible apply writeBytes_stays
  assumption
  intro t6; clear_value t6
  split
  with_reducible apply rowFailed_stays
  with_reducible refine stays_of_snd (by assumption) ?_
  with_reducible apply runMM_stays
  with_reducible assumption
  with_reducible assumption
  lift_lets
  intro t7; refine (have h7 : Stays q n M t7 := ?_; ?_) <;> [subst t7; clear_value t7]
  with_reducible apply stays_ite
  with_reducible refine stays_of_snd (by assumption) ?_
  with_reducible apply runMM_stays
  with_reducible assumption
  with_reducible assumption
  with_reducible apply staleRange_stays
  with_reducible refine stays_of_snd (by assumption) ?_
  with_reducible apply runMM_stays
  with_reducible assumption
  with_reducible assumption
  with_reducible apply stays_ite
  with_reducible apply openApply_stays
  with_reducible assumption
  with_reducible apply stays_ite
  with_reducible apply rowDone_stays
  with_reducible assumption
  with_reducible apply setEngine_stays
  with_reducible assumption

theorem execReductionRowResult_stays {s : State} (hM : MemOk M) (h : Stays q n M s) {a0 a1 a2} : StaysReply q n M (execReductionRowResult a0 a1 a2 s) := by
  unfold execReductionRowResult
  with_reducible apply staysReply_done
  with_reducible apply onlyIf_stays
  with_reducible assumption
  intro x1
  intro x2
  split
  with_reducible assumption
  split
  with_reducible assumption
  with_reducible apply stays_ite
  with_reducible assumption
  with_reducible apply inClass_stays
  with_reducible assumption
  intro x3
  intro x4
  with_reducible apply withUpsets_stays
  assumption
  with_reducible assumption
  intro x5
  intro x6
  with_reducible apply engineRun_stays
  with_reducible assumption
  intro x7
  intro x8
  with_reducible apply rowResult_stays
  assumption
  with_reducible assumption

theorem execRnd_stays {s : State} (hM : MemOk M) (h : Stays q n M s) {a0 a1} : StaysReply q n M (execRnd a0 a1 s) := by
  unfold execRnd
  with_reducible apply staysReply_done
  with_reducible apply laneStep_stays
  assumption
  with_reducible assumption
  intro x1
  lift_lets
  intro t2; clear_value t2
  with_reducible apply staysMM_pure

theorem laneStore_stays (hM : MemOk M) {a0} : StaysMM q n M (laneStore a0) := by
  unfold laneStore
  lift_lets
  intro t1; clear_value t1
  intro t2; clear_value t2
  intro t3; clear_value t3
  intro t4; clear_value t4
  intro t5; clear_value t5
  intro t6; clear_value t6
  intro t7; clear_value t7
  split
  with_reducible apply staysMM_pure
  lift_lets
  intro t8; clear_value t8
  intro t9; clear_value t9
  intro t10; clear_value t10
  intro t11; refine (have h11 : ∀ y0, StaysMM q n M (t11 y0) := ?_; ?_) <;> [subst t11; clear_value t11]
  intro x12
  beta_reduce
  with_reducible apply staysMM_pure
  intro t13; clear_value t13
  intro t14; clear_value t14
  with_reducible apply staysMM_ite
  with_reducible apply staysMM_bind
  with_reducible apply writeBytes_stays
  assumption
  intro x15
  with_reducible apply staysMM_bind
  with_reducible apply writeBytes_stays
  assumption
  intro x16
  with_reducible apply staysMM_ite
  with_reducible apply staysMM_bind
  with_reducible apply writeBytes_stays
  assumption
  intro x17
  with_reducible apply h11
  with_reducible apply h11
  with_reducible apply staysMM_bind
  with_reducible apply writeBytes_stays
  assumption
  intro x18
  with_reducible apply staysMM_pure

theorem laneStale_stays {s : State} (h : Stays q n M s) {a1} : Stays q n M (laneStale s a1) := by
  unfold laneStale
  lift_lets
  intro t1; clear_value t1
  split
  with_reducible assumption
  with_reducible apply staleRange_stays
  with_reducible assumption

theorem execSt_stays {s : State} (hM : MemOk M) (h : Stays q n M s) {a0 a1} : StaysReply q n M (execSt a0 a1 s) := by
  unfold execSt
  with_reducible apply staysReply_done
  with_reducible apply laneStep_stays
  assumption
  with_reducible assumption
  intro x1
  with_reducible apply staysMM_bind
  with_reducible apply laneStore_stays
  assumption
  intro x2
  with_reducible apply staysMM_bind
  with_reducible apply staysMM_modify
  intro x3
  intro x4
  with_reducible apply laneStale_stays
  with_reducible assumption
  intro x5
  with_reducible apply staysMM_pure

end Sys2Proof.Machine
end

