-- ==== Sys2Proof/Laws/KeepsEnding.lean ====
section
/-!
SUPPORT. What each function of Machine/Ending.lean keeps of a state: the queue, the time, the form of the registers and a condition on memory (`Stays`).
-/
set_option Elab.async false
set_option linter.all false
set_option maxRecDepth 4000
namespace Sys2Proof.Machine
variable {q : List Instr} {n : Nat} {M : List Host.Cell → Prop}

theorem dropMat_stays {s : State} (h : Stays q n M s) {a1 a2} : Stays q n M (dropMat s a1 a2) := by
  unfold dropMat
  lift_lets
  intro t1; refine (have h1 : Stays q n M t1 := ?_; ?_) <;> [subst t1; clear_value t1]
  with_reducible apply stays_foldl
  with_reducible assumption
  intro x2
  intro x3
  intro x4
  with_reducible apply dropTile_stays
  with_reducible assumption
  intro t5; clear_value t5
  with_reducible apply stays_mk
  with_reducible assumption

theorem dropLanes_stays {s : State} (h : Stays q n M s) {a1 a2} : Stays q n M (dropLanes s a1 a2) := by
  unfold dropLanes
  lift_lets
  intro t1; refine (have h1 : Stays q n M t1 := ?_; ?_) <;> [subst t1; clear_value t1]
  with_reducible apply stays_foldl
  with_reducible assumption
  intro x2
  intro x3
  intro x4
  with_reducible apply setEngine_stays
  with_reducible assumption
  intro t5; clear_value t5
  with_reducible apply stays_mk
  with_reducible assumption

theorem dropUpdate_stays {s : State} (h : Stays q n M s) {a1 a2} : Stays q n M (dropUpdate s a1 a2) := by
  unfold dropUpdate
  lift_lets
  intro t1; clear_value t1
  with_reducible apply freeEntries_stays
  with_reducible apply stays_mk
  with_reducible assumption

theorem dropRebuild_stays {s : State} (h : Stays q n M s) {a1 a2} : Stays q n M (dropRebuild s a1 a2) := by
  unfold dropRebuild
  lift_lets
  intro t1; clear_value t1
  with_reducible apply stays_ite
  with_reducible apply stays_mk
  with_reducible assumption
  with_reducible assumption

theorem dropWork_stays {s : State} (h : Stays q n M s) {a1 a2} : Stays q n M (dropWork s a1 a2) := by
  unfold dropWork
  lift_lets
  intro t1; clear_value t1
  intro t2; clear_value t2
  intro t3; clear_value t3
  with_reducible apply stays_ite
  with_reducible apply dropMat_stays
  with_reducible assumption
  with_reducible apply stays_ite
  with_reducible apply dropLanes_stays
  with_reducible assumption
  with_reducible apply stays_ite
  with_reducible apply dropUpdate_stays
  with_reducible assumption
  with_reducible apply stays_ite
  split
  with_reducible apply dropExch_stays
  with_reducible apply stays_ite
  with_reducible apply embTellStop_stays
  with_reducible assumption
  with_reducible assumption
  with_reducible assumption
  with_reducible apply stays_ite
  with_reducible apply dropRelay_stays
  with_reducible assumption
  with_reducible apply stays_ite
  with_reducible apply dropFerry_stays
  with_reducible assumption
  with_reducible apply stays_ite
  with_reducible apply commitStop_stays
  with_reducible assumption
  with_reducible apply stays_ite
  with_reducible apply dropRebuild_stays
  with_reducible assumption
  with_reducible assumption

theorem cutCommand_stays {s : State} (h : Stays q n M s) {a1 a2 a3 a4} : Stays q n M (cutCommand s a1 a2 a3 a4) := by
  unfold cutCommand
  lift_lets
  intro t1; clear_value t1
  intro t2; refine (have h2 : Stays q n M t2 := ?_; ?_) <;> [subst t2; clear_value t2]
  with_reducible apply stays_ite
  with_reducible apply dropWork_stays
  with_reducible assumption
  with_reducible assumption
  with_reducible apply haltAt_stays
  with_reducible apply endCmd_stays
  with_reducible assumption

theorem execStandIn_stays {s : State} (h : Stays q n M s) : StaysReply q n M (execStandIn s) := by
  unfold execStandIn
  with_reducible apply staysReply_done
  with_reducible apply intakeWork_stays
  with_reducible assumption

theorem standInBegin_stays {s : State} (h : Stays q n M s) {a1 a2 a3} : Stays q n M (standInBegin s a1 a2 a3) := by
  unfold standInBegin
  lift_lets
  intro t1; clear_value t1
  intro t2; clear_value t2
  intro t3; clear_value t3
  intro t4; refine (have h4 : Stays q n M t4 := ?_; ?_) <;> [subst t4; clear_value t4]
  with_reducible apply stays_mk
  with_reducible assumption
  intro t5; clear_value t5
  with_reducible apply stays_ite
  with_reducible apply endCmd_stays
  with_reducible assumption
  split
  lift_lets
  intro t6; clear_value t6
  intro t7; refine (have h7 : Stays q n M t7 := ?_; ?_) <;> [subst t7; clear_value t7]
  with_reducible apply stays_mk
  with_reducible assumption
  intro t8; refine (have h8 : Stays q n M t8 := ?_; ?_) <;> [subst t8; clear_value t8]
  with_reducible apply setF_stays
  with_reducible apply resetReg_stays
  with_reducible assumption
  with_reducible apply stays_ite
  with_reducible apply endCmd_stays
  with_reducible assumption
  with_reducible apply askStreams_stays
  with_reducible assumption

end Sys2Proof.Machine
end

