-- ==== Sys2Proof/Laws/KeepsFence.lean ====
section
/-!
SUPPORT. What each function of Machine/Fence.lean keeps of a state: the queue, the time, the form of the registers and a condition on memory (`Stays`).
-/
set_option Elab.async false
set_option linter.all false
set_option maxRecDepth 4000
namespace Sys2Proof.Machine
variable {q : List Instr} {n : Nat} {M : List Host.Cell → Prop}

theorem wipeRange_stays {s : State} (hM : MemOk M) (h : Stays q n M s) {a1 a2} : Stays q n M (wipeRange s a1 a2) := by
  exact ⟨h.1, h.2, hM.filter _ _ h.3, h.4⟩

theorem spoilRange_stays {s : State} (hM : MemOk M) (h : Stays q n M s) {a1 a2} : Stays q n M (spoilRange s a1 a2) := by
  unfold spoilRange
  lift_lets
  intro t1; refine (have h1 : Stays q n M t1 := ?_; ?_) <;> [subst t1; clear_value t1]
  with_reducible apply wipeRange_stays
  assumption
  with_reducible assumption
  intro t2; clear_value t2
  with_reducible apply stays_mk
  with_reducible assumption

theorem setLinkState_stays {s : State} (h : Stays q n M s) {a1 a2} : Stays q n M (setLinkState s a1 a2) := by
  unfold setLinkState
  with_reducible apply setF_stays
  with_reducible apply setF_stays
  with_reducible assumption

theorem recordLinks_stays {s : State} (h : Stays q n M s) {a1} : Stays q n M (recordLinks s a1) := by
  unfold recordLinks
  lift_lets
  intro t1; clear_value t1
  with_reducible apply stays_mk
  with_reducible assumption

theorem cutStreams_stays {s : State} (h : Stays q n M s) {a1 a2 a3 a4} : Stays q n M (cutStreams s a1 a2 a3 a4) := by
  unfold cutStreams
  with_reducible apply stays_foldl
  with_reducible assumption
  intro x1
  intro x2
  intro x3
  lift_lets
  intro t4; refine (have h4 : Stays q n M t4 := ?_; ?_) <;> [subst t4; clear_value t4]
  with_reducible apply stays_foldl
  with_reducible assumption
  intro x5
  intro x6
  intro x7
  with_reducible apply cutCommand_stays
  with_reducible assumption
  intro t8; clear_value t8
  with_reducible apply setStream_stays
  with_reducible assumption

theorem fenceMark_stays {s : State} (h : Stays q n M s) {a1} : Stays q n M (fenceMark s a1) := by
  unfold fenceMark
  lift_lets
  intro t1; refine (have h1 : Stays q n M t1 := ?_; ?_) <;> [subst t1; clear_value t1]
  with_reducible apply setLinkState_stays
  with_reducible assumption
  intro t2; refine (have h2 : Stays q n M t2 := ?_; ?_) <;> [subst t2; clear_value t2]
  with_reducible apply stays_mk
  with_reducible assumption
  intro t3; refine (have h3 : Stays q n M t3 := ?_; ?_) <;> [subst t3; clear_value t3]
  with_reducible apply setBitF_stays
  with_reducible assumption
  intro t4; refine (have h4 : Stays q n M t4 := ?_; ?_) <;> [subst t4; clear_value t4]
  with_reducible apply stays_foldl
  with_reducible assumption
  intro x5
  intro x6
  intro x7
  with_reducible apply setBitF_stays
  with_reducible apply setPd_stays
  with_reducible assumption
  intro t8; refine (have h8 : Stays q n M t8 := ?_; ?_) <;> [subst t8; clear_value t8]
  with_reducible apply resetReg_stays
  with_reducible apply resetReg_stays
  with_reducible assumption
  intro t9; refine (have h9 : Stays q n M t9 := ?_; ?_) <;> [subst t9; clear_value t9]
  with_reducible apply recordLinks_stays
  with_reducible assumption
  with_reducible apply tellBluvisen_stays
  with_reducible apply noteAt_stays
  with_reducible assumption

theorem redealTiles_stays {s : State} (h : Stays q n M s) {a1} : Stays q n M (redealTiles s a1) := by
  unfold redealTiles
  lift_lets
  intro t1; clear_value t1
  intro t2; clear_value t2
  intro t3; refine (have h3 : Stays q n M t3 := ?_; ?_) <;> [subst t3; clear_value t3]
  with_reducible apply stays_foldl
  with_reducible assumption
  intro x4
  intro x5
  intro x6
  with_reducible apply dropTile_stays
  with_reducible assumption
  intro t7; clear_value t7
  intro t8; refine (have h8 : Stays q n M t8 := ?_; ?_) <;> [subst t8; clear_value t8]
  with_reducible apply stays_mk
  with_reducible assumption
  with_reducible apply stays_foldl
  with_reducible assumption
  intro x9
  intro x10
  intro x11
  with_reducible apply redealArray_stays
  with_reducible assumption

theorem stepNotClean_stays {s : State} (h : Stays q n M s) : Stays q n M (stepNotClean s) := by
  unfold stepNotClean
  lift_lets
  intro t1; clear_value t1
  with_reducible apply stays_ite
  with_reducible apply stays_mk
  with_reducible assumption
  with_reducible assumption

theorem fenceCompute_stays {s : State} (hM : MemOk M) (h : Stays q n M s) {a1} : Stays q n M (fenceCompute s a1) := by
  unfold fenceCompute
  lift_lets
  intro t1; clear_value t1
  intro t2; refine (have h2 : Stays q n M t2 := ?_; ?_) <;> [subst t2; clear_value t2]
  with_reducible apply cutStreams_stays
  with_reducible apply fenceMark_stays
  with_reducible assumption
  intro t3; refine (have h3 : Stays q n M t3 := ?_; ?_) <;> [subst t3; clear_value t3]
  with_reducible apply redealTiles_stays
  with_reducible assumption
  intro t4; refine (have h4 : Stays q n M t4 := ?_; ?_) <;> [subst t4; clear_value t4]
  with_reducible apply stays_foldl
  with_reducible assumption
  intro x5
  intro x6
  intro x7
  with_reducible apply redealWork_stays
  with_reducible assumption
  intro t8; clear_value t8
  intro t9; refine (have h9 : Stays q n M t9 := ?_; ?_) <;> [subst t9; clear_value t9]
  with_reducible apply stays_mk
  with_reducible assumption
  intro t10; refine (have h10 : Stays q n M t10 := ?_; ?_) <;> [subst t10; clear_value t10]
  with_reducible apply setF_stays
  with_reducible assumption
  intro t11; refine (have h11 : Stays q n M t11 := ?_; ?_) <;> [subst t11; clear_value t11]
  with_reducible apply wipeRange_stays
  assumption
  with_reducible assumption
  intro t12; refine (have h12 : Stays q n M t12 := ?_; ?_) <;> [subst t12; clear_value t12]
  with_reducible apply stays_foldl
  with_reducible assumption
  intro x13
  intro x14
  intro x15
  lift_lets
  intro t16; clear_value t16
  with_reducible apply setStream_stays
  with_reducible assumption
  with_reducible apply stepNotClean_stays
  with_reducible assumption

theorem fenceRose_stays {s : State} (h : Stays q n M s) {a1} : Stays q n M (fenceRose s a1) := by
  unfold fenceRose
  with_reducible apply stays_foldl
  with_reducible apply fenceMark_stays
  with_reducible assumption
  intro x1
  intro x2
  intro x3
  with_reducible apply setPortState_stays
  with_reducible assumption

theorem fenceDie_stays {s : State} (hM : MemOk M) (h : Stays q n M s) {a1} : Stays q n M (fenceDie s a1) := by
  unfold fenceDie
  with_reducible apply stays_ite
  with_reducible assumption
  with_reducible apply stays_ite
  with_reducible apply fenceCompute_stays
  assumption
  with_reducible assumption
  with_reducible apply fenceRose_stays
  with_reducible assumption

theorem restartEngine_stays {s : State} (h : Stays q n M s) {a1 a2} : Stays q n M (restartEngine s a1 a2) := by
  unfold restartEngine
  lift_lets
  intro t1; clear_value t1
  intro t2; clear_value t2
  intro t3; clear_value t3
  with_reducible apply stays_ite
  with_reducible apply setBitF_stays
  with_reducible apply stays_mk
  with_reducible assumption
  with_reducible apply stays_ite
  with_reducible apply setBitF_stays
  with_reducible apply stays_mk
  with_reducible assumption
  with_reducible assumption

theorem resetDie_stays {s : State} (hM : MemOk M) (h : Stays q n M s) {a1} : Stays q n M (resetDie s a1) := by
  unfold resetDie
  lift_lets
  intro t1; refine (have h1 : Stays q n M t1 := ?_; ?_) <;> [subst t1; clear_value t1]
  with_reducible apply cutStreams_stays
  with_reducible assumption
  intro t2; refine (have h2 : Stays q n M t2 := ?_; ?_) <;> [subst t2; clear_value t2]
  with_reducible apply redealTiles_stays
  with_reducible assumption
  intro t3; refine (have h3 : Stays q n M t3 := ?_; ?_) <;> [subst t3; clear_value t3]
  with_reducible apply stays_foldl
  with_reducible assumption
  intro x4
  intro x5
  intro x6
  with_reducible apply restartEngine_stays
  with_reducible assumption
  intro t7; clear_value t7
  intro t8; refine (have h8 : Stays q n M t8 := ?_; ?_) <;> [subst t8; clear_value t8]
  with_reducible apply stays_mk
  with_reducible assumption
  with_reducible apply stepNotClean_stays
  with_reducible apply spoilRange_stays
  assumption
  with_reducible assumption

theorem dieRung_stays {s : State} (hM : MemOk M) (h : Stays q n M s) {a1} : Stays q n M (dieRung s a1) := by
  unfold dieRung
  lift_lets
  intro t1; clear_value t1
  intro t2; clear_value t2
  intro t3; refine (have h3 : Stays q n M t3 := ?_; ?_) <;> [subst t3; clear_value t3]
  with_reducible apply stays_mk
  with_reducible assumption
  intro t4; refine (have h4 : Stays q n M t4 := ?_; ?_) <;> [subst t4; clear_value t4]
  with_reducible apply ladderRung_stays
  with_reducible assumption
  intro t5; refine (have h5 : Stays q n M t5 := ?_; ?_) <;> [subst t5; clear_value t5]
  with_reducible apply noteAt_stays
  with_reducible assumption
  with_reducible apply stays_ite
  with_reducible assumption
  with_reducible apply stays_ite
  with_reducible apply resetDie_stays
  assumption
  with_reducible assumption
  with_reducible apply fenceDie_stays
  assumption
  with_reducible assumption

end Sys2Proof.Machine
end

