-- ==== Sys2Proof/Laws/KeepsLantern.lean ====
section
/-!
SUPPORT. What each function of Machine/Lantern.lean keeps of a state: the queue, the time, the form of the registers and a condition on memory (`Stays`).
-/
set_option Elab.async false
set_option linter.all false
set_option maxRecDepth 4000
namespace Sys2Proof.Machine
variable {q : List Instr} {n : Nat} {M : List Host.Cell → Prop}

theorem showFeed_stays {s : State} (h : Stays q n M s) {a1} : Stays q n M (showFeed s a1) := by
  unfold showFeed
  with_reducible apply stays_foldl
  with_reducible assumption
  intro x1
  intro x2
  intro x3
  lift_lets
  intro t4; refine (have h4 : Stays q n M t4 := ?_; ?_) <;> [subst t4; clear_value t4]
  with_reducible apply setF_stays
  with_reducible assumption
  with_reducible apply setF_stays
  with_reducible apply setF_stays
  with_reducible assumption

theorem sweepFailed_stays {s : State} (h : Stays q n M s) {a1} : Stays q n M (sweepFailed s a1) := by
  unfold sweepFailed
  lift_lets
  intro t1; refine (have h1 : Stays q n M t1 := ?_; ?_) <;> [subst t1; clear_value t1]
  with_reducible apply incF_stays
  with_reducible assumption
  intro t2; refine (have h2 : Stays q n M t2 := ?_; ?_) <;> [subst t2; clear_value t2]
  with_reducible apply modRing_stays
  with_reducible assumption
  with_reducible apply noteAt_stays
  with_reducible assumption

theorem busWatch_stays {s : State} (h : Stays q n M s) : Stays q n M (busWatch s) := by
  unfold busWatch
  lift_lets
  intro t1; clear_value t1
  with_reducible apply stays_ite
  with_reducible apply send_stays
  with_reducible apply stays_mk
  with_reducible assumption
  with_reducible assumption

theorem modLine_stays {s : State} (h : Stays q n M s) {a1 a2} : Stays q n M (modLine s a1 a2) := by
  unfold modLine
  lift_lets
  intro t1; clear_value t1
  with_reducible apply stays_mk
  with_reducible assumption

theorem setActed_stays {s : State} (h : Stays q n M s) {a1 a2} : Stays q n M (setActed s a1 a2) := by
  unfold setActed
  with_reducible apply setF_stays
  with_reducible apply modLine_stays
  with_reducible assumption

theorem threshold_stays {s : State} (h : Stays q n M s) {a1 a2 a3} : Stays q n M (threshold s a1 a2 a3).2 := by
  unfold threshold
  lift_lets
  intro t1; clear_value t1
  intro t2; clear_value t2
  with_reducible apply stays_ite_snd
  dsimp only
  with_reducible apply setActed_stays
  with_reducible assumption
  with_reducible apply stays_ite_snd
  dsimp only
  with_reducible apply setActed_stays
  with_reducible assumption
  dsimp only
  with_reducible assumption

theorem showSched_stays {s : State} (h : Stays q n M s) {a1} : Stays q n M (showSched s a1) := by
  unfold showSched
  with_reducible apply setF_stays
  with_reducible assumption

theorem spareFails_stays {s : State} (h : Stays q n M s) {a1} : Stays q n M (spareFails s a1) := by
  unfold spareFails
  with_reducible apply showSched_stays
  with_reducible apply tellBluvisen_stays
  with_reducible apply noteAt_stays
  with_reducible apply modLine_stays
  with_reducible assumption

theorem lanternWrite_stays {s : State} (h : Stays q n M s) {a1 a2} : Stays q n M (lanternWrite s a1 a2) := by
  unfold lanternWrite
  with_reducible apply send_stays
  with_reducible assumption

theorem warmSpare_stays {s : State} (h : Stays q n M s) {a1} : Stays q n M (warmSpare s a1) := by
  unfold warmSpare
  lift_lets
  intro t1; refine (have h1 : Stays q n M t1 := ?_; ?_) <;> [subst t1; clear_value t1]
  with_reducible apply setF_stays
  with_reducible apply lanternWrite_stays
  with_reducible assumption
  with_reducible apply stays_ite
  with_reducible apply modLine_stays
  with_reducible assumption
  with_reducible assumption

theorem askSpare_stays {s : State} (h : Stays q n M s) {a1 a2} : Stays q n M (askSpare s a1 a2) := by
  unfold askSpare
  with_reducible apply stays_ite
  with_reducible apply spareFails_stays
  with_reducible assumption
  split
  with_reducible apply stays_ite
  with_reducible apply showSched_stays
  with_reducible apply warmSpare_stays
  with_reducible apply modLine_stays
  with_reducible assumption
  with_reducible assumption
  with_reducible apply showSched_stays
  with_reducible apply warmSpare_stays
  with_reducible apply modLine_stays
  with_reducible assumption

theorem fadeWatch_stays {s : State} (h : Stays q n M s) {a1} : Stays q n M (fadeWatch s a1) := by
  unfold fadeWatch
  lift_lets
  intro t1; clear_value t1
  intro t2; clear_value t2
  intro t3; refine (have h3 : Stays q n M t3 := ?_; ?_) <;> [subst t3; clear_value t3]
  with_reducible apply modLine_stays
  with_reducible assumption
  with_reducible apply stays_ite
  with_reducible assumption
  split
  lift_lets
  intro t4; refine (have h4 : Stays q n M t4 := ?_; ?_) <;> [subst t4; clear_value t4]
  with_reducible apply stays_ite
  with_reducible apply noteAt_stays
  with_reducible refine stays_of_snd (by assumption) ?_
  with_reducible apply threshold_stays
  with_reducible assumption
  with_reducible refine stays_of_snd (by assumption) ?_
  with_reducible apply threshold_stays
  with_reducible assumption
  split
  with_reducible apply stays_ite
  with_reducible apply tellBluvisen_stays
  with_reducible apply noteAt_stays
  with_reducible apply askSpare_stays
  with_reducible refine stays_of_snd (by assumption) ?_
  with_reducible apply threshold_stays
  with_reducible assumption
  with_reducible refine stays_of_snd (by assumption) ?_
  with_reducible apply threshold_stays
  with_reducible assumption

theorem feedWatch_stays {s : State} (h : Stays q n M s) : Stays q n M (feedWatch s) := by
  unfold feedWatch
  lift_lets
  intro t1; refine (have h1 : Stays q n M t1 := ?_; ?_) <;> [subst t1; clear_value t1]
  with_reducible apply stays_ite
  with_reducible assumption
  with_reducible apply stays_foldl
  with_reducible assumption
  intro x2
  intro x3
  intro x4
  with_reducible apply setF_stays
  with_reducible assumption
  intro t5; clear_value t5
  intro t6; refine (have h6 : Stays q n M t6 := ?_; ?_) <;> [subst t6; clear_value t6]
  with_reducible apply stays_mk
  with_reducible assumption
  with_reducible apply stays_ite
  with_reducible apply stays_foldl
  with_reducible assumption
  intro x7
  intro x8
  intro x9
  with_reducible apply fadeWatch_stays
  with_reducible assumption
  with_reducible assumption

theorem fadeBeat_stays {s : State} (h : Stays q n M s) {a1 a2} : Stays q n M (fadeBeat s a1 a2) := by
  unfold fadeBeat
  lift_lets
  intro t1; refine (have h1 : Stays q n M t1 := ?_; ?_) <;> [subst t1; clear_value t1]
  with_reducible apply modLine_stays
  with_reducible assumption
  intro t2; clear_value t2
  with_reducible apply stays_ite
  with_reducible assumption
  split
  with_reducible apply stays_ite
  with_reducible apply askSpare_stays
  with_reducible refine stays_of_snd (by assumption) ?_
  with_reducible apply threshold_stays
  with_reducible assumption
  with_reducible refine stays_of_snd (by assumption) ?_
  with_reducible apply threshold_stays
  with_reducible assumption

theorem lineBeat_stays {s : State} (h : Stays q n M s) {a1 a2} : Stays q n M (lineBeat s a1 a2) := by
  unfold lineBeat
  lift_lets
  intro t1; clear_value t1
  intro t2; clear_value t2
  intro t3; clear_value t3
  intro t4; refine (have h4 : Stays q n M t4 := ?_; ?_) <;> [subst t4; clear_value t4]
  with_reducible apply stays_foldl
  with_reducible assumption
  intro x5
  intro x6
  intro x7
  lift_lets
  intro t8; clear_value t8
  intro t9; clear_value t9
  intro t10; refine (have h10 : Stays q n M t10 := ?_; ?_) <;> [subst t10; clear_value t10]
  with_reducible apply setF_stays
  with_reducible apply setF_stays
  with_reducible assumption
  with_reducible apply stays_ite
  with_reducible apply noteAt_stays
  with_reducible assumption
  with_reducible assumption
  with_reducible apply stays_ite
  with_reducible assumption
  with_reducible apply fadeBeat_stays
  with_reducible assumption

theorem recordFeeds_stays {s : State} (h : Stays q n M s) {a1} : Stays q n M (recordFeeds s a1) := by
  unfold recordFeeds
  lift_lets
  intro t1; clear_value t1
  intro t2; clear_value t2
  intro t3; clear_value t3
  intro t4; refine (have h4 : Stays q n M t4 := ?_; ?_) <;> [subst t4; clear_value t4]
  with_reducible apply showFeed_stays
  with_reducible apply stays_mk
  with_reducible assumption
  with_reducible apply stays_foldl
  with_reducible assumption
  intro x5
  intro x6
  intro x7
  with_reducible apply setF_stays
  with_reducible apply modLine_stays
  with_reducible assumption

theorem armSpare_stays {s : State} (h : Stays q n M s) {a1 a2} : Stays q n M (armSpare s a1 a2) := by
  unfold armSpare
  lift_lets
  intro t1
  intro t2; refine (have h2 : Stays q n M t2 := ?_; ?_) <;> [subst t2; clear_value t2]
  with_reducible apply lanternWrite_stays
  with_reducible assumption
  intro t3; refine (have h3 : Stays q n M t3 := ?_; ?_) <;> [subst t3; clear_value t3]
  with_reducible apply stays_foldl
  with_reducible assumption
  intro x4
  intro x5
  intro x6
  with_reducible apply stays_ite
  with_reducible apply sendHold_stays
  with_reducible assumption
  with_reducible assumption
  with_reducible apply showSched_stays
  with_reducible apply modLine_stays
  with_reducible assumption

theorem setSpareBeat_stays {s : State} (h : Stays q n M s) {a1 a2} : Stays q n M (setSpareBeat s a1 a2) := by
  unfold setSpareBeat
  with_reducible apply stays_ite
  with_reducible apply armSpare_stays
  with_reducible assumption
  with_reducible apply showSched_stays
  with_reducible apply modLine_stays
  with_reducible assumption

theorem spareBeat_stays {s : State} (h : Stays q n M s) {a1} : Stays q n M (spareBeat s a1) := by
  unfold spareBeat
  split
  with_reducible assumption
  with_reducible apply stays_ite
  with_reducible assumption
  with_reducible apply stays_ite
  with_reducible apply showSched_stays
  with_reducible apply modLine_stays
  with_reducible assumption
  with_reducible apply stays_ite
  with_reducible apply spareFails_stays
  with_reducible assumption
  with_reducible apply stays_ite
  with_reducible apply warmSpare_stays
  with_reducible assumption
  with_reducible apply stays_ite
  with_reducible apply spareFails_stays
  with_reducible assumption
  split
  with_reducible apply stays_ite
  with_reducible assumption
  with_reducible apply stays_ite
  with_reducible apply setSpareBeat_stays
  with_reducible assumption
  split
  with_reducible apply setSpareBeat_stays
  with_reducible assumption
  with_reducible assumption
  lift_lets
  intro t1; clear_value t1
  with_reducible apply stays_ite
  with_reducible assumption
  with_reducible apply stays_ite
  with_reducible apply armSpare_stays
  with_reducible assumption
  with_reducible apply stays_ite
  with_reducible assumption
  with_reducible apply showSched_stays
  with_reducible apply modLine_stays
  with_reducible assumption

theorem feedBeatStart_stays {s : State} (h : Stays q n M s) {a1 a2} : Stays q n M (feedBeatStart s a1 a2) := by
  unfold feedBeatStart
  lift_lets
  intro t1; refine (have h1 : Stays q n M t1 := ?_; ?_) <;> [subst t1; clear_value t1]
  with_reducible apply stays_ite
  with_reducible apply busWatch_stays
  with_reducible apply feedWatch_stays
  with_reducible assumption
  with_reducible assumption
  intro t2; clear_value t2
  intro t3; clear_value t3
  intro t4; refine (have h4 : Stays q n M t4 := ?_; ?_) <;> [subst t4; clear_value t4]
  with_reducible apply stays_mk
  with_reducible assumption
  intro t5; refine (have h5 : Stays q n M t5 := ?_; ?_) <;> [subst t5; clear_value t5]
  with_reducible apply stays_ite
  with_reducible apply stays_foldl
  with_reducible assumption
  intro x6
  intro x7
  intro x8
  with_reducible apply lineBeat_stays
  with_reducible assumption
  with_reducible assumption
  intro t9; refine (have h9 : Stays q n M t9 := ?_; ?_) <;> [subst t9; clear_value t9]
  with_reducible apply stays_ite
  with_reducible apply feedWatch_stays
  with_reducible assumption
  with_reducible assumption
  intro t10; refine (have h10 : Stays q n M t10 := ?_; ?_) <;> [subst t10; clear_value t10]
  with_reducible apply stays_ite
  with_reducible assumption
  with_reducible apply stays_ite
  with_reducible apply recordFeeds_stays
  with_reducible assumption
  with_reducible assumption
  with_reducible apply stays_foldl
  with_reducible assumption
  intro x11
  intro x12
  intro x13
  with_reducible apply spareBeat_stays
  with_reducible assumption

theorem bearingBeat_stays {s : State} (h : Stays q n M s) {a1} : Stays q n M (bearingBeat s a1) := by
  unfold bearingBeat
  with_reducible apply stays_foldl
  with_reducible assumption
  intro x1
  intro x2
  intro x3
  lift_lets
  intro t4; refine (have h4 : Stays q n M t4 := ?_; ?_) <;> [subst t4; clear_value t4]
  with_reducible apply modRing_stays
  with_reducible apply misbear_stays
  with_reducible assumption
  with_reducible apply stays_ite
  with_reducible apply stays_ite
  with_reducible apply takeWaveOut_stays
  with_reducible assumption
  with_reducible assumption
  with_reducible assumption

theorem stopRelocks_stays {s : State} (h : Stays q n M s) : Stays q n M (stopRelocks s) := by
  unfold stopRelocks
  with_reducible apply stays_foldl
  with_reducible assumption
  intro x1
  intro x2
  intro x3
  with_reducible apply stays_ite
  with_reducible apply modRing_stays
  with_reducible assumption
  with_reducible assumption

theorem markVerify_stays {s : State} (h : Stays q n M s) {a1} : Stays q n M (markVerify s a1) := by
  unfold markVerify
  with_reducible apply stays_ite
  with_reducible apply modRing_stays
  with_reducible assumption
  with_reducible assumption

theorem verifyDirection_stays {s : State} (h : Stays q n M s) {a1 a2 a3} : Stays q n M (verifyDirection s a1 a2 a3) := by
  unfold verifyDirection
  lift_lets
  intro t1; clear_value t1
  with_reducible apply stays_ite
  with_reducible assumption
  with_reducible apply stays_ite
  with_reducible apply markVerify_stays
  with_reducible assumption
  with_reducible apply stays_ite
  with_reducible apply markVerify_stays
  with_reducible assumption
  split
  with_reducible apply stays_ite
  with_reducible apply markVerify_stays
  with_reducible apply askChange_stays
  with_reducible assumption
  with_reducible assumption
  with_reducible assumption

theorem startVerify_stays {s : State} (h : Stays q n M s) : Stays q n M (startVerify s) := by
  unfold startVerify
  lift_lets
  intro t1; clear_value t1
  with_reducible apply stays_ite
  with_reducible assumption
  with_reducible apply stays_foldl
  with_reducible assumption
  intro x2
  intro x3
  intro x4
  lift_lets
  intro t5; refine (have h5 : Stays q n M t5 := ?_; ?_) <;> [subst t5; clear_value t5]
  with_reducible apply stays_ite
  with_reducible apply verifyDirection_stays
  with_reducible apply verifyDirection_stays
  with_reducible assumption
  with_reducible assumption
  with_reducible apply stays_ite
  with_reducible apply markVerify_stays
  with_reducible assumption
  with_reducible assumption

theorem startRelocks_stays {s : State} (h : Stays q n M s) : Stays q n M (startRelocks s) := by
  unfold startRelocks
  with_reducible apply stays_ite
  with_reducible assumption
  with_reducible apply stays_foldl
  with_reducible assumption
  intro x1
  intro x2
  intro x3
  with_reducible apply stays_ite
  with_reducible apply modRing_stays
  with_reducible assumption
  with_reducible assumption

theorem sweepLocked_stays {s : State} (h : Stays q n M s) {a1 a2} : Stays q n M (sweepLocked s a1 a2) := by
  unfold sweepLocked
  with_reducible apply modRing_stays
  with_reducible assumption

theorem firstSweeps_stays {s : State} (h : Stays q n M s) : Stays q n M (firstSweeps s) := by
  unfold firstSweeps
  with_reducible apply stays_foldl
  with_reducible assumption
  intro x1
  intro x2
  intro x3
  with_reducible apply stays_foldl
  with_reducible assumption
  intro x4
  intro x5
  intro x6
  with_reducible apply modRing_stays
  with_reducible assumption

theorem lineAlert_stays {s : State} (h : Stays q n M s) {a1 a2} : Stays q n M (lineAlert s a1 a2) := by
  unfold lineAlert
  lift_lets
  intro t1; refine (have h1 : Stays q n M t1 := ?_; ?_) <;> [subst t1; clear_value t1]
  with_reducible apply modLine_stays
  with_reducible assumption
  intro t2; refine (have h2 : Stays q n M t2 := ?_; ?_) <;> [subst t2; clear_value t2]
  with_reducible apply setF_stays
  with_reducible assumption
  split
  with_reducible assumption
  with_reducible apply stays_ite
  with_reducible apply stays_ite
  with_reducible assumption
  with_reducible apply modLine_stays
  with_reducible apply lanternWrite_stays
  with_reducible assumption
  with_reducible apply stays_ite
  with_reducible apply spareFails_stays
  with_reducible assumption
  with_reducible apply stays_ite
  with_reducible apply setSpareBeat_stays
  with_reducible assumption
  with_reducible assumption

theorem execLanternAlert_stays {s : State} (h : Stays q n M s) {a0 a1} : StaysReply q n M (execLanternAlert a0 a1 s) := by
  unfold execLanternAlert
  with_reducible apply staysReply_done
  with_reducible apply onlyIf_stays
  with_reducible assumption
  intro x1
  intro x2
  lift_lets
  intro t3; refine (have h3 : Stays q n M t3 := ?_; ?_) <;> [subst t3; clear_value t3]
  with_reducible apply stays_ite
  with_reducible assumption
  with_reducible apply firstSweeps_stays
  with_reducible apply setF_stays
  with_reducible assumption
  intro t4; refine (have h4 : Stays q n M t4 := ?_; ?_) <;> [subst t4; clear_value t4]
  with_reducible apply setF_stays
  with_reducible apply lanternWrite_stays
  with_reducible assumption
  intro t5; clear_value t5
  intro t6; refine (have h6 : Stays q n M t6 := ?_; ?_) <;> [subst t6; clear_value t6]
  with_reducible apply stays_mk
  with_reducible assumption
  with_reducible apply stays_foldl
  with_reducible assumption
  intro x7
  intro x8
  intro x9
  with_reducible apply stays_ite
  with_reducible apply lineAlert_stays
  with_reducible assumption
  with_reducible assumption

theorem execLanternBusTimeout_stays {s : State} (h : Stays q n M s) : StaysReply q n M (execLanternBusTimeout s) := by
  unfold execLanternBusTimeout
  with_reducible apply staysReply_done
  with_reducible apply onlyIf_stays
  with_reducible assumption
  intro x1
  intro x2
  lift_lets
  intro t3; clear_value t3
  intro t4; refine (have h4 : Stays q n M t4 := ?_; ?_) <;> [subst t4; clear_value t4]
  with_reducible apply stays_mk
  with_reducible assumption
  with_reducible apply stays_ite
  with_reducible apply incF_stays
  with_reducible apply stays_mk
  with_reducible assumption
  with_reducible apply tellBluvisen_stays
  with_reducible apply noteAt_stays
  with_reducible apply setF_stays
  with_reducible assumption

theorem execLaserSpareIn_stays {s : State} (h : Stays q n M s) {a0} : StaysReply q n M (execLaserSpareIn a0 s) := by
  unfold execLaserSpareIn
  with_reducible apply staysReply_done
  split
  with_reducible assumption
  split
  with_reducible apply onlyIf_stays
  with_reducible assumption
  intro x1
  intro x2
  lift_lets
  intro t3; refine (have h3 : Stays q n M t3 := ?_; ?_) <;> [subst t3; clear_value t3]
  with_reducible apply lanternWrite_stays
  with_reducible assumption
  intro t4; refine (have h4 : Stays q n M t4 := ?_; ?_) <;> [subst t4; clear_value t4]
  with_reducible apply setF_stays
  with_reducible apply setF_stays
  with_reducible assumption
  with_reducible apply showSched_stays
  with_reducible apply modLine_stays
  with_reducible assumption
  with_reducible assumption

theorem execRingSweep_stays {s : State} (h : Stays q n M s) {a0 a1} : StaysReply q n M (execRingSweep a0 a1 s) := by
  unfold execRingSweep
  with_reducible apply staysReply_done
  with_reducible apply onlyIf_stays
  with_reducible assumption
  intro x1
  intro x2
  lift_lets
  intro t3; clear_value t3
  intro t4; refine (have h4 : Stays q n M t4 := ?_; ?_) <;> [subst t4; clear_value t4]
  with_reducible apply incF_stays
  with_reducible assumption
  split
  with_reducible apply sweepFailed_stays
  with_reducible assumption
  lift_lets
  intro t5; refine (have h5 : Stays q n M t5 := ?_; ?_) <;> [subst t5; clear_value t5]
  with_reducible apply sweepLocked_stays
  with_reducible assumption
  with_reducible apply stays_ite
  with_reducible assumption
  with_reducible apply stays_ite
  with_reducible apply stays_ite
  with_reducible apply bringBack_stays
  with_reducible assumption
  with_reducible assumption
  with_reducible apply misbear_stays
  with_reducible assumption

end Sys2Proof.Machine
end

