-- ==== Sys2Proof/Laws/KeepsTests.lean ====
section
/-!
SUPPORT. What each function of Machine/Tests.lean keeps of a state: the queue, the time, the form of the registers and a condition on memory (`Stays`).
-/
set_option Elab.async false
set_option linter.all false
set_option maxRecDepth 4000
namespace Sys2Proof.Machine
variable {q : List Instr} {n : Nat} {M : List Host.Cell → Prop}

theorem beginDeferred_stays {s : State} (h : Stays q n M s) {a1} : Stays q n M (beginDeferred s a1) := by
  unfold beginDeferred
  lift_lets
  intro t1; clear_value t1
  with_reducible apply stays_ite
  with_reducible assumption
  with_reducible apply stays_ite
  with_reducible apply stays_foldl
  with_reducible assumption
  intro x2
  intro x3
  intro x4
  with_reducible apply stays_foldl
  with_reducible assumption
  intro x5
  intro x6
  intro x7
  with_reducible apply modRing_stays
  with_reducible assumption
  with_reducible apply stays_ite
  with_reducible apply stays_mk
  with_reducible assumption
  with_reducible assumption

theorem modTest_stays {s : State} (h : Stays q n M s) {a1 a2} : Stays q n M (modTest s a1 a2) := by
  unfold modTest
  lift_lets
  intro t1; clear_value t1
  with_reducible apply stays_mk
  with_reducible assumption

theorem placeTest_stays {s : State} (h : Stays q n M s) {a1} : Stays q n M (placeTest s a1) := by
  unfold placeTest
  lift_lets
  intro t1; clear_value t1
  intro t2; clear_value t2
  intro t3; refine (have h3 : Stays q n M t3 := ?_; ?_) <;> [subst t3; clear_value t3]
  with_reducible apply stays_mk
  with_reducible assumption
  with_reducible apply stays_ite
  with_reducible assumption
  with_reducible apply stays_ite
  with_reducible apply beginDeferred_stays
  with_reducible apply modTest_stays
  with_reducible assumption
  with_reducible apply modTest_stays
  with_reducible assumption

theorem placeTests_stays {s : State} (h : Stays q n M s) : Stays q n M (placeTests s) := by
  unfold placeTests
  lift_lets
  intro t1; clear_value t1
  intro t2; clear_value t2
  intro t3; refine (have h3 : Stays q n M t3 := ?_; ?_) <;> [subst t3; clear_value t3]
  with_reducible apply stays_mk
  with_reducible assumption
  with_reducible apply stays_ite
  with_reducible assumption
  with_reducible apply stays_foldl
  with_reducible assumption
  intro x4
  intro x5
  intro x6
  with_reducible apply placeTest_stays
  with_reducible assumption

theorem testEntry_stays {s : State} (h : Stays q n M s) {a1 a2 a3 a4} : Stays q n M (testEntry s a1 a2 a3 a4) := by
  unfold testEntry
  with_reducible apply logEvent_stays
  with_reducible assumption

theorem endTest_stays {s : State} (h : Stays q n M s) {a1 a2 a3 a4 a5} : Stays q n M (endTest s a1 a2 a3 a4 a5) := by
  unfold endTest
  with_reducible apply testEntry_stays
  with_reducible apply endCmd_stays
  with_reducible assumption

theorem trimWork_stays {s : State} (h : Stays q n M s) {a1 a2} : Stays q n M (trimWork s a1 a2) := by
  unfold trimWork
  with_reducible apply stays_ite
  with_reducible apply endTest_stays
  with_reducible assumption
  with_reducible assumption

theorem startOsc_stays {s : State} (h : Stays q n M s) : Stays q n M (startOsc s) := by
  unfold startOsc
  lift_lets
  intro t1; clear_value t1
  intro t2; refine (have h2 : Stays q n M t2 := ?_; ?_) <;> [subst t2; clear_value t2]
  with_reducible apply setF_stays
  with_reducible assumption
  intro t3; clear_value t3
  with_reducible apply stays_mk
  with_reducible assumption

theorem testBegin_stays {s : State} (h : Stays q n M s) {a1} : Stays q n M (testBegin s a1) := by
  unfold testBegin
  lift_lets
  intro t1; clear_value t1
  intro t2; clear_value t2
  intro t3; clear_value t3
  intro t4; clear_value t4
  intro t5; refine (have h5 : Stays q n M t5 := ?_; ?_) <;> [subst t5; clear_value t5]
  with_reducible apply endCmd_stays
  with_reducible assumption
  intro t6; clear_value t6
  intro t7; clear_value t7
  split
  with_reducible apply stays_ite
  with_reducible apply stays_mk
  with_reducible assumption
  with_reducible apply endTest_stays
  with_reducible assumption
  with_reducible apply stays_ite
  with_reducible apply endTest_stays
  with_reducible assumption
  with_reducible apply stays_ite
  with_reducible apply trimWork_stays
  with_reducible apply startOsc_stays
  with_reducible assumption
  with_reducible assumption

theorem execCalibrate_stays {s : State} (h : Stays q n M s) {a0} : StaysReply q n M (execCalibrate a0 s) := by
  unfold execCalibrate
  with_reducible apply staysReply_done
  split
  with_reducible apply intakeWork_stays
  with_reducible assumption
  with_reducible apply onlyIf_stays
  with_reducible assumption
  intro x1
  intro x2
  with_reducible apply trimWork_stays
  with_reducible assumption

theorem followUp_stays {s : State} (h : Stays q n M s) {a1 a2} : Stays q n M (followUp s a1 a2) := by
  unfold followUp
  lift_lets
  intro t1; clear_value t1
  intro t2; refine (have h2 : Stays q n M t2 := ?_; ?_) <;> [subst t2; clear_value t2]
  with_reducible apply stays_mk
  with_reducible assumption
  intro t3; refine (have h3 : Stays q n M t3 := ?_; ?_) <;> [subst t3; clear_value t3]
  with_reducible apply testEntry_stays
  with_reducible assumption
  intro t4; clear_value t4
  with_reducible apply stays_ite
  with_reducible apply emitRecord_stays
  with_reducible assumption
  with_reducible assumption

theorem strikeUnit_stays {s : State} (h : Stays q n M s) {a1} : Stays q n M (strikeUnit s a1) := by
  unfold strikeUnit
  lift_lets
  intro t1; clear_value t1
  intro t2; clear_value t2
  intro t3; clear_value t3
  intro t4; refine (have h4 : Stays q n M t4 := ?_; ?_) <;> [subst t4; clear_value t4]
  with_reducible apply strike_stays
  with_reducible assumption
  with_reducible apply stays_ite
  with_reducible apply strikeArray_stays
  with_reducible assumption
  with_reducible apply stays_ite
  with_reducible apply strikeVernier_stays
  with_reducible assumption
  with_reducible apply stays_ite
  with_reducible apply stays_ite
  with_reducible apply fenceEngine_stays
  with_reducible assumption
  with_reducible assumption
  with_reducible assumption

theorem execDeferredFollowUp_stays {s : State} (h : Stays q n M s) {a0 a1} : StaysReply q n M (execDeferredFollowUp a0 a1 s) := by
  unfold execDeferredFollowUp
  with_reducible apply staysReply_done
  split
  with_reducible assumption
  with_reducible apply stays_ite
  with_reducible assumption
  split
  with_reducible apply followUp_stays
  with_reducible assumption
  with_reducible apply followUp_stays
  with_reducible assumption
  with_reducible apply followUp_stays
  with_reducible apply strikeUnit_stays
  with_reducible assumption

theorem execDeferredTimeout_stays {s : State} (h : Stays q n M s) {a0} : StaysReply q n M (execDeferredTimeout a0 s) := by
  unfold execDeferredTimeout
  with_reducible apply staysReply_done
  split
  with_reducible assumption
  with_reducible apply stays_ite
  with_reducible assumption
  with_reducible apply followUp_stays
  with_reducible assumption

theorem scanBlocks_stays {a0} : StaysMM q n M (scanBlocks a0) := by
  induction a0 with
  | nil =>
    unfold scanBlocks
    with_reducible apply staysMM_pure
  | cons a r ih =>
    unfold scanBlocks
    with_reducible apply staysMM_bind
    with_reducible apply readFull_stays
    intro x1
    with_reducible apply ih

theorem runScan_stays {s : State} (h : Stays q n M s) {a1 a2 a3} : Stays q n M (runScan s a1 a2 a3) := by
  unfold runScan
  lift_lets
  intro t1; clear_value t1
  split
  with_reducible apply endTest_stays
  with_reducible refine stays_of_snd (by assumption) ?_
  with_reducible apply runMM_stays
  with_reducible assumption
  with_reducible apply scanBlocks_stays
  lift_lets
  intro t2; clear_value t2
  with_reducible apply stays_ite
  with_reducible apply endTest_stays
  with_reducible apply blockFailed_stays
  with_reducible refine stays_of_snd (by assumption) ?_
  with_reducible apply runMM_stays
  with_reducible assumption
  with_reducible apply scanBlocks_stays
  with_reducible apply endTest_stays
  with_reducible refine stays_of_snd (by assumption) ?_
  with_reducible apply runMM_stays
  with_reducible assumption
  with_reducible apply scanBlocks_stays

theorem runKat_stays {s : State} (h : Stays q n M s) {a1 a2 a3} : Stays q n M (runKat s a1 a2 a3) := by
  unfold runKat
  lift_lets
  intro t1; clear_value t1
  intro t2; clear_value t2
  split
  with_reducible apply endTest_stays
  with_reducible assumption
  with_reducible apply endTest_stays
  with_reducible apply strikeUnit_stays
  with_reducible assumption

theorem testWork_stays {s : State} (h : Stays q n M s) {a1 a2} : Stays q n M (testWork s a1 a2) := by
  unfold testWork
  split
  with_reducible assumption
  with_reducible apply stays_ite
  with_reducible apply runScan_stays
  with_reducible assumption
  with_reducible apply runKat_stays
  with_reducible assumption

theorem execSelfTest_stays {s : State} (hM : MemOk M) (h : Stays q n M s) {a0} : StaysReply q n M (execSelfTest a0 s) := by
  unfold execSelfTest
  with_reducible apply staysReply_done
  split
  with_reducible apply intakeWork_stays
  with_reducible assumption
  with_reducible apply onlyIf_stays
  with_reducible assumption
  intro x1
  intro x2
  with_reducible apply inClass_stays
  with_reducible assumption
  intro x3
  intro x4
  with_reducible apply withUpsets_stays
  assumption
  with_reducible assumption
  intro x5
  intro x6
  with_reducible apply testWork_stays
  with_reducible assumption

end Sys2Proof.Machine
end

