-- ==== Sys2Proof/Laws/KeepsRelease.lean ====
section
/-!
SUPPORT. What each function of Machine/Release.lean keeps of a state: the queue, the time, the form of the registers and a condition on memory (`Stays`).
-/
set_option Elab.async false
set_option linter.all false
set_option maxRecDepth 4000
namespace Sys2Proof.Machine
variable {q : List Instr} {n : Nat} {M : List Host.Cell → Prop}

theorem afterStep_stays {s : State} (hM : MemOk M) (h : Stays q n M s) : Stays q n M (afterStep s) := by
  unfold afterStep
  lift_lets
  intro t1; refine (have h1 : Stays q n M t1 := ?_; ?_) <;> [subst t1; clear_value t1]
  with_reducible apply afterRelease_stays
  assumption
  with_reducible apply afterDecision_stays
  with_reducible assumption
  with_reducible apply stays_ite
  with_reducible apply releaseGo_stays
  with_reducible assumption
  with_reducible assumption

theorem raiseStep_stays {s : State} (h : Stays q n M s) : Stays q n M (raiseStep s) := by
  unfold raiseStep
  lift_lets
  intro t1; refine (have h1 : Stays q n M t1 := ?_; ?_) <;> [subst t1; clear_value t1]
  with_reducible apply wr_stays
  with_reducible apply advanceDraws_stays
  with_reducible assumption
  intro t2; clear_value t2
  with_reducible apply stays_mk
  with_reducible assumption

theorem loseReleased_stays {s : State} (h : Stays q n M s) {a1 a2} : Stays q n M (loseReleased s a1 a2) := by
  unfold loseReleased
  lift_lets
  intro t1; refine (have h1 : Stays q n M t1 := ?_; ?_) <;> [subst t1; clear_value t1]
  with_reducible apply noteBlockErr_stays
  with_reducible assumption
  intro t2; refine (have h2 : Stays q n M t2 := ?_; ?_) <;> [subst t2; clear_value t2]
  split
  with_reducible apply poisonBlock_stays
  with_reducible assumption
  with_reducible assumption
  intro t3; clear_value t3
  with_reducible apply stays_mk
  with_reducible assumption

theorem releaseRow_stays {s} (hM : MemOk M) (h : Stays q n M s.1) {a1} : Stays q n M (releaseRow s a1).1 := by
  unfold releaseRow
  split
  dsimp only
  with_reducible refine stays_of_snd (by assumption) ?_
  with_reducible apply runMM_stays
  with_reducible assumption
  with_reducible apply staysMM_bind
  with_reducible apply writeBytes_stays
  assumption
  intro x1
  with_reducible apply writeBytes_stays
  assumption
  dsimp only
  with_reducible apply loseReleased_stays
  with_reducible refine stays_of_snd (by assumption) ?_
  with_reducible apply runMM_stays
  with_reducible assumption
  with_reducible apply staysMM_bind
  with_reducible apply writeBytes_stays
  assumption
  intro x2
  with_reducible apply writeBytes_stays
  assumption

theorem releaseBlock_stays {s} (hM : MemOk M) (h : Stays q n M s.1) {a0 a2} : Stays q n M (releaseBlock a0 s a2).1 := by
  unfold releaseBlock
  lift_lets
  intro t1; clear_value t1
  split
  dsimp only
  with_reducible refine stays_of_snd (by assumption) ?_
  with_reducible apply runMM_stays
  with_reducible assumption
  with_reducible apply staysMM_bind
  with_reducible apply readFull_stays
  intro x2
  with_reducible apply staysMM_ite
  with_reducible apply writeBlock_stays
  assumption
  with_reducible apply writeBytes_stays
  assumption
  dsimp only
  with_reducible apply loseReleased_stays
  with_reducible refine stays_of_snd (by assumption) ?_
  with_reducible apply runMM_stays
  with_reducible assumption
  with_reducible apply staysMM_bind
  with_reducible apply readFull_stays
  intro x3
  with_reducible apply staysMM_ite
  with_reducible apply writeBlock_stays
  assumption
  with_reducible apply writeBytes_stays
  assumption

theorem releaseEntry_stays {s} (hM : MemOk M) (h : Stays q n M s.1) {a1} : Stays q n M (releaseEntry s a1).1 := by
  unfold releaseEntry
  with_reducible apply stays_foldl_fst
  with_reducible assumption
  intro x1
  intro x2
  intro x3
  lift_lets
  intro t4; clear_value t4
  intro t5; clear_value t5
  with_reducible apply stays_ite_fst
  with_reducible apply stays_ite_fst
  dsimp only
  with_reducible apply exchangePages_stays
  assumption
  with_reducible assumption
  with_reducible assumption
  with_reducible apply releaseBlock_stays
  assumption
  with_reducible assumption

theorem releaseAll_stays {s : State} (hM : MemOk M) (h : Stays q n M s) {a1} : Stays q n M (releaseAll s a1) := by
  unfold releaseAll
  split
  lift_lets
  intro t1; refine (have h1 : Stays q n M t1 := ?_; ?_) <;> [subst t1; clear_value t1]
  with_reducible apply stays_foldl
  with_reducible apply releaseParity_stays
  assumption
  with_reducible refine stays_of_fst (by assumption) ?_
  with_reducible apply stays_foldl_fst
  with_reducible apply stays_foldl_fst
  dsimp only
  with_reducible assumption
  intro x2
  intro x3
  intro x4
  with_reducible apply releaseEntry_stays
  assumption
  with_reducible assumption
  intro x5
  intro x6
  intro x7
  with_reducible apply releaseRow_stays
  assumption
  with_reducible assumption
  intro x8
  intro x9
  intro x10
  with_reducible apply repairBlock_stays
  with_reducible assumption
  intro t11; refine (have h11 : Stays q n M t11 := ?_; ?_) <;> [subst t11; clear_value t11]
  with_reducible apply endCommit_stays
  with_reducible assumption
  intro t12; clear_value t12
  intro t13; refine (have h13 : Stays q n M t13 := ?_; ?_) <;> [subst t13; clear_value t13]
  with_reducible apply stays_mk
  with_reducible assumption
  with_reducible apply afterStep_stays
  assumption
  with_reducible apply setEsc_stays
  with_reducible apply showEsc_stays
  with_reducible assumption

theorem execRelease_stays {s : State} (hM : MemOk M) (h : Stays q n M s) : StaysReply q n M (execRelease s) := by
  unfold execRelease
  lift_lets
  intro t1; refine (have h1 : Stays q n M t1 := ?_; ?_) <;> [subst t1; clear_value t1]
  with_reducible apply stays_ite
  with_reducible assumption
  with_reducible apply raiseStep_stays
  with_reducible assumption
  with_reducible apply staysReply_done
  split
  with_reducible assumption
  with_reducible apply stays_ite
  with_reducible assumption
  with_reducible apply stays_ite
  with_reducible assumption
  with_reducible apply inClass_stays
  with_reducible assumption
  intro x2
  intro x3
  with_reducible apply releaseAll_stays
  assumption
  with_reducible assumption

end Sys2Proof.Machine
end

