-- ==== Sys2Proof/Laws/KeepsStart.lean ====
section
/-!
SUPPORT. What each function of Machine/Start.lean keeps of a state: the queue, the time, the form of the registers and a condition on memory (`Stays`).
-/
set_option Elab.async false
set_option linter.all false
set_option maxRecDepth 4000
namespace Sys2Proof.Machine
variable {q : List Instr} {n : Nat} {M : List Host.Cell → Prop}

theorem beginWork_stays {s : State} (hM : MemOk M) (h : Stays q n M s) {a1 a2} : Stays q n M (beginWork s a1 a2) := by
  unfold beginWork
  lift_lets
  intro t1; clear_value t1
  intro t2; clear_value t2
  intro t3; clear_value t3
  intro t4; clear_value t4
  with_reducible apply stays_ite
  with_reducible apply dataInBegin_stays
  with_reducible assumption
  with_reducible apply stays_ite
  with_reducible apply dataOutBegin_stays
  with_reducible assumption
  with_reducible apply stays_ite
  with_reducible apply matmulBegin_stays
  with_reducible assumption
  with_reducible apply stays_ite
  with_reducible apply laneBegin_stays
  with_reducible assumption
  with_reducible apply stays_ite
  with_reducible apply embBegin_stays
  assumption
  with_reducible assumption
  with_reducible apply stays_ite
  with_reducible apply embBegin_stays
  assumption
  with_reducible assumption
  with_reducible apply stays_ite
  with_reducible apply relayBegin_stays
  assumption
  with_reducible assumption
  with_reducible apply stays_ite
  with_reducible apply updateBegin_stays
  with_reducible assumption
  with_reducible apply stays_ite
  with_reducible apply commitBegin_stays
  with_reducible assumption
  with_reducible apply stays_ite
  with_reducible apply snapBegin_stays
  with_reducible assumption
  with_reducible apply stays_ite
  with_reducible apply ferryBegin_stays
  with_reducible assumption
  with_reducible apply stays_ite
  with_reducible apply standInBegin_stays
  with_reducible assumption
  with_reducible apply stays_ite
  with_reducible apply attestRun_stays
  with_reducible assumption
  with_reducible apply stays_ite
  with_reducible apply beginRelease_stays
  with_reducible assumption
  with_reducible apply stays_ite
  with_reducible apply testBegin_stays
  with_reducible assumption
  with_reducible apply stays_ite
  with_reducible apply modCmd_stays
  with_reducible assumption
  with_reducible apply stays_ite
  with_reducible assumption
  with_reducible apply endCmd_stays
  with_reducible assumption

theorem tableFor_stays {s : State} (h : Stays q n M s) {a1} : Stays q n M (tableFor s a1).2 := by
  unfold tableFor
  with_reducible apply stays_ite_snd
  with_reducible apply tableAt_stays
  with_reducible assumption
  with_reducible apply stays_ite_snd
  with_reducible apply tableAt_stays
  with_reducible assumption
  dsimp only
  with_reducible assumption

theorem failCheck_stays {s : State} (h : Stays q n M s) {a1 a2 a3} : Stays q n M (failCheck s a1 a2 a3) := by
  unfold failCheck
  lift_lets
  intro t1; refine (have h1 : Stays q n M t1 := ?_; ?_) <;> [subst t1; clear_value t1]
  split
  with_reducible apply noteSkew_stays
  with_reducible assumption
  with_reducible assumption
  with_reducible apply failStart_stays
  with_reducible assumption

theorem startNow_stays {s : State} (hM : MemOk M) (h : Stays q n M s) {a1} : Stays q n M (startNow s a1) := by
  unfold startNow
  lift_lets
  intro t1; refine (have h1 : Stays q n M t1 := ?_; ?_) <;> [subst t1; clear_value t1]
  with_reducible apply stays_ite
  with_reducible apply setF_stays
  with_reducible assumption
  with_reducible assumption
  split
  with_reducible apply failStart_stays
  with_reducible assumption
  split
  with_reducible apply failStart_stays
  with_reducible apply blockFailed_stays
  with_reducible refine stays_of_snd (by assumption) ?_
  with_reducible apply tableFor_stays
  with_reducible assumption
  lift_lets
  intro t2; clear_value t2
  intro t3; clear_value t3
  split
  with_reducible apply failCheck_stays
  with_reducible refine stays_of_snd (by assumption) ?_
  with_reducible apply tableFor_stays
  with_reducible assumption
  with_reducible apply beginWork_stays
  assumption
  with_reducible apply modCmd_stays
  with_reducible refine stays_of_snd (by assumption) ?_
  with_reducible apply tableFor_stays
  with_reducible assumption

theorem startTurn_stays {s : State} (hM : MemOk M) (h : Stays q n M s) {a1} : Stays q n M (startTurn s a1) := by
  unfold startTurn
  lift_lets
  intro t1; clear_value t1
  intro t2; clear_value t2
  split
  with_reducible apply endCmd_stays
  with_reducible assumption
  with_reducible apply stays_ite
  with_reducible assumption
  with_reducible apply stays_ite
  with_reducible apply failStart_stays
  with_reducible assumption
  with_reducible apply stays_ite
  with_reducible apply failStart_stays
  with_reducible assumption
  with_reducible apply stays_ite
  with_reducible apply modCmd_stays
  with_reducible assumption
  with_reducible apply startNow_stays
  assumption
  with_reducible assumption

theorem restart_stays {s : State} (hM : MemOk M) (h : Stays q n M s) {a1} : Stays q n M (restart s a1) := by
  unfold restart
  lift_lets
  intro t1; refine (have h1 : Stays q n M t1 := ?_; ?_) <;> [subst t1; clear_value t1]
  with_reducible apply dropWork_stays
  with_reducible assumption
  intro t2; clear_value t2
  intro t3; refine (have h3 : Stays q n M t3 := ?_; ?_) <;> [subst t3; clear_value t3]
  with_reducible apply modCmd_stays
  with_reducible assumption
  split
  with_reducible apply failMem_stays
  with_reducible refine stays_of_snd (by assumption) ?_
  with_reducible apply tableFor_stays
  with_reducible assumption
  with_reducible apply beginWork_stays
  assumption
  with_reducible refine stays_of_snd (by assumption) ?_
  with_reducible apply tableFor_stays
  with_reducible assumption

theorem execCommandStart_stays {s : State} (hM : MemOk M) (h : Stays q n M s) {a0 a1} : StaysReply q n M (execCommandStart a0 a1 s) := by
  unfold execCommandStart
  with_reducible apply staysReply_done
  split
  with_reducible assumption
  with_reducible apply stays_ite
  with_reducible apply startTurn_stays
  assumption
  with_reducible assumption
  with_reducible apply onlyIf_stays
  with_reducible assumption
  intro x1
  intro x2
  with_reducible apply restart_stays
  assumption
  with_reducible assumption

theorem execWaitTimeout_stays {s : State} (h : Stays q n M s) {a0 a1} : StaysReply q n M (execWaitTimeout a0 a1 s) := by
  unfold execWaitTimeout
  with_reducible apply staysReply_done
  split
  with_reducible assumption
  split
  with_reducible assumption
  with_reducible apply onlyIf_stays
  with_reducible assumption
  intro x1
  intro x2
  with_reducible apply failStart_stays
  with_reducible assumption

theorem noteWaits_stays {s : State} (h : Stays q n M s) : Stays q n M (noteWaits s) := by
  unfold noteWaits
  lift_lets
  intro t1; clear_value t1
  with_reducible apply stays_ite
  with_reducible apply stays_mk
  with_reducible assumption
  with_reducible assumption

end Sys2Proof.Machine
end

