-- ==== Sys2Proof/Laws/KeepsRetire.lean ====
section
/-!
SUPPORT. What each function of Machine/Retire.lean keeps of a state: the queue, the time, the form of the registers and a condition on memory (`Stays`).
-/
set_option Elab.async false
set_option linter.all false
set_option maxRecDepth 4000
namespace Sys2Proof.Machine
variable {q : List Instr} {n : Nat} {M : List Host.Cell → Prop}

theorem retireUpdate_stays {s : State} (h : Stays q n M s) {a1} : Stays q n M (retireUpdate s a1) := by
  unfold retireUpdate
  lift_lets
  intro t1; refine (have h1 : Stays q n M t1 := ?_; ?_) <;> [subst t1; clear_value t1]
  with_reducible apply stays_ite
  with_reducible apply stays_foldl
  with_reducible assumption
  intro x2
  intro x3
  intro x4
  lift_lets
  intro t5; refine (have h5 : Stays q n M t5 := ?_; ?_) <;> [subst t5; clear_value t5]
  with_reducible apply foldEntry_stays
  with_reducible assumption
  intro t6; clear_value t6
  with_reducible apply stays_mk
  with_reducible assumption
  with_reducible assumption
  with_reducible apply showEsc_stays
  with_reducible apply freeEntries_stays
  with_reducible assumption

theorem retireEffect_stays {s : State} (h : Stays q n M s) {a1} : Stays q n M (retireEffect s a1).1 := by
  unfold retireEffect
  lift_lets
  intro t1; clear_value t1
  with_reducible apply stays_ite_fst
  dsimp only
  with_reducible apply retireUpdate_stays
  with_reducible assumption
  with_reducible apply stays_ite_fst
  dsimp only
  with_reducible assumption
  with_reducible apply stays_ite_fst
  split
  dsimp only
  with_reducible refine stays_of_fst (by assumption) ?_
  with_reducible apply retireDraw_stays
  with_reducible assumption
  with_reducible apply stays_ite_fst
  split
  dsimp only
  with_reducible refine stays_of_fst (by assumption) ?_
  with_reducible apply keyEffect_stays
  with_reducible assumption
  dsimp only
  with_reducible assumption

theorem signalFence_stays {s : State} (h : Stays q n M s) {a1} : Stays q n M (signalFence s a1) := by
  unfold signalFence
  lift_lets
  intro t1; clear_value t1
  intro t2; clear_value t2
  with_reducible apply stays_ite
  with_reducible assumption
  with_reducible apply stays_ite
  with_reducible apply stays_mk
  with_reducible assumption
  with_reducible apply stays_mk
  with_reducible assumption

theorem retire_stays {s : State} (h : Stays q n M s) {a1} : Stays q n M (retire s a1) := by
  unfold retire
  split
  lift_lets
  intro t1; refine (have h1 : Stays q n M t1 := ?_; ?_) <;> [subst t1; clear_value t1]
  with_reducible apply signalFence_stays
  with_reducible refine stays_of_fst (by assumption) ?_
  with_reducible apply retireEffect_stays
  with_reducible assumption
  intro t2; clear_value t2
  intro t3; refine (have h3 : Stays q n M t3 := ?_; ?_) <;> [subst t3; clear_value t3]
  with_reducible apply writeRecord_stays
  with_reducible assumption
  intro t4; refine (have h4 : Stays q n M t4 := ?_; ?_) <;> [subst t4; clear_value t4]
  with_reducible apply stays_ite
  with_reducible apply haltAt_stays
  with_reducible assumption
  with_reducible assumption
  intro t5; refine (have h5 : Stays q n M t5 := ?_; ?_) <;> [subst t5; clear_value t5]
  with_reducible apply dropCmd_stays
  with_reducible assumption
  intro t6; refine (have h6 : Stays q n M t6 := ?_; ?_) <;> [subst t6; clear_value t6]
  with_reducible apply settleClears_stays
  with_reducible assumption
  intro t7; refine (have h7 : Stays q n M t7 := ?_; ?_) <;> [subst t7; clear_value t7]
  with_reducible apply pruneTables_stays
  with_reducible assumption
  with_reducible apply stays_ite
  with_reducible apply endRelease_stays
  with_reducible assumption
  with_reducible assumption

theorem execCommandRetire_stays {s : State} (h : Stays q n M s) {a0 a1 a2} : StaysReply q n M (execCommandRetire a0 a1 a2 s) := by
  unfold execCommandRetire
  with_reducible apply staysReply_done
  split
  with_reducible assumption
  with_reducible apply onlyIf_stays
  with_reducible assumption
  intro x1
  intro x2
  with_reducible apply retire_stays
  with_reducible assumption

theorem execCommandStop_stays {s : State} (h : Stays q n M s) {a0 a1} : StaysReply q n M (execCommandStop a0 a1 s) := by
  unfold execCommandStop
  with_reducible apply staysReply_done
  split
  with_reducible assumption
  split
  with_reducible assumption
  with_reducible apply onlyIf_stays
  with_reducible assumption
  intro x1
  intro x2
  with_reducible apply endCmd_stays
  with_reducible apply dropWork_stays
  with_reducible assumption

theorem execCommandTimeout_stays {s : State} (h : Stays q n M s) {a0 a1} : StaysReply q n M (execCommandTimeout a0 a1 s) := by
  unfold execCommandTimeout
  with_reducible apply staysReply_done
  split
  with_reducible assumption
  with_reducible apply onlyIf_stays
  with_reducible assumption
  intro x1
  intro x2
  with_reducible apply stays_ite
  with_reducible apply haltAt_stays
  with_reducible apply askStop_stays
  with_reducible assumption
  with_reducible apply haltAt_stays
  with_reducible apply endCmd_stays
  with_reducible assumption

theorem execThirdReading_stays {s : State} (h : Stays q n M s) {a0 a1 a2} : StaysReply q n M (execThirdReading a0 a1 a2 s) := by
  unfold execThirdReading
  lift_lets
  intro t1; clear_value t1
  with_reducible apply staysReply_done
  split
  with_reducible assumption
  with_reducible apply stays_ite
  with_reducible assumption
  split
  with_reducible assumption
  lift_lets
  intro t2; clear_value t2
  intro t3; clear_value t3
  with_reducible apply stays_mk
  with_reducible assumption

theorem execThirdReadingSettled_stays {s : State} (hM : MemOk M) (h : Stays q n M s) {a0 a1 a2 a3} : StaysReply q n M (execThirdReadingSettled a0 a1 a2 a3 s) := by
  unfold execThirdReadingSettled
  with_reducible apply staysReply_done
  split
  with_reducible assumption
  with_reducible apply stays_ite
  with_reducible assumption
  with_reducible apply withUpsets_stays
  assumption
  with_reducible assumption
  intro x1
  intro x2
  split
  with_reducible apply stays_ite
  with_reducible apply settleThird_stays
  assumption
  with_reducible assumption
  with_reducible apply stays_ite
  with_reducible apply settleThird_stays
  assumption
  with_reducible apply dropTile_stays
  with_reducible assumption
  with_reducible assumption
  with_reducible apply stays_ite
  with_reducible apply settleThird_stays
  assumption
  with_reducible assumption
  with_reducible assumption

end Sys2Proof.Machine
end

