-- ==== Sys2Proof/Laws/KeepsRestart.lean ====
section
/-!
SUPPORT. What each function of Machine/Restart.lean keeps of a state: the queue, the time, the form of the registers and a condition on memory (`Stays`).
-/
set_option Elab.async false
set_option linter.all false
set_option maxRecDepth 4000
namespace Sys2Proof.Machine
variable {q : List Instr} {n : Nat} {M : List Host.Cell → Prop}

theorem dropRegs_stays {s : State} (h : Stays q n M s) : Stays q n M (dropRegs s) := by
  exact ⟨h.1, h.2, h.3, regsWf_filter _ h.4⟩

theorem coldReset_stays {s : State} (hM : MemOk M) (h : Stays q n M s) {a1} : Stays q n M (coldReset s a1) := by
  unfold coldReset
  refine setF_stays (setF_stays (setF_stays (setF_stays (setF_stays (setF_stays ?_)))))
  exact ⟨h.1, h.2, hM.nil, regsWf_nil⟩

theorem saveRated_stays {s : State} (h : Stays q n M s) : Stays q n M (saveRated s) := by
  unfold saveRated
  lift_lets
  intro t1; clear_value t1
  with_reducible apply stays_mk
  with_reducible assumption

theorem showSaved_stays {s : State} (h : Stays q n M s) : Stays q n M (showSaved s) := by
  unfold showSaved
  lift_lets
  intro t1; refine (have h1 : Stays q n M t1 := ?_; ?_) <;> [subst t1; clear_value t1]
  with_reducible apply setF_stays
  with_reducible apply setF_stays
  with_reducible assumption
  with_reducible apply setF_stays
  with_reducible assumption

end Sys2Proof.Machine
end

