-- ==== Sys2Proof/Laws/KeepsLogbook.lean ====
section
/-!
SUPPORT. What each function of Machine/Logbook.lean keeps of a state: the queue, the time, the form of the registers and a condition on memory (`Stays`).
-/
set_option Elab.async false
set_option linter.all false
set_option maxRecDepth 4000
namespace Sys2Proof.Machine
variable {q : List Instr} {n : Nat} {M : List Host.Cell → Prop}

theorem sendSnapshot_stays {s : State} (h : Stays q n M s) : Stays q n M (sendSnapshot s) := by
  unfold sendSnapshot
  lift_lets
  intro t1; clear_value t1
  intro t2; clear_value t2
  intro t3; clear_value t3
  intro t4; clear_value t4
  split
  with_reducible apply bluvisen_stays
  with_reducible refine stays_of_snd (by assumption) ?_
  with_reducible apply signWith_stays
  with_reducible assumption

theorem sendEntries_stays {s : State} (h : Stays q n M s) {a1} : Stays q n M (sendEntries s a1) := by
  unfold sendEntries
  lift_lets
  intro t1; clear_value t1
  split
  lift_lets
  intro t2; clear_value t2
  intro t3; clear_value t3
  intro t4; clear_value t4
  with_reducible apply bluvisen_stays
  with_reducible apply stays_mk
  with_reducible refine stays_of_snd (by assumption) ?_
  with_reducible apply signWith_stays
  with_reducible assumption

theorem streamThese_stays {s : State} (h : Stays q n M s) {a1} : Stays q n M (streamThese s a1) := by
  unfold streamThese
  with_reducible apply stays_ite
  with_reducible apply stays_foldl
  with_reducible assumption
  intro x1
  intro x2
  intro x3
  with_reducible apply sendEntries_stays
  with_reducible assumption
  with_reducible assumption

theorem streamEntries_stays {s : State} (h : Stays q n M s) : Stays q n M (streamEntries s) := by
  unfold streamEntries
  with_reducible apply streamThese_stays
  with_reducible assumption

theorem closeEntries_stays {s : State} (h : Stays q n M s) : Stays q n M (closeEntries s) := by
  unfold closeEntries
  lift_lets
  intro t1; clear_value t1
  with_reducible apply stays_mk
  with_reducible assumption

theorem execCollectorAck_stays {s : State} (hM : MemOk M) (h : Stays q n M s) {a0} : StaysReply q n M (execCollectorAck a0 s) := by
  unfold execCollectorAck
  with_reducible apply staysReply_done
  with_reducible apply onlyIf_stays
  with_reducible assumption
  intro x1
  intro x2
  lift_lets
  intro t3; refine (have h3 : Stays q n M t3 := ?_; ?_) <;> [subst t3; clear_value t3]
  with_reducible apply setF_stays
  with_reducible assumption
  intro t4; clear_value t4
  split
  with_reducible assumption
  lift_lets
  intro t5; refine (have h5 : Stays q n M t5 := ?_; ?_) <;> [subst t5; clear_value t5]
  with_reducible apply placeOverrun_stays
  with_reducible apply logStatus_stays
  with_reducible apply stays_mk
  with_reducible assumption
  with_reducible apply stays_ite
  with_reducible apply coldReset_stays
  assumption
  with_reducible assumption
  with_reducible assumption

theorem execComputeDieReset_stays {s : State} (hM : MemOk M) (h : Stays q n M s) {a0} : StaysReply q n M (execComputeDieReset a0 s) := by
  unfold execComputeDieReset
  with_reducible apply staysReply_done
  with_reducible apply onlyIf_stays
  with_reducible assumption
  intro x1
  intro x2
  with_reducible apply dieRung_stays
  assumption
  with_reducible assumption

theorem fenceUnit_stays {s : State} (h : Stays q n M s) {a1} : Stays q n M (fenceUnit s a1) := by
  unfold fenceUnit
  lift_lets
  intro t1; clear_value t1
  intro t2; clear_value t2
  with_reducible apply stays_ite
  with_reducible apply fenceArray_stays
  with_reducible assumption
  with_reducible apply stays_ite
  with_reducible apply fenceEngine_stays
  with_reducible assumption
  with_reducible apply stays_foldl
  with_reducible assumption
  intro x3
  intro x4
  intro x5
  with_reducible apply fencedOut_stays
  with_reducible assumption

theorem execEngineOperationTimeout_stays {s : State} (h : Stays q n M s) {a0} : StaysReply q n M (execEngineOperationTimeout a0 s) := by
  unfold execEngineOperationTimeout
  lift_lets
  intro t1; refine (have h1 : ∀ y0 y1, Stays q n M y0 → Stays q n M (t1 y0 y1) := ?_; ?_) <;> [subst t1; clear_value t1]
  intro x2
  intro x3
  intro x4
  beta_reduce
  lift_lets
  intro t5; clear_value t5
  beta_reduce
  with_reducible apply stays_mk
  with_reducible assumption
  with_reducible apply staysReply_done
  with_reducible apply onlyIf_stays
  with_reducible assumption
  intro x6
  intro x7
  lift_lets
  intro t8; clear_value t8
  with_reducible apply stays_ite
  with_reducible apply h1
  with_reducible apply ladderRung_stays
  with_reducible assumption
  with_reducible apply stays_ite
  with_reducible apply h1
  with_reducible apply ladderRung_stays
  with_reducible assumption
  with_reducible apply fenceUnit_stays
  with_reducible apply endTimeout_stays
  with_reducible assumption

theorem execHeartbeat_stays {s : State} (h : Stays q n M s) : StaysReply q n M (execHeartbeat s) := by
  unfold execHeartbeat
  with_reducible apply staysReply_done
  with_reducible apply onlyIf_stays
  with_reducible assumption
  intro x1
  intro x2
  lift_lets
  intro t3; clear_value t3
  intro t4; clear_value t4
  split
  with_reducible apply bluvisen_stays
  with_reducible apply incF_stays
  with_reducible refine stays_of_snd (by assumption) ?_
  with_reducible apply signWith_stays
  with_reducible apply stays_mk
  with_reducible assumption

theorem execLogResendTimeout_stays {s : State} (h : Stays q n M s) : StaysReply q n M (execLogResendTimeout s) := by
  unfold execLogResendTimeout
  lift_lets
  intro t1; clear_value t1
  with_reducible apply staysReply_done
  with_reducible apply stays_ite
  with_reducible assumption
  with_reducible apply streamThese_stays
  with_reducible apply setF_stays
  with_reducible assumption

theorem restartMgmt_stays {s : State} (h : Stays q n M s) {a1} : Stays q n M (restartMgmt s a1) := by
  unfold restartMgmt
  lift_lets
  intro t1; clear_value t1
  intro t2; clear_value t2
  intro t3; refine (have h3 : Stays q n M t3 := ?_; ?_) <;> [subst t3; clear_value t3]
  with_reducible apply setF_stays
  with_reducible apply setF_stays
  with_reducible apply incF_stays
  with_reducible assumption
  intro t4; refine (have h4 : Stays q n M t4 := ?_; ?_) <;> [subst t4; clear_value t4]
  with_reducible apply logEvent_stays
  with_reducible assumption
  intro t5; clear_value t5
  with_reducible apply stays_mk
  with_reducible assumption

theorem execMgmtWatchdog_stays {s : State} (h : Stays q n M s) {a0} : StaysReply q n M (execMgmtWatchdog a0 s) := by
  unfold execMgmtWatchdog
  with_reducible apply staysReply_done
  with_reducible apply onlyIf_stays
  with_reducible assumption
  intro x1
  intro x2
  with_reducible apply restartMgmt_stays
  with_reducible assumption

end Sys2Proof.Machine
end

