-- ==== Sys2Proof/Laws/KeepsArbor.lean ====
section
/-!
SUPPORT. What each function of Machine/Arbor.lean keeps of a state: the queue, the time, the form of the registers and a condition on memory (`Stays`).
-/
set_option Elab.async false
set_option linter.all false
set_option maxRecDepth 4000
namespace Sys2Proof.Machine
variable {q : List Instr} {n : Nat} {M : List Host.Cell → Prop}

theorem showSpared_stays {s : State} (h : Stays q n M s) {a1 a2} : Stays q n M (showSpared s a1 a2) := by
  unfold showSpared
  with_reducible apply setF_stays
  with_reducible assumption

theorem setDirState_stays {s : State} (h : Stays q n M s) {a1 a2 a3} : Stays q n M (setDirState s a1 a2 a3) := by
  unfold setDirState
  with_reducible apply setF_stays
  with_reducible assumption

theorem setDir_stays {s : State} (h : Stays q n M s) {a1 a2 a3} : Stays q n M (setDir s a1 a2 a3) := by
  unfold setDir
  with_reducible apply stays_mk
  with_reducible assumption

theorem trainDir_stays {s t : State} (h : Stays q n M s) {a b} (e : trainDir s a b = some t) : Stays q n M t := by
  unfold trainDir at e
  obtain ⟨v, -, rfl⟩ := Option.map_eq_some_iff.1 e
  exact showSpared_stays (setDirState_stays (setDir_stays h))
theorem trainLink_stays {s : State} (hM : MemOk M) (h : Stays q n M s) {a b c} : Stays q n M (trainLink s a b c) := by
  unfold trainLink
  lift_lets
  intro t1; clear_value t1
  intro t2; refine (have h2 : Stays q n M t2 := ?_; ?_) <;> [subst t2; clear_value t2]
  · exact stays_ite h (noteAt_stays (recordLinks_stays h))
  refine stays_ite (setLinkState_stays h2) (stays_ite (fenceDie_stays hM h2) ?_)
  split
  · next heq =>
    obtain ⟨u, hu, hv⟩ := Option.bind_eq_some_iff.1 heq
    exact trainDir_stays (trainDir_stays h2 hu) hv
  · exact fenceDie_stays hM h2

theorem switchSeq_stays {s : State} (h : Stays q n M s) {a1} : Stays q n M (switchSeq s a1).2 := by
  unfold switchSeq
  split
  dsimp only
  with_reducible refine stays_of_snd (by assumption) ?_
  with_reducible apply takeFree_stays
  with_reducible assumption

theorem laneOff_stays {s : State} (hM : MemOk M) (h : Stays q n M s) {a1 a2 a3 a4} : Stays q n M (laneOff s a1 a2 a3 a4) := by
  unfold laneOff
  lift_lets
  intro t1; clear_value t1
  intro t2; clear_value t2
  with_reducible apply stays_ite
  with_reducible assumption
  with_reducible apply stays_ite
  with_reducible assumption
  with_reducible apply stays_ite
  with_reducible apply fenceDie_stays
  assumption
  with_reducible assumption
  split
  with_reducible apply stays_ite
  with_reducible assumption
  with_reducible assumption
  with_reducible apply stays_ite
  split
  with_reducible apply send_stays
  with_reducible apply setDir_stays
  with_reducible refine stays_of_snd (by assumption) ?_
  with_reducible apply switchSeq_stays
  with_reducible assumption
  with_reducible apply stays_ite
  with_reducible apply fenceDie_stays
  assumption
  with_reducible assumption
  split
  with_reducible apply send_stays
  with_reducible apply setDir_stays
  with_reducible refine stays_of_snd (by assumption) ?_
  with_reducible apply switchSeq_stays
  with_reducible assumption

theorem blameLanes_stays {s : State} (hM : MemOk M) (h : Stays q n M s) {a1 a2 a3 a4} : Stays q n M (blameLanes s a1 a2 a3 a4) := by
  unfold blameLanes
  lift_lets
  intro t1; clear_value t1
  intro t2; clear_value t2
  intro t3; clear_value t3
  intro t4; clear_value t4
  intro t5; refine (have h5 : Stays q n M t5 := ?_; ?_) <;> [subst t5; clear_value t5]
  with_reducible apply setDir_stays
  with_reducible assumption
  with_reducible apply stays_foldl
  with_reducible assumption
  intro x6
  intro x7
  intro x8
  with_reducible apply stays_ite
  with_reducible apply laneOff_stays
  assumption
  with_reducible assumption
  with_reducible assumption

theorem acceptFlit_stays {s : State} (hM : MemOk M) (h : Stays q n M s) {a1 a2 a3 a4 a5} : Stays q n M (acceptFlit s a1 a2 a3 a4 a5) := by
  unfold acceptFlit
  lift_lets
  intro t1; clear_value t1
  intro t2; clear_value t2
  intro t3; clear_value t3
  intro t4; clear_value t4
  intro t5; clear_value t5
  intro t6; clear_value t6
  intro t7
  intro t8; clear_value t8
  intro t9; clear_value t9
  intro t10; clear_value t10
  intro t11; refine (have h11 : Stays q n M t11 := ?_; ?_) <;> [subst t11; clear_value t11]
  with_reducible apply setDir_stays
  with_reducible assumption
  intro t12; refine (have h12 : Stays q n M t12 := ?_; ?_) <;> [subst t12; clear_value t12]
  with_reducible apply send_stays
  with_reducible assumption
  with_reducible apply stays_ite
  with_reducible assumption
  with_reducible apply blameLanes_stays
  assumption
  with_reducible assumption

theorem discardFlit_stays {s : State} (h : Stays q n M s) {a1 a2 a3 a4} : Stays q n M (discardFlit s a1 a2 a3 a4) := by
  unfold discardFlit
  lift_lets
  intro t1; clear_value t1
  intro t2; clear_value t2
  intro t3; refine (have h3 : Stays q n M t3 := ?_; ?_) <;> [subst t3; clear_value t3]
  with_reducible apply stays_ite
  with_reducible apply setDir_stays
  with_reducible assumption
  with_reducible assumption
  with_reducible apply send_stays
  with_reducible assumption

theorem execCreditProbe_stays {s : State} (h : Stays q n M s) {a0 a1} : StaysReply q n M (execCreditProbe a0 a1 s) := by
  unfold execCreditProbe
  with_reducible apply staysReply_done
  with_reducible apply onlyIf_stays
  with_reducible assumption
  intro x1
  intro x2
  with_reducible apply send_stays
  with_reducible assumption

theorem execCreditReport_stays {s : State} (h : Stays q n M s) {a0 a1 a2} : StaysReply q n M (execCreditReport a0 a1 a2 s) := by
  unfold execCreditReport
  lift_lets
  intro t1; clear_value t1
  with_reducible apply staysReply_done
  with_reducible apply onlyIf_stays
  with_reducible assumption
  intro x2
  intro x3
  lift_lets
  intro t4; clear_value t4
  with_reducible apply incF_stays
  with_reducible apply setDir_stays
  with_reducible assumption

theorem execCreditTimeout_stays {s : State} (h : Stays q n M s) {a0 a1 a2} : StaysReply q n M (execCreditTimeout a0 a1 a2 s) := by
  unfold execCreditTimeout
  with_reducible apply staysReply_done
  with_reducible apply onlyIf_stays
  with_reducible assumption
  intro x1
  intro x2
  lift_lets
  intro t3; clear_value t3
  with_reducible apply send_stays
  with_reducible apply setDir_stays
  with_reducible assumption

theorem takeReverse_stays {s : State} (h : Stays q n M s) {a1 a2 a3 a4} : Stays q n M (takeReverse s a1 a2 a3 a4) := by
  unfold takeReverse
  lift_lets
  intro t1; clear_value t1
  intro t2; clear_value t2
  intro t3; clear_value t3
  intro t4; clear_value t4
  intro t5; clear_value t5
  intro t6; clear_value t6
  intro t7; refine (have h7 : Stays q n M t7 := ?_; ?_) <;> [subst t7; clear_value t7]
  with_reducible apply setDir_stays
  with_reducible assumption
  intro t8; refine (have h8 : Stays q n M t8 := ?_; ?_) <;> [subst t8; clear_value t8]
  with_reducible apply incF_stays
  with_reducible assumption
  with_reducible apply stays_ite
  with_reducible apply stays_foldl
  with_reducible assumption
  intro x9
  intro x10
  intro x11
  with_reducible apply send_stays
  with_reducible assumption
  with_reducible assumption

theorem execFlit_stays {s : State} (hM : MemOk M) (h : Stays q n M s) {a0 a1 a2 a3 a4} : StaysReply q n M (execFlit a0 a1 a2 a3 a4 s) := by
  unfold execFlit
  lift_lets
  intro t1; clear_value t1
  with_reducible apply staysReply_done
  with_reducible apply onlyIf_stays
  with_reducible assumption
  intro x2
  intro x3
  lift_lets
  intro t4; clear_value t4
  intro t5; refine (have h5 : Stays q n M t5 := ?_; ?_) <;> [subst t5; clear_value t5]
  with_reducible apply acceptFlit_stays
  assumption
  with_reducible assumption
  with_reducible apply stays_ite
  with_reducible apply discardFlit_stays
  with_reducible assumption
  with_reducible apply stays_ite
  with_reducible apply discardFlit_stays
  with_reducible assumption
  with_reducible apply stays_ite
  with_reducible apply takeReverse_stays
  with_reducible assumption
  with_reducible assumption

theorem execHalfAck_stays {s : State} (h : Stays q n M s) {a0 a1 a2} : StaysReply q n M (execHalfAck a0 a1 a2 s) := by
  unfold execHalfAck
  with_reducible apply staysReply_done
  with_reducible apply onlyIf_stays
  with_reducible assumption
  intro x1
  intro x2
  lift_lets
  intro t3; clear_value t3
  split
  with_reducible assumption
  lift_lets
  intro t4; clear_value t4
  intro t5; clear_value t5
  intro t6; refine (have h6 : Stays q n M t6 := ?_; ?_) <;> [subst t6; clear_value t6]
  with_reducible apply setDirState_stays
  with_reducible apply setDir_stays
  with_reducible assumption
  intro t7; refine (have h7 : Stays q n M t7 := ?_; ?_) <;> [subst t7; clear_value t7]
  with_reducible apply setBitF_stays
  with_reducible assumption
  intro t8; refine (have h8 : Stays q n M t8 := ?_; ?_) <;> [subst t8; clear_value t8]
  with_reducible apply recordLinks_stays
  with_reducible assumption
  with_reducible apply tellBluvisen_stays
  with_reducible apply noteAt_stays
  with_reducible assumption

theorem execHalfReq_stays {s : State} (h : Stays q n M s) {a0 a1 a2} : StaysReply q n M (execHalfReq a0 a1 a2 s) := by
  unfold execHalfReq
  with_reducible apply staysReply_done
  with_reducible apply onlyIf_stays
  with_reducible assumption
  intro x1
  intro x2
  with_reducible apply send_stays
  with_reducible assumption

theorem retrainDir_stays {s : State} (h : Stays q n M s) {a1 a2} : Stays q n M (retrainDir s a1 a2) := by
  unfold retrainDir
  lift_lets
  intro t1; clear_value t1
  intro t2; refine (have h2 : Stays q n M t2 := ?_; ?_) <;> [subst t2; clear_value t2]
  with_reducible apply setDir_stays
  with_reducible assumption
  intro t3; refine (have h3 : Stays q n M t3 := ?_; ?_) <;> [subst t3; clear_value t3]
  with_reducible apply incF_stays
  with_reducible assumption
  with_reducible apply stays_foldl
  with_reducible assumption
  intro x4
  intro x5
  intro x6
  with_reducible apply stays_foldl
  with_reducible assumption
  intro x7
  intro x8
  intro x9
  with_reducible apply send_stays
  with_reducible assumption

theorem execLinkRetrain_stays {s : State} (hM : MemOk M) (h : Stays q n M s) {a0 a1} : StaysReply q n M (execLinkRetrain a0 a1 s) := by
  unfold execLinkRetrain
  with_reducible apply staysReply_done
  with_reducible apply onlyIf_stays
  with_reducible assumption
  intro x1
  intro x2
  lift_lets
  intro t3; refine (have h3 : Stays q n M t3 := ?_; ?_) <;> [subst t3; clear_value t3]
  with_reducible apply retrainDir_stays
  with_reducible assumption
  intro t4; refine (have h4 : Stays q n M t4 := ?_; ?_) <;> [subst t4; clear_value t4]
  with_reducible apply noteAt_stays
  with_reducible apply incF_stays
  with_reducible assumption
  intro t5; clear_value t5
  with_reducible apply stays_ite
  with_reducible apply fenceDie_stays
  assumption
  with_reducible assumption
  with_reducible apply setF_stays
  with_reducible assumption

theorem execSpareAck_stays {s : State} (h : Stays q n M s) {a0 a1 a2 a3 a4} : StaysReply q n M (execSpareAck a0 a1 a2 a3 a4 s) := by
  unfold execSpareAck
  with_reducible apply staysReply_done
  with_reducible apply onlyIf_stays
  with_reducible assumption
  intro x1
  intro x2
  lift_lets
  intro t3; clear_value t3
  intro t4; clear_value t4
  intro t5; refine (have h5 : Stays q n M t5 := ?_; ?_) <;> [subst t5; clear_value t5]
  with_reducible apply setDir_stays
  with_reducible assumption
  intro t6; refine (have h6 : Stays q n M t6 := ?_; ?_) <;> [subst t6; clear_value t6]
  with_reducible apply showSpared_stays
  with_reducible assumption
  intro t7; refine (have h7 : Stays q n M t7 := ?_; ?_) <;> [subst t7; clear_value t7]
  with_reducible apply setBitF_stays
  with_reducible assumption
  intro t8; refine (have h8 : Stays q n M t8 := ?_; ?_) <;> [subst t8; clear_value t8]
  with_reducible apply recordLinks_stays
  with_reducible assumption
  with_reducible apply stays_ite
  with_reducible apply noteAt_stays
  with_reducible assumption
  with_reducible assumption

theorem execSpareReq_stays {s : State} (h : Stays q n M s) {a0 a1 a2 a3 a4} : StaysReply q n M (execSpareReq a0 a1 a2 a3 a4 s) := by
  unfold execSpareReq
  with_reducible apply staysReply_done
  with_reducible apply onlyIf_stays
  with_reducible assumption
  intro x1
  intro x2
  with_reducible apply send_stays
  with_reducible assumption

theorem linkWatch_stays {s : State} (h : Stays q n M s) : Stays q n M (linkWatch s) := by
  unfold linkWatch
  with_reducible apply stays_foldl
  with_reducible assumption
  intro x1
  intro x2
  intro x3
  with_reducible apply setF_stays
  with_reducible assumption

end Sys2Proof.Machine
end

