-- ==== Sys2Proof/Laws/KeepsRated.lean ====
section
/-!
SUPPORT. What each function of Machine/Rated.lean keeps of a state: the queue, the time, the form of the registers and a condition on memory (`Stays`).
-/
set_option Elab.async false
set_option linter.all false
set_option maxRecDepth 4000
namespace Sys2Proof.Machine
variable {q : List Instr} {n : Nat} {M : List Host.Cell → Prop}

theorem account_stays {s : State} (h : Stays q n M s) : Stays q n M (account s) := by
  unfold account
  lift_lets
  intro t1; clear_value t1
  intro t2; clear_value t2
  intro t3; clear_value t3
  intro t4; refine (have h4 : Stays q n M t4 := ?_; ?_) <;> [subst t4; clear_value t4]
  with_reducible apply stays_mk
  with_reducible assumption
  intro t5; clear_value t5
  intro t6; clear_value t6
  intro t7; clear_value t7
  with_reducible apply stays_ite
  with_reducible assumption
  with_reducible apply stays_ite
  with_reducible apply incF_stays
  with_reducible apply stays_mk
  with_reducible assumption
  with_reducible apply stays_ite
  with_reducible apply incF_stays
  with_reducible apply stays_mk
  with_reducible assumption
  with_reducible assumption

theorem reclass_stays {s : State} (h : Stays q n M s) : Stays q n M (reclass s) := by
  unfold reclass
  lift_lets
  intro t1; clear_value t1
  intro t2; clear_value t2
  intro t3; clear_value t3
  intro t4; clear_value t4
  intro t5; clear_value t5
  intro t6; clear_value t6
  intro t7; clear_value t7
  intro t8; refine (have h8 : Stays q n M t8 := ?_; ?_) <;> [subst t8; clear_value t8]
  with_reducible apply stays_mk
  with_reducible assumption
  intro t9; clear_value t9
  intro t10; clear_value t10
  intro t11; clear_value t11
  with_reducible apply setF_stays
  with_reducible apply setF_stays
  with_reducible apply setF_stays
  with_reducible apply setF_stays
  with_reducible assumption

end Sys2Proof.Machine
end

