-- ==== Sys2Proof/Laws/KeepsBoot.lean ====
section
/-!
SUPPORT. What each function of Machine/Boot.lean keeps of a state: the queue, the time, the form of the registers and a condition on memory (`Stays`).
-/
set_option Elab.async false
set_option linter.all false
set_option maxRecDepth 4000
namespace Sys2Proof.Machine
variable {q : List Instr} {n : Nat} {M : List Host.Cell → Prop}

theorem stopLoop_stays {s : State} (h : Stays q n M s) {a1} : Stays q n M (stopLoop s a1) := by
  unfold stopLoop
  with_reducible apply setF_stays
  with_reducible apply setF_stays
  with_reducible assumption

theorem domainOff_stays {s : State} (h : Stays q n M s) {a1} : Stays q n M (domainOff s a1) := by
  unfold domainOff
  split
  with_reducible apply stopLoop_stays
  with_reducible apply setPd_stays
  with_reducible assumption
  with_reducible apply setPd_stays
  with_reducible assumption

theorem loopFreq_stays {s : State} (h : Stays q n M s) {a1} : Stays q n M (loopFreq s a1).2 := by
  unfold loopFreq
  with_reducible apply stays_ite_snd
  dsimp only
  with_reducible assumption
  with_reducible apply stays_ite_snd
  dsimp only
  with_reducible assumption
  with_reducible apply stays_ite_snd
  with_reducible apply takeFree_stays
  with_reducible assumption
  with_reducible apply stays_ite_snd
  dsimp only
  with_reducible assumption
  dsimp only
  with_reducible assumption

theorem lockLoop_stays {s : State} (h : Stays q n M s) {a1} : Stays q n M (lockLoop s a1) := by
  unfold lockLoop
  split
  with_reducible apply setF_stays
  with_reducible apply setF_stays
  with_reducible apply setF_stays
  with_reducible refine stays_of_snd (by assumption) ?_
  with_reducible apply loopFreq_stays
  with_reducible apply setF_stays
  with_reducible assumption

theorem domainOn_stays {s : State} (h : Stays q n M s) {a1} : Stays q n M (domainOn s a1) := by
  unfold domainOn
  with_reducible apply stays_ite
  with_reducible assumption
  split
  with_reducible apply lockLoop_stays
  with_reducible apply setPd_stays
  with_reducible assumption
  with_reducible apply setPd_stays
  with_reducible assumption

theorem holdFenced_stays {s : State} (h : Stays q n M s) {a1} : Stays q n M (holdFenced s a1) := by
  unfold holdFenced
  lift_lets
  intro t1; refine (have h1 : Stays q n M t1 := ?_; ?_) <;> [subst t1; clear_value t1]
  with_reducible apply stays_foldl
  with_reducible apply setLinkState_stays
  with_reducible assumption
  intro x2
  intro x3
  intro x4
  with_reducible apply setBitF_stays
  with_reducible assumption
  with_reducible apply stays_ite
  with_reducible apply setF_stays
  with_reducible assumption
  with_reducible apply stays_foldl
  with_reducible assumption
  intro x5
  intro x6
  intro x7
  with_reducible apply setPortState_stays
  with_reducible assumption

theorem loadFences_stays {s : State} (h : Stays q n M s) {a1} : Stays q n M (loadFences s a1) := by
  unfold loadFences
  lift_lets
  intro t1; clear_value t1
  intro t2; clear_value t2
  intro t3; refine (have h3 : Stays q n M t3 := ?_; ?_) <;> [subst t3; clear_value t3]
  with_reducible apply stays_foldl
  with_reducible assumption
  intro x4
  intro x5
  intro x6
  with_reducible apply wr_stays
  with_reducible assumption
  intro t7; clear_value t7
  intro t8; clear_value t8
  intro t9; clear_value t9
  intro t10; refine (have h10 : Stays q n M t10 := ?_; ?_) <;> [subst t10; clear_value t10]
  with_reducible apply setF_stays
  with_reducible apply setF_stays
  with_reducible assumption
  intro t11; refine (have h11 : Stays q n M t11 := ?_; ?_) <;> [subst t11; clear_value t11]
  with_reducible apply setF_stays
  with_reducible assumption
  intro t12; refine (have h12 : Stays q n M t12 := ?_; ?_) <;> [subst t12; clear_value t12]
  with_reducible apply setF_stays
  with_reducible assumption
  intro t13; refine (have h13 : Stays q n M t13 := ?_; ?_) <;> [subst t13; clear_value t13]
  with_reducible apply setF_stays
  with_reducible assumption
  intro t14; refine (have h14 : Stays q n M t14 := ?_; ?_) <;> [subst t14; clear_value t14]
  with_reducible apply setF_stays
  with_reducible assumption
  with_reducible apply stays_foldl
  with_reducible assumption
  intro x15
  intro x16
  intro x17
  split
  with_reducible apply setBitF_stays
  with_reducible assumption

theorem showRecord_stays {s : State} (h : Stays q n M s) : Stays q n M (showRecord s) := by
  unfold showRecord
  split
  with_reducible apply stays_ite
  with_reducible apply showFeed_stays
  with_reducible assumption
  with_reducible assumption
  with_reducible assumption

theorem bootScrub_stays {s : State} (hM : MemOk M) (h : Stays q n M s) : Stays q n M (bootScrub s) := by
  unfold bootScrub
  lift_lets
  intro t1; clear_value t1
  split
  with_reducible assumption
  lift_lets
  intro t2; refine (have h2 : Stays q n M t2 := ?_; ?_) <;> [subst t2; clear_value t2]
  with_reducible apply setSlice_stays
  with_reducible apply stays_mk
  with_reducible assumption
  with_reducible apply scrubRun_stays
  assumption
  with_reducible apply setF_stays
  with_reducible assumption

theorem setBoot_stays {s : State} (h : Stays q n M s) {a1} : Stays q n M (setBoot s a1) := by
  unfold setBoot
  with_reducible apply setF_stays
  with_reducible assumption

theorem enterRecovery_stays {s : State} (h : Stays q n M s) : Stays q n M (enterRecovery s) := by
  unfold enterRecovery
  lift_lets
  intro t1; clear_value t1
  intro t2; clear_value t2
  with_reducible apply setBoot_stays
  with_reducible apply domainOn_stays
  with_reducible apply stays_mk
  with_reducible assumption

theorem showImage_stays {s : State} (h : Stays q n M s) {a1} : Stays q n M (showImage s a1) := by
  unfold showImage
  lift_lets
  intro t1; refine (have h1 : Stays q n M t1 := ?_; ?_) <;> [subst t1; clear_value t1]
  with_reducible apply setF_stays
  with_reducible apply setF_stays
  with_reducible assumption
  intro t2; refine (have h2 : Stays q n M t2 := ?_; ?_) <;> [subst t2; clear_value t2]
  with_reducible apply setF_stays
  with_reducible apply setF_stays
  with_reducible assumption
  with_reducible apply setF_stays
  with_reducible apply setF_stays
  with_reducible assumption

theorem runImage_stays {s : State} (h : Stays q n M s) {a1} : Stays q n M (runImage s a1) := by
  unfold runImage
  lift_lets
  intro t1; clear_value t1
  intro t2; clear_value t2
  intro t3; clear_value t3
  with_reducible apply setBoot_stays
  with_reducible apply showImage_stays
  with_reducible apply stays_mk
  with_reducible assumption

theorem reportMissing_stays {s : State} (h : Stays q n M s) : Stays q n M (reportMissing s) := by
  unfold reportMissing
  lift_lets
  intro t1; clear_value t1
  intro t2; clear_value t2
  with_reducible apply stays_ite
  with_reducible assumption
  with_reducible apply tellBluvisen_stays
  with_reducible assumption

theorem showFloor_stays {s : State} (h : Stays q n M s) : Stays q n M (showFloor s) := by
  unfold showFloor
  with_reducible apply setF_stays
  with_reducible assumption

theorem raiseFloor_stays {s : State} (h : Stays q n M s) : Stays q n M (raiseFloor s) := by
  unfold raiseFloor
  lift_lets
  intro t1; clear_value t1
  intro t2; clear_value t2
  with_reducible apply stays_ite
  with_reducible apply showFloor_stays
  with_reducible apply stays_mk
  with_reducible assumption
  with_reducible assumption

theorem stage9_stays {s : State} (h : Stays q n M s) : Stays q n M (stage9 s) := by
  unfold stage9
  lift_lets
  intro t1; clear_value t1
  intro t2; clear_value t2
  intro t3; refine (have h3 : Stays q n M t3 := ?_; ?_) <;> [subst t3; clear_value t3]
  with_reducible apply setF_stays
  with_reducible apply setBoot_stays
  with_reducible apply stays_mk
  with_reducible assumption
  intro t4; refine (have h4 : Stays q n M t4 := ?_; ?_) <;> [subst t4; clear_value t4]
  with_reducible apply account_stays
  with_reducible assumption
  intro t5; clear_value t5
  intro t6; refine (have h6 : Stays q n M t6 := ?_; ?_) <;> [subst t6; clear_value t6]
  with_reducible apply reclass_stays
  with_reducible apply stays_mk
  with_reducible assumption
  intro t7; refine (have h7 : Stays q n M t7 := ?_; ?_) <;> [subst t7; clear_value t7]
  with_reducible apply reportMissing_stays
  with_reducible apply pilotCheck_stays
  with_reducible assumption
  with_reducible apply stays_ite
  with_reducible apply discover_stays
  with_reducible apply bootReport_stays
  with_reducible apply raiseFloor_stays
  with_reducible assumption
  with_reducible assumption

theorem lockRings_stays {s : State} (h : Stays q n M s) {a1} : Stays q n M (lockRings s a1) := by
  unfold lockRings
  with_reducible apply stays_foldl
  with_reducible assumption
  intro x1
  intro x2
  intro x3
  with_reducible apply stays_foldl
  with_reducible assumption
  intro x4
  intro x5
  intro x6
  lift_lets
  intro t7; refine (have h7 : Stays q n M t7 := ?_; ?_) <;> [subst t7; clear_value t7]
  with_reducible apply incF_stays
  with_reducible assumption
  with_reducible apply stays_ite
  with_reducible apply noteAt_stays
  with_reducible apply incF_stays
  with_reducible apply modRing_stays
  with_reducible assumption
  split
  with_reducible apply sweepLocked_stays
  with_reducible refine stays_of_snd (by assumption) ?_
  with_reducible apply takeFree_stays
  with_reducible assumption

theorem meetLantern_stays {s : State} (h : Stays q n M s) {a1} : Stays q n M (meetLantern s a1) := by
  unfold meetLantern
  lift_lets
  intro t1; clear_value t1
  intro t2; refine (have h2 : Stays q n M t2 := ?_; ?_) <;> [subst t2; clear_value t2]
  with_reducible apply incF_stays
  with_reducible apply setF_stays
  with_reducible apply stays_mk
  with_reducible assumption
  split
  with_reducible apply tellBluvisen_stays
  with_reducible apply noteAt_stays
  with_reducible assumption
  lift_lets
  intro t3; refine (have h3 : Stays q n M t3 := ?_; ?_) <;> [subst t3; clear_value t3]
  with_reducible apply setF_stays
  with_reducible apply stays_mk
  with_reducible assumption
  intro t4; refine (have h4 : Stays q n M t4 := ?_; ?_) <;> [subst t4; clear_value t4]
  with_reducible apply stays_foldl
  with_reducible assumption
  intro x5
  intro x6
  intro x7
  lift_lets
  intro t8; refine (have h8 : Stays q n M t8 := ?_; ?_) <;> [subst t8; clear_value t8]
  with_reducible apply modLine_stays
  with_reducible assumption
  with_reducible apply setF_stays
  with_reducible assumption
  with_reducible apply stays_ite
  with_reducible apply setF_stays
  with_reducible apply setF_stays
  with_reducible assumption
  with_reducible apply showRecord_stays
  with_reducible apply stays_ite
  with_reducible apply lockRings_stays
  with_reducible assumption
  with_reducible apply firstSweeps_stays
  with_reducible assumption

theorem stage8_stays {s : State} (h : Stays q n M s) {a1} : Stays q n M (stage8 s a1) := by
  unfold stage8
  lift_lets
  intro t1; clear_value t1
  intro t2; refine (have h2 : Stays q n M t2 := ?_; ?_) <;> [subst t2; clear_value t2]
  with_reducible apply stays_foldl
  with_reducible apply stays_mk
  with_reducible assumption
  intro x3
  intro x4
  intro x5
  with_reducible apply domainOn_stays
  with_reducible assumption
  with_reducible apply meetLantern_stays
  with_reducible apply setF_stays
  with_reducible assumption

theorem stage7_stays {s : State} (hM : MemOk M) (h : Stays q n M s) {a1} : Stays q n M (stage7 s a1) := by
  unfold stage7
  lift_lets
  intro t1; clear_value t1
  intro t2; refine (have h2 : Stays q n M t2 := ?_; ?_) <;> [subst t2; clear_value t2]
  with_reducible apply stays_foldl
  with_reducible apply stays_mk
  with_reducible assumption
  intro x3
  intro x4
  intro x5
  with_reducible apply domainOn_stays
  with_reducible assumption
  intro t6; clear_value t6
  intro t7; clear_value t7
  intro t8; refine (have h8 : Stays q n M t8 := ?_; ?_) <;> [subst t8; clear_value t8]
  with_reducible apply stays_mk
  with_reducible assumption
  intro t9; refine (have h9 : Stays q n M t9 := ?_; ?_) <;> [subst t9; clear_value t9]
  with_reducible apply stays_foldl
  with_reducible assumption
  intro x10
  intro x11
  intro x12
  with_reducible apply showRetired_stays
  with_reducible apply setF_stays
  with_reducible assumption
  with_reducible apply bootScrub_stays
  assumption
  with_reducible assumption

theorem stage6_stays {s : State} (hM : MemOk M) (h : Stays q n M s) {a1} : Stays q n M (stage6 s a1) := by
  unfold stage6
  lift_lets
  intro t1; clear_value t1
  intro t2; refine (have h2 : Stays q n M t2 := ?_; ?_) <;> [subst t2; clear_value t2]
  with_reducible apply stays_foldl
  with_reducible apply stays_mk
  with_reducible assumption
  intro x3
  intro x4
  intro x5
  with_reducible apply domainOn_stays
  with_reducible assumption
  intro t6; refine (have h6 : Stays q n M t6 := ?_; ?_) <;> [subst t6; clear_value t6]
  with_reducible apply stays_foldl
  with_reducible assumption
  intro x7
  intro x8
  intro x9
  with_reducible apply trainLink_stays
  assumption
  with_reducible assumption
  with_reducible apply stays_foldl
  with_reducible assumption
  intro x10
  intro x11
  intro x12
  with_reducible apply loadFences_stays
  with_reducible assumption

theorem recordFault_stays {s : State} (h : Stays q n M s) {a1} : Stays q n M (recordFault s a1) := by
  unfold recordFault
  with_reducible apply stays_ite
  with_reducible assumption
  with_reducible apply setF_stays
  with_reducible assumption

theorem loadAmend_stays {s : State} (h : Stays q n M s) {a1} : Stays q n M (loadAmend s a1) := by
  unfold loadAmend
  lift_lets
  intro t1; clear_value t1
  split
  with_reducible apply stays_ite
  with_reducible apply wr_stays
  with_reducible apply stays_mk
  with_reducible assumption
  with_reducible assumption
  with_reducible assumption

theorem loadChart_stays {s : State} (h : Stays q n M s) {a1} : Stays q n M (loadChart s a1) := by
  unfold loadChart
  lift_lets
  intro t1; clear_value t1
  split
  with_reducible apply stays_ite
  with_reducible apply wr_stays
  with_reducible apply stays_mk
  with_reducible assumption
  with_reducible assumption
  with_reducible assumption

theorem loadCharts_stays {s : State} (h : Stays q n M s) : Stays q n M (loadCharts s) := by
  unfold loadCharts
  split
  with_reducible apply stays_ite
  with_reducible assumption
  with_reducible apply stays_foldl
  with_reducible apply loadChart_stays
  with_reducible assumption
  intro x1
  intro x2
  intro x3
  with_reducible apply loadAmend_stays
  with_reducible assumption
  with_reducible assumption

theorem stage5_stays {s : State} (h : Stays q n M s) : Stays q n M (stage5 s) := by
  unfold stage5
  lift_lets
  intro t1; clear_value t1
  intro t2; refine (have h2 : Stays q n M t2 := ?_; ?_) <;> [subst t2; clear_value t2]
  with_reducible apply stays_mk
  with_reducible assumption
  intro t3; clear_value t3
  intro t4; refine (have h4 : Stays q n M t4 := ?_; ?_) <;> [subst t4; clear_value t4]
  split
  with_reducible apply setF_stays
  with_reducible apply stays_mk
  with_reducible assumption
  with_reducible assumption
  intro t5; clear_value t5
  intro t6; refine (have h6 : Stays q n M t6 := ?_; ?_) <;> [subst t6; clear_value t6]
  with_reducible apply recordFault_stays
  with_reducible assumption
  intro t7; refine (have h7 : Stays q n M t7 := ?_; ?_) <;> [subst t7; clear_value t7]
  with_reducible apply setF_stays
  with_reducible assumption
  with_reducible apply afterChart_stays
  with_reducible apply loadCharts_stays
  with_reducible assumption

theorem stage4_stays {s : State} (hM : MemOk M) (h : Stays q n M s) {a1} : Stays q n M (stage4 s a1) := by
  unfold stage4
  lift_lets
  intro t1; clear_value t1
  intro t2; refine (have h2 : Stays q n M t2 := ?_; ?_) <;> [subst t2; clear_value t2]
  with_reducible apply stays_foldl
  with_reducible apply stays_mk
  with_reducible assumption
  intro x3
  intro x4
  intro x5
  with_reducible apply domainOn_stays
  with_reducible assumption
  intro t6; refine (have h6 : Stays q n M t6 := ?_; ?_) <;> [subst t6; clear_value t6]
  with_reducible apply stays_foldl
  with_reducible assumption
  intro x7
  intro x8
  intro x9
  with_reducible apply holdFenced_stays
  with_reducible assumption
  intro t10; refine (have h10 : Stays q n M t10 := ?_; ?_) <;> [subst t10; clear_value t10]
  with_reducible apply stays_foldl
  with_reducible assumption
  intro x11
  intro x12
  intro x13
  with_reducible apply stays_ite
  with_reducible apply fenceDie_stays
  assumption
  with_reducible assumption
  with_reducible assumption
  intro t14; clear_value t14
  intro t15; refine (have h15 : Stays q n M t15 := ?_; ?_) <;> [subst t15; clear_value t15]
  with_reducible apply stays_foldl
  with_reducible assumption
  intro x16
  intro x17
  intro x18
  with_reducible apply wr_stays
  with_reducible apply wr_stays
  with_reducible assumption
  intro t19; clear_value t19
  intro t20; clear_value t20
  dsimp only
  with_reducible apply stays_mk
  with_reducible apply setF_stays
  with_reducible apply setF_stays
  with_reducible apply setF_stays
  with_reducible apply setF_stays
  with_reducible assumption

theorem bringUp_stays {s : State} (hM : MemOk M) (h : Stays q n M s) {a1} : Stays q n M (bringUp s a1) := by
  unfold bringUp
  split
  with_reducible apply enterRecovery_stays
  with_reducible assumption
  lift_lets
  intro t1; refine (have h1 : Stays q n M t1 := ?_; ?_) <;> [subst t1; clear_value t1]
  with_reducible apply runImage_stays
  with_reducible assumption
  intro t2; refine (have h2 : Stays q n M t2 := ?_; ?_) <;> [subst t2; clear_value t2]
  with_reducible apply stays_ite
  with_reducible apply tellBluvisen_stays
  with_reducible assumption
  with_reducible assumption
  with_reducible apply stays_ite
  with_reducible apply enterRecovery_stays
  with_reducible assumption
  with_reducible apply stage9_stays
  with_reducible apply stage8_stays
  with_reducible apply stage7_stays
  assumption
  with_reducible apply stage6_stays
  assumption
  with_reducible apply stage5_stays
  with_reducible apply stage4_stays
  assumption
  with_reducible assumption

theorem stage12_stays {s : State} (h : Stays q n M s) {a1} : Stays q n M (stage12 s a1) := by
  unfold stage12
  have h1 : Stays q n M ([10, 11].foldl lockLoop (setPd s 0 2)) := stays_foldl (setPd_stays h) fun _ _ h => lockLoop_stays h
  revert h1
  generalize [10, 11].foldl lockLoop (setPd s 0 2) = s1
  intro h1
  refine pilotCheck_stays ?_
  have h2 : Stays q n M (if (getF s1 R.PWR_INPUT F.PWR_INPUT_FEED_A + getF s1 R.PWR_INPUT F.PWR_INPUT_FEED_B == 0) = true then setF (setF s1 R.PWR_INPUT F.PWR_INPUT_FEED_A 1) R.PWR_INPUT F.PWR_INPUT_FEED_B 1 else s1) := stays_ite (setF_stays (setF_stays h1)) h1
  exact stays_ite (domainOn_stays (setF_stays (setF_stays (stays_mk (showFloor_stays (showSaved_stays h2)))))) (setF_stays (setF_stays (stays_mk (showFloor_stays (showSaved_stays h2)))))

theorem execColdStart_stays {s : State} (hM : MemOk M) (h : Stays q n M s) {a0} : StaysReply q n M (execColdStart a0 s) := by
  unfold execColdStart
  with_reducible apply staysReply_done
  with_reducible apply onlyIf_stays
  with_reducible assumption
  intro x1
  intro x2
  lift_lets
  intro t3; clear_value t3
  with_reducible apply stays_ite
  with_reducible apply bringUp_stays
  assumption
  with_reducible apply stage12_stays
  with_reducible assumption
  with_reducible apply setPd_stays
  with_reducible apply stays_mk
  with_reducible assumption

theorem restartFor_stays {s : State} (hM : MemOk M) (h : Stays q n M s) : Stays q n M (restartFor s) := by
  unfold restartFor
  lift_lets
  intro t1; clear_value t1
  with_reducible apply stays_ite
  with_reducible apply coldReset_stays
  assumption
  with_reducible assumption
  with_reducible apply stays_mk
  with_reducible assumption

theorem execFirmwareUpdateOrder_stays {s : State} (hM : MemOk M) (h : Stays q n M s) {a0} : StaysReply q n M (execFirmwareUpdateOrder a0 s) := by
  unfold execFirmwareUpdateOrder
  with_reducible apply staysReply_done
  with_reducible apply onlyIf_stays
  with_reducible assumption
  intro x1
  intro x2
  lift_lets
  intro t3; clear_value t3
  intro t4; refine (have h4 : Stays q n M t4 := ?_; ?_) <;> [subst t4; clear_value t4]
  with_reducible apply stays_mk
  with_reducible assumption
  split
  with_reducible apply tellBluvisen_stays
  with_reducible assumption
  with_reducible apply stays_ite
  with_reducible apply restartFor_stays
  assumption
  with_reducible assumption
  with_reducible assumption

theorem resetCounts_stays {s : State} (h : Stays q n M s) {a1} : Stays q n M (resetCounts s a1).2 := by
  unfold resetCounts
  with_reducible apply stays_ite_snd
  dsimp only
  with_reducible assumption
  with_reducible apply stays_ite_snd
  dsimp only
  with_reducible assumption
  split
  dsimp only
  with_reducible refine stays_of_snd (by assumption) ?_
  with_reducible apply takeFree_stays
  with_reducible assumption

theorem execModReset_stays {s : State} (hM : MemOk M) (h : Stays q n M s) {a0} : StaysReply q n M (execModReset a0 s) := by
  unfold execModReset
  with_reducible apply staysReply_done
  with_reducible apply onlyIf_stays
  with_reducible assumption
  intro x1
  intro x2
  split
  with_reducible apply stays_ite
  with_reducible apply coldReset_stays
  assumption
  with_reducible refine stays_of_snd (by assumption) ?_
  with_reducible apply resetCounts_stays
  with_reducible assumption
  with_reducible refine stays_of_snd (by assumption) ?_
  with_reducible apply resetCounts_stays
  with_reducible assumption

theorem execPcieReset_stays {s : State} (h : Stays q n M s) : StaysReply q n M (execPcieReset s) := by
  unfold execPcieReset
  with_reducible apply staysReply_done
  with_reducible apply onlyIf_stays
  with_reducible assumption
  intro x1
  intro x2
  lift_lets
  intro t3; clear_value t3
  with_reducible apply stays_mk
  with_reducible assumption

theorem execPilotSelChange_stays {s : State} (h : Stays q n M s) {a0} : StaysReply q n M (execPilotSelChange a0 s) := by
  unfold execPilotSelChange
  with_reducible apply staysReply_done
  with_reducible apply onlyIf_stays
  with_reducible assumption
  intro x1
  intro x2
  lift_lets
  intro t3; refine (have h3 : Stays q n M t3 := ?_; ?_) <;> [subst t3; clear_value t3]
  with_reducible apply setF_stays
  with_reducible assumption
  with_reducible apply pilotCheck_stays
  with_reducible apply stays_ite
  with_reducible apply domainOn_stays
  with_reducible assumption
  with_reducible assumption

theorem execRecoveryChunk_stays {s : State} (h : Stays q n M s) {a0 a1} : StaysReply q n M (execRecoveryChunk a0 a1 s) := by
  unfold execRecoveryChunk
  with_reducible apply staysReply_done
  with_reducible apply onlyIf_stays
  with_reducible assumption
  intro x1
  intro x2
  lift_lets
  intro t3; clear_value t3
  with_reducible apply stays_mk
  with_reducible assumption

theorem takeImage_stays {s : State} (hM : MemOk M) (h : Stays q n M s) {a1 a2} : Stays q n M (takeImage s a1 a2) := by
  unfold takeImage
  lift_lets
  intro t1; clear_value t1
  intro t2; refine (have h2 : Stays q n M t2 := ?_; ?_) <;> [subst t2; clear_value t2]
  with_reducible apply stays_mk
  with_reducible assumption
  intro t3; clear_value t3
  split
  with_reducible apply tellBluvisen_stays
  with_reducible assumption
  with_reducible apply stays_ite
  with_reducible apply coldReset_stays
  assumption
  with_reducible apply stays_mk
  with_reducible assumption
  with_reducible apply stays_mk
  with_reducible assumption

theorem execRecoveryDone_stays {s : State} (hM : MemOk M) (h : Stays q n M s) {a0 a1} : StaysReply q n M (execRecoveryDone a0 a1 s) := by
  unfold execRecoveryDone
  with_reducible apply staysReply_done
  with_reducible apply onlyIf_stays
  with_reducible assumption
  intro x1
  intro x2
  lift_lets
  intro t3; clear_value t3
  with_reducible apply stays_ite
  with_reducible apply takeImage_stays
  assumption
  with_reducible assumption
  with_reducible apply takeImage_stays
  assumption
  with_reducible assumption

theorem execRecoveryImageLength_stays {s : State} (hM : MemOk M) (h : Stays q n M s) {a0 a1 a2} : StaysReply q n M (execRecoveryImageLength a0 a1 a2 s) := by
  unfold execRecoveryImageLength
  with_reducible apply staysReply_done
  with_reducible apply onlyIf_stays
  with_reducible assumption
  intro x1
  intro x2
  with_reducible apply stays_ite
  with_reducible apply takeImage_stays
  assumption
  with_reducible assumption
  with_reducible apply takeImage_stays
  assumption
  with_reducible assumption

theorem execUpdateRestartWaitExpiry_stays {s : State} (hM : MemOk M) (h : Stays q n M s) : StaysReply q n M (execUpdateRestartWaitExpiry s) := by
  unfold execUpdateRestartWaitExpiry
  with_reducible apply staysReply_done
  with_reducible apply onlyIf_stays
  with_reducible assumption
  intro x1
  intro x2
  with_reducible apply coldReset_stays
  assumption
  with_reducible assumption

end Sys2Proof.Machine
end

