-- ==== Sys2Proof/Laws/KeepsWarm.lean ====
section
/-!
SUPPORT. What each function of Machine/Warm.lean keeps of a state: the queue, the time, the form of the registers and a condition on memory (`Stays`).
-/
set_option Elab.async false
set_option linter.all false
set_option maxRecDepth 4000
namespace Sys2Proof.Machine
variable {q : List Instr} {n : Nat} {M : List Host.Cell → Prop}

theorem dropFabric_stays {s : State} (h : Stays q n M s) : Stays q n M (dropFabric s) := by
  unfold dropFabric
  lift_lets
  intro t1; clear_value t1
  intro t2; clear_value t2
  intro t3; clear_value t3
  intro t4; clear_value t4
  intro t5; clear_value t5
  with_reducible apply stays_mk
  with_reducible assumption

theorem restPorts_stays {s : State} (h : Stays q n M s) : Stays q n M (restPorts s) := by
  unfold restPorts
  lift_lets
  intro t1; refine (have h1 : Stays q n M t1 := ?_; ?_) <;> [subst t1; clear_value t1]
  with_reducible apply stays_foldl
  with_reducible assumption
  intro x2
  intro x3
  intro x4
  with_reducible apply storeLink_stays
  with_reducible assumption
  intro t5; refine (have h5 : Stays q n M t5 := ?_; ?_) <;> [subst t5; clear_value t5]
  with_reducible apply stays_foldl
  with_reducible assumption
  intro x6
  intro x7
  intro x8
  with_reducible apply discardStore_stays
  with_reducible assumption
  with_reducible apply stays_mk
  with_reducible assumption

theorem renewRegs_stays {s : State} (h : Stays q n M s) : Stays q n M (renewRegs s) := by
  unfold renewRegs
  lift_lets
  intro t1; clear_value t1
  intro t2; refine (have h2 : Stays q n M t2 := ?_; ?_) <;> [subst t2; clear_value t2]
  with_reducible apply dropRegs_stays
  with_reducible assumption
  intro t3; refine (have h3 : Stays q n M t3 := ?_; ?_) <;> [subst t3; clear_value t3]
  with_reducible apply setF_stays
  with_reducible apply setF_stays
  with_reducible assumption
  intro t4; refine (have h4 : Stays q n M t4 := ?_; ?_) <;> [subst t4; clear_value t4]
  with_reducible apply stays_foldl
  with_reducible assumption
  intro x5
  intro x6
  intro x7
  with_reducible apply setF_stays
  with_reducible assumption
  with_reducible apply showPorts_stays
  with_reducible apply showEsc_stays
  with_reducible apply showRelay_stays
  with_reducible apply showStreams_stays
  with_reducible apply showPolicy_stays
  with_reducible apply unitsTake_stays
  with_reducible assumption

theorem spoilTiles_stays {s : State} (hM : MemOk M) (h : Stays q n M s) : Stays q n M (spoilTiles s) := by
  unfold spoilTiles
  with_reducible apply spoilRange_stays
  assumption
  with_reducible apply stays_foldl
  with_reducible assumption
  intro x1
  intro x2
  intro x3
  with_reducible apply spoilRange_stays
  assumption
  with_reducible assumption

theorem hbmLoops_stays {s : State} (h : Stays q n M s) : Stays q n M (hbmLoops s) := by
  unfold hbmLoops
  with_reducible apply stays_foldl
  with_reducible assumption
  intro x1
  intro x2
  intro x3
  with_reducible apply stays_ite
  with_reducible apply lockLoop_stays
  with_reducible assumption
  with_reducible assumption

theorem passPorts_stays {s : State} (h : Stays q n M s) : Stays q n M (passPorts s) := by
  unfold passPorts
  with_reducible apply stays_foldl
  with_reducible assumption
  intro x1
  intro x2
  intro x3
  with_reducible apply setPortState_stays
  with_reducible assumption

theorem askReads_stays {s : State} (h : Stays q n M s) : Stays q n M (askReads s) := by
  unfold askReads
  lift_lets
  intro t1; clear_value t1
  intro t2; clear_value t2
  with_reducible apply stays_foldl
  with_reducible apply stays_mk
  with_reducible assumption
  intro x3
  intro x4
  intro x5
  with_reducible apply startRead_stays
  with_reducible assumption

theorem cutAll_stays {s : State} (h : Stays q n M s) {a1} : Stays q n M (cutAll s a1) := by
  unfold cutAll
  lift_lets
  intro t1; clear_value t1
  intro t2; refine (have h2 : Stays q n M t2 := ?_; ?_) <;> [subst t2; clear_value t2]
  with_reducible apply cutStreams_stays
  with_reducible assumption
  with_reducible apply stays_foldl
  with_reducible assumption
  intro x3
  intro x4
  intro x5
  with_reducible apply cutCommand_stays
  with_reducible assumption

theorem fixCursors_stays {s : State} (h : Stays q n M s) : Stays q n M (fixCursors s) := by
  unfold fixCursors
  lift_lets
  intro t1; clear_value t1
  with_reducible apply stays_mk
  with_reducible assumption

theorem markOwn_stays {s : State} (h : Stays q n M s) : Stays q n M (markOwn s) := by
  unfold markOwn
  with_reducible apply stays_ite
  with_reducible apply showReckon_stays
  with_reducible apply setBitF_stays
  with_reducible assumption
  with_reducible assumption

theorem settleEsc_stays {s : State} (hM : MemOk M) (h : Stays q n M s) : Stays q n M (settleEsc s) := by
  unfold settleEsc
  lift_lets
  intro t1; refine (have h1 : Stays q n M t1 := ?_; ?_) <;> [subst t1; clear_value t1]
  with_reducible apply stays_ite
  with_reducible assumption
  with_reducible apply raiseStep_stays
  with_reducible assumption
  intro t2; refine (have h2 : Stays q n M t2 := ?_; ?_) <;> [subst t2; clear_value t2]
  with_reducible apply markOwn_stays
  with_reducible assumption
  intro t3; clear_value t3
  split
  with_reducible assumption
  lift_lets
  intro t4; clear_value t4
  with_reducible apply stays_ite
  with_reducible apply stays_ite
  with_reducible apply markOwn_stays
  with_reducible assumption
  with_reducible apply inClass_stays
  with_reducible assumption
  intro x5
  intro x6
  with_reducible apply releaseAll_stays
  assumption
  with_reducible assumption
  with_reducible apply stays_ite
  with_reducible apply stays_mk
  with_reducible assumption
  with_reducible assumption

theorem resetEsc_stays {s : State} (h : Stays q n M s) : Stays q n M (resetEsc s) := by
  unfold resetEsc
  lift_lets
  intro t1; refine (have h1 : Stays q n M t1 := ?_; ?_) <;> [subst t1; clear_value t1]
  with_reducible apply setEsc_stays
  with_reducible apply dropStage_stays
  with_reducible assumption
  intro t2; clear_value t2
  with_reducible apply stays_mk
  with_reducible assumption

theorem warmRestart_stays {s : State} (hM : MemOk M) (h : Stays q n M s) {a1} : Stays q n M (warmRestart s a1) := by
  unfold warmRestart
  lift_lets
  intro t1; clear_value t1
  intro t2; refine (have h2 : Stays q n M t2 := ?_; ?_) <;> [subst t2; clear_value t2]
  with_reducible apply ladderRung_stays
  with_reducible assumption
  intro t3; refine (have h3 : Stays q n M t3 := ?_; ?_) <;> [subst t3; clear_value t3]
  with_reducible apply noteAt_stays
  with_reducible assumption
  intro t4; refine (have h4 : Stays q n M t4 := ?_; ?_) <;> [subst t4; clear_value t4]
  with_reducible apply bluvisen_stays
  with_reducible assumption
  intro t5; clear_value t5
  intro t6; clear_value t6
  intro t7; refine (have h7 : Stays q n M t7 := ?_; ?_) <;> [subst t7; clear_value t7]
  with_reducible apply stays_mk
  with_reducible assumption
  intro t8; refine (have h8 : Stays q n M t8 := ?_; ?_) <;> [subst t8; clear_value t8]
  with_reducible apply fixCursors_stays
  with_reducible apply settleEsc_stays
  assumption
  with_reducible assumption
  intro t9; refine (have h9 : Stays q n M t9 := ?_; ?_) <;> [subst t9; clear_value t9]
  with_reducible apply resetEsc_stays
  with_reducible apply restPorts_stays
  with_reducible assumption
  intro t10; refine (have h10 : Stays q n M t10 := ?_; ?_) <;> [subst t10; clear_value t10]
  with_reducible apply dropFabric_stays
  with_reducible apply stays_mk
  with_reducible assumption
  intro t11; clear_value t11
  intro t12; refine (have h12 : Stays q n M t12 := ?_; ?_) <;> [subst t12; clear_value t12]
  with_reducible apply stays_mk
  with_reducible assumption
  intro t13; clear_value t13
  intro t14; refine (have h14 : Stays q n M t14 := ?_; ?_) <;> [subst t14; clear_value t14]
  with_reducible apply stays_mk
  with_reducible assumption
  intro t15; refine (have h15 : Stays q n M t15 := ?_; ?_) <;> [subst t15; clear_value t15]
  with_reducible apply setBoot_stays
  with_reducible apply renewRegs_stays
  with_reducible apply spoilTiles_stays
  assumption
  with_reducible assumption
  intro t16; refine (have h16 : Stays q n M t16 := ?_; ?_) <;> [subst t16; clear_value t16]
  with_reducible apply hbmLoops_stays
  with_reducible apply stage6_stays
  assumption
  with_reducible apply stage4_stays
  assumption
  with_reducible assumption
  intro t17; refine (have h17 : Stays q n M t17 := ?_; ?_) <;> [subst t17; clear_value t17]
  with_reducible apply stays_ite
  with_reducible apply lockLoop_stays
  with_reducible assumption
  with_reducible assumption
  intro t18; refine (have h18 : Stays q n M t18 := ?_; ?_) <;> [subst t18; clear_value t18]
  with_reducible apply passPorts_stays
  with_reducible apply stage9_stays
  with_reducible apply stage8_stays
  with_reducible assumption
  intro t19; refine (have h19 : Stays q n M t19 := ?_; ?_) <;> [subst t19; clear_value t19]
  with_reducible apply cutAll_stays
  with_reducible assumption
  with_reducible apply askReads_stays
  with_reducible assumption

theorem execModuleWarmRestart_stays {s : State} (hM : MemOk M) (h : Stays q n M s) {a0} : StaysReply q n M (execModuleWarmRestart a0 s) := by
  unfold execModuleWarmRestart
  with_reducible apply staysReply_done
  with_reducible apply onlyIf_stays
  with_reducible assumption
  intro x1
  intro x2
  lift_lets
  intro t3; refine (have h3 : Stays q n M t3 := ?_; ?_) <;> [subst t3; clear_value t3]
  with_reducible apply setF_stays
  with_reducible assumption
  intro t4; clear_value t4
  intro t5; refine (have h5 : Stays q n M t5 := ?_; ?_) <;> [subst t5; clear_value t5]
  with_reducible apply stays_ite
  with_reducible apply stays_mk
  with_reducible assumption
  with_reducible assumption
  with_reducible apply warmRestart_stays
  assumption
  with_reducible assumption

end Sys2Proof.Machine
end

