-- ==== Sys2Proof/Laws/KeepsAnchor.lean ====
section
/-!
SUPPORT. What each function of Machine/Anchor.lean keeps of a state: the queue, the time, the form of the registers and a condition on memory (`Stays`).
-/
set_option Elab.async false
set_option linter.all false
set_option maxRecDepth 4000
namespace Sys2Proof.Machine
variable {q : List Instr} {n : Nat} {M : List Host.Cell → Prop}

theorem darkPorts_stays {s : State} (h : Stays q n M s) : Stays q n M (darkPorts s) := by
  unfold darkPorts
  lift_lets
  intro t1; refine (have h1 : Stays q n M t1 := ?_; ?_) <;> [subst t1; clear_value t1]
  with_reducible apply stays_foldl
  with_reducible assumption
  intro x2
  intro x3
  intro x4
  with_reducible apply setPortState_stays
  with_reducible assumption
  with_reducible apply stays_mk
  with_reducible assumption

theorem domainHold_stays {s : State} (h : Stays q n M s) {a1} : Stays q n M (domainHold s a1) := by
  unfold domainHold
  with_reducible apply stays_ite
  with_reducible assumption
  split
  with_reducible apply stopLoop_stays
  with_reducible apply setPd_stays
  with_reducible assumption
  with_reducible apply setPd_stays
  with_reducible assumption

theorem refuseAnchor_stays {s : State} (h : Stays q n M s) {a1} : Stays q n M (refuseAnchor s a1) := by
  unfold refuseAnchor
  lift_lets
  intro t1; refine (have h1 : Stays q n M t1 := ?_; ?_) <;> [subst t1; clear_value t1]
  with_reducible apply setF_stays
  with_reducible apply incF_stays
  with_reducible assumption
  with_reducible apply tellBluvisen_stays
  with_reducible assumption

theorem setAnchor_stays {s : State} (h : Stays q n M s) {a1} : Stays q n M (setAnchor s a1) := by
  unfold setAnchor
  with_reducible apply setF_stays
  with_reducible assumption

theorem dropAnchor_stays {s : State} (h : Stays q n M s) {a1} : Stays q n M (dropAnchor s a1) := by
  unfold dropAnchor
  lift_lets
  intro t1; clear_value t1
  with_reducible apply refuseAnchor_stays
  with_reducible apply setAnchor_stays
  with_reducible apply stays_mk
  with_reducible assumption

theorem holdRings_stays {s : State} (h : Stays q n M s) : Stays q n M (holdRings s) := by
  unfold holdRings
  lift_lets
  intro t1; clear_value t1
  with_reducible apply stays_mk
  with_reducible assumption

theorem enterAnchor_stays {s : State} (h : Stays q n M s) : Stays q n M (enterAnchor s) := by
  unfold enterAnchor
  lift_lets
  intro t1; refine (have h1 : Stays q n M t1 := ?_; ?_) <;> [subst t1; clear_value t1]
  with_reducible apply dropFabric_stays
  with_reducible apply darkPorts_stays
  with_reducible apply restPorts_stays
  with_reducible assumption
  intro t2; refine (have h2 : Stays q n M t2 := ?_; ?_) <;> [subst t2; clear_value t2]
  with_reducible apply holdRings_stays
  with_reducible assumption
  intro t3; refine (have h3 : Stays q n M t3 := ?_; ?_) <;> [subst t3; clear_value t3]
  with_reducible apply stays_foldl
  with_reducible assumption
  intro x4
  intro x5
  intro x6
  with_reducible apply stays_ite
  with_reducible apply setF_stays
  with_reducible assumption
  with_reducible assumption
  intro t7; refine (have h7 : Stays q n M t7 := ?_; ?_) <;> [subst t7; clear_value t7]
  with_reducible apply stays_foldl
  with_reducible assumption
  intro x8
  intro x9
  intro x10
  with_reducible apply domainHold_stays
  with_reducible assumption
  intro t11; refine (have h11 : Stays q n M t11 := ?_; ?_) <;> [subst t11; clear_value t11]
  with_reducible apply stays_foldl
  with_reducible assumption
  intro x12
  intro x13
  intro x14
  with_reducible apply domainOff_stays
  with_reducible assumption
  intro t15; refine (have h15 : Stays q n M t15 := ?_; ?_) <;> [subst t15; clear_value t15]
  with_reducible apply incF_stays
  with_reducible apply setAnchor_stays
  with_reducible apply pilotCheck_stays
  with_reducible assumption
  with_reducible apply noteAt_stays
  with_reducible assumption

theorem execAnchorEnterBeat_stays {s : State} (h : Stays q n M s) : StaysReply q n M (execAnchorEnterBeat s) := by
  unfold execAnchorEnterBeat
  with_reducible apply staysReply_done
  split
  with_reducible apply onlyIf_stays
  with_reducible assumption
  intro x1
  intro x2
  split
  with_reducible apply dropAnchor_stays
  with_reducible assumption
  with_reducible apply setAnchor_stays
  with_reducible assumption
  with_reducible assumption

theorem execAnchorEntry_stays {s : State} (h : Stays q n M s) : StaysReply q n M (execAnchorEntry s) := by
  unfold execAnchorEntry
  with_reducible apply staysReply_done
  split
  with_reducible apply onlyIf_stays
  with_reducible assumption
  intro x1
  intro x2
  with_reducible apply enterAnchor_stays
  with_reducible assumption
  with_reducible assumption

theorem execAnchorEntryTimeout_stays {s : State} (h : Stays q n M s) : StaysReply q n M (execAnchorEntryTimeout s) := by
  unfold execAnchorEntryTimeout
  with_reducible apply staysReply_done
  split
  with_reducible apply onlyIf_stays
  with_reducible assumption
  intro x1
  intro x2
  with_reducible apply dropAnchor_stays
  with_reducible assumption
  with_reducible assumption

theorem execAnchorOrder_stays {s : State} (h : Stays q n M s) {a0} : StaysReply q n M (execAnchorOrder a0 s) := by
  unfold execAnchorOrder
  with_reducible apply staysReply_done
  with_reducible apply onlyIf_stays
  with_reducible assumption
  intro x1
  intro x2
  lift_lets
  intro t3; clear_value t3
  intro t4; refine (have h4 : Stays q n M t4 := ?_; ?_) <;> [subst t4; clear_value t4]
  with_reducible apply stays_mk
  with_reducible assumption
  intro t5; refine (have h5 : Stays q n M t5 := ?_; ?_) <;> [subst t5; clear_value t5]
  with_reducible apply setF_stays
  with_reducible apply setF_stays
  with_reducible assumption
  split
  with_reducible apply refuseAnchor_stays
  with_reducible assumption
  with_reducible apply setAnchor_stays
  with_reducible assumption

theorem wakeRings_stays {s : State} (h : Stays q n M s) {a1} : Stays q n M (wakeRings s a1) := by
  unfold wakeRings
  lift_lets
  intro t1; refine (have h1 : Stays q n M t1 := ?_; ?_) <;> [subst t1; clear_value t1]
  with_reducible apply stays_foldl
  with_reducible assumption
  intro x2
  intro x3
  intro x4
  with_reducible apply modRing_stays
  with_reducible assumption
  with_reducible apply stays_foldl
  with_reducible assumption
  intro x5
  intro x6
  intro x7
  with_reducible apply stays_ite
  with_reducible apply sweepFailed_stays
  with_reducible apply incF_stays
  with_reducible assumption
  with_reducible assumption

theorem wakeUp_stays {s : State} (hM : MemOk M) (h : Stays q n M s) {a1} : Stays q n M (wakeUp s a1) := by
  unfold wakeUp
  lift_lets
  intro t1; clear_value t1
  intro t2; refine (have h2 : Stays q n M t2 := ?_; ?_) <;> [subst t2; clear_value t2]
  with_reducible apply dropFabric_stays
  with_reducible apply setAnchor_stays
  with_reducible apply stays_mk
  with_reducible assumption
  intro t3; refine (have h3 : Stays q n M t3 := ?_; ?_) <;> [subst t3; clear_value t3]
  with_reducible apply renewRegs_stays
  with_reducible apply spoilTiles_stays
  assumption
  with_reducible assumption
  intro t4; refine (have h4 : Stays q n M t4 := ?_; ?_) <;> [subst t4; clear_value t4]
  with_reducible apply stays_foldl
  with_reducible assumption
  intro x5
  intro x6
  intro x7
  with_reducible apply domainOn_stays
  with_reducible assumption
  intro t8; refine (have h8 : Stays q n M t8 := ?_; ?_) <;> [subst t8; clear_value t8]
  with_reducible apply stays_ite
  with_reducible apply domainOn_stays
  with_reducible assumption
  with_reducible assumption
  intro t9; refine (have h9 : Stays q n M t9 := ?_; ?_) <;> [subst t9; clear_value t9]
  with_reducible apply stays_foldl
  with_reducible assumption
  intro x10
  intro x11
  intro x12
  with_reducible apply holdFenced_stays
  with_reducible assumption
  intro t13; refine (have h13 : Stays q n M t13 := ?_; ?_) <;> [subst t13; clear_value t13]
  with_reducible apply stays_foldl
  with_reducible assumption
  intro x14
  intro x15
  intro x16
  with_reducible apply trainLink_stays
  assumption
  with_reducible assumption
  intro t17; refine (have h17 : Stays q n M t17 := ?_; ?_) <;> [subst t17; clear_value t17]
  with_reducible apply stays_foldl
  with_reducible assumption
  intro x18
  intro x19
  intro x20
  with_reducible apply loadFences_stays
  with_reducible assumption
  intro t21; refine (have h21 : Stays q n M t21 := ?_; ?_) <;> [subst t21; clear_value t21]
  with_reducible apply stays_foldl
  with_reducible assumption
  intro x22
  intro x23
  intro x24
  with_reducible apply stays_ite
  with_reducible apply setF_stays
  with_reducible assumption
  with_reducible assumption
  intro t25; refine (have h25 : Stays q n M t25 := ?_; ?_) <;> [subst t25; clear_value t25]
  with_reducible apply showRecord_stays
  with_reducible apply wakeRings_stays
  with_reducible apply hbmLoops_stays
  with_reducible assumption
  intro t26; clear_value t26
  with_reducible apply stays_ite
  with_reducible apply coldReset_stays
  assumption
  with_reducible assumption
  split
  lift_lets
  intro t27; refine (have h27 : Stays q n M t27 := ?_; ?_) <;> [subst t27; clear_value t27]
  with_reducible apply setAnchor_stays
  with_reducible apply setF_stays
  with_reducible refine stays_of_snd (by assumption) ?_
  with_reducible apply takeFree_stays
  with_reducible apply passPorts_stays
  with_reducible apply pilotCheck_stays
  with_reducible apply stays_mk
  with_reducible assumption
  with_reducible apply bootReport_stays
  with_reducible apply askReads_stays
  with_reducible apply noteAt_stays
  with_reducible assumption

theorem execWake_stays {s : State} (hM : MemOk M) (h : Stays q n M s) {a0 a1} : StaysReply q n M (execWake a0 a1 s) := by
  unfold execWake
  lift_lets
  intro t1; clear_value t1
  intro t2; clear_value t2
  with_reducible apply staysReply_done
  with_reducible apply stays_ite
  with_reducible apply stays_ite
  with_reducible apply stays_mk
  with_reducible assumption
  with_reducible assumption
  with_reducible apply onlyIf_stays
  with_reducible assumption
  intro x3
  intro x4
  with_reducible apply wakeUp_stays
  assumption
  with_reducible assumption

end Sys2Proof.Machine
end

