-- ==== Sys2Proof/Laws/KeepsPower.lean ====
section
/-!
SUPPORT. What each function of Machine/Power.lean keeps of a state: the queue, the time, the form of the registers and a condition on memory (`Stays`).
-/
set_option Elab.async false
set_option linter.all false
set_option maxRecDepth 4000
namespace Sys2Proof.Machine
variable {q : List Instr} {n : Nat} {M : List Host.Cell → Prop}

theorem loopBeat_stays {s : State} (h : Stays q n M s) : Stays q n M (loopBeat s) := by
  unfold loopBeat
  with_reducible apply stays_foldl
  with_reducible assumption
  intro x1
  intro x2
  intro x3
  with_reducible apply stays_ite
  with_reducible assumption
  with_reducible apply stays_ite
  with_reducible apply lockLoop_stays
  with_reducible assumption
  with_reducible apply setF_stays
  with_reducible assumption

theorem showPpm_stays {s : State} (h : Stays q n M s) {a1 a2} : Stays q n M (showPpm s a1 a2) := by
  unfold showPpm
  split
  with_reducible apply setF_stays
  with_reducible assumption
  with_reducible assumption

theorem moveLoops_stays {s : State} (h : Stays q n M s) : Stays q n M (moveLoops s) := by
  unfold moveLoops
  with_reducible apply stays_foldl
  with_reducible assumption
  intro x1
  intro x2
  intro x3
  with_reducible apply setF_stays
  with_reducible assumption

theorem loseXinA_stays {s : State} (h : Stays q n M s) : Stays q n M (loseXinA s) := by
  unfold loseXinA
  lift_lets
  intro t1; refine (have h1 : Stays q n M t1 := ?_; ?_) <;> [subst t1; clear_value t1]
  with_reducible apply moveLoops_stays
  with_reducible apply setF_stays
  with_reducible assumption
  with_reducible apply tellBluvisen_stays
  with_reducible apply noteAt_stays
  with_reducible assumption

theorem loseXinB_stays {s : State} (h : Stays q n M s) : Stays q n M (loseXinB s) := by
  unfold loseXinB
  lift_lets
  intro t1; clear_value t1
  intro t2; refine (have h2 : Stays q n M t2 := ?_; ?_) <;> [subst t2; clear_value t2]
  with_reducible apply setF_stays
  with_reducible apply stays_mk
  with_reducible assumption
  with_reducible apply stays_foldl
  with_reducible assumption
  intro x3
  intro x4
  intro x5
  with_reducible apply stays_ite
  with_reducible apply incF_stays
  with_reducible apply setF_stays
  with_reducible assumption
  with_reducible assumption

theorem xinBeat_stays {s : State} (h : Stays q n M s) {a1 a2} : Stays q n M (xinBeat s a1 a2) := by
  unfold xinBeat
  lift_lets
  intro t1; refine (have h1 : Stays q n M t1 := ?_; ?_) <;> [subst t1; clear_value t1]
  with_reducible apply showPpm_stays
  with_reducible apply showPpm_stays
  with_reducible assumption
  intro t2; clear_value t2
  intro t3; clear_value t3
  intro t4; refine (have h4 : Stays q n M t4 := ?_; ?_) <;> [subst t4; clear_value t4]
  with_reducible apply stays_ite
  with_reducible apply loseXinA_stays
  with_reducible assumption
  with_reducible apply stays_ite
  with_reducible apply moveLoops_stays
  with_reducible apply setF_stays
  with_reducible assumption
  with_reducible assumption
  intro t5; clear_value t5
  with_reducible apply stays_ite
  with_reducible apply loseXinB_stays
  with_reducible assumption
  with_reducible apply stays_ite
  with_reducible apply stays_mk
  with_reducible assumption
  with_reducible assumption

theorem thermalTrip_stays {s : State} (hM : MemOk M) (h : Stays q n M s) {a1 a2} : Stays q n M (thermalTrip s a1 a2) := by
  unfold thermalTrip
  lift_lets
  intro t1; clear_value t1
  intro t2; refine (have h2 : Stays q n M t2 := ?_; ?_) <;> [subst t2; clear_value t2]
  with_reducible apply noteAt_stays
  with_reducible apply account_stays
  with_reducible assumption
  intro t3; refine (have h3 : Stays q n M t3 := ?_; ?_) <;> [subst t3; clear_value t3]
  with_reducible apply setF_stays
  with_reducible apply setF_stays
  with_reducible assumption
  intro t4; refine (have h4 : Stays q n M t4 := ?_; ?_) <;> [subst t4; clear_value t4]
  with_reducible apply dropFabric_stays
  with_reducible apply stays_memNil
  with_reducible assumption
  assumption
  intro t5; clear_value t5
  intro t6; clear_value t6
  intro t7; refine (have h7 : Stays q n M t7 := ?_; ?_) <;> [subst t7; clear_value t7]
  with_reducible apply stays_mk
  with_reducible assumption
  intro t8; refine (have h8 : Stays q n M t8 := ?_; ?_) <;> [subst t8; clear_value t8]
  with_reducible apply stays_foldl
  with_reducible assumption
  intro x9
  intro x10
  intro x11
  with_reducible apply domainOff_stays
  with_reducible assumption
  intro t12; refine (have h12 : Stays q n M t12 := ?_; ?_) <;> [subst t12; clear_value t12]
  with_reducible apply stays_foldl
  with_reducible assumption
  intro x13
  intro x14
  intro x15
  with_reducible apply setF_stays
  with_reducible assumption
  intro t16; refine (have h16 : Stays q n M t16 := ?_; ?_) <;> [subst t16; clear_value t16]
  with_reducible apply stays_regsFilterOwn
  with_reducible assumption
  intro t17; clear_value t17
  intro t18; clear_value t18
  intro t19; clear_value t19
  with_reducible apply reclass_stays
  with_reducible apply stays_mk
  with_reducible assumption

theorem thermalBeat_stays {s : State} (hM : MemOk M) (h : Stays q n M s) {a1 a2 a3 a4} : Stays q n M (thermalBeat s a1 a2 a3 a4) := by
  unfold thermalBeat
  lift_lets
  intro t1; clear_value t1
  intro t2; refine (have h2 : Stays q n M t2 := ?_; ?_) <;> [subst t2; clear_value t2]
  with_reducible apply setF_stays
  with_reducible apply setF_stays
  with_reducible assumption
  intro t3; refine (have h3 : Stays q n M t3 := ?_; ?_) <;> [subst t3; clear_value t3]
  with_reducible apply setF_stays
  with_reducible apply setF_stays
  with_reducible assumption
  intro t4; refine (have h4 : Stays q n M t4 := ?_; ?_) <;> [subst t4; clear_value t4]
  with_reducible apply stays_foldl
  with_reducible assumption
  intro x5
  intro x6
  intro x7
  with_reducible apply stays_ite
  with_reducible apply setF_stays
  with_reducible assumption
  with_reducible assumption
  intro t8; clear_value t8
  intro t9; clear_value t9
  intro t10; clear_value t10
  with_reducible apply stays_ite
  with_reducible apply stays_mk
  with_reducible assumption
  with_reducible apply stays_ite
  with_reducible apply thermalTrip_stays
  assumption
  with_reducible assumption
  with_reducible apply setF_stays
  with_reducible apply stays_mk
  with_reducible assumption

theorem domainAct_stays {s : State} (hM : MemOk M) (h : Stays q n M s) {a1} : Stays q n M (domainAct s a1) := by
  unfold domainAct
  lift_lets
  intro t1; clear_value t1
  with_reducible apply stays_ite
  with_reducible apply setBoot_stays
  with_reducible apply stays_mk
  with_reducible assumption
  with_reducible apply stays_ite
  with_reducible apply stays_foldl
  with_reducible assumption
  intro x2
  intro x3
  intro x4
  with_reducible apply setF_stays
  with_reducible assumption
  with_reducible apply stays_ite
  with_reducible apply stays_ite
  with_reducible apply tellBluvisen_stays
  with_reducible apply pilotCheck_stays
  with_reducible assumption
  with_reducible apply pilotCheck_stays
  with_reducible assumption
  with_reducible apply stays_foldl
  with_reducible assumption
  intro x5
  intro x6
  intro x7
  with_reducible apply fenceDie_stays
  assumption
  with_reducible assumption

theorem execBladePairRestored_stays {s : State} (h : Stays q n M s) {a0} : StaysReply q n M (execBladePairRestored a0 s) := by
  unfold execBladePairRestored
  with_reducible apply staysReply_done
  with_reducible apply onlyIf_stays
  with_reducible assumption
  intro x1
  intro x2
  with_reducible apply setF_stays
  with_reducible apply setF_stays
  with_reducible assumption

theorem writeClkSet_stays {s : State} (h : Stays q n M s) {a1 a2 a3} : Stays q n M (writeClkSet s a1 a2 a3) := by
  unfold writeClkSet
  lift_lets
  intro t1; clear_value t1
  split
  with_reducible apply stays_ite
  with_reducible apply setF_stays
  with_reducible apply setF_stays
  with_reducible assumption
  with_reducible apply refuseAs_stays
  with_reducible assumption

theorem execClkSetWrite_stays {s : State} (h : Stays q n M s) {a0 a1} : StaysReply q n M (execClkSetWrite a0 a1 s) := by
  unfold execClkSetWrite
  with_reducible apply staysReply_done
  with_reducible apply onlyIf_stays
  with_reducible assumption
  intro x1
  intro x2
  with_reducible apply writeClkSet_stays
  with_reducible assumption

theorem execI2cBusTimeout_stays {s : State} (h : Stays q n M s) : StaysReply q n M (execI2cBusTimeout s) := by
  unfold execI2cBusTimeout
  with_reducible apply staysReply_done
  with_reducible apply onlyIf_stays
  with_reducible assumption
  intro x1
  intro x2
  with_reducible apply send_stays
  with_reducible assumption

theorem execMgmtLinkSpeed_stays {s : State} (h : Stays q n M s) {a0} : StaysReply q n M (execMgmtLinkSpeed a0 s) := by
  unfold execMgmtLinkSpeed
  with_reducible apply staysReply_done
  with_reducible apply onlyIf_stays
  with_reducible assumption
  intro x1
  intro x2
  lift_lets
  intro t3; clear_value t3
  intro t4; refine (have h4 : Stays q n M t4 := ?_; ?_) <;> [subst t4; clear_value t4]
  with_reducible apply noteAt_stays
  with_reducible assumption
  with_reducible apply stays_ite
  with_reducible apply stays_mk
  with_reducible assumption
  with_reducible apply stays_ite
  with_reducible assumption
  with_reducible apply stays_mk
  with_reducible assumption

theorem trimOsc_stays {s : State} (h : Stays q n M s) {a1} : Stays q n M (trimOsc s a1) := by
  unfold trimOsc
  lift_lets
  intro t1; clear_value t1
  with_reducible apply stays_ite
  with_reducible apply incF_stays
  with_reducible apply setF_stays
  with_reducible assumption
  with_reducible assumption

theorem execOscTrimMeasurement_stays {s : State} (h : Stays q n M s) {a0} : StaysReply q n M (execOscTrimMeasurement a0 s) := by
  unfold execOscTrimMeasurement
  lift_lets
  intro t1; clear_value t1
  intro t2; clear_value t2
  intro t3; refine (have h3 : Stays q n M t3 := ?_; ?_) <;> [subst t3; clear_value t3]
  with_reducible apply setF_stays
  with_reducible apply stays_mk
  with_reducible assumption
  intro t4; refine (have h4 : Stays q n M t4 := ?_; ?_) <;> [subst t4; clear_value t4]
  with_reducible apply setF_stays
  with_reducible apply setF_stays
  with_reducible apply stays_mk
  with_reducible assumption
  intro t5; refine (have h5 : Stays q n M t5 := ?_; ?_) <;> [subst t5; clear_value t5]
  with_reducible apply trimOsc_stays
  with_reducible assumption
  with_reducible apply staysReply_done
  with_reducible apply stays_ite
  with_reducible assumption
  with_reducible apply stays_ite
  with_reducible apply stays_foldl
  with_reducible assumption
  intro x6
  intro x7
  intro x8
  with_reducible apply stays_ite
  with_reducible apply trimWork_stays
  with_reducible assumption
  with_reducible assumption
  with_reducible apply stays_foldl
  with_reducible assumption
  intro x9
  intro x10
  intro x11
  with_reducible apply stays_ite
  with_reducible apply trimWork_stays
  with_reducible assumption
  with_reducible assumption

theorem execPowerCapSample_stays {s : State} (h : Stays q n M s) {a0 a1 a2} : StaysReply q n M (execPowerCapSample a0 a1 a2 s) := by
  unfold execPowerCapSample
  with_reducible apply staysReply_done
  with_reducible apply onlyIf_stays
  with_reducible assumption
  intro x1
  intro x2
  lift_lets
  intro t3; clear_value t3
  intro t4; clear_value t4
  intro t5; refine (have h5 : Stays q n M t5 := ?_; ?_) <;> [subst t5; clear_value t5]
  with_reducible apply stays_mk
  with_reducible assumption
  intro t6; refine (have h6 : Stays q n M t6 := ?_; ?_) <;> [subst t6; clear_value t6]
  with_reducible apply setF_stays
  with_reducible apply setF_stays
  with_reducible apply setF_stays
  with_reducible assumption
  intro t7; clear_value t7
  intro t8; clear_value t8
  intro t9; clear_value t9
  intro t10; clear_value t10
  intro t11; refine (have h11 : Stays q n M t11 := ?_; ?_) <;> [subst t11; clear_value t11]
  with_reducible apply setF_stays
  with_reducible apply stays_mk
  with_reducible assumption
  with_reducible apply incF_stays
  with_reducible assumption

theorem execPowerDomainFail_stays {s : State} (hM : MemOk M) (h : Stays q n M s) {a0} : StaysReply q n M (execPowerDomainFail a0 s) := by
  unfold execPowerDomainFail
  with_reducible apply staysReply_done
  with_reducible apply onlyIf_stays
  with_reducible assumption
  intro x1
  intro x2
  lift_lets
  intro t3; refine (have h3 : Stays q n M t3 := ?_; ?_) <;> [subst t3; clear_value t3]
  with_reducible apply setBitF_stays
  with_reducible assumption
  intro t4; refine (have h4 : Stays q n M t4 := ?_; ?_) <;> [subst t4; clear_value t4]
  with_reducible apply note_stays
  with_reducible assumption
  with_reducible apply stays_ite
  with_reducible apply coldReset_stays
  assumption
  with_reducible assumption
  with_reducible apply domainAct_stays
  assumption
  with_reducible apply domainOff_stays
  with_reducible assumption

theorem execSingleFeed_stays {s : State} (h : Stays q n M s) {a0} : StaysReply q n M (execSingleFeed a0 s) := by
  unfold execSingleFeed
  with_reducible apply staysReply_done
  with_reducible apply onlyIf_stays
  with_reducible assumption
  intro x1
  intro x2
  lift_lets
  intro t3; refine (have h3 : Stays q n M t3 := ?_; ?_) <;> [subst t3; clear_value t3]
  with_reducible apply setF_stays
  with_reducible apply setF_stays
  with_reducible assumption
  with_reducible apply tellBluvisen_stays
  with_reducible apply noteAt_stays
  with_reducible assumption

theorem execSupplyFault_stays {s : State} (hM : MemOk M) (h : Stays q n M s) {a0 a1} : StaysReply q n M (execSupplyFault a0 a1 s) := by
  unfold execSupplyFault
  with_reducible apply staysReply_done
  with_reducible apply onlyIf_stays
  with_reducible assumption
  intro x1
  intro x2
  lift_lets
  intro t3; refine (have h3 : Stays q n M t3 := ?_; ?_) <;> [subst t3; clear_value t3]
  with_reducible apply saveRated_stays
  with_reducible apply account_stays
  with_reducible apply noteAt_stays
  with_reducible assumption
  intro t4; clear_value t4
  with_reducible apply coldReset_stays
  assumption
  with_reducible apply stays_mk
  with_reducible assumption

theorem execSupplyRecovery_stays {s : State} (h : Stays q n M s) {a0} : StaysReply q n M (execSupplyRecovery a0 s) := by
  unfold execSupplyRecovery
  with_reducible apply staysReply_done
  with_reducible apply onlyIf_stays
  with_reducible assumption
  intro x1
  intro x2
  lift_lets
  intro t3; clear_value t3
  with_reducible apply stays_mk
  with_reducible assumption

theorem execThermalTripRecovery_stays {s : State} (hM : MemOk M) (h : Stays q n M s) : StaysReply q n M (execThermalTripRecovery s) := by
  unfold execThermalTripRecovery
  with_reducible apply staysReply_done
  split
  with_reducible apply onlyIf_stays
  with_reducible assumption
  intro x1
  intro x2
  with_reducible apply coldReset_stays
  assumption
  with_reducible apply account_stays
  with_reducible assumption
  with_reducible assumption

theorem execXinALost_stays {s : State} (h : Stays q n M s) {a0} : StaysReply q n M (execXinALost a0 s) := by
  unfold execXinALost
  with_reducible apply staysReply_done
  with_reducible apply onlyIf_stays
  with_reducible assumption
  intro x1
  intro x2
  with_reducible apply loseXinA_stays
  with_reducible apply showPpm_stays
  with_reducible assumption

theorem execXinBLost_stays {s : State} (h : Stays q n M s) {a0} : StaysReply q n M (execXinBLost a0 s) := by
  unfold execXinBLost
  with_reducible apply staysReply_done
  with_reducible apply onlyIf_stays
  with_reducible assumption
  intro x1
  intro x2
  with_reducible apply loseXinB_stays
  with_reducible apply showPpm_stays
  with_reducible assumption

theorem writePwrCap_stays {s : State} (h : Stays q n M s) {a1 a2} : Stays q n M (writePwrCap s a1 a2) := by
  unfold writePwrCap
  lift_lets
  intro t1; clear_value t1
  with_reducible apply stays_ite
  with_reducible apply setF_stays
  with_reducible assumption
  with_reducible apply refuseAs_stays
  with_reducible assumption

end Sys2Proof.Machine
end

