-- ==== Sys2Proof/Laws/KeepsRegisters.lean ====
section
/-!
SUPPORT. What each function of Machine/Registers.lean keeps of a state: the queue, the time, the form of the registers and a condition on memory (`Stays`).
-/
set_option Elab.async false
set_option linter.all false
set_option maxRecDepth 4000
namespace Sys2Proof.Machine
variable {q : List Instr} {n : Nat} {M : List Host.Cell → Prop}

theorem pathEnd_stays {s : State} (h : Stays q n M s) {a1} : Stays q n M (pathEnd s a1) := by
  unfold pathEnd
  with_reducible apply setF_stays
  with_reducible apply setF_stays
  with_reducible assumption

theorem pathFail_stays {s : State} (h : Stays q n M s) {a1} : Stays q n M (pathFail s a1) := by
  unfold pathFail
  lift_lets
  intro t1; clear_value t1
  with_reducible apply logAccess_stays
  with_reducible apply pathEnd_stays
  with_reducible apply stays_mk
  with_reducible assumption

theorem pathDone_stays {s : State} (h : Stays q n M s) {a1 a2} : Stays q n M (pathDone s a1 a2) := by
  unfold pathDone
  lift_lets
  intro t1; clear_value t1
  intro t2; refine (have h2 : Stays q n M t2 := ?_; ?_) <;> [subst t2; clear_value t2]
  with_reducible apply stays_mk
  with_reducible assumption
  with_reducible apply stays_ite
  with_reducible apply pathFail_stays
  with_reducible assumption
  with_reducible apply pathEnd_stays
  with_reducible apply stays_ite
  with_reducible assumption
  with_reducible apply wr_stays
  with_reducible assumption

theorem execRegPathAnswer_stays {s : State} (h : Stays q n M s) {a0 a1 a2} : StaysReply q n M (execRegPathAnswer a0 a1 a2 s) := by
  unfold execRegPathAnswer
  with_reducible apply staysReply_done
  split
  with_reducible apply onlyIf_stays
  with_reducible assumption
  intro x1
  intro x2
  with_reducible apply pathDone_stays
  with_reducible assumption
  with_reducible assumption

theorem putFields_stays {s : State} (h : Stays q n M s) {a1 a2 a3} : Stays q n M (putFields s a1 a2 a3) := by
  unfold putFields
  with_reducible apply stays_foldl
  with_reducible assumption
  intro x1
  intro x2
  intro x3
  split
  with_reducible apply wr_stays
  with_reducible assumption
  with_reducible apply wr_stays
  with_reducible assumption
  with_reducible assumption

theorem putIf_stays {s : State} (h : Stays q n M s) {a0 a2 a3 a4 a5} : Stays q n M (putIf a0 s a2 a3 a4 a5) := by
  unfold putIf
  with_reducible apply stays_ite
  with_reducible apply putFields_stays
  with_reducible assumption
  with_reducible apply refuseAs_stays
  with_reducible assumption

theorem putRing_stays {s : State} (h : Stays q n M s) {a1 a2 a3 a4 a5} : Stays q n M (putRing s a1 a2 a3 a4 a5) := by
  unfold putRing
  with_reducible apply stays_ite
  with_reducible apply writeRingCtrl_stays
  with_reducible assumption
  with_reducible apply stays_ite
  with_reducible apply writeRingConsumed_stays
  with_reducible assumption
  with_reducible apply stays_ite
  with_reducible apply stays_ite
  with_reducible assumption
  with_reducible apply putFields_stays
  with_reducible assumption
  with_reducible assumption

theorem putPath_stays {s : State} (h : Stays q n M s) {a1 a2 a3 a4} : Stays q n M (putPath s a1 a2 a3 a4) := by
  unfold putPath
  with_reducible apply putIf_stays
  with_reducible assumption

theorem putHbm_stays {s : State} (hM : MemOk M) (h : Stays q n M s) {a1 a2 a3 a4} : Stays q n M (putHbm s a1 a2 a3 a4) := by
  unfold putHbm
  with_reducible apply stays_ite
  with_reducible apply inClass_stays
  with_reducible assumption
  intro x1
  intro x2
  with_reducible apply writeRetire_stays
  assumption
  with_reducible assumption
  with_reducible apply stays_ite
  with_reducible apply writeDonate_stays
  with_reducible assumption
  with_reducible apply stays_ite
  with_reducible apply putIf_stays
  with_reducible assumption
  with_reducible apply stays_ite
  with_reducible apply putIf_stays
  with_reducible assumption
  with_reducible apply stays_ite
  with_reducible apply writeGov_stays
  with_reducible assumption
  with_reducible apply putFields_stays
  with_reducible assumption

theorem putRose_stays {s : State} (h : Stays q n M s) {a1 a2 a3 a4 a5} : Stays q n M (putRose s a1 a2 a3 a4 a5) := by
  unfold putRose
  with_reducible apply stays_ite
  with_reducible apply putIf_stays
  with_reducible assumption
  with_reducible apply stays_ite
  with_reducible apply putIf_stays
  with_reducible assumption
  with_reducible apply putFields_stays
  with_reducible assumption

theorem putUnit_stays {s : State} (h : Stays q n M s) {a1 a2 a3 a4 a5} : Stays q n M (putUnit s a1 a2 a3 a4 a5) := by
  unfold putUnit
  lift_lets
  intro t1; refine (have h1 : Stays q n M t1 := ?_; ?_) <;> [subst t1; clear_value t1]
  with_reducible apply putFields_stays
  with_reducible assumption
  with_reducible apply stays_ite
  with_reducible apply putFields_stays
  with_reducible assumption
  with_reducible apply stays_ite
  with_reducible apply refuseAs_stays
  with_reducible assumption
  with_reducible apply stays_ite
  with_reducible apply wr_stays
  with_reducible assumption
  with_reducible assumption

theorem putCrc_stays {s : State} (h : Stays q n M s) {a1 a2 a3 a4 a5} : Stays q n M (putCrc s a1 a2 a3 a4 a5) := by
  unfold putCrc
  lift_lets
  intro t1; clear_value t1
  intro t2; refine (have h2 : Stays q n M t2.2 := ?_; ?_) <;> [subst t2; clear_value t2]
  with_reducible apply stays_ite_snd
  with_reducible apply takeFree_stays
  with_reducible assumption
  dsimp only
  with_reducible assumption
  with_reducible apply stays_ite
  with_reducible apply putFields_stays
  with_reducible assumption
  with_reducible apply stays_ite
  with_reducible apply inClass_stays
  with_reducible assumption
  intro x3
  intro x4
  with_reducible apply writeCrcCtrl_stays
  with_reducible assumption
  with_reducible apply stays_ite
  with_reducible apply writeCrcData_stays
  with_reducible assumption
  with_reducible apply putUnit_stays
  with_reducible assumption

theorem putReg_stays {s : State} (hM : MemOk M) (h : Stays q n M s) {a1 a2 a3 a4 a5} : Stays q n M (putReg s a1 a2 a3 a4 a5) := by
  unfold putReg
  split
  with_reducible apply stays_ite
  with_reducible apply putIf_stays
  with_reducible assumption
  with_reducible apply stays_ite
  with_reducible apply putIf_stays
  with_reducible assumption
  with_reducible apply putFields_stays
  with_reducible assumption
  with_reducible apply stays_ite
  with_reducible apply putRing_stays
  with_reducible assumption
  with_reducible apply stays_ite
  with_reducible apply putPath_stays
  with_reducible assumption
  with_reducible apply putFields_stays
  with_reducible assumption
  with_reducible apply stays_ite
  with_reducible apply writePwrCap_stays
  with_reducible assumption
  with_reducible apply putFields_stays
  with_reducible assumption
  with_reducible apply stays_ite
  with_reducible apply writeClkSet_stays
  with_reducible assumption
  with_reducible apply putFields_stays
  with_reducible assumption
  with_reducible apply stays_ite
  with_reducible apply putIf_stays
  with_reducible assumption
  with_reducible apply putFields_stays
  with_reducible assumption
  with_reducible apply putHbm_stays
  assumption
  with_reducible assumption
  with_reducible apply putRose_stays
  with_reducible assumption
  with_reducible apply putRose_stays
  with_reducible assumption
  with_reducible apply stays_ite
  with_reducible apply writeReplayRegion_stays
  with_reducible assumption
  with_reducible apply stays_ite
  with_reducible apply putIf_stays
  with_reducible assumption
  with_reducible apply putFields_stays
  with_reducible assumption
  with_reducible apply putCrc_stays
  with_reducible assumption
  with_reducible apply stays_ite
  with_reducible apply putIf_stays
  with_reducible assumption
  with_reducible apply putFields_stays
  with_reducible assumption
  with_reducible apply putFields_stays
  with_reducible assumption

theorem regPut_stays {s : State} (hM : MemOk M) (h : Stays q n M s) {a1 a2 a3 a4} : Stays q n M (regPut s a1 a2 a3 a4) := by
  unfold regPut
  lift_lets
  intro t1; clear_value t1
  with_reducible apply stays_ite
  with_reducible apply logAccess_stays
  with_reducible assumption
  split
  with_reducible apply logAccess_stays
  with_reducible assumption
  with_reducible apply stays_ite
  with_reducible apply logAccess_stays
  with_reducible assumption
  with_reducible apply putReg_stays
  assumption
  with_reducible assumption

theorem regRead_stays {s : State} (h : Stays q n M s) {a1 a2 a3} : Stays q n M (regRead s a1 a2 a3).2 := by
  unfold regRead
  lift_lets
  intro t1; clear_value t1
  with_reducible apply stays_ite_snd
  dsimp only
  with_reducible apply logAccess_stays
  with_reducible assumption
  with_reducible apply stays_ite_snd
  dsimp only
  with_reducible apply logAccess_stays
  with_reducible assumption
  with_reducible apply stays_ite_snd
  with_reducible apply merCountRead_stays
  with_reducible assumption
  with_reducible apply stays_ite_snd
  dsimp only
  with_reducible apply logAccess_stays
  with_reducible assumption
  dsimp only
  with_reducible assumption

theorem pathServe_stays {s : State} (hM : MemOk M) (h : Stays q n M s) {a1 a2 a3} : Stays q n M (pathServe s a1 a2 a3).2.2 := by
  unfold pathServe
  split
  split
  dsimp only
  with_reducible assumption
  dsimp only
  with_reducible apply regPut_stays
  assumption
  with_reducible assumption
  dsimp only
  with_reducible apply regRead_stays
  with_reducible assumption

theorem pathGo_stays {s : State} (hM : MemOk M) (h : Stays q n M s) : Stays q n M (pathGo s) := by
  unfold pathGo
  lift_lets
  intro t1; refine (have h1 : Stays q n M t1 := ?_; ?_) <;> [subst t1; clear_value t1]
  with_reducible apply setF_stays
  with_reducible apply setF_stays
  with_reducible assumption
  intro t2; clear_value t2
  intro t3; clear_value t3
  intro t4; clear_value t4
  intro t5; clear_value t5
  with_reducible apply stays_ite
  with_reducible apply pathFail_stays
  with_reducible assumption
  with_reducible apply stays_ite
  split
  with_reducible apply pathDone_stays
  with_reducible refine stays_of_trd (by assumption) ?_
  with_reducible apply pathServe_stays
  assumption
  with_reducible assumption
  with_reducible apply stays_ite
  with_reducible apply pathFail_stays
  with_reducible assumption
  with_reducible apply sendInst_stays
  with_reducible apply stays_mk
  with_reducible assumption

theorem regWrite_stays {s : State} (hM : MemOk M) (h : Stays q n M s) {a1 a2 a3 a4} : Stays q n M (regWrite s a1 a2 a3 a4) := by
  unfold regWrite
  lift_lets
  intro t1; clear_value t1
  intro t2; refine (have h2 : Stays q n M t2 := ?_; ?_) <;> [subst t2; clear_value t2]
  with_reducible apply regPut_stays
  assumption
  with_reducible assumption
  with_reducible apply stays_ite
  with_reducible apply pathGo_stays
  assumption
  with_reducible assumption
  with_reducible assumption

theorem execRegPathRead_stays {s : State} (hM : MemOk M) (h : Stays q n M s) {a0} : StaysReply q n M (execRegPathRead a0 s) := by
  unfold execRegPathRead
  with_reducible apply staysReply_done
  with_reducible apply onlyIf_stays
  with_reducible assumption
  intro x1
  intro x2
  with_reducible apply regWrite_stays
  assumption
  with_reducible assumption

theorem execRegPathRequest_stays {s : State} (hM : MemOk M) (h : Stays q n M s) {a0 a1 a2 a3} : StaysReply q n M (execRegPathRequest a0 a1 a2 a3 s) := by
  unfold execRegPathRequest
  with_reducible apply staysReply_done
  with_reducible apply onlyIf_stays
  with_reducible assumption
  intro x1
  intro x2
  with_reducible apply sendInst_stays
  with_reducible apply pathServe_stays
  assumption
  with_reducible assumption

theorem execRegPathTimeout_stays {s : State} (h : Stays q n M s) : StaysReply q n M (execRegPathTimeout s) := by
  unfold execRegPathTimeout
  with_reducible apply staysReply_done
  split
  with_reducible apply onlyIf_stays
  with_reducible assumption
  intro x1
  intro x2
  with_reducible apply pathFail_stays
  with_reducible assumption
  with_reducible assumption

theorem execRegPathWrite_stays {s : State} (hM : MemOk M) (h : Stays q n M s) {a0} : StaysReply q n M (execRegPathWrite a0 s) := by
  unfold execRegPathWrite
  with_reducible apply staysReply_done
  with_reducible apply onlyIf_stays
  with_reducible assumption
  intro x1
  intro x2
  with_reducible apply regWrite_stays
  assumption
  with_reducible assumption

theorem execRegisterRead_stays {s : State} (h : Stays q n M s) {a0 a1 a2} : StaysReply q n M (execRegisterRead a0 a1 a2 s) := by
  unfold execRegisterRead
  with_reducible apply staysReply_done
  with_reducible apply onlyIf_stays
  with_reducible assumption
  intro x1
  intro x2
  with_reducible apply readAnswer_stays
  with_reducible apply regRead_stays
  with_reducible assumption

theorem execRegisterWrite_stays {s : State} (hM : MemOk M) (h : Stays q n M s) {a0 a1 a2 a3} : StaysReply q n M (execRegisterWrite a0 a1 a2 a3 s) := by
  unfold execRegisterWrite
  with_reducible apply staysReply_done
  with_reducible apply onlyIf_stays
  with_reducible assumption
  intro x1
  intro x2
  with_reducible apply regWrite_stays
  assumption
  with_reducible assumption

end Sys2Proof.Machine
end

