-- ==== Sys2Proof/Laws/KeepsBeat.lean ====
section
/-!
SUPPORT. What each function of Machine/Beat.lean keeps of a state: the queue, the time, the form of the registers and a condition on memory (`Stays`).
-/
set_option Elab.async false
set_option linter.all false
set_option maxRecDepth 4000
namespace Sys2Proof.Machine
variable {q : List Instr} {n : Nat} {M : List Host.Cell → Prop}

theorem mgmtBack_stays {s : State} (h : Stays q n M s) : Stays q n M (mgmtBack s) := by
  unfold mgmtBack
  lift_lets
  intro t1; clear_value t1
  split
  with_reducible apply stays_ite
  with_reducible apply stays_mk
  with_reducible assumption
  with_reducible assumption
  with_reducible assumption

theorem samplePins_stays {s : State} (h : Stays q n M s) {a1} : Stays q n M (samplePins s a1) := by
  unfold samplePins
  lift_lets
  intro t1; clear_value t1
  with_reducible apply stays_mk
  with_reducible assumption

theorem islandBeat_stays {s : State} (hM : MemOk M) (h : Stays q n M s) {a1} : Stays q n M (islandBeat s a1) := by
  unfold islandBeat
  lift_lets
  intro t1; refine (have h1 : Stays q n M t1 := ?_; ?_) <;> [subst t1; clear_value t1]
  with_reducible apply mgmtBack_stays
  with_reducible apply account_stays
  with_reducible assumption
  intro t2; refine (have h2 : Stays q n M t2 := ?_; ?_) <;> [subst t2; clear_value t2]
  with_reducible apply sendMarkers_stays
  with_reducible apply merBeat_stays
  with_reducible assumption
  intro t3; refine (have h3 : Stays q n M t3 := ?_; ?_) <;> [subst t3; clear_value t3]
  with_reducible apply loopBeat_stays
  with_reducible apply xinBeat_stays
  with_reducible assumption
  with_reducible apply samplePins_stays
  with_reducible apply govBeat_stays
  with_reducible apply thermalBeat_stays
  assumption
  with_reducible assumption

theorem watchStart_stays {s : State} (h : Stays q n M s) : Stays q n M (watchStart s) := by
  unfold watchStart
  lift_lets
  intro t1; refine (have h1 : Stays q n M t1 := ?_; ?_) <;> [subst t1; clear_value t1]
  with_reducible apply linkWatch_stays
  with_reducible apply stays_foldl
  with_reducible assumption
  intro x2
  intro x3
  intro x4
  with_reducible apply portWatch_stays
  with_reducible assumption
  intro t5; refine (have h5 : Stays q n M t5 := ?_; ?_) <;> [subst t5; clear_value t5]
  with_reducible apply startFerryKeys_stays
  with_reducible apply rotationWatch_stays
  with_reducible assumption
  with_reducible apply saveRated_stays
  with_reducible apply sendSnapshot_stays
  with_reducible assumption

theorem redrawBeat_stays {s : State} (h : Stays q n M s) : Stays q n M (redrawBeat s) := by
  unfold redrawBeat
  lift_lets
  intro t1; refine (have h1 : Stays q n M t1 := ?_; ?_) <;> [subst t1; clear_value t1]
  with_reducible apply scheduleBeat_stays
  with_reducible assumption
  split
  with_reducible apply stays_ite
  with_reducible apply holdForRedraw_stays
  with_reducible assumption
  with_reducible assumption
  with_reducible assumption

theorem fabricBeat_stays {s : State} (h : Stays q n M s) {a1 a2} : Stays q n M (fabricBeat s a1 a2) := by
  unfold fabricBeat
  lift_lets
  intro t1; refine (have h1 : Stays q n M t1 := ?_; ?_) <;> [subst t1; clear_value t1]
  with_reducible apply redrawBeat_stays
  with_reducible apply bindBeat_stays
  with_reducible assumption
  intro t2; refine (have h2 : Stays q n M t2 := ?_; ?_) <;> [subst t2; clear_value t2]
  with_reducible apply stays_foldl
  with_reducible assumption
  intro x3
  intro x4
  intro x5
  with_reducible apply portBeat_stays
  with_reducible assumption
  with_reducible apply feedBeatStart_stays
  with_reducible apply bearingBeat_stays
  with_reducible assumption

theorem beatStart_stays {s : State} (hM : MemOk M) (h : Stays q n M s) {a1} : Stays q n M (beatStart s a1) := by
  unfold beatStart
  lift_lets
  intro t1; clear_value t1
  intro t2; clear_value t2
  intro t3; refine (have h3 : Stays q n M t3 := ?_; ?_) <;> [subst t3; clear_value t3]
  with_reducible apply stays_mk
  with_reducible assumption
  intro t4; refine (have h4 : Stays q n M t4 := ?_; ?_) <;> [subst t4; clear_value t4]
  with_reducible apply islandBeat_stays
  assumption
  with_reducible assumption
  intro t5; refine (have h5 : Stays q n M t5 := ?_; ?_) <;> [subst t5; clear_value t5]
  with_reducible apply stays_ite
  with_reducible apply watchStart_stays
  with_reducible assumption
  with_reducible assumption
  intro t6; refine (have h6 : Stays q n M t6 := ?_; ?_) <;> [subst t6; clear_value t6]
  with_reducible apply stays_ite
  with_reducible apply fabricBeat_stays
  with_reducible assumption
  with_reducible assumption
  with_reducible apply reclass_stays
  with_reducible apply streamEntries_stays
  with_reducible apply closeEntries_stays
  with_reducible apply discoverLate_stays
  with_reducible assumption

theorem closeDogWatch_stays {s : State} (h : Stays q n M s) : Stays q n M (closeDogWatch s) := by
  unfold closeDogWatch
  lift_lets
  intro t1; refine (have h1 : Stays q n M t1 := ?_; ?_) <;> [subst t1; clear_value t1]
  with_reducible apply account_stays
  with_reducible assumption
  intro t2; clear_value t2
  intro t3; refine (have h3 : Stays q n M t3 := ?_; ?_) <;> [subst t3; clear_value t3]
  with_reducible apply setF_stays
  with_reducible apply stays_mk
  with_reducible assumption
  intro t4; clear_value t4
  intro t5; refine (have h5 : Stays q n M t5 := ?_; ?_) <;> [subst t5; clear_value t5]
  with_reducible apply stopRelocks_stays
  with_reducible apply stays_mk
  with_reducible assumption
  intro t6; clear_value t6
  with_reducible apply reclass_stays
  with_reducible apply stays_mk
  with_reducible assumption

theorem execBeatStart_stays {s : State} (hM : MemOk M) (h : Stays q n M s) {a0} : StaysReply q n M (execBeatStart a0 s) := by
  unfold execBeatStart
  with_reducible apply staysReply_done
  with_reducible apply onlyIf_stays
  with_reducible assumption
  intro x1
  intro x2
  with_reducible apply beatStart_stays
  assumption
  with_reducible assumption

theorem execDogWatchClose_stays {s : State} (h : Stays q n M s) : StaysReply q n M (execDogWatchClose s) := by
  unfold execDogWatchClose
  with_reducible apply staysReply_done
  split
  with_reducible apply onlyIf_stays
  with_reducible assumption
  intro x1
  intro x2
  with_reducible apply closeDogWatch_stays
  with_reducible assumption
  with_reducible assumption

theorem holdStarts_stays {s : State} (h : Stays q n M s) {a1 a2} : Stays q n M (holdStarts s a1 a2) := by
  unfold holdStarts
  lift_lets
  intro t1; clear_value t1
  with_reducible apply stays_mk
  with_reducible assumption

theorem openDogWatch_stays {s : State} (h : Stays q n M s) {a1} : Stays q n M (openDogWatch s a1) := by
  unfold openDogWatch
  lift_lets
  intro t1; clear_value t1
  intro t2; clear_value t2
  intro t3; refine (have h3 : Stays q n M t3 := ?_; ?_) <;> [subst t3; clear_value t3]
  with_reducible apply setF_stays
  with_reducible apply stays_mk
  with_reducible assumption
  intro t4; refine (have h4 : Stays q n M t4 := ?_; ?_) <;> [subst t4; clear_value t4]
  with_reducible apply holdStarts_stays
  with_reducible apply showDogWatch_stays
  with_reducible assumption
  intro t5; refine (have h5 : Stays q n M t5 := ?_; ?_) <;> [subst t5; clear_value t5]
  with_reducible apply stays_ite
  with_reducible apply setSourcing_stays
  with_reducible assumption
  with_reducible assumption
  intro t6; refine (have h6 : Stays q n M t6 := ?_; ?_) <;> [subst t6; clear_value t6]
  with_reducible apply placeTests_stays
  with_reducible apply startVerify_stays
  with_reducible apply startRelocks_stays
  with_reducible assumption
  with_reducible apply auditBegin_stays
  with_reducible assumption

theorem execDogWatchOpen_stays {s : State} (h : Stays q n M s) : StaysReply q n M (execDogWatchOpen s) := by
  unfold execDogWatchOpen
  with_reducible apply staysReply_done
  split
  with_reducible apply onlyIf_stays
  with_reducible assumption
  intro x1
  intro x2
  with_reducible apply openDogWatch_stays
  with_reducible assumption
  with_reducible assumption

end Sys2Proof.Machine
end

