-- ==== Sys2Proof/Laws/KeepsTick.lean ====
section
/-!
SUPPORT. What each function of Machine/Tick.lean keeps of a state: the queue, the time, the form of the registers and a condition on memory (`Stays`).
-/
set_option Elab.async false
set_option linter.all false
set_option maxRecDepth 4000
namespace Sys2Proof.Machine
variable {q : List Instr} {n : Nat} {M : List Host.Cell → Prop}

theorem tickHolds_stays {s : State} (h : Stays q n M s) : Stays q n M (tickHolds s) := by
  unfold tickHolds
  with_reducible apply stays_foldl
  with_reducible assumption
  intro x1
  intro x2
  intro x3
  split
  with_reducible apply stays_ite
  with_reducible apply pump_stays
  with_reducible assumption
  with_reducible assumption
  with_reducible assumption

theorem tickRings_stays {s : State} (h : Stays q n M s) : Stays q n M (tickRings s) := by
  unfold tickRings
  with_reducible apply stays_foldl
  with_reducible assumption
  intro x1
  intro x2
  intro x3
  lift_lets
  intro t4; clear_value t4
  with_reducible apply stays_ite
  with_reducible apply msix_stays
  with_reducible apply stays_mk
  with_reducible assumption
  with_reducible assumption

/-- One nanosecond keeps the queue, the form of the registers and any condition on memory, and the time is one more. -/
theorem tick_stays {s : State} (h : Stays q n M s) : Stays q (n + 1) M (tick s) := by
  unfold tick
  apply tickHolds_stays
  apply tickRings_stays
  have hw := noteWaits_stays h
  exact ⟨hw.pend, by simp [h.time], hw.mem, hw.regs⟩

end Sys2Proof.Machine
end

