-- ==== Sys2Proof/WellFormed.lean ====
section
/-!
DEFINITION. When a command is well formed: every operand lies in the range the manual gives its field. The machine is total on the rest: a command that names no port, unit or place has no effect (DESIGN CHOICE, assumption log 4).
-/
namespace Sys2Proof

open Sys2Proof.Machine

/-! ### Ranges of operands -/

/-- A Darend port (14 R394). -/
def portOk (p : Nat) : Bool := p < 32
/-- A slot of the command aperture (03 R43). -/
def slotOk (n : Nat) : Bool := n < 64
/-- An offset in the command aperture (22 R663: 512 KiB of BAR0). -/
def apertureOk (n : Nat) : Bool := n < 0x80000
/-- A completion ring (03 R78). -/
def ringOk (n : Nat) : Bool := n < 16
/-- A stream number, or the queue of KEY_INSTALL (03 R41, 18 R547). -/
def streamOk (q : Nat) : Bool := q ≤ 256
/-- A check-value unit (11 R305). -/
def unitOk (u : Nat) : Bool := u < 8
/-- The width of a register access in bytes (00 R6). -/
def widthOk (w : Nat) : Bool := w == 4 || w == 8
/-- A physical address of 48 bits (23 R684). -/
def addressOk (a : Nat) : Bool := a < 2 ^ 48
/-- An enabled array slot (19 R567, kind 0x3). -/
def arrayOk (n : Nat) : Bool := n < 96
/-- A vector engine (19 R567, kind 0x5). -/
def engineOk (n : Nat) : Bool := n < 16
/-- An embedding engine (kind 0x6). -/
def embEngineOk (n : Nat) : Bool := n < 4
/-- An update engine (kind 0x7). -/
def updateEngineOk (n : Nat) : Bool := n < 32
/-- A reduction channel (07 R188). -/
def channelOk (n : Nat) : Bool := n < 4
/-- A traffic class of the governors (12 R349). -/
def classOk (n : Nat) : Bool := n < 6
/-- A compute die. -/
def dieOk (n : Nat) : Bool := n < 4
/-- An Arbor link (13 R369). -/
def linkOk (l : Nat) : Bool := l < 6
/-- A lane group of a link: 384 on a compute-die link, 64 on a Rose link (13 R369). -/
def flitGroupOk (l g : Nat) : Bool := g < (if l < 4 then 384 else 64)
/-- A flit sequence number (13 R371). -/
def flitSeqOk (n : Nat) : Bool := n < 4096
/-- A credit pool of a link (13 R374). -/
def poolOk (n : Nat) : Bool := n < 5
/-- A logical lane of a port (14 R394). -/
def laneOk (n : Nat) : Bool := n < 8
/-- A wavelength (14 R394). -/
def waveOk (k : Nat) : Bool := k < 9
/-- A wavelength of LANE_CHANGE, or 15 for none (14 R411). -/
def waveOrNoneOk (k : Nat) : Bool := k < 9 || k == 15
/-- An action of LANE_CHANGE (14 R411). -/
def actionOk (a : Nat) : Bool := a < 4
/-- A duration of HOLD in µs (14 R409). -/
def holdOk (us : Nat) : Bool := us ≤ 256
/-- A frame header (14 R400). -/
def headerOk (b : Bytes) : Bool := b.length == 16
/-- A half of an identity block, as HELLO0 and HELLO1 carry it (14 R396, R412). -/
def identityOk (b : Bytes) : Bool := b.length == 31
/-- A ring of the rose switches: die, kind, port and wavelength (15 R460). -/
def roseRingOk (n : Nat) : Bool := n < 2048 && n % 1024 / 256 < 3 && n % 16 < 9
/-- A Lantern line (15 R447). -/
def lineOk (n : Nat) : Bool := n < 9
/-- A multiplying loop with a frequency register (21 R655). -/
def loopOk (n : Nat) : Bool := n < 7
/-- A power domain (21 R629). -/
def domainOk (n : Nat) : Bool := n < 20
/-- A fabric ID (16 R469). -/
def fidOk (n : Nat) : Bool := n < 2 ^ 16
/-- A source number (19 R567). -/
def sourceOk (n : Nat) : Bool := n < 2 ^ 16
/-- A nonce (18 R540, R551). -/
def nonceOk (b : Bytes) : Bool := b.length == 32
/-- The digest of an image (20 R610). -/
def digestOk (b : Bytes) : Bool := b.length == 32
/-- An ML-DSA-65 signature (16 R466). -/
def signatureOk (b : Bytes) : Bool := b.length == 3309
/-- An ML-KEM-1024 ciphertext (18 R543). -/
def ciphertextOk (b : Bytes) : Bool := b.length == 1568
/-- A part of an image (20 R609). -/
def chunkOk (b : Bytes) : Bool := b.length ≤ 1024
/-- A part of a document (16 R475). -/
def documentPartOk (b : Bytes) : Bool := b.length ≤ 1984
/-- A speed of the management port in Mb/s (22 R665). -/
def speedOk (n : Nat) : Bool := n ≤ 1000
/-- Fields of 32, 64 and 128 bits. -/
def word32 (n : Nat) : Bool := n < 2 ^ 32
def word64 (n : Nat) : Bool := n < 2 ^ 64
def word128 (n : Nat) : Bool := n < 2 ^ 128

/-- Whether a command is well formed. -/
def Instr.wellFormed (i : Instr) : Bool :=
  match i with
  | .registerWrite _ addr _ _ => addressOk addr
  | .merCountRead _ _ => true
  | .beatStart _ => true
  | .superframeMarker m => portOk m.port
  | .holdoverEntry => true
  | .adriftEntry => true
  | .deputyTakeover => true
  | .merPpsEdge count => word64 count
  | .refLost _ => true
  | .dogWatchOpen => true
  | .dogWatchClose => true
  | .commandSlotWrite offset _ => apertureOk offset
  | .slotTimeout slot => slotOk slot
  | .slotQuietExpiry slot => slotOk slot
  | .nop => true
  | .fenceOnly => true
  | .setStream => true
  | .abort => true
  | .clearStream => true
  | .queryStream => true
  | .commandStart stream counter => streamOk stream && word64 counter
  | .waitTimeout stream counter => streamOk stream && word64 counter
  | .commandRetire stream counter _ => streamOk stream && word64 counter
  | .ringFullWait ring => ringOk ring
  | .commandStop stream counter => streamOk stream && word64 counter
  | .commandTimeout stream counter => streamOk stream && word64 counter
  | .cmdRingCtrlWrite ring _ => ringOk ring
  | .cmdRingConsumedWrite ring _ => ringOk ring
  | .copy _ => true
  | .fill _ => true
  | .dataIn _ => true
  | .dataOut _ => true
  | .matmul => true
  | .load array _ => arrayOk array
  | .pass array _ => arrayOk array
  | .tileHandoff stream counter _ _ _ => streamOk stream && word64 counter
  | .tileDrain stream counter _ _ => streamOk stream && word64 counter
  | .vernierVerdict stream counter _ _ => streamOk stream && word64 counter
  | .thirdReading stream counter _ => streamOk stream && word64 counter
  | .thirdReadingSettled stream counter _ _ => streamOk stream && word64 counter
  | .laneProgram => true
  | .laneNop engine _ => engineOk engine
  | .mov engine _ => engineOk engine
  | .ldc engine _ => engineOk engine
  | .lid engine _ => engineOk engine
  | .ld engine _ => engineOk engine
  | .st engine _ => engineOk engine
  | .red engine _ => engineOk engine
  | .rdr engine _ => engineOk engine
  | .rnd engine _ => engineOk engine
  | .fadd engine _ => engineOk engine
  | .fsub engine _ => engineOk engine
  | .fmul engine _ => engineOk engine
  | .fma engine _ => engineOk engine
  | .fmax engine _ => engineOk engine
  | .fmin engine _ => engineOk engine
  | .fabs engine _ => engineOk engine
  | .fneg engine _ => engineOk engine
  | .fsel engine _ => engineOk engine
  | .fcmp engine _ => engineOk engine
  | .frnd engine _ => engineOk engine
  | .frcp engine _ => engineOk engine
  | .frsqrt engine _ => engineOk engine
  | .fsqrt engine _ => engineOk engine
  | .fexp2 engine _ => engineOk engine
  | .flog2 engine _ => engineOk engine
  | .fsigm engine _ => engineOk engine
  | .ftanh engine _ => engineOk engine
  | .ferf engine _ => engineOk engine
  | .iadd engine _ => engineOk engine
  | .iand engine _ => engineOk engine
  | .ior engine _ => engineOk engine
  | .ixor engine _ => engineOk engine
  | .ishl engine _ => engineOk engine
  | .ishr engine _ => engineOk engine
  | .reductionRowResult engine channel _ => engineOk engine && channelOk channel
  | .embGather => true
  | .embScatterAdd => true
  | .embRequest port xid source digest _ _ _ => portOk port && word64 xid && fidOk source && word64 digest
  | .embResponse xid source digest _ _ => word64 xid && fidOk source && word64 digest
  | .embContribution port xid digest _ _ => portOk port && word64 xid && word64 digest
  | .embEnd port xid source digest count => portOk port && word64 xid && fidOk source && word64 digest && word64 count
  | .embStop port xid source digest => portOk port && word64 xid && fidOk source && word64 digest
  | .embStalled stream counter _ => streamOk stream && word64 counter
  | .relay _ => true
  | .relayFrame port _ _ => portOk port
  | .heldFrameExpiry _ => true
  | .hopTimeout stream counter => streamOk stream && word64 counter
  | .update => true
  | .updateBlock engine _ => updateEngineOk engine
  | .setDrawCounter => true
  | .ferryOut _ => true
  | .ferryBlock f => portOk f.port
  | .ferryVoid port _ => portOk port
  | .commit => true
  | .escapementSeal _ => true
  | .voteFrame _ => true
  | .decisionFrame _ _ => true
  | .commitBeat => true
  | .release => true
  | .inDoubtEntry => true
  | .decisionRequest => true
  | .escInDoubt => true
  | .crcGo unit _ => unitOk unit
  | .crcStop unit _ taken _ => unitOk unit && word64 taken
  | .crcCheck unit _ => unitOk unit
  | .crcData unit width _ => unitOk unit && widthOk width
  | .crcScanEnd unit _ _ => unitOk unit
  | .scrubRead _ => true
  | .hbmRetire _ _ => true
  | .hbmDonate _ => true
  | .hbmGovWrite cls _ => classOk cls
  | .flit link _ group _ control => linkOk link && word128 control && flitGroupOk link group
  | .spareReq link _ group _ seq => linkOk link && flitSeqOk seq && flitGroupOk link group
  | .spareAck link _ group _ seq => linkOk link && flitSeqOk seq && flitGroupOk link group
  | .halfReq link _ seq => linkOk link && flitSeqOk seq
  | .halfAck link _ seq => linkOk link && flitSeqOk seq
  | .creditProbe link _ => linkOk link
  | .creditReport link _ _ => linkOk link
  | .creditTimeout link _ cls => linkOk link && poolOk cls
  | .linkRetrain link _ => linkOk link
  | .darendFrame port f => portOk port && headerOk f.header
  | .ack port _ => portOk port
  | .align port a => portOk port && waveOk a.filter
  | .hello0 port b => portOk port && identityOk b
  | .hello1 port b => portOk port && identityOk b
  | .hold port beat durationUs _ => portOk port && word64 beat && holdOk durationUs
  | .laneChange port action logical wavelength _ => portOk port && actionOk action && laneOk logical && waveOrNoneOk wavelength
  | .laneRestripe port _ logical => portOk port && laneOk logical
  | .replayTimeout port => portOk port
  | .portLostTimeout port => portOk port
  | .holdResumeTimeout port => portOk port
  | .trainingTimeout port => portOk port
  | .identityResend port => portOk port
  | .keyRotation => true
  | .oldKeyExpiry => true
  | .drdReplayRegionWrite _ => true
  | .redraw => true
  | .redrawSettled _ => true
  | .ringSweep ring _ => roseRingOk ring
  | .lanternAlert _ _ => true
  | .lanternBusTimeout => true
  | .laserSpareIn line => lineOk line
  | .chart _ => true
  | .chartAmendment _ => true
  | .sliceAllocation _ => true
  | .sliceTableSet _ => true
  | .chartEffect => true
  | .chartAmendmentEffect => true
  | .sliceAllocationEffect => true
  | .sliceTableSetEffect => true
  | .chartReq port epoch => portOk port && word64 epoch
  | .chartChunk port _ epoch _ count data => portOk port && word64 epoch && word64 count && documentPartOk data
  | .parityDelta _ => true
  | .parityDeltaAck fid unit _ _ => fidOk fid && word64 unit
  | .readingRequest fid _ _ step _ _ => fidOk fid && word64 step
  | .reading fid _ _ _ _ => fidOk fid
  | .snapshotOut _ => true
  | .standIn => true
  | .attest => true
  | .keyInstall => true
  | .sliceRelease _ => true
  | .selfTest _ => true
  | .calibrate _ => true
  | .deferredFollowUp _ _ => true
  | .deferredTimeout _ => true
  | .attestationRequest nonce => nonceOk nonce
  | .enrolment _ _ _ sig => signatureOk sig
  | .authorityHandover _ sig => signatureOk sig
  | .debugUnlock sig => signatureOk sig
  | .bindRequest nonce => nonceOk nonce
  | .bindOfferExpiry => true
  | .bindAcceptance _ => true
  | .kxHello port _ _ => portOk port
  | .kxCt port _ ct _ => portOk port && ciphertextOk ct
  | .keySetupTimeout port => portOk port
  | .sliceKeyConfirmation port _ => portOk port
  | .collectorAck seq => word32 seq
  | .logResendTimeout => true
  | .heartbeat => true
  | .mgmtWatchdog _ => true
  | .engineOperationTimeout source => sourceOk source
  | .computeDieReset die => dieOk die
  | .moduleWarmRestart _ => true
  | .coldStart _ => true
  | .modReset _ => true
  | .recoveryImageLength length _ _ => word64 length
  | .recoveryChunk _ data => chunkOk data
  | .recoveryDone length _ => word64 length
  | .firmwareUpdateOrder o => digestOk o.digest
  | .pilotSelChange _ => true
  | .pcieReset => true
  | .anchorOrder o => word64 o.orderId
  | .anchorEnterBeat => true
  | .anchorEntry => true
  | .anchorEntryTimeout => true
  | .wake _ _ => true
  | .powerDomainFail domain => domainOk domain
  | .xinALost _ => true
  | .xinBLost _ => true
  | .oscTrimMeasurement _ => true
  | .clkSetWrite loop _ => loopOk loop
  | .supplyFault _ _ => true
  | .supplyRecovery _ => true
  | .singleFeed _ => true
  | .powerCapSample _ _ _ => true
  | .thermalTripRecovery => true
  | .i2cBusTimeout => true
  | .mgmtLinkSpeed mbps => speedOk mbps
  | .regPathRead _ => true
  | .regPathWrite _ => true
  | .regPathRequest src _ addr _ => fidOk src && addressOk addr
  | .regPathAnswer src _ _ => fidOk src
  | .regPathTimeout => true
  | .registerRead _ addr _ => addressOk addr
  | .ptpMessage _ => true
  | .laneOut port logical _ => portOk port && laneOk logical
  | .helloResend port => portOk port
  | .decisionRequestReceipt fid step => fidOk fid && word64 step
  | .digestFetchRequest fid step => fidOk fid && word64 step
  | .digestFetchAnswer step _ => word64 step
  | .retirementEnd _ => true
  | .debugAccess addr _ _ => addressOk addr
  | .updateRestartWaitExpiry => true
  | .bladePairRestored _ => true
  | .embLookup engine _ => embEngineOk engine

/-- The Darend ports a command names. -/
def Instr.ports (i : Instr) : List Nat :=
  match i with
  | .registerWrite _ _ _ _ => []
  | .merCountRead _ _ => []
  | .beatStart _ => []
  | .superframeMarker m => [m.port]
  | .holdoverEntry => []
  | .adriftEntry => []
  | .deputyTakeover => []
  | .merPpsEdge _ => []
  | .refLost _ => []
  | .dogWatchOpen => []
  | .dogWatchClose => []
  | .commandSlotWrite _ _ => []
  | .slotTimeout _ => []
  | .slotQuietExpiry _ => []
  | .nop => []
  | .fenceOnly => []
  | .setStream => []
  | .abort => []
  | .clearStream => []
  | .queryStream => []
  | .commandStart _ _ => []
  | .waitTimeout _ _ => []
  | .commandRetire _ _ _ => []
  | .ringFullWait _ => []
  | .commandStop _ _ => []
  | .commandTimeout _ _ => []
  | .cmdRingCtrlWrite _ _ => []
  | .cmdRingConsumedWrite _ _ => []
  | .copy _ => []
  | .fill _ => []
  | .dataIn _ => []
  | .dataOut _ => []
  | .matmul => []
  | .load _ _ => []
  | .pass _ _ => []
  | .tileHandoff _ _ _ _ _ => []
  | .tileDrain _ _ _ _ => []
  | .vernierVerdict _ _ _ _ => []
  | .thirdReading _ _ _ => []
  | .thirdReadingSettled _ _ _ _ => []
  | .laneProgram => []
  | .laneNop _ _ => []
  | .mov _ _ => []
  | .ldc _ _ => []
  | .lid _ _ => []
  | .ld _ _ => []
  | .st _ _ => []
  | .red _ _ => []
  | .rdr _ _ => []
  | .rnd _ _ => []
  | .fadd _ _ => []
  | .fsub _ _ => []
  | .fmul _ _ => []
  | .fma _ _ => []
  | .fmax _ _ => []
  | .fmin _ _ => []
  | .fabs _ _ => []
  | .fneg _ _ => []
  | .fsel _ _ => []
  | .fcmp _ _ => []
  | .frnd _ _ => []
  | .frcp _ _ => []
  | .frsqrt _ _ => []
  | .fsqrt _ _ => []
  | .fexp2 _ _ => []
  | .flog2 _ _ => []
  | .fsigm _ _ => []
  | .ftanh _ _ => []
  | .ferf _ _ => []
  | .iadd _ _ => []
  | .iand _ _ => []
  | .ior _ _ => []
  | .ixor _ _ => []
  | .ishl _ _ => []
  | .ishr _ _ => []
  | .reductionRowResult _ _ _ => []
  | .embGather => []
  | .embScatterAdd => []
  | .embRequest port _ _ _ _ _ _ => [port]
  | .embResponse _ _ _ _ _ => []
  | .embContribution port _ _ _ _ => [port]
  | .embEnd port _ _ _ _ => [port]
  | .embStop port _ _ _ => [port]
  | .embStalled _ _ _ => []
  | .relay _ => []
  | .relayFrame port _ _ => [port]
  | .heldFrameExpiry _ => []
  | .hopTimeout _ _ => []
  | .update => []
  | .updateBlock _ _ => []
  | .setDrawCounter => []
  | .ferryOut _ => []
  | .ferryBlock f => [f.port]
  | .ferryVoid port _ => [port]
  | .commit => []
  | .escapementSeal _ => []
  | .voteFrame _ => []
  | .decisionFrame _ _ => []
  | .commitBeat => []
  | .release => []
  | .inDoubtEntry => []
  | .decisionRequest => []
  | .escInDoubt => []
  | .crcGo _ _ => []
  | .crcStop _ _ _ _ => []
  | .crcCheck _ _ => []
  | .crcData _ _ _ => []
  | .crcScanEnd _ _ _ => []
  | .scrubRead _ => []
  | .hbmRetire _ _ => []
  | .hbmDonate _ => []
  | .hbmGovWrite _ _ => []
  | .flit _ _ _ _ _ => []
  | .spareReq _ _ _ _ _ => []
  | .spareAck _ _ _ _ _ => []
  | .halfReq _ _ _ => []
  | .halfAck _ _ _ => []
  | .creditProbe _ _ => []
  | .creditReport _ _ _ => []
  | .creditTimeout _ _ _ => []
  | .linkRetrain _ _ => []
  | .darendFrame port _ => [port]
  | .ack port _ => [port]
  | .align port _ => [port]
  | .hello0 port _ => [port]
  | .hello1 port _ => [port]
  | .hold port _ _ _ => [port]
  | .laneChange port _ _ _ _ => [port]
  | .laneRestripe port _ _ => [port]
  | .replayTimeout port => [port]
  | .portLostTimeout port => [port]
  | .holdResumeTimeout port => [port]
  | .trainingTimeout port => [port]
  | .identityResend port => [port]
  | .keyRotation => []
  | .oldKeyExpiry => []
  | .drdReplayRegionWrite _ => []
  | .redraw => []
  | .redrawSettled _ => []
  | .ringSweep _ _ => []
  | .lanternAlert _ _ => []
  | .lanternBusTimeout => []
  | .laserSpareIn _ => []
  | .chart _ => []
  | .chartAmendment _ => []
  | .sliceAllocation _ => []
  | .sliceTableSet _ => []
  | .chartEffect => []
  | .chartAmendmentEffect => []
  | .sliceAllocationEffect => []
  | .sliceTableSetEffect => []
  | .chartReq port _ => [port]
  | .chartChunk port _ _ _ _ _ => [port]
  | .parityDelta _ => []
  | .parityDeltaAck _ _ _ _ => []
  | .readingRequest _ _ _ _ _ _ => []
  | .reading _ _ _ _ _ => []
  | .snapshotOut _ => []
  | .standIn => []
  | .attest => []
  | .keyInstall => []
  | .sliceRelease _ => []
  | .selfTest _ => []
  | .calibrate _ => []
  | .deferredFollowUp _ _ => []
  | .deferredTimeout _ => []
  | .attestationRequest _ => []
  | .enrolment _ _ _ _ => []
  | .authorityHandover _ _ => []
  | .debugUnlock _ => []
  | .bindRequest _ => []
  | .bindOfferExpiry => []
  | .bindAcceptance _ => []
  | .kxHello port _ _ => [port]
  | .kxCt port _ _ _ => [port]
  | .keySetupTimeout port => [port]
  | .sliceKeyConfirmation port _ => [port]
  | .collectorAck _ => []
  | .logResendTimeout => []
  | .heartbeat => []
  | .mgmtWatchdog _ => []
  | .engineOperationTimeout _ => []
  | .computeDieReset _ => []
  | .moduleWarmRestart _ => []
  | .coldStart _ => []
  | .modReset _ => []
  | .recoveryImageLength _ _ _ => []
  | .recoveryChunk _ _ => []
  | .recoveryDone _ _ => []
  | .firmwareUpdateOrder _ => []
  | .pilotSelChange _ => []
  | .pcieReset => []
  | .anchorOrder _ => []
  | .anchorEnterBeat => []
  | .anchorEntry => []
  | .anchorEntryTimeout => []
  | .wake _ _ => []
  | .powerDomainFail _ => []
  | .xinALost _ => []
  | .xinBLost _ => []
  | .oscTrimMeasurement _ => []
  | .clkSetWrite _ _ => []
  | .supplyFault _ _ => []
  | .supplyRecovery _ => []
  | .singleFeed _ => []
  | .powerCapSample _ _ _ => []
  | .thermalTripRecovery => []
  | .i2cBusTimeout => []
  | .mgmtLinkSpeed _ => []
  | .regPathRead _ => []
  | .regPathWrite _ => []
  | .regPathRequest _ _ _ _ => []
  | .regPathAnswer _ _ _ => []
  | .regPathTimeout => []
  | .registerRead _ _ _ => []
  | .ptpMessage _ => []
  | .laneOut port _ _ => [port]
  | .helloResend port => [port]
  | .decisionRequestReceipt _ _ => []
  | .digestFetchRequest _ _ => []
  | .digestFetchAnswer _ _ => []
  | .retirementEnd _ => []
  | .debugAccess _ _ _ => []
  | .updateRestartWaitExpiry => []
  | .bladePairRestored _ => []
  | .embLookup _ _ => []

end Sys2Proof
end

