-- ==== Sys2Proof/Laws/PerInstr.lean ====
section
/-!
SUPPORT. Statements about every command as syntax, one lemma per constructor.
-/
set_option Elab.async false

open Sys2Proof.Machine

namespace Sys2Proof.Laws.Ports

/-- A well-formed command names only the ports 0 to 31 (14 R394). -/
def Statement (i : Instr) : Prop := i.wellFormed = true → ∀ p ∈ i.ports, p < 32

theorem registerWrite (req : Requester) (addr : Nat) (width : Nat) (value : Word) : Statement (.registerWrite req addr width value) := by simp [Statement, Instr.ports]
theorem merCountRead (req : Requester) (upper : Bool) : Statement (.merCountRead req upper) := by simp [Statement, Instr.ports]
theorem beatStart (x : BeatIn) : Statement (.beatStart x) := by simp [Statement, Instr.ports]
theorem superframeMarker (m : MarkerIn) : Statement (.superframeMarker m) := by
  simp [Statement, Instr.wellFormed, Instr.ports, portOk]
theorem holdoverEntry  : Statement (.holdoverEntry ) := by simp [Statement, Instr.ports]
theorem adriftEntry  : Statement (.adriftEntry ) := by simp [Statement, Instr.ports]
theorem deputyTakeover  : Statement (.deputyTakeover ) := by simp [Statement, Instr.ports]
theorem merPpsEdge (count : Nat) : Statement (.merPpsEdge count) := by simp [Statement, Instr.ports]
theorem refLost (lost : Bool) : Statement (.refLost lost) := by simp [Statement, Instr.ports]
theorem dogWatchOpen  : Statement (.dogWatchOpen ) := by simp [Statement, Instr.ports]
theorem dogWatchClose  : Statement (.dogWatchClose ) := by simp [Statement, Instr.ports]
theorem commandSlotWrite (offset : Nat) (data : Bytes) : Statement (.commandSlotWrite offset data) := by simp [Statement, Instr.ports]
theorem slotTimeout (slot : Nat) : Statement (.slotTimeout slot) := by simp [Statement, Instr.ports]
theorem slotQuietExpiry (slot : Nat) : Statement (.slotQuietExpiry slot) := by simp [Statement, Instr.ports]
theorem nop  : Statement (.nop ) := by simp [Statement, Instr.ports]
theorem fenceOnly  : Statement (.fenceOnly ) := by simp [Statement, Instr.ports]
theorem setStream  : Statement (.setStream ) := by simp [Statement, Instr.ports]
theorem abort  : Statement (.abort ) := by simp [Statement, Instr.ports]
theorem clearStream  : Statement (.clearStream ) := by simp [Statement, Instr.ports]
theorem queryStream  : Statement (.queryStream ) := by simp [Statement, Instr.ports]
theorem commandStart (stream : Nat) (counter : Nat) : Statement (.commandStart stream counter) := by simp [Statement, Instr.ports]
theorem waitTimeout (stream : Nat) (counter : Nat) : Statement (.waitTimeout stream counter) := by simp [Statement, Instr.ports]
theorem commandRetire (stream : Nat) (counter : Nat) (placeHeld : Bool) : Statement (.commandRetire stream counter placeHeld) := by simp [Statement, Instr.ports]
theorem ringFullWait (ring : Nat) : Statement (.ringFullWait ring) := by simp [Statement, Instr.ports]
theorem commandStop (stream : Nat) (counter : Nat) : Statement (.commandStop stream counter) := by simp [Statement, Instr.ports]
theorem commandTimeout (stream : Nat) (counter : Nat) : Statement (.commandTimeout stream counter) := by simp [Statement, Instr.ports]
theorem cmdRingCtrlWrite (ring : Nat) (value : Word) : Statement (.cmdRingCtrlWrite ring value) := by simp [Statement, Instr.ports]
theorem cmdRingConsumedWrite (ring : Nat) (value : Word) : Statement (.cmdRingConsumedWrite ring value) := by simp [Statement, Instr.ports]
theorem copy (a : CmdArg) : Statement (.copy a) := by simp [Statement, Instr.ports]
theorem fill (a : CmdArg) : Statement (.fill a) := by simp [Statement, Instr.ports]
theorem dataIn (a : CmdArg) : Statement (.dataIn a) := by simp [Statement, Instr.ports]
theorem dataOut (a : CmdArg) : Statement (.dataOut a) := by simp [Statement, Instr.ports]
theorem matmul  : Statement (.matmul ) := by simp [Statement, Instr.ports]
theorem load (array : Nat) (ups : List Upset) : Statement (.load array ups) := by simp [Statement, Instr.ports]
theorem pass (array : Nat) (ups : List Upset) : Statement (.pass array ups) := by simp [Statement, Instr.ports]
theorem tileHandoff (stream : Nat) (counter : Nat) (tile : Nat) (third : Bool) (member : Nat) : Statement (.tileHandoff stream counter tile third member) := by simp [Statement, Instr.ports]
theorem tileDrain (stream : Nat) (counter : Nat) (tile : Nat) (ups : List Upset) : Statement (.tileDrain stream counter tile ups) := by simp [Statement, Instr.ports]
theorem vernierVerdict (stream : Nat) (counter : Nat) (tile : Nat) (third : Bool) : Statement (.vernierVerdict stream counter tile third) := by simp [Statement, Instr.ports]
theorem thirdReading (stream : Nat) (counter : Nat) (tile : Nat) : Statement (.thirdReading stream counter tile) := by simp [Statement, Instr.ports]
theorem thirdReadingSettled (stream : Nat) (counter : Nat) (tile : Nat) (ups : List Upset) : Statement (.thirdReadingSettled stream counter tile ups) := by simp [Statement, Instr.ports]
theorem laneProgram  : Statement (.laneProgram ) := by simp [Statement, Instr.ports]
theorem laneNop (engine : Nat) (ups : List Upset) : Statement (.laneNop engine ups) := by simp [Statement, Instr.ports]
theorem mov (engine : Nat) (ups : List Upset) : Statement (.mov engine ups) := by simp [Statement, Instr.ports]
theorem ldc (engine : Nat) (ups : List Upset) : Statement (.ldc engine ups) := by simp [Statement, Instr.ports]
theorem lid (engine : Nat) (ups : List Upset) : Statement (.lid engine ups) := by simp [Statement, Instr.ports]
theorem ld (engine : Nat) (ups : List Upset) : Statement (.ld engine ups) := by simp [Statement, Instr.ports]
theorem st (engine : Nat) (ups : List Upset) : Statement (.st engine ups) := by simp [Statement, Instr.ports]
theorem red (engine : Nat) (ups : List Upset) : Statement (.red engine ups) := by simp [Statement, Instr.ports]
theorem rdr (engine : Nat) (ups : List Upset) : Statement (.rdr engine ups) := by simp [Statement, Instr.ports]
theorem rnd (engine : Nat) (ups : List Upset) : Statement (.rnd engine ups) := by simp [Statement, Instr.ports]
theorem fadd (engine : Nat) (ups : List Upset) : Statement (.fadd engine ups) := by simp [Statement, Instr.ports]
theorem fsub (engine : Nat) (ups : List Upset) : Statement (.fsub engine ups) := by simp [Statement, Instr.ports]
theorem fmul (engine : Nat) (ups : List Upset) : Statement (.fmul engine ups) := by simp [Statement, Instr.ports]
theorem fma (engine : Nat) (ups : List Upset) : Statement (.fma engine ups) := by simp [Statement, Instr.ports]
theorem fmax (engine : Nat) (ups : List Upset) : Statement (.fmax engine ups) := by simp [Statement, Instr.ports]
theorem fmin (engine : Nat) (ups : List Upset) : Statement (.fmin engine ups) := by simp [Statement, Instr.ports]
theorem fabs (engine : Nat) (ups : List Upset) : Statement (.fabs engine ups) := by simp [Statement, Instr.ports]
theorem fneg (engine : Nat) (ups : List Upset) : Statement (.fneg engine ups) := by simp [Statement, Instr.ports]
theorem fsel (engine : Nat) (ups : List Upset) : Statement (.fsel engine ups) := by simp [Statement, Instr.ports]
theorem fcmp (engine : Nat) (ups : List Upset) : Statement (.fcmp engine ups) := by simp [Statement, Instr.ports]
theorem frnd (engine : Nat) (ups : List Upset) : Statement (.frnd engine ups) := by simp [Statement, Instr.ports]
theorem frcp (engine : Nat) (ups : List Upset) : Statement (.frcp engine ups) := by simp [Statement, Instr.ports]
theorem frsqrt (engine : Nat) (ups : List Upset) : Statement (.frsqrt engine ups) := by simp [Statement, Instr.ports]
theorem fsqrt (engine : Nat) (ups : List Upset) : Statement (.fsqrt engine ups) := by simp [Statement, Instr.ports]
theorem fexp2 (engine : Nat) (ups : List Upset) : Statement (.fexp2 engine ups) := by simp [Statement, Instr.ports]
theorem flog2 (engine : Nat) (ups : List Upset) : Statement (.flog2 engine ups) := by simp [Statement, Instr.ports]
theorem fsigm (engine : Nat) (ups : List Upset) : Statement (.fsigm engine ups) := by simp [Statement, Instr.ports]
theorem ftanh (engine : Nat) (ups : List Upset) : Statement (.ftanh engine ups) := by simp [Statement, Instr.ports]
theorem ferf (engine : Nat) (ups : List Upset) : Statement (.ferf engine ups) := by simp [Statement, Instr.ports]
theorem iadd (engine : Nat) (ups : List Upset) : Statement (.iadd engine ups) := by simp [Statement, Instr.ports]
theorem iand (engine : Nat) (ups : List Upset) : Statement (.iand engine ups) := by simp [Statement, Instr.ports]
theorem ior (engine : Nat) (ups : List Upset) : Statement (.ior engine ups) := by simp [Statement, Instr.ports]
theorem ixor (engine : Nat) (ups : List Upset) : Statement (.ixor engine ups) := by simp [Statement, Instr.ports]
theorem ishl (engine : Nat) (ups : List Upset) : Statement (.ishl engine ups) := by simp [Statement, Instr.ports]
theorem ishr (engine : Nat) (ups : List Upset) : Statement (.ishr engine ups) := by simp [Statement, Instr.ports]
theorem reductionRowResult (engine : Nat) (channel : Nat) (ups : List Upset) : Statement (.reductionRowResult engine channel ups) := by simp [Statement, Instr.ports]
theorem embGather  : Statement (.embGather ) := by simp [Statement, Instr.ports]
theorem embScatterAdd  : Statement (.embScatterAdd ) := by simp [Statement, Instr.ports]
theorem embRequest (port : Nat) (xid : Nat) (source : Nat) (digest : Nat) (lookup : Nat) (row : Nat) (ups : List Upset) : Statement (.embRequest port xid source digest lookup row ups) := by
  simp [Statement, Instr.wellFormed, Instr.ports, portOk]
  omega
theorem embResponse (xid : Nat) (source : Nat) (digest : Nat) (a : EmbAnswer) (ups : List Upset) : Statement (.embResponse xid source digest a ups) := by simp [Statement, Instr.ports]
theorem embContribution (port : Nat) (xid : Nat) (digest : Nat) (c : Contribution) (ups : List Upset) : Statement (.embContribution port xid digest c ups) := by
  simp [Statement, Instr.wellFormed, Instr.ports, portOk]
  omega
theorem embEnd (port : Nat) (xid : Nat) (source : Nat) (digest : Nat) (count : Nat) : Statement (.embEnd port xid source digest count) := by
  simp [Statement, Instr.wellFormed, Instr.ports, portOk]
  omega
theorem embStop (port : Nat) (xid : Nat) (source : Nat) (digest : Nat) : Statement (.embStop port xid source digest) := by
  simp [Statement, Instr.wellFormed, Instr.ports, portOk]
  omega
theorem embStalled (stream : Nat) (counter : Nat) (pos : Nat) : Statement (.embStalled stream counter pos) := by simp [Statement, Instr.ports]
theorem relay (a : CmdArg) : Statement (.relay a) := by simp [Statement, Instr.ports]
theorem relayFrame (port : Nat) (f : RelayFrame) (ups : List Upset) : Statement (.relayFrame port f ups) := by
  simp [Statement, Instr.wellFormed, Instr.ports, portOk]
theorem heldFrameExpiry (index : Nat) : Statement (.heldFrameExpiry index) := by simp [Statement, Instr.ports]
theorem hopTimeout (stream : Nat) (counter : Nat) : Statement (.hopTimeout stream counter) := by simp [Statement, Instr.ports]
theorem update  : Statement (.update ) := by simp [Statement, Instr.ports]
theorem updateBlock (engine : Nat) (ups : List Upset) : Statement (.updateBlock engine ups) := by simp [Statement, Instr.ports]
theorem setDrawCounter  : Statement (.setDrawCounter ) := by simp [Statement, Instr.ports]
theorem ferryOut (a : CmdArg) : Statement (.ferryOut a) := by simp [Statement, Instr.ports]
theorem ferryBlock (f : FerryFrame) : Statement (.ferryBlock f) := by
  simp [Statement, Instr.wellFormed, Instr.ports, portOk]
theorem ferryVoid (port : Nat) (ferryId : Nat) : Statement (.ferryVoid port ferryId) := by
  simp [Statement, Instr.wellFormed, Instr.ports, portOk]
theorem commit  : Statement (.commit ) := by simp [Statement, Instr.ports]
theorem escapementSeal (ups : List Upset) : Statement (.escapementSeal ups) := by simp [Statement, Instr.ports]
theorem voteFrame (v : Vote) : Statement (.voteFrame v) := by simp [Statement, Instr.ports]
theorem decisionFrame (d : Decision) (answer : Bool) : Statement (.decisionFrame d answer) := by simp [Statement, Instr.ports]
theorem commitBeat  : Statement (.commitBeat ) := by simp [Statement, Instr.ports]
theorem release  : Statement (.release ) := by simp [Statement, Instr.ports]
theorem inDoubtEntry  : Statement (.inDoubtEntry ) := by simp [Statement, Instr.ports]
theorem decisionRequest  : Statement (.decisionRequest ) := by simp [Statement, Instr.ports]
theorem escInDoubt  : Statement (.escInDoubt ) := by simp [Statement, Instr.ports]
theorem crcGo (unit : Nat) (value : Word) : Statement (.crcGo unit value) := by simp [Statement, Instr.ports]
theorem crcStop (unit : Nat) (value : Word) (taken : Nat) (ups : List Upset) : Statement (.crcStop unit value taken ups) := by simp [Statement, Instr.ports]
theorem crcCheck (unit : Nat) (value : Word) : Statement (.crcCheck unit value) := by simp [Statement, Instr.ports]
theorem crcData (unit : Nat) (width : Nat) (value : Word) : Statement (.crcData unit width value) := by simp [Statement, Instr.ports]
theorem crcScanEnd (unit : Nat) (stall : Option Nat) (ups : List Upset) : Statement (.crcScanEnd unit stall ups) := by simp [Statement, Instr.ports]
theorem scrubRead (ups : List Upset) : Statement (.scrubRead ups) := by simp [Statement, Instr.ports]
theorem hbmRetire (value : Word) (ups : List Upset) : Statement (.hbmRetire value ups) := by simp [Statement, Instr.ports]
theorem hbmDonate (value : Word) : Statement (.hbmDonate value) := by simp [Statement, Instr.ports]
theorem hbmGovWrite (cls : Nat) (value : Word) : Statement (.hbmGovWrite cls value) := by simp [Statement, Instr.ports]
theorem flit (link : Nat) (up : Bool) (group : Nat) (payload : Bytes) (control : Nat) : Statement (.flit link up group payload control) := by simp [Statement, Instr.ports]
theorem spareReq (link : Nat) (up : Bool) (group : Nat) (lane : Nat) (seq : Nat) : Statement (.spareReq link up group lane seq) := by simp [Statement, Instr.ports]
theorem spareAck (link : Nat) (up : Bool) (group : Nat) (lane : Nat) (seq : Nat) : Statement (.spareAck link up group lane seq) := by simp [Statement, Instr.ports]
theorem halfReq (link : Nat) (up : Bool) (seq : Nat) : Statement (.halfReq link up seq) := by simp [Statement, Instr.ports]
theorem halfAck (link : Nat) (up : Bool) (seq : Nat) : Statement (.halfAck link up seq) := by simp [Statement, Instr.ports]
theorem creditProbe (link : Nat) (up : Bool) : Statement (.creditProbe link up) := by simp [Statement, Instr.ports]
theorem creditReport (link : Nat) (up : Bool) (free : List Nat) : Statement (.creditReport link up free) := by simp [Statement, Instr.ports]
theorem creditTimeout (link : Nat) (up : Bool) (cls : Nat) : Statement (.creditTimeout link up cls) := by simp [Statement, Instr.ports]
theorem linkRetrain (link : Nat) (up : Bool) : Statement (.linkRetrain link up) := by simp [Statement, Instr.ports]
theorem darendFrame (port : Nat) (f : FrameIn) : Statement (.darendFrame port f) := by
  simp [Statement, Instr.wellFormed, Instr.ports, portOk]
  omega
theorem ack (port : Nat) (a : AckIn) : Statement (.ack port a) := by
  simp [Statement, Instr.wellFormed, Instr.ports, portOk]
theorem align (port : Nat) (a : AlignIn) : Statement (.align port a) := by
  simp [Statement, Instr.wellFormed, Instr.ports, portOk]
  omega
theorem hello0 (port : Nat) (b : Bytes) : Statement (.hello0 port b) := by
  simp [Statement, Instr.wellFormed, Instr.ports, portOk]
  omega
theorem hello1 (port : Nat) (b : Bytes) : Statement (.hello1 port b) := by
  simp [Statement, Instr.wellFormed, Instr.ports, portOk]
  omega
theorem hold (port : Nat) (beat : Nat) (durationUs : Nat) (reason : Nat) : Statement (.hold port beat durationUs reason) := by
  simp [Statement, Instr.wellFormed, Instr.ports, portOk]
  omega
theorem laneChange (port : Nat) (action : Nat) (logical : Nat) (wavelength : Nat) (atMarker : Nat) : Statement (.laneChange port action logical wavelength atMarker) := by
  simp [Statement, Instr.wellFormed, Instr.ports, portOk]
  omega
theorem laneRestripe (port : Nat) (tx : Bool) (logical : Nat) : Statement (.laneRestripe port tx logical) := by
  simp [Statement, Instr.wellFormed, Instr.ports, portOk]
  omega
theorem replayTimeout (port : Nat) : Statement (.replayTimeout port) := by
  simp [Statement, Instr.wellFormed, Instr.ports, portOk]
theorem portLostTimeout (port : Nat) : Statement (.portLostTimeout port) := by
  simp [Statement, Instr.wellFormed, Instr.ports, portOk]
theorem holdResumeTimeout (port : Nat) : Statement (.holdResumeTimeout port) := by
  simp [Statement, Instr.wellFormed, Instr.ports, portOk]
theorem trainingTimeout (port : Nat) : Statement (.trainingTimeout port) := by
  simp [Statement, Instr.wellFormed, Instr.ports, portOk]
theorem identityResend (port : Nat) : Statement (.identityResend port) := by
  simp [Statement, Instr.wellFormed, Instr.ports, portOk]
theorem keyRotation  : Statement (.keyRotation ) := by simp [Statement, Instr.ports]
theorem oldKeyExpiry  : Statement (.oldKeyExpiry ) := by simp [Statement, Instr.ports]
theorem drdReplayRegionWrite (value : Word) : Statement (.drdReplayRegionWrite value) := by simp [Statement, Instr.ports]
theorem redraw  : Statement (.redraw ) := by simp [Statement, Instr.ports]
theorem redrawSettled (changed : List Nat) : Statement (.redrawSettled changed) := by simp [Statement, Instr.ports]
theorem ringSweep (ring : Nat) (peaks : List (Nat × Nat)) : Statement (.ringSweep ring peaks) := by simp [Statement, Instr.ports]
theorem lanternAlert (alert : Nat) (status : List Nat) : Statement (.lanternAlert alert status) := by simp [Statement, Instr.ports]
theorem lanternBusTimeout  : Statement (.lanternBusTimeout ) := by simp [Statement, Instr.ports]
theorem laserSpareIn (line : Nat) : Statement (.laserSpareIn line) := by simp [Statement, Instr.ports]
theorem chart (doc : Bytes) : Statement (.chart doc) := by simp [Statement, Instr.ports]
theorem chartAmendment (doc : Bytes) : Statement (.chartAmendment doc) := by simp [Statement, Instr.ports]
theorem sliceAllocation (doc : Bytes) : Statement (.sliceAllocation doc) := by simp [Statement, Instr.ports]
theorem sliceTableSet (doc : Bytes) : Statement (.sliceTableSet doc) := by simp [Statement, Instr.ports]
theorem chartEffect  : Statement (.chartEffect ) := by simp [Statement, Instr.ports]
theorem chartAmendmentEffect  : Statement (.chartAmendmentEffect ) := by simp [Statement, Instr.ports]
theorem sliceAllocationEffect  : Statement (.sliceAllocationEffect ) := by simp [Statement, Instr.ports]
theorem sliceTableSetEffect  : Statement (.sliceTableSetEffect ) := by simp [Statement, Instr.ports]
theorem chartReq (port : Nat) (epoch : Nat) : Statement (.chartReq port epoch) := by
  simp [Statement, Instr.wellFormed, Instr.ports, portOk]
  omega
theorem chartChunk (port : Nat) (kind : Nat) (epoch : Nat) (index : Nat) (count : Nat) (data : Bytes) : Statement (.chartChunk port kind epoch index count data) := by
  simp [Statement, Instr.wellFormed, Instr.ports, portOk]
  omega
theorem parityDelta (d : DeltaIn) : Statement (.parityDelta d) := by simp [Statement, Instr.ports]
theorem parityDeltaAck (fid : Nat) (unit : Nat) (offset : Nat) (stale : Bool) : Statement (.parityDeltaAck fid unit offset stale) := by simp [Statement, Instr.ports]
theorem readingRequest (fid : Nat) (stripe : Nat) (offset : Nat) (step : Nat) (ask : ReadingAsk) (ups : List Upset) : Statement (.readingRequest fid stripe offset step ask ups) := by simp [Statement, Instr.ports]
theorem reading (fid : Nat) (stripe : Nat) (offset : Nat) (body : ReadingBody) (ups : List Upset) : Statement (.reading fid stripe offset body ups) := by simp [Statement, Instr.ports]
theorem snapshotOut (a : CmdArg) : Statement (.snapshotOut a) := by simp [Statement, Instr.ports]
theorem standIn  : Statement (.standIn ) := by simp [Statement, Instr.ports]
theorem attest  : Statement (.attest ) := by simp [Statement, Instr.ports]
theorem keyInstall  : Statement (.keyInstall ) := by simp [Statement, Instr.ports]
theorem sliceRelease (a : CmdArg) : Statement (.sliceRelease a) := by simp [Statement, Instr.ports]
theorem selfTest (a : CmdArg) : Statement (.selfTest a) := by simp [Statement, Instr.ports]
theorem calibrate (a : CmdArg) : Statement (.calibrate a) := by simp [Statement, Instr.ports]
theorem deferredFollowUp (order : Nat) (fault : Option Nat) : Statement (.deferredFollowUp order fault) := by simp [Statement, Instr.ports]
theorem deferredTimeout (order : Nat) : Statement (.deferredTimeout order) := by simp [Statement, Instr.ports]
theorem attestationRequest (nonce : Bytes) : Statement (.attestationRequest nonce) := by simp [Statement, Instr.ports]
theorem enrolment (key : Bytes) (installation : Nat) (collector : Bytes) (sig : Bytes) : Statement (.enrolment key installation collector sig) := by simp [Statement, Instr.ports]
theorem authorityHandover (key : Bytes) (sig : Bytes) : Statement (.authorityHandover key sig) := by simp [Statement, Instr.ports]
theorem debugUnlock (sig : Bytes) : Statement (.debugUnlock sig) := by simp [Statement, Instr.ports]
theorem bindRequest (nonce : Bytes) : Statement (.bindRequest nonce) := by simp [Statement, Instr.ports]
theorem bindOfferExpiry  : Statement (.bindOfferExpiry ) := by simp [Statement, Instr.ports]
theorem bindAcceptance (doc : Bytes) : Statement (.bindAcceptance doc) := by simp [Statement, Instr.ports]
theorem kxHello (port : Nat) (ferry : Bool) (h : HelloIn) : Statement (.kxHello port ferry h) := by
  simp [Statement, Instr.wellFormed, Instr.ports, portOk]
theorem kxCt (port : Nat) (ferry : Bool) (ct : Bytes) (sig : Bytes) : Statement (.kxCt port ferry ct sig) := by
  simp [Statement, Instr.wellFormed, Instr.ports, portOk]
  omega
theorem keySetupTimeout (port : Nat) : Statement (.keySetupTimeout port) := by
  simp [Statement, Instr.wellFormed, Instr.ports, portOk]
theorem sliceKeyConfirmation (port : Nat) (mac : Bytes) : Statement (.sliceKeyConfirmation port mac) := by
  simp [Statement, Instr.wellFormed, Instr.ports, portOk]
theorem collectorAck (seq : Nat) : Statement (.collectorAck seq) := by simp [Statement, Instr.ports]
theorem logResendTimeout  : Statement (.logResendTimeout ) := by simp [Statement, Instr.ports]
theorem heartbeat  : Statement (.heartbeat ) := by simp [Statement, Instr.ports]
theorem mgmtWatchdog (digestDiffers : Bool) : Statement (.mgmtWatchdog digestDiffers) := by simp [Statement, Instr.ports]
theorem engineOperationTimeout (source : Nat) : Statement (.engineOperationTimeout source) := by simp [Statement, Instr.ports]
theorem computeDieReset (die : Nat) : Statement (.computeDieReset die) := by simp [Statement, Instr.ports]
theorem moduleWarmRestart (x : BringUp) : Statement (.moduleWarmRestart x) := by simp [Statement, Instr.ports]
theorem coldStart (x : BringUp) : Statement (.coldStart x) := by simp [Statement, Instr.ports]
theorem modReset (lowUs : Nat) : Statement (.modReset lowUs) := by simp [Statement, Instr.ports]
theorem recoveryImageLength (length : Nat) (image : Bytes) (written : Bool) : Statement (.recoveryImageLength length image written) := by simp [Statement, Instr.ports]
theorem recoveryChunk (offset : Nat) (data : Bytes) : Statement (.recoveryChunk offset data) := by simp [Statement, Instr.ports]
theorem recoveryDone (length : Nat) (written : Bool) : Statement (.recoveryDone length written) := by simp [Statement, Instr.ports]
theorem firmwareUpdateOrder (o : UpdateOrder) : Statement (.firmwareUpdateOrder o) := by simp [Statement, Instr.ports]
theorem pilotSelChange (asserted : Bool) : Statement (.pilotSelChange asserted) := by simp [Statement, Instr.ports]
theorem pcieReset  : Statement (.pcieReset ) := by simp [Statement, Instr.ports]
theorem anchorOrder (o : AnchorOrder) : Statement (.anchorOrder o) := by simp [Statement, Instr.ports]
theorem anchorEnterBeat  : Statement (.anchorEnterBeat ) := by simp [Statement, Instr.ports]
theorem anchorEntry  : Statement (.anchorEntry ) := by simp [Statement, Instr.ports]
theorem anchorEntryTimeout  : Statement (.anchorEntryTimeout ) := by simp [Statement, Instr.ports]
theorem wake (order : Option (Bytes × Bytes)) (x : BringUp) : Statement (.wake order x) := by simp [Statement, Instr.ports]
theorem powerDomainFail (domain : Nat) : Statement (.powerDomainFail domain) := by simp [Statement, Instr.ports]
theorem xinALost (ppm : Option Int) : Statement (.xinALost ppm) := by simp [Statement, Instr.ports]
theorem xinBLost (ppm : Option Int) : Statement (.xinBLost ppm) := by simp [Statement, Instr.ports]
theorem oscTrimMeasurement (ppm : Int) : Statement (.oscTrimMeasurement ppm) := by simp [Statement, Instr.ports]
theorem clkSetWrite (loop : Nat) (value : Word) : Statement (.clkSetWrite loop value) := by simp [Statement, Instr.ports]
theorem supplyFault (volt : Nat) (durationUs : Nat) : Statement (.supplyFault volt durationUs) := by simp [Statement, Instr.ports]
theorem supplyRecovery (volt : Nat) : Statement (.supplyRecovery volt) := by simp [Statement, Instr.ports]
theorem singleFeed (pairB : Bool) : Statement (.singleFeed pairB) := by simp [Statement, Instr.ports]
theorem powerCapSample (watts : Nat) (current : Nat) (volt : Nat) : Statement (.powerCapSample watts current volt) := by simp [Statement, Instr.ports]
theorem thermalTripRecovery  : Statement (.thermalTripRecovery ) := by simp [Statement, Instr.ports]
theorem i2cBusTimeout  : Statement (.i2cBusTimeout ) := by simp [Statement, Instr.ports]
theorem mgmtLinkSpeed (mbps : Nat) : Statement (.mgmtLinkSpeed mbps) := by simp [Statement, Instr.ports]
theorem regPathRead (value : Word) : Statement (.regPathRead value) := by simp [Statement, Instr.ports]
theorem regPathWrite (value : Word) : Statement (.regPathWrite value) := by simp [Statement, Instr.ports]
theorem regPathRequest (src : Nat) (write : Bool) (addr : Nat) (data : Word) : Statement (.regPathRequest src write addr data) := by simp [Statement, Instr.ports]
theorem regPathAnswer (src : Nat) (status : Nat) (data : Word) : Statement (.regPathAnswer src status data) := by simp [Statement, Instr.ports]
theorem regPathTimeout  : Statement (.regPathTimeout ) := by simp [Statement, Instr.ports]
theorem registerRead (req : Requester) (addr : Nat) (width : Nat) : Statement (.registerRead req addr width) := by simp [Statement, Instr.ports]
theorem ptpMessage (offsetPs : Int) : Statement (.ptpMessage offsetPs) := by simp [Statement, Instr.ports]
theorem laneOut (port : Nat) (logical : Nat) (fault : LaneFault) : Statement (.laneOut port logical fault) := by
  simp [Statement, Instr.wellFormed, Instr.ports, portOk]
  omega
theorem helloResend (port : Nat) : Statement (.helloResend port) := by
  simp [Statement, Instr.wellFormed, Instr.ports, portOk]
theorem decisionRequestReceipt (fid : Nat) (step : Nat) : Statement (.decisionRequestReceipt fid step) := by simp [Statement, Instr.ports]
theorem digestFetchRequest (fid : Nat) (step : Nat) : Statement (.digestFetchRequest fid step) := by simp [Statement, Instr.ports]
theorem digestFetchAnswer (step : Nat) (digest : Option Bytes) : Statement (.digestFetchAnswer step digest) := by simp [Statement, Instr.ports]
theorem retirementEnd (ok : Bool) : Statement (.retirementEnd ok) := by simp [Statement, Instr.ports]
theorem debugAccess (addr : Nat) (len : Nat) (write : Option Bytes) : Statement (.debugAccess addr len write) := by simp [Statement, Instr.ports]
theorem updateRestartWaitExpiry  : Statement (.updateRestartWaitExpiry ) := by simp [Statement, Instr.ports]
theorem bladePairRestored (pairB : Bool) : Statement (.bladePairRestored pairB) := by simp [Statement, Instr.ports]
theorem embLookup (engine : Nat) (ups : List Upset) : Statement (.embLookup engine ups) := by simp [Statement, Instr.ports]

end Sys2Proof.Laws.Ports
end

