-- ==== Sys2Proof/Laws/State.lean ====
section
/-!
SUPPORT. What each update of a state leaves: one lemma per field and update, so that no proof unfolds a record update.
-/
set_option Elab.async false

namespace Sys2Proof.Machine

@[simp] theorem wr_pending (s : State) (a : Nat) (w : Word) : (wr s a w).pending = s.pending := rfl
@[simp] theorem wr_upsets (s : State) (a : Nat) (w : Word) : (wr s a w).upsets = s.upsets := rfl
@[simp] theorem wr_now (s : State) (a : Nat) (w : Word) : (wr s a w).now = s.now := rfl
@[simp] theorem wr_free (s : State) (a : Nat) (w : Word) : (wr s a w).free = s.free := rfl
@[simp] theorem wr_mem (s : State) (a : Nat) (w : Word) : (wr s a w).mem = s.mem := rfl
@[simp] theorem wr_side (s : State) (a : Nat) (w : Word) : (wr s a w).side = s.side := rfl
@[simp] theorem wr_poison (s : State) (a : Nat) (w : Word) : (wr s a w).poison = s.poison := rfl
@[simp] theorem wr_out (s : State) (a : Nat) (w : Word) : (wr s a w).out = s.out := rfl
@[simp] theorem wr_hostMem (s : State) (a : Nat) (w : Word) : (wr s a w).hostMem = s.hostMem := rfl
@[simp] theorem wr_mer (s : State) (a : Nat) (w : Word) : (wr s a w).mer = s.mer := rfl
@[simp] theorem wr_cmd (s : State) (a : Nat) (w : Word) : (wr s a w).cmd = s.cmd := rfl
@[simp] theorem wr_comp (s : State) (a : Nat) (w : Word) : (wr s a w).comp = s.comp := rfl
@[simp] theorem wr_fleet (s : State) (a : Nat) (w : Word) : (wr s a w).fleet = s.fleet := rfl
@[simp] theorem wr_esc (s : State) (a : Nat) (w : Word) : (wr s a w).esc = s.esc := rfl
@[simp] theorem wr_hbm (s : State) (a : Nat) (w : Word) : (wr s a w).hbm = s.hbm := rfl
@[simp] theorem wr_links (s : State) (a : Nat) (w : Word) : (wr s a w).links = s.links := rfl
@[simp] theorem wr_ports (s : State) (a : Nat) (w : Word) : (wr s a w).ports = s.ports := rfl
@[simp] theorem wr_inbox (s : State) (a : Nat) (w : Word) : (wr s a w).inbox = s.inbox := rfl
@[simp] theorem wr_log (s : State) (a : Nat) (w : Word) : (wr s a w).log = s.log := rfl
@[simp] theorem wr_ladder (s : State) (a : Nat) (w : Word) : (wr s a w).ladder = s.ladder := rfl
@[simp] theorem wr_rose (s : State) (a : Nat) (w : Word) : (wr s a w).rose = s.rose := rfl
@[simp] theorem wr_fab (s : State) (a : Nat) (w : Word) : (wr s a w).fab = s.fab := rfl
@[simp] theorem wr_reck (s : State) (a : Nat) (w : Word) : (wr s a w).reck = s.reck := rfl
@[simp] theorem wr_sec (s : State) (a : Nat) (w : Word) : (wr s a w).sec = s.sec := rfl
@[simp] theorem wr_flash (s : State) (a : Nat) (w : Word) : (wr s a w).flash = s.flash := rfl
@[simp] theorem wr_boot (s : State) (a : Nat) (w : Word) : (wr s a w).boot = s.boot := rfl
@[simp] theorem wr_pwr (s : State) (a : Nat) (w : Word) : (wr s a w).pwr = s.pwr := rfl

@[simp] theorem resetReg_pending (s : State) (a : Nat) : (resetReg s a).pending = s.pending := rfl
@[simp] theorem resetReg_upsets (s : State) (a : Nat) : (resetReg s a).upsets = s.upsets := rfl
@[simp] theorem resetReg_now (s : State) (a : Nat) : (resetReg s a).now = s.now := rfl
@[simp] theorem resetReg_free (s : State) (a : Nat) : (resetReg s a).free = s.free := rfl
@[simp] theorem resetReg_mem (s : State) (a : Nat) : (resetReg s a).mem = s.mem := rfl
@[simp] theorem resetReg_side (s : State) (a : Nat) : (resetReg s a).side = s.side := rfl
@[simp] theorem resetReg_poison (s : State) (a : Nat) : (resetReg s a).poison = s.poison := rfl
@[simp] theorem resetReg_out (s : State) (a : Nat) : (resetReg s a).out = s.out := rfl
@[simp] theorem resetReg_hostMem (s : State) (a : Nat) : (resetReg s a).hostMem = s.hostMem := rfl
@[simp] theorem resetReg_mer (s : State) (a : Nat) : (resetReg s a).mer = s.mer := rfl
@[simp] theorem resetReg_cmd (s : State) (a : Nat) : (resetReg s a).cmd = s.cmd := rfl
@[simp] theorem resetReg_comp (s : State) (a : Nat) : (resetReg s a).comp = s.comp := rfl
@[simp] theorem resetReg_fleet (s : State) (a : Nat) : (resetReg s a).fleet = s.fleet := rfl
@[simp] theorem resetReg_esc (s : State) (a : Nat) : (resetReg s a).esc = s.esc := rfl
@[simp] theorem resetReg_hbm (s : State) (a : Nat) : (resetReg s a).hbm = s.hbm := rfl
@[simp] theorem resetReg_links (s : State) (a : Nat) : (resetReg s a).links = s.links := rfl
@[simp] theorem resetReg_ports (s : State) (a : Nat) : (resetReg s a).ports = s.ports := rfl
@[simp] theorem resetReg_inbox (s : State) (a : Nat) : (resetReg s a).inbox = s.inbox := rfl
@[simp] theorem resetReg_log (s : State) (a : Nat) : (resetReg s a).log = s.log := rfl
@[simp] theorem resetReg_ladder (s : State) (a : Nat) : (resetReg s a).ladder = s.ladder := rfl
@[simp] theorem resetReg_rose (s : State) (a : Nat) : (resetReg s a).rose = s.rose := rfl
@[simp] theorem resetReg_fab (s : State) (a : Nat) : (resetReg s a).fab = s.fab := rfl
@[simp] theorem resetReg_reck (s : State) (a : Nat) : (resetReg s a).reck = s.reck := rfl
@[simp] theorem resetReg_sec (s : State) (a : Nat) : (resetReg s a).sec = s.sec := rfl
@[simp] theorem resetReg_flash (s : State) (a : Nat) : (resetReg s a).flash = s.flash := rfl
@[simp] theorem resetReg_boot (s : State) (a : Nat) : (resetReg s a).boot = s.boot := rfl
@[simp] theorem resetReg_pwr (s : State) (a : Nat) : (resetReg s a).pwr = s.pwr := rfl

@[simp] theorem setF_pending (s : State) (a : Nat) (f : RF) (v : Nat) : (setF s a f v).pending = s.pending := rfl
@[simp] theorem setF_upsets (s : State) (a : Nat) (f : RF) (v : Nat) : (setF s a f v).upsets = s.upsets := rfl
@[simp] theorem setF_now (s : State) (a : Nat) (f : RF) (v : Nat) : (setF s a f v).now = s.now := rfl
@[simp] theorem setF_free (s : State) (a : Nat) (f : RF) (v : Nat) : (setF s a f v).free = s.free := rfl
@[simp] theorem setF_mem (s : State) (a : Nat) (f : RF) (v : Nat) : (setF s a f v).mem = s.mem := rfl
@[simp] theorem setF_side (s : State) (a : Nat) (f : RF) (v : Nat) : (setF s a f v).side = s.side := rfl
@[simp] theorem setF_poison (s : State) (a : Nat) (f : RF) (v : Nat) : (setF s a f v).poison = s.poison := rfl
@[simp] theorem setF_out (s : State) (a : Nat) (f : RF) (v : Nat) : (setF s a f v).out = s.out := rfl
@[simp] theorem setF_hostMem (s : State) (a : Nat) (f : RF) (v : Nat) : (setF s a f v).hostMem = s.hostMem := rfl
@[simp] theorem setF_mer (s : State) (a : Nat) (f : RF) (v : Nat) : (setF s a f v).mer = s.mer := rfl
@[simp] theorem setF_cmd (s : State) (a : Nat) (f : RF) (v : Nat) : (setF s a f v).cmd = s.cmd := rfl
@[simp] theorem setF_comp (s : State) (a : Nat) (f : RF) (v : Nat) : (setF s a f v).comp = s.comp := rfl
@[simp] theorem setF_fleet (s : State) (a : Nat) (f : RF) (v : Nat) : (setF s a f v).fleet = s.fleet := rfl
@[simp] theorem setF_esc (s : State) (a : Nat) (f : RF) (v : Nat) : (setF s a f v).esc = s.esc := rfl
@[simp] theorem setF_hbm (s : State) (a : Nat) (f : RF) (v : Nat) : (setF s a f v).hbm = s.hbm := rfl
@[simp] theorem setF_links (s : State) (a : Nat) (f : RF) (v : Nat) : (setF s a f v).links = s.links := rfl
@[simp] theorem setF_ports (s : State) (a : Nat) (f : RF) (v : Nat) : (setF s a f v).ports = s.ports := rfl
@[simp] theorem setF_inbox (s : State) (a : Nat) (f : RF) (v : Nat) : (setF s a f v).inbox = s.inbox := rfl
@[simp] theorem setF_log (s : State) (a : Nat) (f : RF) (v : Nat) : (setF s a f v).log = s.log := rfl
@[simp] theorem setF_ladder (s : State) (a : Nat) (f : RF) (v : Nat) : (setF s a f v).ladder = s.ladder := rfl
@[simp] theorem setF_rose (s : State) (a : Nat) (f : RF) (v : Nat) : (setF s a f v).rose = s.rose := rfl
@[simp] theorem setF_fab (s : State) (a : Nat) (f : RF) (v : Nat) : (setF s a f v).fab = s.fab := rfl
@[simp] theorem setF_reck (s : State) (a : Nat) (f : RF) (v : Nat) : (setF s a f v).reck = s.reck := rfl
@[simp] theorem setF_sec (s : State) (a : Nat) (f : RF) (v : Nat) : (setF s a f v).sec = s.sec := rfl
@[simp] theorem setF_flash (s : State) (a : Nat) (f : RF) (v : Nat) : (setF s a f v).flash = s.flash := rfl
@[simp] theorem setF_boot (s : State) (a : Nat) (f : RF) (v : Nat) : (setF s a f v).boot = s.boot := rfl
@[simp] theorem setF_pwr (s : State) (a : Nat) (f : RF) (v : Nat) : (setF s a f v).pwr = s.pwr := rfl

@[simp] theorem incF_pending (s : State) (a : Nat) (f : RF) (d : Nat) : (incF s a f d).pending = s.pending := rfl
@[simp] theorem incF_upsets (s : State) (a : Nat) (f : RF) (d : Nat) : (incF s a f d).upsets = s.upsets := rfl
@[simp] theorem incF_now (s : State) (a : Nat) (f : RF) (d : Nat) : (incF s a f d).now = s.now := rfl
@[simp] theorem incF_free (s : State) (a : Nat) (f : RF) (d : Nat) : (incF s a f d).free = s.free := rfl
@[simp] theorem incF_mem (s : State) (a : Nat) (f : RF) (d : Nat) : (incF s a f d).mem = s.mem := rfl
@[simp] theorem incF_side (s : State) (a : Nat) (f : RF) (d : Nat) : (incF s a f d).side = s.side := rfl
@[simp] theorem incF_poison (s : State) (a : Nat) (f : RF) (d : Nat) : (incF s a f d).poison = s.poison := rfl
@[simp] theorem incF_out (s : State) (a : Nat) (f : RF) (d : Nat) : (incF s a f d).out = s.out := rfl
@[simp] theorem incF_hostMem (s : State) (a : Nat) (f : RF) (d : Nat) : (incF s a f d).hostMem = s.hostMem := rfl
@[simp] theorem incF_mer (s : State) (a : Nat) (f : RF) (d : Nat) : (incF s a f d).mer = s.mer := rfl
@[simp] theorem incF_cmd (s : State) (a : Nat) (f : RF) (d : Nat) : (incF s a f d).cmd = s.cmd := rfl
@[simp] theorem incF_comp (s : State) (a : Nat) (f : RF) (d : Nat) : (incF s a f d).comp = s.comp := rfl
@[simp] theorem incF_fleet (s : State) (a : Nat) (f : RF) (d : Nat) : (incF s a f d).fleet = s.fleet := rfl
@[simp] theorem incF_esc (s : State) (a : Nat) (f : RF) (d : Nat) : (incF s a f d).esc = s.esc := rfl
@[simp] theorem incF_hbm (s : State) (a : Nat) (f : RF) (d : Nat) : (incF s a f d).hbm = s.hbm := rfl
@[simp] theorem incF_links (s : State) (a : Nat) (f : RF) (d : Nat) : (incF s a f d).links = s.links := rfl
@[simp] theorem incF_ports (s : State) (a : Nat) (f : RF) (d : Nat) : (incF s a f d).ports = s.ports := rfl
@[simp] theorem incF_inbox (s : State) (a : Nat) (f : RF) (d : Nat) : (incF s a f d).inbox = s.inbox := rfl
@[simp] theorem incF_log (s : State) (a : Nat) (f : RF) (d : Nat) : (incF s a f d).log = s.log := rfl
@[simp] theorem incF_ladder (s : State) (a : Nat) (f : RF) (d : Nat) : (incF s a f d).ladder = s.ladder := rfl
@[simp] theorem incF_rose (s : State) (a : Nat) (f : RF) (d : Nat) : (incF s a f d).rose = s.rose := rfl
@[simp] theorem incF_fab (s : State) (a : Nat) (f : RF) (d : Nat) : (incF s a f d).fab = s.fab := rfl
@[simp] theorem incF_reck (s : State) (a : Nat) (f : RF) (d : Nat) : (incF s a f d).reck = s.reck := rfl
@[simp] theorem incF_sec (s : State) (a : Nat) (f : RF) (d : Nat) : (incF s a f d).sec = s.sec := rfl
@[simp] theorem incF_flash (s : State) (a : Nat) (f : RF) (d : Nat) : (incF s a f d).flash = s.flash := rfl
@[simp] theorem incF_boot (s : State) (a : Nat) (f : RF) (d : Nat) : (incF s a f d).boot = s.boot := rfl
@[simp] theorem incF_pwr (s : State) (a : Nat) (f : RF) (d : Nat) : (incF s a f d).pwr = s.pwr := rfl

@[simp] theorem setBitF_pending (s : State) (a : Nat) (f : RF) (n : Nat) (v : Bool) : (setBitF s a f n v).pending = s.pending := rfl
@[simp] theorem setBitF_upsets (s : State) (a : Nat) (f : RF) (n : Nat) (v : Bool) : (setBitF s a f n v).upsets = s.upsets := rfl
@[simp] theorem setBitF_now (s : State) (a : Nat) (f : RF) (n : Nat) (v : Bool) : (setBitF s a f n v).now = s.now := rfl
@[simp] theorem setBitF_free (s : State) (a : Nat) (f : RF) (n : Nat) (v : Bool) : (setBitF s a f n v).free = s.free := rfl
@[simp] theorem setBitF_mem (s : State) (a : Nat) (f : RF) (n : Nat) (v : Bool) : (setBitF s a f n v).mem = s.mem := rfl
@[simp] theorem setBitF_side (s : State) (a : Nat) (f : RF) (n : Nat) (v : Bool) : (setBitF s a f n v).side = s.side := rfl
@[simp] theorem setBitF_poison (s : State) (a : Nat) (f : RF) (n : Nat) (v : Bool) : (setBitF s a f n v).poison = s.poison := rfl
@[simp] theorem setBitF_out (s : State) (a : Nat) (f : RF) (n : Nat) (v : Bool) : (setBitF s a f n v).out = s.out := rfl
@[simp] theorem setBitF_hostMem (s : State) (a : Nat) (f : RF) (n : Nat) (v : Bool) : (setBitF s a f n v).hostMem = s.hostMem := rfl
@[simp] theorem setBitF_mer (s : State) (a : Nat) (f : RF) (n : Nat) (v : Bool) : (setBitF s a f n v).mer = s.mer := rfl
@[simp] theorem setBitF_cmd (s : State) (a : Nat) (f : RF) (n : Nat) (v : Bool) : (setBitF s a f n v).cmd = s.cmd := rfl
@[simp] theorem setBitF_comp (s : State) (a : Nat) (f : RF) (n : Nat) (v : Bool) : (setBitF s a f n v).comp = s.comp := rfl
@[simp] theorem setBitF_fleet (s : State) (a : Nat) (f : RF) (n : Nat) (v : Bool) : (setBitF s a f n v).fleet = s.fleet := rfl
@[simp] theorem setBitF_esc (s : State) (a : Nat) (f : RF) (n : Nat) (v : Bool) : (setBitF s a f n v).esc = s.esc := rfl
@[simp] theorem setBitF_hbm (s : State) (a : Nat) (f : RF) (n : Nat) (v : Bool) : (setBitF s a f n v).hbm = s.hbm := rfl
@[simp] theorem setBitF_links (s : State) (a : Nat) (f : RF) (n : Nat) (v : Bool) : (setBitF s a f n v).links = s.links := rfl
@[simp] theorem setBitF_ports (s : State) (a : Nat) (f : RF) (n : Nat) (v : Bool) : (setBitF s a f n v).ports = s.ports := rfl
@[simp] theorem setBitF_inbox (s : State) (a : Nat) (f : RF) (n : Nat) (v : Bool) : (setBitF s a f n v).inbox = s.inbox := rfl
@[simp] theorem setBitF_log (s : State) (a : Nat) (f : RF) (n : Nat) (v : Bool) : (setBitF s a f n v).log = s.log := rfl
@[simp] theorem setBitF_ladder (s : State) (a : Nat) (f : RF) (n : Nat) (v : Bool) : (setBitF s a f n v).ladder = s.ladder := rfl
@[simp] theorem setBitF_rose (s : State) (a : Nat) (f : RF) (n : Nat) (v : Bool) : (setBitF s a f n v).rose = s.rose := rfl
@[simp] theorem setBitF_fab (s : State) (a : Nat) (f : RF) (n : Nat) (v : Bool) : (setBitF s a f n v).fab = s.fab := rfl
@[simp] theorem setBitF_reck (s : State) (a : Nat) (f : RF) (n : Nat) (v : Bool) : (setBitF s a f n v).reck = s.reck := rfl
@[simp] theorem setBitF_sec (s : State) (a : Nat) (f : RF) (n : Nat) (v : Bool) : (setBitF s a f n v).sec = s.sec := rfl
@[simp] theorem setBitF_flash (s : State) (a : Nat) (f : RF) (n : Nat) (v : Bool) : (setBitF s a f n v).flash = s.flash := rfl
@[simp] theorem setBitF_boot (s : State) (a : Nat) (f : RF) (n : Nat) (v : Bool) : (setBitF s a f n v).boot = s.boot := rfl
@[simp] theorem setBitF_pwr (s : State) (a : Nat) (f : RF) (n : Nat) (v : Bool) : (setBitF s a f n v).pwr = s.pwr := rfl

@[simp] theorem setPd_pending (s : State) (d v : Nat) : (setPd s d v).pending = s.pending := rfl
@[simp] theorem setPd_upsets (s : State) (d v : Nat) : (setPd s d v).upsets = s.upsets := rfl
@[simp] theorem setPd_now (s : State) (d v : Nat) : (setPd s d v).now = s.now := rfl
@[simp] theorem setPd_free (s : State) (d v : Nat) : (setPd s d v).free = s.free := rfl
@[simp] theorem setPd_mem (s : State) (d v : Nat) : (setPd s d v).mem = s.mem := rfl
@[simp] theorem setPd_side (s : State) (d v : Nat) : (setPd s d v).side = s.side := rfl
@[simp] theorem setPd_poison (s : State) (d v : Nat) : (setPd s d v).poison = s.poison := rfl
@[simp] theorem setPd_out (s : State) (d v : Nat) : (setPd s d v).out = s.out := rfl
@[simp] theorem setPd_hostMem (s : State) (d v : Nat) : (setPd s d v).hostMem = s.hostMem := rfl
@[simp] theorem setPd_mer (s : State) (d v : Nat) : (setPd s d v).mer = s.mer := rfl
@[simp] theorem setPd_cmd (s : State) (d v : Nat) : (setPd s d v).cmd = s.cmd := rfl
@[simp] theorem setPd_comp (s : State) (d v : Nat) : (setPd s d v).comp = s.comp := rfl
@[simp] theorem setPd_fleet (s : State) (d v : Nat) : (setPd s d v).fleet = s.fleet := rfl
@[simp] theorem setPd_esc (s : State) (d v : Nat) : (setPd s d v).esc = s.esc := rfl
@[simp] theorem setPd_hbm (s : State) (d v : Nat) : (setPd s d v).hbm = s.hbm := rfl
@[simp] theorem setPd_links (s : State) (d v : Nat) : (setPd s d v).links = s.links := rfl
@[simp] theorem setPd_ports (s : State) (d v : Nat) : (setPd s d v).ports = s.ports := rfl
@[simp] theorem setPd_inbox (s : State) (d v : Nat) : (setPd s d v).inbox = s.inbox := rfl
@[simp] theorem setPd_log (s : State) (d v : Nat) : (setPd s d v).log = s.log := rfl
@[simp] theorem setPd_ladder (s : State) (d v : Nat) : (setPd s d v).ladder = s.ladder := rfl
@[simp] theorem setPd_rose (s : State) (d v : Nat) : (setPd s d v).rose = s.rose := rfl
@[simp] theorem setPd_fab (s : State) (d v : Nat) : (setPd s d v).fab = s.fab := rfl
@[simp] theorem setPd_reck (s : State) (d v : Nat) : (setPd s d v).reck = s.reck := rfl
@[simp] theorem setPd_sec (s : State) (d v : Nat) : (setPd s d v).sec = s.sec := rfl
@[simp] theorem setPd_flash (s : State) (d v : Nat) : (setPd s d v).flash = s.flash := rfl
@[simp] theorem setPd_boot (s : State) (d v : Nat) : (setPd s d v).boot = s.boot := rfl
@[simp] theorem setPd_pwr (s : State) (d v : Nat) : (setPd s d v).pwr = s.pwr := rfl

@[simp] theorem send_pending (s : State) (k : OutKind) (d : Nat) (as : List Nat) (b : Bytes) : (send s k d as b).pending = s.pending := rfl
@[simp] theorem send_upsets (s : State) (k : OutKind) (d : Nat) (as : List Nat) (b : Bytes) : (send s k d as b).upsets = s.upsets := rfl
@[simp] theorem send_now (s : State) (k : OutKind) (d : Nat) (as : List Nat) (b : Bytes) : (send s k d as b).now = s.now := rfl
@[simp] theorem send_free (s : State) (k : OutKind) (d : Nat) (as : List Nat) (b : Bytes) : (send s k d as b).free = s.free := rfl
@[simp] theorem send_regs (s : State) (k : OutKind) (d : Nat) (as : List Nat) (b : Bytes) : (send s k d as b).regs = s.regs := rfl
@[simp] theorem send_mem (s : State) (k : OutKind) (d : Nat) (as : List Nat) (b : Bytes) : (send s k d as b).mem = s.mem := rfl
@[simp] theorem send_side (s : State) (k : OutKind) (d : Nat) (as : List Nat) (b : Bytes) : (send s k d as b).side = s.side := rfl
@[simp] theorem send_poison (s : State) (k : OutKind) (d : Nat) (as : List Nat) (b : Bytes) : (send s k d as b).poison = s.poison := rfl
@[simp] theorem send_hostMem (s : State) (k : OutKind) (d : Nat) (as : List Nat) (b : Bytes) : (send s k d as b).hostMem = s.hostMem := rfl
@[simp] theorem send_mer (s : State) (k : OutKind) (d : Nat) (as : List Nat) (b : Bytes) : (send s k d as b).mer = s.mer := rfl
@[simp] theorem send_cmd (s : State) (k : OutKind) (d : Nat) (as : List Nat) (b : Bytes) : (send s k d as b).cmd = s.cmd := rfl
@[simp] theorem send_comp (s : State) (k : OutKind) (d : Nat) (as : List Nat) (b : Bytes) : (send s k d as b).comp = s.comp := rfl
@[simp] theorem send_fleet (s : State) (k : OutKind) (d : Nat) (as : List Nat) (b : Bytes) : (send s k d as b).fleet = s.fleet := rfl
@[simp] theorem send_esc (s : State) (k : OutKind) (d : Nat) (as : List Nat) (b : Bytes) : (send s k d as b).esc = s.esc := rfl
@[simp] theorem send_hbm (s : State) (k : OutKind) (d : Nat) (as : List Nat) (b : Bytes) : (send s k d as b).hbm = s.hbm := rfl
@[simp] theorem send_links (s : State) (k : OutKind) (d : Nat) (as : List Nat) (b : Bytes) : (send s k d as b).links = s.links := rfl
@[simp] theorem send_ports (s : State) (k : OutKind) (d : Nat) (as : List Nat) (b : Bytes) : (send s k d as b).ports = s.ports := rfl
@[simp] theorem send_inbox (s : State) (k : OutKind) (d : Nat) (as : List Nat) (b : Bytes) : (send s k d as b).inbox = s.inbox := rfl
@[simp] theorem send_log (s : State) (k : OutKind) (d : Nat) (as : List Nat) (b : Bytes) : (send s k d as b).log = s.log := rfl
@[simp] theorem send_ladder (s : State) (k : OutKind) (d : Nat) (as : List Nat) (b : Bytes) : (send s k d as b).ladder = s.ladder := rfl
@[simp] theorem send_rose (s : State) (k : OutKind) (d : Nat) (as : List Nat) (b : Bytes) : (send s k d as b).rose = s.rose := rfl
@[simp] theorem send_fab (s : State) (k : OutKind) (d : Nat) (as : List Nat) (b : Bytes) : (send s k d as b).fab = s.fab := rfl
@[simp] theorem send_reck (s : State) (k : OutKind) (d : Nat) (as : List Nat) (b : Bytes) : (send s k d as b).reck = s.reck := rfl
@[simp] theorem send_sec (s : State) (k : OutKind) (d : Nat) (as : List Nat) (b : Bytes) : (send s k d as b).sec = s.sec := rfl
@[simp] theorem send_flash (s : State) (k : OutKind) (d : Nat) (as : List Nat) (b : Bytes) : (send s k d as b).flash = s.flash := rfl
@[simp] theorem send_boot (s : State) (k : OutKind) (d : Nat) (as : List Nat) (b : Bytes) : (send s k d as b).boot = s.boot := rfl
@[simp] theorem send_pwr (s : State) (k : OutKind) (d : Nat) (as : List Nat) (b : Bytes) : (send s k d as b).pwr = s.pwr := rfl

@[simp] theorem takeFree_pending (s : State) : ((takeFree s).2).pending = s.pending := rfl
@[simp] theorem takeFree_upsets (s : State) : ((takeFree s).2).upsets = s.upsets := rfl
@[simp] theorem takeFree_now (s : State) : ((takeFree s).2).now = s.now := rfl
@[simp] theorem takeFree_regs (s : State) : ((takeFree s).2).regs = s.regs := rfl
@[simp] theorem takeFree_mem (s : State) : ((takeFree s).2).mem = s.mem := rfl
@[simp] theorem takeFree_side (s : State) : ((takeFree s).2).side = s.side := rfl
@[simp] theorem takeFree_poison (s : State) : ((takeFree s).2).poison = s.poison := rfl
@[simp] theorem takeFree_out (s : State) : ((takeFree s).2).out = s.out := rfl
@[simp] theorem takeFree_hostMem (s : State) : ((takeFree s).2).hostMem = s.hostMem := rfl
@[simp] theorem takeFree_mer (s : State) : ((takeFree s).2).mer = s.mer := rfl
@[simp] theorem takeFree_cmd (s : State) : ((takeFree s).2).cmd = s.cmd := rfl
@[simp] theorem takeFree_comp (s : State) : ((takeFree s).2).comp = s.comp := rfl
@[simp] theorem takeFree_fleet (s : State) : ((takeFree s).2).fleet = s.fleet := rfl
@[simp] theorem takeFree_esc (s : State) : ((takeFree s).2).esc = s.esc := rfl
@[simp] theorem takeFree_hbm (s : State) : ((takeFree s).2).hbm = s.hbm := rfl
@[simp] theorem takeFree_links (s : State) : ((takeFree s).2).links = s.links := rfl
@[simp] theorem takeFree_ports (s : State) : ((takeFree s).2).ports = s.ports := rfl
@[simp] theorem takeFree_inbox (s : State) : ((takeFree s).2).inbox = s.inbox := rfl
@[simp] theorem takeFree_log (s : State) : ((takeFree s).2).log = s.log := rfl
@[simp] theorem takeFree_ladder (s : State) : ((takeFree s).2).ladder = s.ladder := rfl
@[simp] theorem takeFree_rose (s : State) : ((takeFree s).2).rose = s.rose := rfl
@[simp] theorem takeFree_fab (s : State) : ((takeFree s).2).fab = s.fab := rfl
@[simp] theorem takeFree_reck (s : State) : ((takeFree s).2).reck = s.reck := rfl
@[simp] theorem takeFree_sec (s : State) : ((takeFree s).2).sec = s.sec := rfl
@[simp] theorem takeFree_flash (s : State) : ((takeFree s).2).flash = s.flash := rfl
@[simp] theorem takeFree_boot (s : State) : ((takeFree s).2).boot = s.boot := rfl
@[simp] theorem takeFree_pwr (s : State) : ((takeFree s).2).pwr = s.pwr := rfl

@[simp] theorem setPort_pending (s : State) (p : Nat) (x : Port) : (setPort s p x).pending = s.pending := rfl
@[simp] theorem setPort_upsets (s : State) (p : Nat) (x : Port) : (setPort s p x).upsets = s.upsets := rfl
@[simp] theorem setPort_now (s : State) (p : Nat) (x : Port) : (setPort s p x).now = s.now := rfl
@[simp] theorem setPort_free (s : State) (p : Nat) (x : Port) : (setPort s p x).free = s.free := rfl
@[simp] theorem setPort_regs (s : State) (p : Nat) (x : Port) : (setPort s p x).regs = s.regs := rfl
@[simp] theorem setPort_mem (s : State) (p : Nat) (x : Port) : (setPort s p x).mem = s.mem := rfl
@[simp] theorem setPort_side (s : State) (p : Nat) (x : Port) : (setPort s p x).side = s.side := rfl
@[simp] theorem setPort_poison (s : State) (p : Nat) (x : Port) : (setPort s p x).poison = s.poison := rfl
@[simp] theorem setPort_out (s : State) (p : Nat) (x : Port) : (setPort s p x).out = s.out := rfl
@[simp] theorem setPort_hostMem (s : State) (p : Nat) (x : Port) : (setPort s p x).hostMem = s.hostMem := rfl
@[simp] theorem setPort_mer (s : State) (p : Nat) (x : Port) : (setPort s p x).mer = s.mer := rfl
@[simp] theorem setPort_cmd (s : State) (p : Nat) (x : Port) : (setPort s p x).cmd = s.cmd := rfl
@[simp] theorem setPort_comp (s : State) (p : Nat) (x : Port) : (setPort s p x).comp = s.comp := rfl
@[simp] theorem setPort_fleet (s : State) (p : Nat) (x : Port) : (setPort s p x).fleet = s.fleet := rfl
@[simp] theorem setPort_esc (s : State) (p : Nat) (x : Port) : (setPort s p x).esc = s.esc := rfl
@[simp] theorem setPort_hbm (s : State) (p : Nat) (x : Port) : (setPort s p x).hbm = s.hbm := rfl
@[simp] theorem setPort_links (s : State) (p : Nat) (x : Port) : (setPort s p x).links = s.links := rfl
@[simp] theorem setPort_inbox (s : State) (p : Nat) (x : Port) : (setPort s p x).inbox = s.inbox := rfl
@[simp] theorem setPort_log (s : State) (p : Nat) (x : Port) : (setPort s p x).log = s.log := rfl
@[simp] theorem setPort_ladder (s : State) (p : Nat) (x : Port) : (setPort s p x).ladder = s.ladder := rfl
@[simp] theorem setPort_rose (s : State) (p : Nat) (x : Port) : (setPort s p x).rose = s.rose := rfl
@[simp] theorem setPort_fab (s : State) (p : Nat) (x : Port) : (setPort s p x).fab = s.fab := rfl
@[simp] theorem setPort_reck (s : State) (p : Nat) (x : Port) : (setPort s p x).reck = s.reck := rfl
@[simp] theorem setPort_sec (s : State) (p : Nat) (x : Port) : (setPort s p x).sec = s.sec := rfl
@[simp] theorem setPort_flash (s : State) (p : Nat) (x : Port) : (setPort s p x).flash = s.flash := rfl
@[simp] theorem setPort_boot (s : State) (p : Nat) (x : Port) : (setPort s p x).boot = s.boot := rfl
@[simp] theorem setPort_pwr (s : State) (p : Nat) (x : Port) : (setPort s p x).pwr = s.pwr := rfl

@[simp] theorem modPort_pending (s : State) (p : Nat) (f : Port → Port) : (modPort s p f).pending = s.pending := rfl
@[simp] theorem modPort_upsets (s : State) (p : Nat) (f : Port → Port) : (modPort s p f).upsets = s.upsets := rfl
@[simp] theorem modPort_now (s : State) (p : Nat) (f : Port → Port) : (modPort s p f).now = s.now := rfl
@[simp] theorem modPort_free (s : State) (p : Nat) (f : Port → Port) : (modPort s p f).free = s.free := rfl
@[simp] theorem modPort_regs (s : State) (p : Nat) (f : Port → Port) : (modPort s p f).regs = s.regs := rfl
@[simp] theorem modPort_mem (s : State) (p : Nat) (f : Port → Port) : (modPort s p f).mem = s.mem := rfl
@[simp] theorem modPort_side (s : State) (p : Nat) (f : Port → Port) : (modPort s p f).side = s.side := rfl
@[simp] theorem modPort_poison (s : State) (p : Nat) (f : Port → Port) : (modPort s p f).poison = s.poison := rfl
@[simp] theorem modPort_out (s : State) (p : Nat) (f : Port → Port) : (modPort s p f).out = s.out := rfl
@[simp] theorem modPort_hostMem (s : State) (p : Nat) (f : Port → Port) : (modPort s p f).hostMem = s.hostMem := rfl
@[simp] theorem modPort_mer (s : State) (p : Nat) (f : Port → Port) : (modPort s p f).mer = s.mer := rfl
@[simp] theorem modPort_cmd (s : State) (p : Nat) (f : Port → Port) : (modPort s p f).cmd = s.cmd := rfl
@[simp] theorem modPort_comp (s : State) (p : Nat) (f : Port → Port) : (modPort s p f).comp = s.comp := rfl
@[simp] theorem modPort_fleet (s : State) (p : Nat) (f : Port → Port) : (modPort s p f).fleet = s.fleet := rfl
@[simp] theorem modPort_esc (s : State) (p : Nat) (f : Port → Port) : (modPort s p f).esc = s.esc := rfl
@[simp] theorem modPort_hbm (s : State) (p : Nat) (f : Port → Port) : (modPort s p f).hbm = s.hbm := rfl
@[simp] theorem modPort_links (s : State) (p : Nat) (f : Port → Port) : (modPort s p f).links = s.links := rfl
@[simp] theorem modPort_inbox (s : State) (p : Nat) (f : Port → Port) : (modPort s p f).inbox = s.inbox := rfl
@[simp] theorem modPort_log (s : State) (p : Nat) (f : Port → Port) : (modPort s p f).log = s.log := rfl
@[simp] theorem modPort_ladder (s : State) (p : Nat) (f : Port → Port) : (modPort s p f).ladder = s.ladder := rfl
@[simp] theorem modPort_rose (s : State) (p : Nat) (f : Port → Port) : (modPort s p f).rose = s.rose := rfl
@[simp] theorem modPort_fab (s : State) (p : Nat) (f : Port → Port) : (modPort s p f).fab = s.fab := rfl
@[simp] theorem modPort_reck (s : State) (p : Nat) (f : Port → Port) : (modPort s p f).reck = s.reck := rfl
@[simp] theorem modPort_sec (s : State) (p : Nat) (f : Port → Port) : (modPort s p f).sec = s.sec := rfl
@[simp] theorem modPort_flash (s : State) (p : Nat) (f : Port → Port) : (modPort s p f).flash = s.flash := rfl
@[simp] theorem modPort_boot (s : State) (p : Nat) (f : Port → Port) : (modPort s p f).boot = s.boot := rfl
@[simp] theorem modPort_pwr (s : State) (p : Nat) (f : Port → Port) : (modPort s p f).pwr = s.pwr := rfl

@[simp] theorem send_out (s : State) (k : OutKind) (d : Nat) (as : List Nat) (b : Bytes) : (send s k d as b).out = s.out ++ [{ kind := k, dest := d, args := as, data := b }] := rfl
@[simp] theorem takeFree_free (s : State) : (takeFree s).2.free = s.free + 1 := rfl
@[simp] theorem takeFree_fst (s : State) : (takeFree s).1 = Config.freeNat s.free := rfl
@[simp] theorem setPort_ports (s : State) (p : Nat) (x : Port) : (setPort s p x).ports = mapPutD {} s.ports p x := rfl

end Sys2Proof.Machine
end

