-- ==== Sys2Proof/Tests/Slice0.lean ====
section
/-!
SUPPORT. Small tests: an ill-formed term for each check of WellFormed, single steps, and for every statement with hypotheses a state and operands that meet them.
-/
set_option Elab.async false
set_option maxRecDepth 100000
open Sys2Proof Sys2Proof.Machine

namespace Sys2Proof.Tests

/-- The state after reset with some register fields set. -/
def fieldsSet (l : List (Nat × RF × Nat)) : State := l.foldl (fun s e => setF s e.1 e.2.1 e.2.2) State.reset

/-- A header of stream 1. -/
def hdrOf (op counter : Nat) : Header :=
  { length := 96, version := 1, flags := 0, opcode := op, destFid := 1, sliceTag := 7, stream := 1, ring := 0, timeoutMs := 0, counter := counter, startBeat := 0,
    waitFence := 0, signalFence := 0, waitValue := 0, signalValue := 0 }

/-- A command of stream 1 with a packet of zeros. -/
def cmdOf (op counter : Nat) (ph : CmdPhase) (pkt : Bytes := []) : Cmd :=
  { q := 1, hdr := hdrOf op counter, pkt := pkt, key := [], phase := ph, timeoutMs := 1, waitMs := 1, order := 0, acceptBeat := 0 }

/-- A state with one command. -/
def oneCmd (x : Cmd) : State := { cmd := { cmds := [x] } }

/-- A packet of stream 1 and its tag under a key of 32 zeros, a number whose bytes a KMAC256 of FIPS 202 and SP 800-185 gives. -/
def tagged (b : Bytes) (tag : Nat) : Bytes := b ++ natLe 32 tag

/-- A header of 64 bytes: length, opcode, destination 1, slice 7, stream 1, counter 1. -/
def headOf (len op : Nat) : Bytes :=
  natLe 2 len ++ natLe 1 1 ++ natLe 1 0 ++ natLe 2 op ++ natLe 2 1 ++ natLe 2 7 ++ natLe 1 1 ++ natLe 1 0 ++ natLe 4 0 ++ natLe 8 1 ++ zeros 40

def nopPkt : Bytes := tagged (headOf 96 opNOP) 100868434183393214851279414825208533149928018733315301630456618663904489885734
def setPkt : Bytes := tagged (headOf 112 opSET_STREAM ++ natLe 4 1 ++ natLe 4 1 ++ zeros 8) 115691487954959557521940567235765789677969774163112760616667006125748166274265
def abortPkt : Bytes := tagged (headOf 112 opABORT ++ natLe 4 1 ++ natLe 4 1 ++ zeros 8) 97038427815271629943218685062999344347816985331768182833698303047570529126364
def clearPkt : Bytes := tagged (headOf 96 opCLEAR_STREAM) 15621838234090780484714047991484914112696292545981477970711295450909632551274
def queryPkt : Bytes := tagged (headOf 96 opQUERY_STREAM) 27312138755795438786216738279268618091547323937156852407554355601458103860708

/-- A BOUND module of slice 7 whose stream 1 is open, with one packet at its intake. -/
def pktSt (p : Bytes) : State :=
  { fieldsSet [(R.SEC_STATUS, F.SEC_STATUS_STATE, 2), (R.SEC_STATUS, F.SEC_STATUS_SLICE_TAG, 7)] with
    cmd := { intake := [p], streams := [(1, { state := .opened, key := zeros 32 })] } }
def nopSt : State := pktSt nopPkt

def marker0 : MarkerIn := { port := 0, good := true, rank := 0, sourceFid := 1, hops := 0, peerFid := 1, t1 := 0, t2 := 0, t3 := 0, t4 := 0 }
/-- A link key of rotation 0. -/
def keyGen0 : KeyGen := { phase := 0, rot := 0, lower := false, secret := [], inst := [] }

/-- A tile of a command of stream 1 with one member. -/
def tile0 : Tile := { stream := 1, counter := 1, index := 0, die := 0, third := false, members := [{ array := 0, slot := 0 }] }
def passChunk : Chunk := { stream := 1, counter := 1, tile := 0, third := false, step := 0, cols := [], sums := [] }

def handSt : State := { oneCmd (cmdOf opMATMUL 1 .running) with comp := { tiles := [tile0] } }

/-- A running MATMUL of depth 128 in format 3, whose one tile has its first chunk in the front set of array 0. -/
def passSt : State :=
  { oneCmd (cmdOf opMATMUL 1 .running (zeros 72 ++ natLe 4 128 ++ zeros 2 ++ natLe 1 3 ++ natLe 1 3 ++ zeros 224)) with
    comp := { tiles := [{ tile0 with members := [{ array := 0, slot := 0, loads := 1 }] }], arrays := [(0, { front := some passChunk })] } }

/-- A lane program of one row of 512 columns whose first instruction, of section 0, carries the OP; channel 0 is reduced by it where the OP is RED. -/
def lanePkt (op : Nat) : Bytes :=
  zeros 72 ++ natLe 4 1 ++ natLe 4 512 ++ zeros 2 ++ natLe 1 3 ++ natLe 1 2 ++ zeros 412 ++ natLe 4 (op * 2 ^ 26 + 5 * 2 ^ 21) ++ zeros 284

/-- Engine 15 of a module with that program stands at its first instruction. -/
def laneReady (op : Nat) : Bool :=
  let c := cmdOf opLANE_PROGRAM 1 .running (lanePkt op)
  let v : VecEngine := { stream := 1, counter := 1, row := some 0 }
  let s : State := { oneCmd c with comp := { engines := [(15, v)] } }
  engineOn s 5 15 && mapGet s.comp.engines 15 == some v && findCmd s 1 1 == some c && decide (v.pc + 1 < lpSplit c.pkt) && (laneWord c.pkt v.pc).op == op && lpBf c.pkt == false &&
    vecActive c.pkt v == 512

def exch0 : Exchange :=
  { stream := 1, counter := 1, scatter := true, xid := 9, digest := 5, pos := 0, members := [1, 2], table := [], hopUs := 1, deal := [] }
def bag0 : BagWork := { bag := 0, engine := 0, stop := 2, issue := 1, combine := 0 }
def row0 : RowData := { lookup := 0, elems := [], scales := [] }
def relay0 : RelayWork := { stream := 1, counter := 1, relayId := 4, digest := 0, pos := 1, members := [1, 2] }
def relayPkt : Bytes := zeros 80 ++ natLe 8 4 ++ zeros 104

def tables0 : TableSet :=
  { epoch := 1, tag := 7, target := 1, chains := [], draws := [], drawCount := 1, initialDraw := 0, sched := [], routes := [],
    ferries := [{ route := 3, tag := 9, role := 1, port := 2, peerFid := 5, base := 0, bytes := 4096, peerSlice := 9 }], raw := [] }
def ferry0 : FerryIn := { ferryId := 6, route := 3, sourceFid := 5, step := 1 }
def work0 : CommitWork := { stream := 1, counter := 1, step := 1, action := 0, before := 0, beat := 0, chain := 0, pos := 0, members := [1] }
def decision0 : Decision := { step := 1, kind := .abandon, beat := 0, chain := 0, suspects := 0, fids := [], version := 0, missing := false }

def alloc0 : Alloc :=
  { epoch := 1, tag := 7, working := [1, 2], spares := [3], fenceAction := 0, k := 1, p := 1, dataUnits := 0, dataExt := [], parExt := [], pstage := [], groups := [],
    tenantDigest := [], tenantId := 0, offerWatches := 1, raw := [] }
/-- A BOUND module of a slice of three. -/
def memberSt : State := { fieldsSet [(R.SEC_STATUS, F.SEC_STATUS_STATE, 2), (R.SEC_STATUS, F.SEC_STATUS_SLICE_TAG, 7)] with fab := { alloc := some alloc0 } }

/-- A peer whose digest is zeros stands below every other, so a module is never the lower end to it. -/
def peer0 : Bytes := zeros 62
theorem own_not_lower : lowerThan ownDigest (idDigest peer0) = false := by
  have h : beNat (idDigest peer0) = 0 := by decide +kernel
  simp [lowerThan, h]
def kx0 : KeyExchange := { draw := 0, nonce := [], hello := [], peerHello := some [1], startNs := 0 }
/-- A port at phase 6 of training in an exchange of keys with that peer. -/
def kxSt : State := { fieldsSet [(R.DRD_PORT_STATUS 31, F.DRD_PORT_STATUS_STATE, 1)] with ports := [(31, { phase := 6, peer := some peer0 })], sec := { exchanges := [(kxKey 31 false, kx0)] } }
def sliceGen : KeyGen := { phase := 0, rot := 0, lower := false, secret := [], inst := [], slice := [1] }

/-- A master and pilot with every port unused, and a chart of it alone. -/
def entry0 : ModEntry := { digest := zeros 24, fid := 1, hostGroup := 0, flags := 3, discipline := 1, ports := List.replicate 32 noPort }
def chart0 : Chart :=
  { epoch := 1, installation := 0, meridianEpoch := 0, period := 1, phase := 0, offset := 0, length := 16, deferral := 1, modules := [entry0], raw := [] }
/-- The head of a document: kind, length, EPOCH, the EPOCH it amends, beat, slice tag and target. -/
def docHead (kind len epoch base beat tag target : Nat) : Bytes :=
  natLe 4 kind ++ natLe 4 len ++ zeros 8 ++ natLe 8 epoch ++ natLe 8 base ++ natLe 8 beat ++ natLe 2 tag ++ natLe 2 target ++ zeros 20
def chartDoc : Bytes := docHead 1 3565 2 0 1 0 0 ++ zeros 8 ++ natLe 2 1 ++ zeros 182 ++ zeros sigBytes
def amendDoc : Bytes := docHead 2 3413 2 1 1 0 0 ++ natLe 1 1 ++ zeros 1 ++ natLe 2 1 ++ zeros 4 ++ natLe 3 0 ++ natLe 1 1 ++ zeros 28 ++ zeros sigBytes
def allocDoc (fid : Nat) : Bytes :=
  docHead 3 3495 1 0 1 7 0 ++ natLe 2 1 ++ zeros 6 ++ natLe 2 fid ++ zeros 4 ++ natLe 1 1 ++ natLe 1 1 ++ zeros 58 ++ zeros 48 ++ zeros sigBytes
def tableDoc : Bytes := docHead 4 3661 1 0 1 7 1 ++ zeros 8 ++ natLe 1 1 ++ zeros 7 ++ zeros 136 ++ natLe 1 1 ++ zeros 135 ++ zeros sigBytes
/-- A module that hears Bluvisen and holds an authority key. -/
def heardSt : State := { boot := { stage := 3 }, flash := { authority := ⟨some (1, { key := [1] }), none⟩ } }

def dtest0 : DeferredTest := { record := { status := 0, opcode := opSELF_TEST, sliceTag := 7, stream := 1, ring := 0, counter := 1 }, code := 1, target := 0, acceptBeat := 0, order := 4 }
def entryA : LogEntry := { time := 0, lastTime := 0, seq := 9, source := 0, code := 1, cls := 0, opened := false, slice := 0, a0 := 0, a1 := 0, a2 := 0 }

/-- The module's own entry under a discipline, with a HOME port 0 to module 2; its digest rests on the opaque serial number. -/
def ownE (d : Nat) : ModEntry := { entry0 with digest := ownDigest, discipline := d, ports := ⟨2, 0, 4⟩ :: List.replicate 31 noPort }
def otherE : ModEntry := { entry0 with fid := 2, flags := 0, ports := ⟨1, 0, 4⟩ :: List.replicate 31 noPort }
/-- A module under that chart whose port 0 is in service, in the fields given. -/
def ownSt (d : Nat) (l : List (Nat × RF × Nat)) : State :=
  { fieldsSet ([(R.DRD_PORT_STATUS 0, F.DRD_PORT_STATUS_STATE, 5), (R.MER_STATUS, F.MER_STATUS_ROLE, 1)] ++ l) with boot := { stage := 9 }, fab := { chart := some { chart0 with modules := [ownE d, otherE] } } }
theorem own_entry (d : Nat) (l : List (Nat × RF × Nat)) : ownEntry (ownSt d l) = some (ownE d) := by
  have h : ∀ d, (ownE d).withdrawn = false := fun d => show (3 : Nat).testBit 4 = false by decide
  simp [ownEntry, ownSt, ownEntryIn, h]
  exact .inl rfl

/-! ### Ill-formed terms, one for each check of WellFormed -/

theorem test_illFormed_registersAndSlots : [Instr.registerWrite .mgmt (2 ^ 48) 8 0, .superframeMarker { marker0 with port := 32 }, .merPpsEdge (2 ^ 64), .commandSlotWrite 0x80000 [], .slotTimeout 64,
    .commandStart 257 1, .commandStart 1 (2 ^ 64), .ringFullWait 16, .crcGo 8 1, .crcData 0 5 0, .hbmGovWrite 6 0].all (fun i => !i.wellFormed) = true := by decide
theorem test_illFormed_engines : [Instr.load 96 [], .laneNop 16 [], .reductionRowResult 0 4 [], .updateBlock 32 [], .embLookup 4 [], .embRequest 0 1 (2 ^ 16) 1 1 1 [], .computeDieReset 4,
    .engineOperationTimeout (2 ^ 16)].all (fun i => !i.wellFormed) = true := by decide
theorem test_illFormed_links : [Instr.flit 6 true 0 [] 0, .flit 0 true 384 [] 0, .flit 4 true 64 [] 0, .flit 0 true 0 [] (2 ^ 128), .spareReq 0 true 0 0 4096, .creditTimeout 0 true 5,
    .darendFrame 0 { good := true, header := [], ct := [], tag := [], trailer := { ack := 0, credits := [], nak := false } }, .hello0 0 [], .hold 0 0 257 0, .laneChange 0 4 0 0 0, .laneChange 0 0 8 0 0,
    .laneChange 0 0 0 9 0, .align 0 { filter := 9, formed := true, logical := 0, wavelength := 0, port := 0, marker := 0, outside := [] }].all (fun i => !i.wellFormed) = true := by decide
theorem test_illFormed_fabric : [Instr.ringSweep 2048 [], .ringSweep 768 [], .ringSweep 9 [], .laserSpareIn 9, .chartChunk 0 1 1 0 1 (zeros 1985), .attestationRequest [], .enrolment [] 0 [] [], .kxCt 0 false [] [],
    .collectorAck (2 ^ 32), .recoveryChunk 0 (zeros 1025), .powerDomainFail 20, .clkSetWrite 7 0, .mgmtLinkSpeed 1001,
    .firmwareUpdateOrder { serial := [], digest := [], cold := false, sig := [], image := [], written := true }].all (fun i => !i.wellFormed) = true := by decide
theorem test_wellFormed_boundaries : [Instr.slotTimeout 63, .ringFullWait 15, .crcGo 7 1, .hbmGovWrite 5 0, .load 95 [], .laneNop 15 [], .flit 0 true 383 (zeros 1024) 0, .creditTimeout 5 true 4, .laneChange 31 3 7 15 0,
    .ringSweep 1720 [], .laserSpareIn 8, .powerDomainFail 19, .clkSetWrite 6 0, .computeDieReset 3].all Instr.wellFormed = true := by decide

/-! ### Published values -/

/-- CRC-32C of the nine digits (RFC 3720's Castagnoli polynomial, the check value of its catalogue). -/
theorem test_crc32c_check : crc32c [49, 50, 51, 52, 53, 54, 55, 56, 57] = 0xE3069283 := by decide +kernel
/-- SHAKE256 of the empty string begins 46 b9 dd 2b (FIPS 202). -/
theorem test_shake256_empty : shake256 [] 4 = [0x46, 0xb9, 0xdd, 0x2b] := by decide +kernel
/-- A reset unit holds the CRC-64 of the hallmarks; its check value over the nine digits is that of CRC-64/XZ's polynomial unreflected (CRC-64/ECMA-182). -/
theorem test_crc64_ecma : crcReg 64 0x42F0E1EBA9EA3693 false 0 [49, 50, 51, 52, 53, 54, 55, 56, 57] = 0x6C40DF5F0B497347 := by decide +kernel

/-! ### Single steps -/

/-- A step takes one command from the front. -/
theorem test_step_takes_front : (match step { pending := [.pcieReset, .holdoverEntry] } with | .next t => t.pending == [.holdoverEntry] && t.now == 0 | _ => false) = true := by decide +kernel
/-- A step on an empty queue is a nanosecond. -/
theorem test_step_idles : (match step State.reset with | .next t => t.pending == [] && t.now == 1 | _ => false) = true := by decide +kernel
/-- CRC_DATA with FEED_BYTES 1 takes one byte only. -/
theorem test_crcData_one_byte : (match exec (.crcData 7 8 0x3231) (fieldsSet [(R.CRC_CTRL 7, F.CRC_CTRL_FEED_BYTES, 1)]) with
    | .next t => (rd t (R.CRC_VALUE 7)).toNat == crcReg 64 0x42F0E1EBA9EA3693 false 0 [0x31] | _ => false) = true := by decide +kernel
/-- LIMIT of REL_HOLD above 0x40000 is refused and leaves the register. -/
theorem test_relHold_refused : (match exec (.registerWrite .mgmt R.REL_HOLD 8 (0x40001 * 2 ^ 32)) { fieldsSet [(R.PWR_DOMAIN_STATE, ⟨39, 0⟩, 0xAAAAAAAAAA)] with boot := { stage := 9 } } with
    | .next t => rd t R.REL_HOLD == 0x400000000000 && t.log.entries.length == 1 | _ => false) = true := by decide +kernel
/-- A loop setting one above its range is refused. -/
theorem test_clkSet_range : (match exec (.clkSetWrite 6 1301) { boot := { stage := 9 } } with | .next t => rd t (R.CLK_SET 6) == 1300 | _ => false) = true := by decide +kernel

def stDarendFramesReceived1 : State := fieldsSet [(R.DRD_PORT_STATUS 31, F.DRD_PORT_STATUS_STATE, 5)]

def stDarendFramesReceived2 : State := { fieldsSet [(R.DRD_PORT_STATUS 31, F.DRD_PORT_STATUS_STATE, 5)] with ports := [(31, { rxNext := 3 })] }

def stDarendFramesReceived3 : State := fieldsSet [(R.DRD_PORT_STATUS 31, F.DRD_PORT_STATUS_STATE, 5)]

def stDarendFramesReceived4 : State := fieldsSet [(R.DRD_PORT_STATUS 31, F.DRD_PORT_STATUS_STATE, 5)]

def stDarendFramesReceived6 : State := fieldsSet [(R.DRD_PORT_STATUS 31, F.DRD_PORT_STATUS_STATE, 6)]

def stPortTraining1 : State := fieldsSet [(R.DRD_PORT_STATUS 31, F.DRD_PORT_STATUS_STATE, 1)]

def stPortTraining2 : State := fieldsSet [(R.DRD_PORT_STATUS 31, F.DRD_PORT_STATUS_STATE, 1)]

def stPortTraining3 : State := fieldsSet [(R.DRD_PORT_STATUS 31, F.DRD_PORT_STATUS_STATE, 6)]

def stPortTraining4 : State := { fieldsSet [(R.DRD_PORT_STATUS 31, F.DRD_PORT_STATUS_STATE, 1)] with ports := [(31, { hello0 := some (zeros 31), phase := 3 })] }

def stPortTraining5 : State := { fieldsSet [(R.DRD_PORT_STATUS 31, F.DRD_PORT_STATUS_STATE, 1)] with now := 10000, ports := [(31, { phase := 4 })] }

def stPortTraining6 : State := { fieldsSet [(R.DRD_PORT_STATUS 31, F.DRD_PORT_STATUS_STATE, 1)] with now := 100000, ports := [(31, { phase := 4, tries := 8 })] }

def stPortTraining7 : State := { fieldsSet [(R.DRD_PORT_STATUS 31, F.DRD_PORT_STATUS_STATE, 4)] with now := 1000000 }

def stPortTraining8 : State := { fieldsSet [(R.DRD_PORT_STATUS 31, F.DRD_PORT_STATUS_STATE, 1)] with now := 2000001 }

def stPortTraining9 : State := { fieldsSet [(R.DRD_PORT_STATUS 31, F.DRD_PORT_STATUS_STATE, 5)] with now := 100000, ports := [(31, { hold := some ⟨0, 0, 0⟩ })] }

def stPortLanesAndReplay1 : State := fieldsSet [(R.DRD_PORT_STATUS 31, F.DRD_PORT_STATUS_STATE, 1)]

def stPortLanesAndReplay2 : State := fieldsSet [(R.DRD_PORT_STATUS 31, F.DRD_PORT_STATUS_STATE, 5)]

def stPortLanesAndReplay3 : State := { ports := [(31, { changes := [⟨false, true, 7, 8, 2, false⟩] })] }

def stPortLanesAndReplay4 : State := { ports := [(31, { changes := [⟨false, true, 7, 8, 2, true⟩] })] }

def stPortLanesAndReplay5 : State := fieldsSet [(R.DRD_PORT_STATUS 31, F.DRD_PORT_STATUS_STATE, 5)]

def stPortLanesAndReplay6 : State := fieldsSet [(R.DRD_PORT_STATUS 31, F.DRD_PORT_STATUS_STATE, 7)]

def stPortLanesAndReplay7 : State := { fieldsSet [(R.DRD_PORT_STATUS 31, F.DRD_PORT_STATUS_STATE, 5)] with now := 100000, ports := [(31, { store := [{ seq := 0, cls := 0, units := 1, scope := 0, dest := 0, msg := ⟨.ack, 31, [], [], none⟩ }] })] }

def stPortLanesAndReplay8 : State := { now := 2000001, ports := [(31, { leftNs := some 0 })] }

def stPortLanesAndReplay9 : State := State.reset

def stPortLanesAndReplay10 : State := State.reset

def stLinkKeyExchange1 : State := kxSt

def stLinkKeyExchange2 : State := kxSt

def stLinkKeyExchange3 : State := { kxSt with now := 5000000 }

def stLinkKeyExchange4 : State := State.reset

def stLinkKeyLife1 : State := State.reset

def stLinkKeyLife2 : State := { ports := [(31, { keys := [sliceGen] })], mer := { count := 0x41000000000000 } }

def stLinkKeyLife3 : State := { fieldsSet [(R.DRD_PORT_STATUS 31, F.DRD_PORT_STATUS_STATE, 5)] with ports := [(31, { keys := [sliceGen], peer := some peer0 })] }

def stLinkKeyLife4 : State := { fieldsSet [(R.DRD_PORT_STATUS 31, F.DRD_PORT_STATUS_STATE, 5)] with ports := [(31, { keys := [sliceGen], peer := some peer0 })] }

def stRedrawsAndRings1 : State := { fab := { redraw := some (0, 1) } }

def stRedrawsAndRings2 : State := { now := 40000, fab := { settling := some (0, []) } }

def stRedrawsAndRings3 : State := { fieldsSet [(R.LNT_STATUS, F.LNT_STATUS_ENABLED, 1)] with rose := { rings := [(1024, { state := 1 })] } }

def stRedrawsAndRings4 : State := State.reset

def stLanternEvents1 : State := fieldsSet [(R.LNT_STATUS, F.LNT_STATUS_ENABLED, 1), (R.LNT_STATUS, F.LNT_STATUS_PRESENT, 1)]

def stLanternEvents2 : State := fieldsSet [(R.LNT_STATUS, F.LNT_STATUS_ENABLED, 1)]

def stLanternEvents3 : State := { fieldsSet [(R.LNT_STATUS, F.LNT_STATUS_ENABLED, 1)] with rose := { busTries := 3 } }

def stLanternEvents4 : State := { fieldsSet [(R.LNT_STATUS, F.LNT_STATUS_ENABLED, 1), (R.LNT_STATUS, F.LNT_STATUS_PRESENT, 1), (R.MER_STATUS, F.MER_STATUS_STATE, 2)] with rose := { lines := [(8, { spare := some { atOnce := true, warmNs := 0, beat := some 0, goNs := some 0 } })] } }

def stDocumentsHeard1 : State := heardSt

def stDocumentsHeard2 : State := heardSt

def stDocumentsTakeEffect1 : State := { heardSt with fab := { waiting := [⟨1, 2, 1, 0, chartDoc⟩] } }

def stDocumentsTakeEffect2 : State := { setF heardSt R.DRD_CHART_EPOCH ⟨63, 0⟩ 1 with fab := { chart := some chart0, waiting := [⟨2, 2, 0, 0, amendDoc⟩] } }

def stDocumentsTakeEffect3 : State := { setF heardSt R.DRD_CHART_STATUS F.DRD_CHART_STATUS_FID 1 with fab := { waiting := [⟨3, 1, 1, 7, allocDoc 1⟩] } }

def stDocumentsTakeEffect4 : State := { heardSt with fab := { waiting := [⟨3, 1, 1, 7, allocDoc 1⟩] } }

def stDocumentsTakeEffect5 : State := { fieldsSet [(R.SEC_STATUS, F.SEC_STATUS_STATE, 2), (R.SEC_STATUS, F.SEC_STATUS_SLICE_TAG, 7), (R.DRD_CHART_STATUS, F.DRD_CHART_STATUS_FID, 1)] with fab := { waiting := [⟨4, 1, 1, 7, tableDoc⟩] } }

def stChartSpread1 : State := { fieldsSet [(R.DRD_PORT_STATUS 31, F.DRD_PORT_STATUS_STATE, 5), (R.DRD_CHART_EPOCH, ⟨63, 0⟩, 2)] with fab := { recent := [amendDoc] } }

def stChartSpread2 : State := setF heardSt (R.DRD_PORT_STATUS 31) F.DRD_PORT_STATUS_STATE 5

def stChartSpread3 : State := setF heardSt (R.DRD_PORT_STATUS 31) F.DRD_PORT_STATUS_STATE 5

def stReckoningFrames1 : State := fieldsSet [(R.SEC_STATUS, F.SEC_STATUS_STATE, 2), (R.SEC_STATUS, F.SEC_STATUS_SLICE_TAG, 7), (R.REL_RECKON_STATUS, F.REL_RECKON_STATUS_STATE, 1), (R.REL_RECKON_STATUS, F.REL_RECKON_STATUS_KG, 4)]

def stReckoningFrames2 : State := fieldsSet [(R.SEC_STATUS, F.SEC_STATUS_STATE, 2), (R.SEC_STATUS, F.SEC_STATUS_SLICE_TAG, 7), (R.REL_RECKON_STATUS, F.REL_RECKON_STATUS_STATE, 1), (R.REL_RECKON_STATUS, F.REL_RECKON_STATUS_KG, 4)]

def stReckoningFrames3 : State := { fieldsSet [(R.SEC_STATUS, F.SEC_STATUS_STATE, 2), (R.SEC_STATUS, F.SEC_STATUS_SLICE_TAG, 7), (R.REL_RECKON_STATUS, F.REL_RECKON_STATUS_STATE, 1), (R.REL_RECKON_STATUS, F.REL_RECKON_STATUS_KG, 4)] with fab := { alloc := some alloc0 } }

def stReckoningFrames4 : State := { fieldsSet [(R.SEC_STATUS, F.SEC_STATUS_STATE, 2), (R.SEC_STATUS, F.SEC_STATUS_SLICE_TAG, 7), (R.REL_RECKON_STATUS, F.REL_RECKON_STATUS_STATE, 1), (R.REL_RECKON_STATUS, F.REL_RECKON_STATUS_KG, 4), (R.ARB_ESC_STATUS, F.ARB_ESC_STATUS_STATE, 3)] with fab := { alloc := some alloc0 } }

def stReckoningFrames5 : State := { fieldsSet [(R.SEC_STATUS, F.SEC_STATUS_STATE, 2), (R.SEC_STATUS, F.SEC_STATUS_SLICE_TAG, 7), (R.REL_RECKON_STATUS, F.REL_RECKON_STATUS_STATE, 1), (R.REL_RECKON_STATUS, F.REL_RECKON_STATUS_KG, 4)] with fab := { alloc := some alloc0 } }

def stReckoningFrames6 : State := fieldsSet [(R.SEC_STATUS, F.SEC_STATUS_STATE, 2), (R.SEC_STATUS, F.SEC_STATUS_SLICE_TAG, 7), (R.REL_RECKON_STATUS, F.REL_RECKON_STATUS_STATE, 1), (R.REL_RECKON_STATUS, F.REL_RECKON_STATUS_KG, 4)]

def stIdentityAndAuthority1 : State := heardSt

def stIdentityAndAuthority2 : State := { heardSt with ladder := { attCount := 10 } }

def stIdentityAndAuthority3 : State := { boot := { stage := 3 } }

def stIdentityAndAuthority4 : State := heardSt

def stIdentityAndAuthority5 : State := heardSt

def stDebugAndBinding1 : State := State.reset

def stDebugAndBinding2 : State := memberSt

def stDebugAndBinding3 : State := setF State.reset R.SEC_STATUS F.SEC_STATUS_DEBUG_UNLOCKED 1

def stDebugAndBinding4 : State := setF State.reset R.SEC_STATUS F.SEC_STATUS_DEBUG_UNLOCKED 1

def stDebugAndBinding5 : State := State.reset

def stDebugAndBinding6 : State := { fieldsSet [(R.SEC_STATUS, F.SEC_STATUS_STATE, 1)] with boot := { stage := 3 }, fab := { alloc := some alloc0 } }

def stDebugAndBinding7 : State := { sec := { offer := some ⟨0, [], 0⟩ } }

def stDebugAndBinding8 : State := heardSt

def stDebugAndBinding9 : State := { fieldsSet [(R.SEC_STATUS, F.SEC_STATUS_STATE, 1)] with boot := { stage := 3 }, fab := { alloc := some alloc0 }, sec := { offer := some ⟨0, [], 1⟩ } }

def stFollowUpsOfTests1 : State := { ladder := { tests := [{ dtest0 with running := true, outcome := some (0, 0, 0) }] } }

def stFollowUpsOfTests2 : State := { ladder := { tests := [{ dtest0 with running := true }] } }

def stFollowUpsOfTests3 : State := { ladder := { tests := [{ dtest0 with running := true }] } }

def stFollowUpsOfTests4 : State := { ladder := { tests := [dtest0] }, mer := { count := 0x1000000000 } }

def stFollowUpsOfTests5 : State := State.reset

def stLogbookTraffic1 : State := { heardSt with log := { entries := [entryA], sent := [(9, 0)] } }

def stLogbookTraffic2 : State := { heardSt with now := 1000000000, log := { entries := [entryA], sent := [(9, 0)] } }

def stLogbookTraffic3 : State := { boot := { stage := 9 }, now := 100000000 }

def stRecoveryLadder1 : State := { boot := { stage := 9 } }

def stRecoveryLadder2 : State := State.reset

def stRecoveryLadder3 : State := { ladder := { rung := [(0x6003, 1)] } }

def stRecoveryLadder4 : State := { ladder := { rung := [(0x6003, 2)] } }

def stRecoveryLadder5 : State := { boot := { stage := 9 } }

def stRecoveryLadder6 : State := fieldsSet [(R.PWR_DOMAIN_FAULT, F.PWR_DOMAIN_FAULT_FENCED_OFF, 2 ^ 8)]

def stRecoveryLadder7 : State := { boot := { stage := 9 } }

def stColdStartsAndImages1 : State := State.reset

def stColdStartsAndImages2 : State := { flash := { image := none } }

def stColdStartsAndImages3 : State := State.reset

def stColdStartsAndImages4 : State := State.reset

def stColdStartsAndImages5 : State := State.reset

def stColdStartsAndImages6 : State := { fieldsSet [(R.ARB_BOOT_STATUS, F.ARB_BOOT_STATUS_STATE, 1), (R.ARB_BOOT_STATUS, F.ARB_BOOT_STATUS_PILOT_SEL, 1), (R.PWR_DOMAIN_STATE, ⟨9, 8⟩, 2)] with boot := { stage := 3 } }

def stColdStartsAndImages7 : State := { fieldsSet [(R.ARB_BOOT_STATUS, F.ARB_BOOT_STATUS_STATE, 1)] with boot := { stage := 3 } }

def stColdStartsAndImages8 : State := { fieldsSet [(R.ARB_BOOT_STATUS, F.ARB_BOOT_STATUS_STATE, 1)] with boot := { stage := 3 } }

def stColdStartsAndImages9 : State := { heardSt with boot := { stage := 9 } }

def stColdStartsAndImages10 : State := { setF heardSt R.SEC_STATUS F.SEC_STATUS_STATE 2 with boot := { stage := 9 } }

def stColdStartsAndImages11 : State := { boot := { restartBy := some 0 } }

def stColdStartsAndImages12 : State := { boot := { stage := 9, strap := true, strapSeen := true } }

def stColdStartsAndImages13 : State := setF State.reset R.PWR_DOMAIN_STATE ⟨9, 8⟩ 2

def stAnchorAndWake1 : State := { boot := { stage := 9 } }

def stAnchorAndWake2 : State := { fieldsSet [(R.PWR_ANCHOR_STATUS, F.PWR_ANCHOR_STATUS_STATE, 1)] with pwr := { order := some (0, 0) } }

def stAnchorAndWake3 : State := { fieldsSet [(R.PWR_ANCHOR_STATUS, F.PWR_ANCHOR_STATUS_STATE, 2)] with pwr := { order := some (0, 0) } }

def stAnchorAndWake4 : State := { fieldsSet [(R.PWR_ANCHOR_STATUS, F.PWR_ANCHOR_STATUS_STATE, 2)] with pwr := { order := some (0, 0) }, mer := { count := 4194304 }, hbm := { retireWait := true } }

def stAnchorAndWake5 : State := { fieldsSet [(R.PWR_ANCHOR_STATUS, F.PWR_ANCHOR_STATUS_STATE, 3)] with pwr := { order := some (0, 1) }, mer := { count := 65536 } }

def stAnchorAndWake6 : State := { fieldsSet [(R.PWR_ANCHOR_STATUS, F.PWR_ANCHOR_STATUS_STATE, 2)] with pwr := { order := some (0, 1) } }

def stSuppliesAndDomains1 : State := setF State.reset R.PWR_DOMAIN_STATE ⟨1, 0⟩ 2

def stSuppliesAndDomains2 : State := setF State.reset R.PWR_DOMAIN_STATE ⟨7, 6⟩ 2

def stSuppliesAndDomains3 : State := setF State.reset R.PWR_DOMAIN_STATE ⟨39, 38⟩ 2

def stSuppliesAndDomains4 : State := { boot := { stage := 9 } }

def stSuppliesAndDomains5 : State := { pwr := { supplyOff := true } }

def stSuppliesAndDomains6 : State := { fieldsSet [(R.PWR_INPUT, F.PWR_INPUT_FEED_A, 1), (R.PWR_INPUT, F.PWR_INPUT_FEED_B, 1)] with boot := { stage := 9 } }

def stSuppliesAndDomains7 : State := { fieldsSet [(R.PWR_INPUT, F.PWR_INPUT_FEED_A, 1), (R.PWR_INPUT, F.PWR_INPUT_FEED_B, 0)] with boot := { stage := 9 } }

def stSuppliesAndDomains8 : State := { now := 10000000000, pwr := { coolSince := some 0, tripped := true } }

def stClocksCapsAndBuses1 : State := { boot := { stage := 9 } }

def stClocksCapsAndBuses2 : State := { boot := { stage := 9 } }

def stClocksCapsAndBuses3 : State := { boot := { stage := 9 } }

def stClocksCapsAndBuses4 : State := { boot := { stage := 9 } }

def stClocksCapsAndBuses5 : State := { boot := { stage := 9 } }

def stClocksCapsAndBuses6 : State := { boot := { stage := 9 } }

def stClocksCapsAndBuses7 : State := { boot := { stage := 9 } }

def stClocksCapsAndBuses8 : State := { boot := { stage := 9 } }

def stRegisterAccessForm1 : State := { fieldsSet [(R.PWR_DOMAIN_STATE, ⟨39, 0⟩, 0xAAAAAAAAAA)] with boot := { stage := 9 } }

def stRegisterAccessForm2 : State := { fieldsSet [(R.PWR_DOMAIN_STATE, ⟨39, 0⟩, 0xAAAAAAAAAA)] with boot := { stage := 9 } }

def stRegisterReadsAndAbsentRegisters1 : State := { fieldsSet [(R.PWR_DOMAIN_STATE, ⟨39, 0⟩, 0xAAAAAAAAAA)] with boot := { stage := 9 } }

def stRegisterReadsAndAbsentRegisters2 : State := { fieldsSet [(R.PWR_DOMAIN_STATE, ⟨39, 0⟩, 0xAAAAAAAAAA)] with boot := { stage := 9 } }

def stRegisterReadsAndAbsentRegisters3 : State := { fieldsSet [(R.PWR_DOMAIN_STATE, ⟨39, 0⟩, 0xAAAAAAAAAA)] with boot := { stage := 9 } }

def stRegisterPath1 : State := { fieldsSet [(R.PWR_DOMAIN_STATE, ⟨39, 0⟩, 0xAAAAAAAAAA), (R.ARB_BOOT_STATUS, F.ARB_BOOT_STATUS_PILOT_LIVE, 1)] with boot := { stage := 9 } }

def stRegisterPath2 : State := { fieldsSet [(R.PWR_DOMAIN_STATE, ⟨39, 0⟩, 0xAAAAAAAAAA), (R.ARB_BOOT_STATUS, F.ARB_BOOT_STATUS_PILOT_LIVE, 1), (R.CMD_REG_TARGET, F.CMD_REG_TARGET_ADDR, 1)] with boot := { stage := 9 } }

def stRegisterPath3 : State := ownSt 1 []

def stRegisterPath4 : State := { cmd := { regWait := some (0, 5) } }

def stRegisterPath5 : State := { now := 1000000, cmd := { regWait := some (0, 5) } }

def stMeridianCountReads1 : State := { setF State.reset R.PWR_DOMAIN_STATE ⟨1, 0⟩ 2 with boot := { stage := 9 } }

def stMeridianCountReads3 : State := State.reset

def stMeridianLockStates1 : State := { fieldsSet [(R.MER_STATUS, F.MER_STATUS_STATE, 2)] with mer := { missed := 4 } }

def stMeridianLockStates2 : State := { fieldsSet [(R.MER_STATUS, F.MER_STATUS_STATE, 3)] with mer := { holdover := 65 } }

def stMeridianLockStates3 : State := { fieldsSet [(R.MER_STATUS, F.MER_STATUS_ROLE, 2)] with mer := { rankMissed := 16 } }

def stMeridianMeasurements1 : State := ownSt 1 []

def stMeridianMeasurements2 : State := ownSt 1 [(R.MER_STATUS, F.MER_STATUS_STATE, 3)]

def stMeridianMeasurements3 : State := ownSt 2 [(R.MER_STATUS, F.MER_STATUS_STATE, 3)]

def stMeridianMeasurements4 : State := fieldsSet [(R.MER_STATUS, F.MER_STATUS_ROLE, 1)]

def stMeridianMeasurements5 : State := fieldsSet [(R.DRD_PORT_STATUS 3, F.DRD_PORT_STATUS_STATE, 1)]

def stMeridianMeasurements6 : State := { fieldsSet [(R.DRD_PORT_STATUS 31, F.DRD_PORT_STATUS_STATE, 5)] with ports := [(31, { keys := [keyGen0] })] }

def stBeatsAndDogWatches1 : State := { boot := { stage := 1 }, mer := { count := 65536 } }

def stBeatsAndDogWatches2 : State := { fieldsSet [(R.MER_STATUS, F.MER_STATUS_STATE, 3)] with fab := { chart := some chart0 } }

def stBeatsAndDogWatches3 : State := { mer := { dogEnd := some 0 } }

def stCommandSlots1 : State := fieldsSet [(R.ARB_BOOT_STATUS, F.ARB_BOOT_STATUS_PILOT_LIVE, 1), (R.ARB_BOOT_STATUS, F.ARB_BOOT_STATUS_STATE, 4)]

def stCommandSlots2 : State := fieldsSet [(R.ARB_BOOT_STATUS, F.ARB_BOOT_STATUS_PILOT_LIVE, 1)]

def stCommandSlots3 : State := { now := 100000, cmd := { slots := [(63, { data := [(0, 96), (1, 0)] })] } }

def stCommandSlots4 : State := { now := 100000, cmd := { slots := [(0, { data := [(0, 1), (1, 0)] })] } }

def stCommandSlots5 : State := { now := 100000, cmd := { slots := [(5, { quiet := true })] } }

def stStreamPackets1 : State := pktSt setPkt

def stStreamPackets2 : State := pktSt abortPkt

def stStreamPackets3 : State := pktSt clearPkt

def stStreamPackets4 : State := pktSt queryPkt

def stCommandsStartWaitAndEnd1 : State := oneCmd (cmdOf opNOP 1 .queued)

def stCommandsStartWaitAndEnd2 : State := { cmd := { cmds := [cmdOf opNOP 5 .queued], streams := [(1, { state := .halted, failed := [4] })] } }

def stCommandsStartWaitAndEnd3 : State := { oneCmd { cmdOf opNOP 1 .queued with waitNs := some 0, hdr := { hdrOf opNOP 1 with flags := 2, waitFence := 4095, waitValue := 1 } } with now := 1000001 }

def stCommandsStartWaitAndEnd4 : State := oneCmd (cmdOf opNOP 1 .ended)

def stCommandsStartWaitAndEnd5 : State := oneCmd { cmdOf opCOPY 1 .running with stop := some ⟨0x0001, 0, 9⟩ }

def stCommandsStartWaitAndEnd6 : State := { oneCmd { cmdOf opCOPY 1 .running with startedNs := 1 } with now := 1000002 }

def stCommandsStartWaitAndEnd7 : State := { oneCmd { cmdOf opCOPY 1 .ended with startedNs := 1 } with now := 1000002 }

def stCompletionRings1 : State := State.reset

def stCompletionRings2 : State := State.reset

def stCompletionRings3 : State := { fieldsSet [(R.ARB_BOOT_STATUS, F.ARB_BOOT_STATUS_PILOT_LIVE, 1), (R.CMD_RING_CTRL 2, F.CMD_RING_CTRL_ENABLE, 1), (R.CMD_RING_CTRL 2, F.CMD_RING_CTRL_SIZE, 6), (R.CMD_RING_HEAD 2, ⟨63, 0⟩, 64)] with cmd := { ringWait := [(2, zeros 64)] } }

def stDataMovementWork1 : State := oneCmd (cmdOf opCOPY 1 .running)

def stDataMovementWork2 : State := oneCmd (cmdOf opRELAY 1 .running)

def stDataMovementWork3 : State := oneCmd (cmdOf opSELF_TEST 1 .running)

def stDataMovementWork4 : State := oneCmd (cmdOf opCALIBRATE 1 .running)

def stDataMovementWork5 : State := { fieldsSet [(R.SEC_STATUS, F.SEC_STATUS_STATE, 3)] with sec := { releasing := some { reason := 1, tag := 7, bindId := 1, start := 0 } } }

def stMatrixArrays1 : State := fieldsSet [(R.CDn_ARRAY_MAP 3 23, F.CDn_ARRAY_MAP_STATE, 0)]

def stMatrixArrays2 : State := passSt

def stMatrixArrays3 : State := handSt

def stMatrixArrays4 : State := { comp := { tiles := [{ tile0 with stage := .handed }] } }

def stVernierAndThirdReadings1 : State := { comp := { tiles := [{ tile0 with stage := .handed }] } }

def stVernierAndThirdReadings2 : State := { comp := { tiles := [{ tile0 with stage := .handed, third := true }] } }

def stVernierAndThirdReadings3 : State := { fieldsSet [(R.CDn_ARRAY_MAP 1 0, F.CDn_ARRAY_MAP_STATE, 0)] with comp := { tiles := [{ tile0 with stage := .held }] } }

def stVernierAndThirdReadings4 : State := { comp := { tiles := [{ tile0 with stage := .held }] } }

def stLaneMemoryAndRowResults3 : State := { oneCmd (cmdOf opLANE_PROGRAM 1 .running (lanePkt 6)) with comp := { engines := [(0, { stream := 1, counter := 1, row := some 0, part := .prologue })] } }

def stEmbeddingFrames1 : State := { fieldsSet [(R.SEC_STATUS, F.SEC_STATUS_STATE, 2)] with fleet := { exchanges := [exch0] } }

def stEmbeddingFrames2 : State := { fieldsSet [(R.SEC_STATUS, F.SEC_STATUS_STATE, 2)] with fleet := { exchanges := [exch0] } }

def stEmbeddingFrames3 : State := { fieldsSet [(R.SEC_STATUS, F.SEC_STATUS_STATE, 2)] with fleet := { exchanges := [exch0] } }

def stEmbeddingFrames4 : State := { fieldsSet [(R.SEC_STATUS, F.SEC_STATUS_STATE, 2)] with fleet := { exchanges := [exch0] } }

def stEmbeddingFrames5 : State := fieldsSet [(R.SEC_STATUS, F.SEC_STATUS_STATE, 2), (R.REL_HOLD, F.REL_HOLD_LIMIT, 1)]

def stEmbeddingFrames6 : State := { fieldsSet [(R.SEC_STATUS, F.SEC_STATUS_STATE, 2)] with fleet := { exchanges := [exch0] } }

def stEmbeddingFrames7 : State := { oneCmd (cmdOf opEMB_SCATTER_ADD 1 .running) with fleet := { exchanges := [exch0] } }

def stEmbeddingFrames8 : State := { oneCmd (cmdOf opEMB_GATHER 1 .running) with fleet := { exchanges := [{ exch0 with scatter := false, bags := [bag0] }] } }

def stEmbeddingFrames9 : State := { oneCmd (cmdOf opEMB_SCATTER_ADD 1 .running) with now := 1000, fleet := { exchanges := [exch0] } }

def stEmbeddingFrames10 : State := { oneCmd (cmdOf opEMB_GATHER 1 .running) with fleet := { exchanges := [{ exch0 with scatter := false, deal := [{ unit := 3, next := 0, stride := 1, stop := 1 }] }] } }

def stEmbeddingFrames11 : State := { oneCmd (cmdOf opEMB_GATHER 1 .running) with fleet := { exchanges := [{ exch0 with scatter := false, bags := [{ bag0 with issue := 0, combine := 0 }] }] } }

def stRelayAndFerryEvents1 : State := { fieldsSet [(R.SEC_STATUS, F.SEC_STATUS_STATE, 2)] with fleet := { relays := [relay0] } }

def stRelayAndFerryEvents2 : State := fieldsSet [(R.SEC_STATUS, F.SEC_STATUS_STATE, 2), (R.REL_HOLD, F.REL_HOLD_LIMIT, 1)]

def stRelayAndFerryEvents3 : State := { now := 1073741824, fleet := { held := [⟨.embStop 1 1 1, 0, 16, 0⟩] } }

def stRelayAndFerryEvents4 : State := { oneCmd (cmdOf opRELAY 1 .running relayPkt) with now := 1000000, fleet := { relays := [relay0] } }

def stRelayAndFerryEvents5 : State := fieldsSet [(R.SEC_STATUS, F.SEC_STATUS_STATE, 2)]

def stRelayAndFerryEvents6 : State := { now := 1073741824, fab := { tables := some tables0 }, fleet := { ferryIn := [ferry0] } }

def stUpdatesAndSeals1 : State := { oneCmd (cmdOf opUPDATE 1 .running) with comp := { updates := [{ stream := 1, counter := 1, deal := [{ unit := 31, next := 0, stride := 1, stop := 1 }], total := 1 }] } }

def stUpdatesAndSeals2 : State := { fieldsSet [(R.ARB_ESC_STATUS, F.ARB_ESC_STATUS_STATE, 1)] with esc := { work := some work0 }, cmd := { cmds := [cmdOf opCOMMIT 1 .running] } }

def stVotesDecisionsAndRelease1 : State := fieldsSet [(R.SEC_STATUS, F.SEC_STATUS_STATE, 2)]

def stVotesDecisionsAndRelease2 : State := fieldsSet [(R.SEC_STATUS, F.SEC_STATUS_STATE, 2)]

def stVotesDecisionsAndRelease3 : State := { esc := { work := some work0, pending := some decision0 } }

def stVotesDecisionsAndRelease4 : State := { fieldsSet [(R.ARB_ESC_STATUS, F.ARB_ESC_STATUS_STATE, 3)] with esc := { work := some { work0 with acted := true } } }

def stVotesDecisionsAndRelease5 : State := { fieldsSet [(R.ARB_ESC_STATUS, F.ARB_ESC_STATUS_STATE, 3)] with cmd := { cmds := [cmdOf opFILL 1 .running (zeros 64 ++ natLe 8 64 ++ zeros 8)] }, esc := { risen := false, work := some { work0 with acted := true }, rows := [{ tableAddr := 0, localRow := 0, shard := 0, elemAddr := 32, elems := zeros 64, scaleAddr := 0, scales := [], bytes := 64 }] } }

def stInDoubt1 : State := { fieldsSet [(R.ARB_ESC_STATUS, F.ARB_ESC_STATUS_STATE, 2)] with esc := { work := some work0 }, mer := { count := 1048576 } }

def stInDoubt2 : State := { esc := { ask := some { step := 1, members := [1, 2], pos := 0, since := 0 } } }

def stInDoubt3 : State := { fieldsSet [(R.ARB_ESC_STATUS, F.ARB_ESC_STATUS_STATE, 5)] with esc := { work := some work0, ask := some { step := 1, members := [1, 2], pos := 0, since := 0 } }, mer := { count := 1073741824 } }

def stInDoubt4 : State := { memberSt with esc := { decisions := [decision0] } }

def stInDoubt5 : State := { memberSt with esc := { keptDigests := [{ step := 1, digest := [7], untilNs := 0 }] } }

def stInDoubt6 : State := memberSt

def stInDoubt7 : State := { fieldsSet [(R.ARB_ESC_STATUS, F.ARB_ESC_STATUS_STATE, 1)] with esc := { work := some { work0 with action := 2 } } }

def stCheckValueScans1 : State := fieldsSet [(R.CRC_CFG 3, F.CRC_CFG_WIDTH, 16), (R.CRC_LENGTH 3, F.CRC_LENGTH_BYTES, 128), (R.CRC_START 3, F.CRC_START_ADDR, 4096), (R.HBM_STACK_STATUS 0, F.HBM_STACK_STATUS_STATE, 2)]

def stCheckValueScans2 : State := fieldsSet [(R.CRC_CFG 7, F.CRC_CFG_WIDTH, 0)]

def stCheckValueScans3 : State := fieldsSet [(R.CRC_CFG 3, F.CRC_CFG_WIDTH, 16), (R.CRC_LENGTH 3, F.CRC_LENGTH_BYTES, 128), (R.CRC_START 3, F.CRC_START_ADDR, 4096), (R.HBM_STACK_STATUS 0, F.HBM_STACK_STATUS_STATE, 2), (R.CRC_STATUS 3, F.CRC_STATUS_BUSY, 1)]

def stCheckValueScans4 : State := fieldsSet [(R.CRC_CFG 3, F.CRC_CFG_WIDTH, 16), (R.CRC_LENGTH 3, F.CRC_LENGTH_BYTES, 128), (R.CRC_START 3, F.CRC_START_ADDR, 4096), (R.HBM_STACK_STATUS 0, F.HBM_STACK_STATUS_STATE, 2), (R.CRC_STATUS 3, F.CRC_STATUS_BUSY, 1)]

def stCheckValueScans5 : State := fieldsSet [(R.CRC_CFG 3, F.CRC_CFG_WIDTH, 16), (R.CRC_LENGTH 3, F.CRC_LENGTH_BYTES, 128), (R.CRC_START 3, F.CRC_START_ADDR, 4096), (R.HBM_STACK_STATUS 0, F.HBM_STACK_STATUS_STATE, 2), (R.CRC_STATUS 3, F.CRC_STATUS_BUSY, 1)]

def stCheckValueCompareAndFeed1 : State := State.reset

def stCheckValueCompareAndFeed2 : State := fieldsSet [(R.CRC_CFG 7, F.CRC_CFG_WIDTH, 8), (R.CRC_EXPECT 7, ⟨63, 0⟩, 5)]

def stCheckValueCompareAndFeed3 : State := fieldsSet [(R.CRC_CTRL 7, F.CRC_CTRL_FEED_BYTES, 8)]

def stCheckValueCompareAndFeed4 : State := fieldsSet [(R.CRC_CTRL 7, F.CRC_CTRL_FEED_BYTES, 0)]

def stHbmPagesAndScrub1 : State := State.reset

def stHbmPagesAndScrub2 : State := State.reset

def stHbmPagesAndScrub3 : State := State.reset

def stHbmPagesAndScrub4 : State := { hbm := { flashWrite := some (7, 9) } }

def stHbmPagesAndScrub5 : State := { hbm := { flashWrite := some (7, 9) } }

def stHbmPagesAndScrub6 : State := State.reset

def stHbmPagesAndScrub7 : State := { hbm := { pages := [(3, none)] } }

def stHbmPagesAndScrub8 : State := State.reset

def stHbmPagesAndScrub9 : State := State.reset

def stHbmPagesAndScrub10 : State := fieldsSet [(R.HBM_SCRUB, F.HBM_SCRUB_ENABLE, 1)]

def stArborFlits1 : State := fieldsSet [(R.ARB_LINK_STATUS 5, F.ARB_LINK_STATUS_STATE_UP, 2)]

def stArborFlits2 : State := fieldsSet [(R.ARB_LINK_STATUS 5, F.ARB_LINK_STATUS_STATE_UP, 2)]

def stArborSparing1 : State := fieldsSet [(R.ARB_LINK_STATUS 5, F.ARB_LINK_STATUS_STATE_UP, 2)]

def stArborSparing2 : State := { fieldsSet [(R.ARB_LINK_STATUS 5, F.ARB_LINK_STATUS_STATE_UP, 2)] with links := [(10, { groups := [(3, { switch := some ⟨false, 4, 9⟩ })] })] }

def stArborSparing3 : State := State.reset

def stArborSparing4 : State := fieldsSet [(R.ARB_LINK_STATUS 5, F.ARB_LINK_STATUS_STATE_UP, 2)]

def stArborSparing5 : State := { fieldsSet [(R.ARB_LINK_STATUS 5, F.ARB_LINK_STATUS_STATE_UP, 2)] with links := [(10, { groups := [(3, { switch := some ⟨true, 4, 9⟩ })] })] }

def stArborCreditsAndRetrain1 : State := fieldsSet [(R.ARB_LINK_STATUS 5, F.ARB_LINK_STATUS_STATE_UP, 2)]

def stArborCreditsAndRetrain2 : State := { fieldsSet [(R.ARB_LINK_STATUS 5, F.ARB_LINK_STATUS_STATE_UP, 2)] with links := [(10, { probeNs := some 0 })] }

def stArborCreditsAndRetrain3 : State := { fieldsSet [(R.ARB_LINK_STATUS 5, F.ARB_LINK_STATUS_STATE_UP, 2)] with links := [(10, { credits := [1, 1, 1, 1, 0] })] }

def stArborCreditsAndRetrain4 : State := { fieldsSet [(R.ARB_LINK_STATUS 5, F.ARB_LINK_STATUS_STATE_UP, 2)] with now := 1000, links := [(10, { probeNs := some 0 })] }

def stArborCreditsAndRetrain5 : State := { fieldsSet [(R.ARB_LINK_STATUS 5, F.ARB_LINK_STATUS_STATE_UP, 2), (R.ARB_LINK_STATUS 5, F.ARB_LINK_STATUS_RETRAINS_WATCH, 2)] with now := 1000, links := [(10, { probeNs := some 0 })] }

theorem witness_StepRunsFrontCommand :
  ∃ s c rest, s.pending = c :: rest ∧ s = ({ pending := [Instr.pcieReset] } : State) := ⟨{ pending := [.pcieReset] }, .pcieReset, [], rfl, rfl⟩

theorem witness_EmptyQueueIsOneNanosecond :
  Inv State.reset ∧ State.reset.pending = [] := by decide +kernel

theorem witness_EveryStepKeepsInvariant :
  Inv State.reset ∧ ∃ t, step State.reset = .next t := ⟨by decide, _, rfl⟩

theorem witness_EveryCommandGoesOn :
  Inv State.reset := by decide +kernel

theorem witness_DarendFramesReceived :
  (Inv stDarendFramesReceived1 ∧ inService stDarendFramesReceived1 31 = true) ∧
  (inService stDarendFramesReceived2 31 = true ∧ hdSeq (zeros 16) ≠ (getPort (takeAck (cleanBlock stDarendFramesReceived2 31) 31 { ack := 0, credits := [], nak := false }) 31).rxNext % 2 ^ 32) ∧
  (inService stDarendFramesReceived3 31 = true ∧ hdSeq (zeros 4 ++ [9] ++ zeros 11) = (getPort (takeAck (cleanBlock stDarendFramesReceived3 31) 31 { ack := 0, credits := [], nak := false }) 31).rxNext % 2 ^ 32 ∧ (List.range 16).any (fun k => !admits (takeAck (cleanBlock stDarendFramesReceived3 31) 31 { ack := 0, credits := [], nak := false }) 31 (hdScope (zeros k ++ [9] ++ zeros (15 - k)))) = true) ∧
  (inService stDarendFramesReceived4 31 = true ∧ hdSeq (zeros 16) = (getPort (takeAck (cleanBlock stDarendFramesReceived4 31) 31 { ack := 0, credits := [], nak := false }) 31).rxNext % 2 ^ 32 ∧ admits (takeAck (cleanBlock stDarendFramesReceived4 31) 31 { ack := 0, credits := [], nak := false }) 31 (hdScope (zeros 16)) = true ∧ restricted (takeAck (cleanBlock stDarendFramesReceived4 31) 31 { ack := 0, credits := [], nak := false }) 31 = false ∧ openFrame (takeAck (cleanBlock stDarendFramesReceived4 31) 31 { ack := 0, credits := [], nak := false }) 31 { good := true, header := zeros 16, ct := [], tag := [], trailer := { ack := 0, credits := [], nak := false } } = none) ∧
  (inService stDarendFramesReceived6 31 = true) := by decide +kernel

theorem witness_PortTraining_1 :
  (portState stPortTraining1 31 = 1 ∧ (getPort stPortTraining1 31).phase ≠ 2 ∧ mapSorted stPortTraining1.ports = true ∧ mapSorted (getPort stPortTraining1 31).aligns = true) ∧
  (portState stPortTraining2 31 = 1 ∧ (getPort stPortTraining2 31).phase ≠ 2 ∧ (getPort stPortTraining2 31).hold = none) ∧
  (1 ≤ portState stPortTraining3 31 ∧ portState stPortTraining3 31 ≤ 6) ∧
  (Inv stPortTraining4 ∧ (getPort stPortTraining4 31).hello0 = some (zeros 31) ∧ portState stPortTraining4 31 = 1 ∧ (getPort stPortTraining4 31).phase < 4) ∧
  (portState stPortTraining5 31 = 1 ∧ (getPort stPortTraining5 31).phase = 4 ∧ (getPort stPortTraining5 31).identNs + 10000 ≤ stPortTraining5.now ∧ stPortTraining5.now < (getPort stPortTraining5 31).helloNs + 100000) ∧
  (portState stPortTraining6 31 = 1 ∧ (getPort stPortTraining6 31).phase = 4 ∧ (getPort stPortTraining6 31).identNs + 10000 ≤ stPortTraining6.now ∧ (getPort stPortTraining6 31).helloNs + 100000 ≤ stPortTraining6.now ∧ 8 ≤ (getPort stPortTraining6 31).tries) := by decide +kernel

theorem witness_PortTraining_2 :
  (portState stPortTraining7 31 = 4 ∧ (getPort stPortTraining7 31).identNs + 1000000 ≤ stPortTraining7.now) ∧
  (portState stPortTraining8 31 = 1 ∧ (getPort stPortTraining8 31).phase ≤ 5 ∧ 2000000 < counted stPortTraining8 31 (getPort stPortTraining8 31).trainNs) ∧
  (inService stPortTraining9 31 = true ∧ (getPort stPortTraining9 31).hold = some ⟨0, 0, 0⟩ ∧ 0 + 100000 ≤ stPortTraining9.now) := by decide +kernel

theorem witness_PortLanesAndReplay_1 :
  (Inv stPortLanesAndReplay1 ∧ portState stPortLanesAndReplay1 31 = 1) ∧
  (inService stPortLanesAndReplay2 31 = true ∧ mapSorted stPortLanesAndReplay2.ports = true) ∧
  ((getPort stPortLanesAndReplay3 31).changes.find? (fun c => c.tx == false && c.logical == 7) = some ⟨false, true, 7, 8, 2, false⟩) ∧
  ((getPort stPortLanesAndReplay4 31).changes.find? (fun c => c.tx == false && c.logical == 7) = some ⟨false, true, 7, 8, 2, true⟩) ∧
  (inService stPortLanesAndReplay5 31 = true ∧ holding stPortLanesAndReplay5 (getPort stPortLanesAndReplay5 31) = false) ∧
  (portState stPortLanesAndReplay6 31 = 7) := by decide +kernel

theorem witness_PortLanesAndReplay_2 :
  (inService stPortLanesAndReplay7 31 = true ∧ (getPort stPortLanesAndReplay7 31).store ≠ [] ∧ holding stPortLanesAndReplay7 (getPort stPortLanesAndReplay7 31) = false ∧ roundTrip stPortLanesAndReplay7 31 + 2000 ≤ counted stPortLanesAndReplay7 31 (getPort stPortLanesAndReplay7 31).ackNs) ∧
  ((getPort stPortLanesAndReplay8 31).leftNs = some 0 ∧ inService stPortLanesAndReplay8 31 = false ∧ 2000000 < counted stPortLanesAndReplay8 31 0) ∧
  (Inv stPortLanesAndReplay9 ∧ (List.range 32).all (fun p => (getPort stPortLanesAndReplay9 p).extension == 0) = true ∧ fld (0 : Word) 54 48 = 0) ∧
  (64 < fld (0x7F000000000000 : Word) 54 48) := by decide +kernel

theorem witness_LinkKeyExchange_p1 :
  portState stLinkKeyExchange1 31 = 1 ∧ (getPort stLinkKeyExchange1 31).phase = 6 ∧ getKx stLinkKeyExchange1 31 false = some kx0 ∧ (getPort stLinkKeyExchange1 31).peer = some peer0 ∧ lowerThan ownDigest (idDigest peer0) = false := ⟨by decide +kernel, by decide +kernel, by decide +kernel, by decide +kernel, own_not_lower⟩

theorem witness_LinkKeyExchange_p2 :
  getKx stLinkKeyExchange2 31 false = some kx0 ∧ (getPort stLinkKeyExchange2 31).peer = some peer0 ∧ lowerThan ownDigest (idDigest peer0) = false ∧ kx0.peerHello = some [1] := ⟨by decide +kernel, by decide +kernel, own_not_lower, rfl⟩

theorem witness_LinkKeyExchange :
  (getKx stLinkKeyExchange3 31 true = none ∧ getKx stLinkKeyExchange3 31 false = some kx0 ∧ kx0.startNs + 5000000 ≤ stLinkKeyExchange3.now ∧ portState stLinkKeyExchange3 31 = 1 ∧ (getPort stLinkKeyExchange3 31).phase = 6) ∧
  (getKx stLinkKeyExchange4 31 true = none ∧ getKx stLinkKeyExchange4 31 false = none) := by decide +kernel

theorem witness_LinkKeyLife :
  (Inv stLinkKeyLife1 ∧ watchNow stLinkKeyLife1 % 16384 = 0 ∧ beatNow stLinkKeyLife1 % 16384 = 0) ∧
  (mapSorted stLinkKeyLife2.ports = true ∧ genExpired stLinkKeyLife2 sliceGen = true) ∧
  (inService stLinkKeyLife3 31 = true ∧ ((getPort stLinkKeyLife3 31).keys.find? fun g => g.slice != []) = some sliceGen ∧ (getPort stLinkKeyLife3 31).peer = some peer0 ∧ confirmed stLinkKeyLife3 31 = false) ∧
  (Inv stLinkKeyLife4 ∧ inService stLinkKeyLife4 31 = true ∧ ((getPort stLinkKeyLife4 31).keys.find? fun g => g.slice != []) = some sliceGen ∧ (getPort stLinkKeyLife4 31).peer = some peer0 ∧ kmac256 sliceGen.slice (idDigest peer0) 32 nmSlc ≠ [0]) := by decide +kernel

theorem witness_RedrawsAndRings :
  (stRedrawsAndRings1.fab.redraw = some (0, 1) ∧ 0 ≤ beatNow stRedrawsAndRings1) ∧
  (stRedrawsAndRings2.fab.settling = some (0, []) ∧ 0 + 40000 ≤ stRedrawsAndRings2.now ∧ (List.range 32).all (fun p => portState stRedrawsAndRings2 p == 0) = true) ∧
  (Inv stRedrawsAndRings3 ∧ maySweep stRedrawsAndRings3 1024 = true ∧ (getRing stRedrawsAndRings3 1024).verify = false) ∧
  (maySweep stRedrawsAndRings4 5 = false) := by decide +kernel

theorem witness_LanternEvents :
  (Inv stLanternEvents1 ∧ flagF stLanternEvents1 R.LNT_STATUS F.LNT_STATUS_ENABLED = true ∧ flagF stLanternEvents1 R.LNT_STATUS F.LNT_STATUS_PRESENT = true ∧ (getLine stLanternEvents1 8).spare = none ∧ [0, 0, 0, 0, 0, 0, 0, 0, 127].getD 8 0 = 127) ∧
  (Inv stLanternEvents2 ∧ flagF stLanternEvents2 R.LNT_STATUS F.LNT_STATUS_ENABLED = true ∧ busLost stLanternEvents2 = false ∧ stLanternEvents2.rose.busTries < 3) ∧
  (Inv stLanternEvents3 ∧ flagF stLanternEvents3 R.LNT_STATUS F.LNT_STATUS_ENABLED = true ∧ busLost stLanternEvents3 = false ∧ 3 ≤ stLanternEvents3.rose.busTries) ∧
  (Inv stLanternEvents4 ∧ (getLine stLanternEvents4 8).spare = some { atOnce := true, warmNs := 0, beat := some 0, goNs := some 0 } ∧ busUp stLanternEvents4 = true ∧ locked stLanternEvents4 = true ∧ 0 * 65536 + 0 ≤ countNow stLanternEvents4) := by decide +kernel

theorem witness_DocumentsHeard :
  (docHeard stDocumentsHeard1 = true ∧ docKind [1, 0, 0, 0] = 1 ∧ docKind [2, 0, 0, 0] = 2 ∧ docKind [3, 0, 0, 0] = 3 ∧ docKind [4, 0, 0, 0] = 4) ∧
  (Inv stDocumentsHeard2 ∧ docHeard stDocumentsHeard2 = true ∧ docKind [4, 0, 0, 0] = 4 ∧ docSigned stDocumentsHeard2 [4, 0, 0, 0] = false) := by decide +kernel

theorem witness_DocumentsTakeEffect :
  (stDocumentsTakeEffect1.fab.waiting.find? (fun w => w.kind == 1 && docDue stDocumentsTakeEffect1 w) = some ⟨1, 2, 1, 0, chartDoc⟩ ∧ (readChart chartDoc).isSome = true ∧ stDocumentsTakeEffect1.fab.chart = none) ∧
  ((heldAmends stDocumentsTakeEffect2).find? (fun w => docBase w.raw == chartEpoch stDocumentsTakeEffect2 && docDue stDocumentsTakeEffect2 w) = some ⟨2, 2, 0, 0, amendDoc⟩ ∧ stDocumentsTakeEffect2.fab.chart = some chart0 ∧ (amend chart0 amendDoc).isSome = true ∧ docFault stDocumentsTakeEffect2 2 amendDoc (some chart0) = none ∧ (docChanges amendDoc).any (fun rs => rs.all (fun r => chKind r == 1)) = true) ∧
  (stDocumentsTakeEffect3.fab.waiting.find? (fun w => w.kind == 3 && docDue stDocumentsTakeEffect3 w) = some ⟨3, 1, 1, 7, allocDoc 1⟩ ∧ (readAlloc (allocDoc 1)).any (fun a => (a.working ++ a.spares).contains (myFid stDocumentsTakeEffect3)) = true ∧ sliceState stDocumentsTakeEffect3 = 0 ∧ myFid stDocumentsTakeEffect3 ≠ 0) ∧
  (stDocumentsTakeEffect4.fab.waiting.find? (fun w => w.kind == 3 && docDue stDocumentsTakeEffect4 w) = some ⟨3, 1, 1, 7, allocDoc 1⟩ ∧ (readAlloc (allocDoc 1)).any (fun a => !(a.working ++ a.spares).contains (myFid stDocumentsTakeEffect4)) = true ∧ sliceState stDocumentsTakeEffect4 = 0) ∧
  (stDocumentsTakeEffect5.fab.waiting.find? (fun w => w.kind == 4 && docDue stDocumentsTakeEffect5 w) = some ⟨4, 1, 1, 7, tableDoc⟩ ∧ (readTables tableDoc).any (fun x => x.tag == mySlice stDocumentsTakeEffect5 && x.target == myFid stDocumentsTakeEffect5) = true ∧ sliceState stDocumentsTakeEffect5 = 2 ∧ stDocumentsTakeEffect5.fab.tables = none ∧ stDocumentsTakeEffect5.esc.decisions = []) := by decide +kernel

theorem witness_ChartSpread :
  (inService stChartSpread1 31 = true ∧ 1 < chartEpoch stChartSpread1 ∧ ((List.range (chartEpoch stChartSpread1 - 1)).filterMap fun i => stChartSpread1.fab.recent.find? fun a => docEpoch a == 1 + 1 + i).length = chartEpoch stChartSpread1 - 1) ∧
  (inService stChartSpread2 31 = true ∧ authKey stChartSpread2 ≠ [] ∧ chartEpoch stChartSpread2 < 1 ∧ stChartSpread2.fab.gathers = []) ∧
  (inService stChartSpread3 31 = true ∧ authKey stChartSpread3 ≠ [] ∧ chartEpoch stChartSpread3 < 1 ∧ stChartSpread3.fab.gathers = []) := by decide +kernel

theorem witness_ReckoningFrames :
  (sliceState stReckoningFrames1 = 2 ∧ rkHeld stReckoningFrames1 = true) ∧
  (sliceState stReckoningFrames2 = 2 ∧ rkHeld stReckoningFrames2 = true) ∧
  (sliceState stReckoningFrames3 = 2 ∧ rkHeld stReckoningFrames3 = true ∧ isMember stReckoningFrames3 2 = true ∧ releasing stReckoningFrames3 = false) ∧
  (sliceState stReckoningFrames4 = 2 ∧ rkHeld stReckoningFrames4 = true ∧ isMember stReckoningFrames4 2 = true ∧ releasing stReckoningFrames4 = true) ∧
  (sliceState stReckoningFrames5 = 2 ∧ rkHeld stReckoningFrames5 = true ∧ isMember stReckoningFrames5 2 = true) ∧
  (sliceState stReckoningFrames6 = 2) := by decide +kernel

theorem witness_IdentityAndAuthority :
  (bluvisenOn stIdentityAndAuthority1 = true ∧ stIdentityAndAuthority1.ladder.attCount < 10) ∧
  (bluvisenOn stIdentityAndAuthority2 = true ∧ stIdentityAndAuthority2.ladder.attSecond = stIdentityAndAuthority2.now / 1000000000 ∧ 10 ≤ stIdentityAndAuthority2.ladder.attCount) ∧
  (bluvisenOn stIdentityAndAuthority3 = true ∧ flashGet stIdentityAndAuthority3.flash.authority ≠ none ∧ authKey stIdentityAndAuthority3 = []) ∧
  (authKey stIdentityAndAuthority4 ≠ []) ∧
  (bluvisenOn stIdentityAndAuthority5 = true) := by decide +kernel

theorem witness_DebugAndBinding_1 :
  (sliceState stDebugAndBinding1 = 0) ∧
  (sliceState stDebugAndBinding2 ≠ 0) ∧
  (debugUnlocked stDebugAndBinding3 = true ∧ sliceState stDebugAndBinding3 = 0) ∧
  (debugUnlocked stDebugAndBinding4 = true ∧ sliceState stDebugAndBinding4 = 0 ∧ (match (runMM (readRaw 0 0) stDebugAndBinding4).1 with | .ok bs => bs == [] | .error _ => false) = true) ∧
  (debugUnlocked stDebugAndBinding5 = false) ∧
  (sliceState stDebugAndBinding6 = 1 ∧ bluvisenOn stDebugAndBinding6 = true ∧ stDebugAndBinding6.fab.alloc = some alloc0) := by decide +kernel

theorem witness_DebugAndBinding_2 :
  (stDebugAndBinding7.sec.offer = some ⟨0, [], 0⟩) ∧
  (bluvisenOn stDebugAndBinding8 = true ∧ sliceState stDebugAndBinding8 ≠ 1) ∧
  (bluvisenOn stDebugAndBinding9 = true ∧ sliceState stDebugAndBinding9 = 1 ∧ debugUnlocked stDebugAndBinding9 = false ∧ stDebugAndBinding9.fab.alloc = some alloc0 ∧ stDebugAndBinding9.sec.offer = some ⟨0, [], 1⟩ ∧ beatNow stDebugAndBinding9 < 1) := by decide +kernel

theorem witness_FollowUpsOfTests :
  (testAt stFollowUpsOfTests1 4 = some { dtest0 with running := true, outcome := some (0, 0, 0) }) ∧
  (testAt stFollowUpsOfTests2 4 = some { dtest0 with running := true }) ∧
  (testAt stFollowUpsOfTests3 4 = some { dtest0 with running := true }) ∧
  (testAt stFollowUpsOfTests4 4 = some dtest0 ∧ deferralEnd stFollowUpsOfTests4 0 ≤ beatNow stFollowUpsOfTests4) ∧
  (testAt stFollowUpsOfTests5 4 = none) := by decide +kernel

theorem witness_LogbookTraffic :
  (Inv stLogbookTraffic1 ∧ bluvisenOn stLogbookTraffic1 = true ∧ (stLogbookTraffic1.log.entries.find? fun e => e.seq % 2 ^ 32 == 9 % 2 ^ 32 && (mapGet stLogbookTraffic1.log.sent e.seq).isSome) = some entryA ∧ stLogbookTraffic1.boot.restartBy = none ∧ stLogbookTraffic1.log.lostNow = 0) ∧
  (bluvisenOn stLogbookTraffic2 = true ∧ (stLogbookTraffic2.log.entries.filter fun e => match mapGet stLogbookTraffic2.log.sent e.seq with | some t => t + 1000000000 ≤ stLogbookTraffic2.now | none => false) = [entryA]) ∧
  (Inv stLogbookTraffic3 ∧ beating stLogbookTraffic3 = true ∧ stLogbookTraffic3.ladder.lastKickNs + 100000000 ≤ stLogbookTraffic3.now) := by decide +kernel

theorem witness_RecoveryLadder_1 :
  (beating stRecoveryLadder1 = true) ∧
  (watched stRecoveryLadder2 0x6003 = true ∧ mapGetD 0 stRecoveryLadder2.ladder.rung 0x6003 = 0) ∧
  (watched stRecoveryLadder3 0x6003 = true ∧ mapGetD 0 stRecoveryLadder3.ladder.rung 0x6003 = 1) ∧
  (watched stRecoveryLadder4 0x6003 = true ∧ 2 ≤ mapGetD 0 stRecoveryLadder4.ladder.rung 0x6003) ∧
  (6 ≤ stRecoveryLadder5.boot.stage) ∧
  (dieFenced stRecoveryLadder6 3 = true) := by decide +kernel

theorem witness_RecoveryLadder_2 :
  (stRecoveryLadder7.boot.stage = 9 ∧ anchorState stRecoveryLadder7 ≤ 2 ∧ flagF stRecoveryLadder7 R.CLK_XIN_STATUS F.CLK_XIN_STATUS_XIN_B_LOST = false) := by decide +kernel

theorem witness_ColdStartsAndImages_1 :
  (stColdStartsAndImages1.boot.stage ≤ 1 ∧ stColdStartsAndImages1.pwr.supplyOff = false ∧ stColdStartsAndImages1.pwr.tripped = false) ∧
  (Inv stColdStartsAndImages2 ∧ stColdStartsAndImages2.boot.stage ≤ 1 ∧ stColdStartsAndImages2.pwr.supplyOff = false ∧ stColdStartsAndImages2.pwr.tripped = false ∧ stColdStartsAndImages2.flash.image.isNone = true) ∧
  (Inv stColdStartsAndImages3 ∧ stColdStartsAndImages3.boot.stage ≤ 1 ∧ stColdStartsAndImages3.pwr.supplyOff = false ∧ stColdStartsAndImages3.pwr.tripped = false) ∧
  (stColdStartsAndImages4.pwr.supplyOff = false) ∧
  (stColdStartsAndImages5.pwr.supplyOff = false) ∧
  (inRecovery stColdStartsAndImages6 = true ∧ flagF stColdStartsAndImages6 R.ARB_BOOT_STATUS F.ARB_BOOT_STATUS_PILOT_SEL = true ∧ pdState stColdStartsAndImages6 4 = 2) := by decide +kernel

theorem witness_ColdStartsAndImages_2 :
  (inRecovery stColdStartsAndImages7 = true) ∧
  (inRecovery stColdStartsAndImages8 = true) ∧
  (bluvisenOn stColdStartsAndImages9 = true ∧ stColdStartsAndImages9.boot.stage = 9 ∧ authKey stColdStartsAndImages9 ≠ []) ∧
  (bluvisenOn stColdStartsAndImages10 = true ∧ stColdStartsAndImages10.boot.stage = 9 ∧ authKey stColdStartsAndImages10 ≠ [] ∧ anchorState stColdStartsAndImages10 < 2 ∧ sliceState stColdStartsAndImages10 ≠ 0) ∧
  (stColdStartsAndImages11.boot.restartBy = some 0 ∧ 0 ≤ stColdStartsAndImages11.now) ∧
  (Inv stColdStartsAndImages12 ∧ 2 ≤ stColdStartsAndImages12.boot.stage ∧ stColdStartsAndImages12.boot.strapSeen = true ∧ flagF stColdStartsAndImages12 R.ARB_BOOT_STATUS F.ARB_BOOT_STATUS_PILOT_SEL ≠ true) := by decide +kernel

theorem witness_ColdStartsAndImages_3 :
  (pdState stColdStartsAndImages13 4 = 2) := by decide +kernel

theorem witness_AnchorAndWake :
  (Inv stAnchorAndWake1 ∧ bluvisenOn stAnchorAndWake1 = true ∧ anchorState stAnchorAndWake1 ≤ 2) ∧
  (Inv stAnchorAndWake2 ∧ stAnchorAndWake2.pwr.order = some (0, 0) ∧ anchorState stAnchorAndWake2 = 1 ∧ 0 ≤ beatNow stAnchorAndWake2) ∧
  (Inv stAnchorAndWake3 ∧ stAnchorAndWake3.pwr.order = some (0, 0) ∧ anchorState stAnchorAndWake3 = 2 ∧ beatNow stAnchorAndWake3 ≤ 0 + 64 ∧ entryReady stAnchorAndWake3 = true) ∧
  (Inv stAnchorAndWake4 ∧ stAnchorAndWake4.pwr.order = some (0, 0) ∧ anchorState stAnchorAndWake4 = 2 ∧ 0 + 64 ≤ beatNow stAnchorAndWake4 ∧ entryReady stAnchorAndWake4 = false) ∧
  (anchorState stAnchorAndWake5 = 3 ∧ wakeBegun stAnchorAndWake5 = true) ∧
  (anchorState stAnchorAndWake6 = 2) := by decide +kernel

theorem witness_SuppliesAndDomains_1 :
  (pdState stSuppliesAndDomains1 0 ≠ 0) ∧
  (Inv stSuppliesAndDomains2 ∧ pdState stSuppliesAndDomains2 3 ≠ 0) ∧
  (pdState stSuppliesAndDomains3 19 ≠ 0) ∧
  (stSuppliesAndDomains4.pwr.supplyOff = false ∧ 1 ≤ stSuppliesAndDomains4.boot.stage ∧ supplyBad 41999 0 = true ∧ supplyBad 45999 10001 = true ∧ supplyBad 60001 10001 = true ∧ supplyBad 63001 0 = true) ∧
  (stSuppliesAndDomains5.pwr.supplyOff = true) ∧
  (Inv stSuppliesAndDomains6 ∧ 1 ≤ stSuppliesAndDomains6.boot.stage ∧ flagF stSuppliesAndDomains6 R.PWR_INPUT F.PWR_INPUT_FEED_A = true ∧ flagF stSuppliesAndDomains6 R.PWR_INPUT F.PWR_INPUT_FEED_B = true) := by decide +kernel

theorem witness_SuppliesAndDomains_2 :
  (Inv stSuppliesAndDomains7 ∧ 1 ≤ stSuppliesAndDomains7.boot.stage ∧ flagF stSuppliesAndDomains7 R.PWR_INPUT (feedBit true) = false ∧ flagF stSuppliesAndDomains7 R.PWR_INPUT (feedBit false) = true) ∧
  (stSuppliesAndDomains8.pwr.coolSince = some 0 ∧ stSuppliesAndDomains8.pwr.tripped = true ∧ 0 + 10000000000 ≤ stSuppliesAndDomains8.now) := by decide +kernel

theorem witness_ClocksCapsAndBuses_1 :
  (Inv stClocksCapsAndBuses1 ∧ 1 ≤ stClocksCapsAndBuses1.boot.stage ∧ flagF stClocksCapsAndBuses1 R.CLK_XIN_STATUS F.CLK_XIN_STATUS_XIN_A_LOST = false ∧ xinLost none = true ∧ xinLost (some 201) = true) ∧
  (Inv stClocksCapsAndBuses2 ∧ 1 ≤ stClocksCapsAndBuses2.boot.stage ∧ flagF stClocksCapsAndBuses2 R.CLK_XIN_STATUS F.CLK_XIN_STATUS_XIN_B_LOST = false ∧ xinLost (some (-201)) = true) ∧
  (Inv stClocksCapsAndBuses3 ∧ 1 ≤ stClocksCapsAndBuses3.boot.stage ∧ oscReference stClocksCapsAndBuses3 ≠ 0 ∧ stClocksCapsAndBuses3.cmd.cmds = []) ∧
  (Inv stClocksCapsAndBuses4 ∧ 1 ≤ stClocksCapsAndBuses4.boot.stage ∧ (loopRange 6).1 ≤ fld (1300 : Word) 15 0 ∧ fld (1300 : Word) 15 0 ≤ (loopRange 6).2 ∧ (loopRange 4).1 ≤ fld (475 : Word) 15 0 ∧ fld (475 : Word) 15 0 ≤ (loopRange 4).2) ∧
  (1 ≤ stClocksCapsAndBuses5.boot.stage ∧ (loopRange 6).2 < fld (1301 : Word) 15 0) ∧
  (Inv stClocksCapsAndBuses6 ∧ 1 ≤ stClocksCapsAndBuses6.boot.stage) := by decide +kernel

theorem witness_ClocksCapsAndBuses_2 :
  (1 ≤ stClocksCapsAndBuses7.boot.stage) ∧
  (1 ≤ stClocksCapsAndBuses8.boot.stage) := by decide +kernel

theorem witness_RegisterAccessForm :
  (mayReach stRegisterAccessForm1 .mgmt (R.MER_COUNT + 2) = true ∧ mayReach stRegisterAccessForm1 .mgmt (R.MER_COUNT + 4) = true) ∧
  (mayReach stRegisterAccessForm2 .mgmt (R.MER_COUNT + 2) = true ∧ mayReach stRegisterAccessForm2 .mgmt (R.MER_COUNT + 4) = true) := by decide +kernel

theorem witness_RegisterReadsAndAbsentRegisters :
  (mayReach stRegisterReadsAndAbsentRegisters1 .mgmt (R.REL_HOLD + 4) = true ∧ goodAccess (R.REL_HOLD + 4) 4 = true ∧ (regHere stRegisterReadsAndAbsentRegisters1 ((R.REL_HOLD + 4) / 8 * 8)).isSome = true ∧ heldUnit stRegisterReadsAndAbsentRegisters1 .mgmt ((R.REL_HOLD + 4) / 8 * 8) = false ∧ (R.REL_HOLD + 4) / 8 * 8 ≠ R.MER_COUNT) ∧
  (mayReach stRegisterReadsAndAbsentRegisters2 .mgmt (R.REL_HOLD + 4) = true ∧ goodAccess (R.REL_HOLD + 4) 4 = true ∧ (regHere stRegisterReadsAndAbsentRegisters2 ((R.REL_HOLD + 4) / 8 * 8)).isSome = true ∧ heldUnit stRegisterReadsAndAbsentRegisters2 .mgmt ((R.REL_HOLD + 4) / 8 * 8) = false ∧ (R.REL_HOLD + 4) / 8 * 8 ≠ R.CMD_REG_CTRL) ∧
  (mayReach stRegisterReadsAndAbsentRegisters3 .mgmt 0x20001200000 = true ∧ goodAccess 0x20001200000 8 = true ∧ regHere stRegisterReadsAndAbsentRegisters3 (0x20001200000 / 8 * 8) = none) := by decide +kernel

theorem witness_RegisterFieldsWritten :
  Inv ({ fieldsSet [(R.PWR_DOMAIN_STATE, ⟨39, 0⟩, 0xAAAAAAAAAA)] with boot := { stage := 9 } }) ∧ R.MER_STATUS % 8 = 0 ∧ blockOf R.MER_STATUS = 2 ∧ mayReach ({ fieldsSet [(R.PWR_DOMAIN_STATE, ⟨39, 0⟩, 0xAAAAAAAAAA)] with boot := { stage := 9 } }) .mgmt R.MER_STATUS = true ∧ (regHere ({ fieldsSet [(R.PWR_DOMAIN_STATE, ⟨39, 0⟩, 0xAAAAAAAAAA)] with boot := { stage := 9 } }) R.MER_STATUS).isSome = true := by decide +kernel

theorem witness_RegisterPath_p1 :
  1 ≤ stRegisterPath3.boot.stage ∧ anchorState stRegisterPath3 < 3 ∧ (homePort stRegisterPath3 2 false).isSome = true := ⟨by decide +kernel, by decide +kernel, by unfold homePort; rw [show ownEntry stRegisterPath3 = _ from own_entry 1 []]; decide +kernel⟩

theorem witness_RegisterPath :
  (isPilot stRegisterPath1 = true ∧ pathBusy stRegisterPath1 = false ∧ mayReach stRegisterPath1 .host R.CMD_REG_CTRL = true ∧ (regHere stRegisterPath1 R.CMD_REG_CTRL).isSome = true ∧ bitW 3 0 = true ∧ bitW 3 1 = true ∧ bitW 1 1 = false) ∧
  (Inv stRegisterPath2 ∧ isPilot stRegisterPath2 = true ∧ pathBusy stRegisterPath2 = false ∧ mayReach stRegisterPath2 .host R.CMD_REG_CTRL = true ∧ (regHere stRegisterPath2 R.CMD_REG_CTRL).isSome = true ∧ pathAddr stRegisterPath2 % 8 ≠ 0) ∧
  (Inv stRegisterPath4 ∧ stRegisterPath4.cmd.regWait = some (0, 5) ∧ pathWrite stRegisterPath4 = false) ∧
  (Inv stRegisterPath5 ∧ stRegisterPath5.cmd.regWait = some (0, 5) ∧ 0 + 1000000 ≤ stRegisterPath5.now) := by decide +kernel

theorem witness_CommandsThatWriteNoByte :
  mayWriteMemory .pcieReset = false ∧ Inv State.reset := by decide +kernel

theorem witness_EventsOfTheLogbook :
  (([] : List LogEntry) ++ entryA :: [] = [entryA] ∧ openEntry State.reset.log 0 1 = false ∧ clsInfo ≠ clsCorrected ∧ State.reset.log.lostNow = 0 ∧ State.reset.log.entries.length < 4096) ∧
  (4096 ≤ (List.replicate 4096 entryA).length ∧ openEntry { State.reset.log with entries := List.replicate 4096 entryA } 0 1 = false) := by decide +kernel

theorem witness_MeridianCountReads :
  (mayReach stMeridianCountReads1 .mgmt R.MER_COUNT = true ∧ mayReach stMeridianCountReads1 .regPath R.MER_COUNT = true ∧ (regHere stMeridianCountReads1 R.MER_COUNT).isSome = true) ∧
  (stMeridianCountReads3.mer.latch.find? (fun e => e.1 == Requester.mgmt) = none) := by decide +kernel

theorem witness_MeridianLockStates :
  (Inv stMeridianLockStates1 ∧ lockState stMeridianLockStates1 = 2 ∧ sourcing stMeridianLockStates1 = false ∧ 4 ≤ stMeridianLockStates1.mer.missed) ∧
  (Inv stMeridianLockStates2 ∧ lockState stMeridianLockStates2 = 3 ∧ 64 < stMeridianLockStates2.mer.holdover) ∧
  (Inv stMeridianLockStates3 ∧ 2 ≤ merRole stMeridianLockStates3 ∧ sourcing stMeridianLockStates3 = false ∧ 16 ≤ stMeridianLockStates3.mer.rankMissed) := by decide +kernel

theorem witness_MeridianMeasurements_p1 :
  followsReference stMeridianMeasurements1 1 = true ∧ Inv stMeridianMeasurements1 ∧ lockState stMeridianMeasurements1 ≤ 1 ∧ stMeridianMeasurements1.mer.firstLock = false := ⟨by unfold followsReference; rw [show ownEntry stMeridianMeasurements1 = _ from own_entry 1 _]; decide +kernel, by decide +kernel⟩

theorem witness_MeridianMeasurements_p2 :
  followsReference stMeridianMeasurements2 1 = true ∧ lockState stMeridianMeasurements2 = 3 := ⟨by unfold followsReference; rw [show ownEntry stMeridianMeasurements2 = _ from own_entry 1 _]; decide +kernel, by decide +kernel⟩

theorem witness_MeridianMeasurements_p3 :
  followsReference stMeridianMeasurements3 2 = true ∧ lockState stMeridianMeasurements3 = 3 := ⟨by unfold followsReference; rw [show ownEntry stMeridianMeasurements3 = _ from own_entry 2 _]; decide +kernel, by decide +kernel⟩

theorem witness_MeridianMeasurements :
  (Inv stMeridianMeasurements4 ∧ merRole stMeridianMeasurements4 ≠ 0 ∧ flagF stMeridianMeasurements4 R.MER_STATUS F.MER_STATUS_REF_LOST ≠ true) ∧
  (1 ≤ portState stMeridianMeasurements5 3 ∧ portState stMeridianMeasurements5 3 ≤ 6 ∧ (getPort stMeridianMeasurements5 3).keys = []) ∧
  (1 ≤ portState stMeridianMeasurements6 31 ∧ portState stMeridianMeasurements6 31 ≤ 6 ∧ (getPort stMeridianMeasurements6 31).keys ≠ []) := by decide +kernel

theorem witness_BeatsAndDogWatches :
  (1 ≤ stBeatsAndDogWatches1.boot.stage ∧ stBeatsAndDogWatches1.mer.beatSeen ≠ beatNow stBeatsAndDogWatches1) ∧
  (stBeatsAndDogWatches2.fab.chart = some chart0 ∧ locked stBeatsAndDogWatches2 = true ∧ opensAt chart0 (beatNow stBeatsAndDogWatches2) = true ∧ stBeatsAndDogWatches2.mer.dogEnd = none) ∧
  (stBeatsAndDogWatches3.mer.dogEnd = some 0 ∧ 0 ≤ beatNow stBeatsAndDogWatches3) := by decide +kernel

theorem witness_CommandSlots :
  (isPilot stCommandSlots1 = true ∧ isReady stCommandSlots1 = true) ∧
  (Inv stCommandSlots2 ∧ isPilot stCommandSlots2 = true ∧ isReady stCommandSlots2 = false) ∧
  (Inv stCommandSlots3 ∧ stCommandSlots3.cmd.slots.length = 1 ∧ (∀ k ∈ stCommandSlots3.cmd.slots, k.1 = 63 ∧ k.2.quiet = false ∧ k.2.firstNs + 100000 ≤ stCommandSlots3.now ∧ slotLength k.2 = some 96 ∧ lengthOk 96 = true ∧ slotCount k.2 64 < 64)) ∧
  (Inv stCommandSlots4 ∧ (∀ k ∈ stCommandSlots4.cmd.slots, k.1 = 0 ∧ k.2.quiet = false ∧ k.2.firstNs + 100000 ≤ stCommandSlots4.now ∧ slotLength k.2 = some 1 ∧ lengthOk 1 = false)) ∧
  (Inv stCommandSlots5 ∧ (∀ k ∈ stCommandSlots5.cmd.slots, k.1 = 5 ∧ k.2.quiet = true ∧ k.2.lastNs + 100000 ≤ stCommandSlots5.now)) := by decide +kernel

theorem witness_WorkPacketsJoinTheirStream :
  Admitted nopSt opNOP nopPkt ∧ bodyChecks 96 (fun _ => []) nopPkt = none ∧ (parseHeader nopPkt).atBeat = false := by decide +kernel

theorem witness_StreamPackets :
  (Admitted stStreamPackets1 opSET_STREAM setPkt ∧ setPkt.length = 112 ∧ setStreamOk setPkt = true ∧ haltOf (getStream stStreamPackets1 1) 1 = none) ∧
  (Admitted stStreamPackets2 opABORT abortPkt ∧ bodyChecks 112 (fun p => [rsvOk p 72 8]) abortPkt = none) ∧
  (Admitted stStreamPackets3 opCLEAR_STREAM clearPkt ∧ clearPkt.length = 96 ∧ (getStream stStreamPackets3 1).fenced = none ∧ (getStream stStreamPackets3 1).state = .opened) ∧
  (Admitted stStreamPackets4 opQUERY_STREAM queryPkt ∧ queryPkt.length = 96) := by decide +kernel

theorem witness_CommandsStartWaitAndEnd_1 :
  (findCmd stCommandsStartWaitAndEnd1 1 1 = some (cmdOf opNOP 1 .queued)) ∧
  (findCmd stCommandsStartWaitAndEnd2 1 5 = some (cmdOf opNOP 5 .queued) ∧ haltOf (getStream stCommandsStartWaitAndEnd2 1) 5 = some 4) ∧
  (stCommandsStartWaitAndEnd3.cmd.cmds.all (fun x => findCmd stCommandsStartWaitAndEnd3 1 1 == some x && x.waitNs == some 0 && fenceLow stCommandsStartWaitAndEnd3 x && haltOf (getStream stCommandsStartWaitAndEnd3 1) 1 == none && x.waitMs * 1000000 < stCommandsStartWaitAndEnd3.now) = true) ∧
  (findCmd stCommandsStartWaitAndEnd4 1 1 = some (cmdOf opNOP 1 .ended) ∧ runsAgain (cmdOf opNOP 1 .ended) = false ∧ predRetired stCommandsStartWaitAndEnd4 1 1 = true ∧ hasPlace stCommandsStartWaitAndEnd4 0 7 true = true) ∧
  (stCommandsStartWaitAndEnd5.cmd.cmds.all (fun x => findCmd stCommandsStartWaitAndEnd5 1 1 == some x && x.stop == some ⟨0x0001, 0, 9⟩ && x.phase == .running && !holdsTile stCommandsStartWaitAndEnd5 1 1 && !runsAgain x) = true) ∧
  (stCommandsStartWaitAndEnd6.cmd.cmds.all (fun x => findCmd stCommandsStartWaitAndEnd6 1 1 == some x && x.phase == .running && x.startedNs == 1 && !beyondStop stCommandsStartWaitAndEnd6 x && 1 + x.timeoutMs * 1000000 < stCommandsStartWaitAndEnd6.now) = true) := by decide +kernel

theorem witness_CommandsStartWaitAndEnd_2 :
  (stCommandsStartWaitAndEnd7.cmd.cmds.all (fun x => findCmd stCommandsStartWaitAndEnd7 1 1 == some x && x.phase == .ended && x.startedNs == 1 && !beyondStop stCommandsStartWaitAndEnd7 x && 1 + x.timeoutMs * 1000000 < stCommandsStartWaitAndEnd7.now) = true) := by decide +kernel

theorem witness_CompletionRings :
  (Inv stCompletionRings1 ∧ flagF stCompletionRings1 (R.CMD_RING_CTRL 15) F.CMD_RING_CTRL_ENABLE = false ∧ bitW (0x1401#64) 0 = true ∧ 6 ≤ fld (0x1401#64) 12 8 ∧ fld (0x1401#64) 12 8 ≤ 20) ∧
  ((rd stCompletionRings2 (R.CMD_RING_CONSUMED 0)).toNat ≤ (0#64).toNat ∧ (0#64).toNat ≤ (rd stCompletionRings2 (R.CMD_RING_HEAD 0)).toNat) ∧
  (isPilot stCompletionRings3 = true ∧ ringOn stCompletionRings3 2 = true ∧ ringFull stCompletionRings3 2 = true ∧ mapGet stCompletionRings3.cmd.fullBeat 2 ≠ some (beatNow stCompletionRings3) ∧ ringWaiter stCompletionRings3 2 = some (0, 0)) := by decide +kernel

theorem witness_DataMovementWork :
  (isRunning stDataMovementWork1 1 1 opCOPY = true) ∧
  (isRunning stDataMovementWork2 1 1 opRELAY = true) ∧
  (isRunning stDataMovementWork3 1 1 opSELF_TEST = true) ∧
  (isRunning stDataMovementWork4 1 1 opCALIBRATE = true) ∧
  (sliceState stDataMovementWork5 = 3 ∧ stDataMovementWork5.sec.releasing.map Releasing.cmd = some none) := by decide +kernel

theorem witness_MatrixArrays :
  (arrayOn stMatrixArrays1 (95 / 24) (95 % 24) = true ∧ (arrayAt stMatrixArrays1 95).back = none) ∧
  (stMatrixArrays2.comp.tiles.all (fun x => (stMatrixArrays2.comp.tiles.find? fun y => chunkOf y passChunk) == some x && memberAt x 0 == some 0 && tileRuns stMatrixArrays2 x && !shadowFull stMatrixArrays2 0 0 && ((sharesOf stMatrixArrays2 x 0)[0]?).isSome) = true ∧ (arrayAt stMatrixArrays2 0).front = some passChunk ∧ stMatrixArrays2.comp.tiles.length = 1) ∧
  (stMatrixArrays3.comp.tiles.all (fun x => findTile stMatrixArrays3 1 1 0 false == some x && (x.members[0]?).any (fun m => memberIssued stMatrixArrays3 x 0 m && !m.joined)) = true ∧ stMatrixArrays3.comp.tiles.length = 1) ∧
  (findTile stMatrixArrays4 1 1 0 false = some { tile0 with stage := .handed }) := by decide +kernel

theorem witness_VernierAndThirdReadings :
  (findTile stVernierAndThirdReadings1 1 1 0 false = some { tile0 with stage := .handed }) ∧
  (findTile stVernierAndThirdReadings2 1 1 0 true = some { tile0 with stage := .handed, third := true }) ∧
  (findTile stVernierAndThirdReadings3 1 1 0 false = some { tile0 with stage := .held } ∧ thirdOf stVernierAndThirdReadings3 { tile0 with stage := .held } = none ∧ thirdDie stVernierAndThirdReadings3 { tile0 with stage := .held } = some 1) ∧
  (findTile stVernierAndThirdReadings4 1 1 0 false = some { tile0 with stage := .held }) := by decide +kernel

theorem witness_LaneFloatInstructions :
  ∀ e ∈ [0x10, 0x11, 0x12, 0x13, 0x14, 0x15, 0x16, 0x17, 0x19, 0x1A, 0x20, 0x27], laneReady e = true := by decide +kernel

theorem witness_LaneWordInstructions :
  ∀ e ∈ [0x01, 0x30, 0x31, 0x32, 0x33, 0x34, 0x35], laneReady e = true := by decide +kernel

theorem witness_LaneSourcesAndSelection_1 :
  (laneReady 0 = true) ∧
  (laneReady 2 = true) ∧
  (laneReady 3 = true) ∧
  (laneReady 7 = true) ∧
  (laneReady 8 = true) ∧
  (laneReady 0x18 = true) := by decide +kernel

theorem witness_LaneSourcesAndSelection_2 :
  (laneReady 6 = true) := by decide +kernel

theorem witness_LaneMemoryAndRowResults :
  (laneReady 4 = true) ∧
  (laneReady 5 = true) ∧
  (engineOn stLaneMemoryAndRowResults3 5 0 = true ∧ (engineRow stLaneMemoryAndRowResults3 0).isSome = true ∧ (lpChannels (lanePkt 6)).find? (fun x => x.1 == 0) = some (0, 0) ∧ redReady (lanePkt 6) { part := .prologue } = true) := by decide +kernel

theorem witness_LaneRegistersStayInForm :
  mapSorted ({} : VecEngine).lanes = true := by decide +kernel

theorem witness_EmbeddingFrames_1 :
  (sliceState stEmbeddingFrames1 = 2 ∧ frameExch stEmbeddingFrames1 9 = some exch0) ∧
  (sliceState stEmbeddingFrames2 = 2 ∧ frameExch stEmbeddingFrames2 9 = some exch0) ∧
  (sliceState stEmbeddingFrames3 = 2 ∧ frameExch stEmbeddingFrames3 9 = some exch0) ∧
  (sliceState stEmbeddingFrames4 = 2 ∧ frameExch stEmbeddingFrames4 9 = some exch0) ∧
  (Inv stEmbeddingFrames5 ∧ sliceState stEmbeddingFrames5 = 2 ∧ frameExch stEmbeddingFrames5 9 = none ∧ holdRoom stEmbeddingFrames5 16 = true) ∧
  (frameExch stEmbeddingFrames6 9 = some exch0 ∧ 6 ≠ exch0.digest) := by decide +kernel

theorem witness_EmbeddingFrames_2 :
  (frameExch stEmbeddingFrames7 9 = some exch0 ∧ (findCmd stEmbeddingFrames7 exch0.stream exch0.counter).isSome = true ∧ exch0.scatter = true) ∧
  (stEmbeddingFrames8.fleet.exchanges.all (fun x => frameExch stEmbeddingFrames8 9 == some x && (findCmd stEmbeddingFrames8 x.stream x.counter).any (fun y => y.stop.isNone) && (x.bags.find? fun b => b.combine ≤ row0.lookup && row0.lookup < b.issue && !(b.rows.any fun o => o.lookup == row0.lookup)) == some bag0 && !x.scatter) = true) ∧
  (findExch stEmbeddingFrames9 1 1 = some exch0 ∧ (findCmd stEmbeddingFrames9 1 1).isSome = true ∧ embAwaits exch0 1 = true ∧ anyHold stEmbeddingFrames9 = false ∧ exch0.waitNs + exch0.hopUs * 1000 ≤ stEmbeddingFrames9.now) ∧
  (engineOn stEmbeddingFrames10 6 3 = true ∧ (embPick stEmbeddingFrames10 3).map (fun r => (r.2.2.1, r.2.2.2)) = some (none, 0)) ∧
  (engineOn stEmbeddingFrames11 6 0 = true ∧ (embPick stEmbeddingFrames11 0).map (fun r => (r.2.2.1, r.2.2.2)) = some (some { bag0 with issue := 0, combine := 0 }, 0)) := by decide +kernel

theorem witness_RelayAndFerryEvents :
  (sliceState stRelayAndFerryEvents1 = 2 ∧ (stRelayAndFerryEvents1.fleet.relays.find? fun w => w.relayId == 4) = some relay0) ∧
  (Inv stRelayAndFerryEvents2 ∧ sliceState stRelayAndFerryEvents2 = 2 ∧ stRelayAndFerryEvents2.fleet.relays = [] ∧ holdRoom stRelayAndFerryEvents2 48 = true) ∧
  (Inv stRelayAndFerryEvents3 ∧ stRelayAndFerryEvents3.fleet.held[0]? = some ⟨.embStop 1 1 1, 0, 16, 0⟩ ∧ 0 + 16384 * 65536 ≤ stRelayAndFerryEvents3.now) ∧
  (stRelayAndFerryEvents4.fleet.relays.find? (isRelay 1 1) = some relay0 ∧ (findCmd stRelayAndFerryEvents4 1 1).isSome = true ∧ awaitedSeg relay0 relayPkt = some 0 ∧ anyHold stRelayAndFerryEvents4 = false ∧ relay0.waitNs + hopUs relayPkt 96 * 1000 ≤ stRelayAndFerryEvents4.now) ∧
  (sliceState stRelayAndFerryEvents5 = 2) ∧
  ((stRelayAndFerryEvents6.fleet.ferryIn.find? fun d => d.ferryId == 6 && (ferryInRoute stRelayAndFerryEvents6 2).any fun r => r.route == d.route) = some ferry0 ∧ ferry0.lastNs + 16384 * 65536 ≤ stRelayAndFerryEvents6.now) := by decide +kernel

theorem witness_UpdatesAndSeals :
  (engineOn stUpdatesAndSeals1 7 31 = true ∧ (updNext stUpdatesAndSeals1 31).map (fun r => r.2.1) = some 0) ∧
  (stUpdatesAndSeals2.esc.work = some work0 ∧ (findCmd stUpdatesAndSeals2 1 1).isSome = true ∧ escState stUpdatesAndSeals2 = 1 ∧ earlierRetired stUpdatesAndSeals2 work0 = true) := by decide +kernel

theorem witness_VotesDecisionsAndRelease :
  (sliceState stVotesDecisionsAndRelease1 = 2) ∧
  (sliceState stVotesDecisionsAndRelease2 = 2) ∧
  (stVotesDecisionsAndRelease3.esc.work = some work0 ∧ work0.beat ≤ beatNow stVotesDecisionsAndRelease3 ∧ work0.acted = false ∧ work0.action ≠ 3 ∧ stVotesDecisionsAndRelease3.esc.pending = some decision0) ∧
  (stVotesDecisionsAndRelease4.esc.work = some { work0 with acted := true } ∧ escState stVotesDecisionsAndRelease4 = 3 ∧ stVotesDecisionsAndRelease4.esc.risen = true ∧ releaseWaits stVotesDecisionsAndRelease4 = false) ∧
  (stVotesDecisionsAndRelease5.esc.work = some { work0 with acted := true } ∧ escState stVotesDecisionsAndRelease5 = 3 ∧ stVotesDecisionsAndRelease5.esc.risen = false ∧ releaseWaits (raiseStep stVotesDecisionsAndRelease5) = true) := by decide +kernel

theorem witness_InDoubt_1 :
  (Inv stInDoubt1 ∧ stInDoubt1.esc.work = some work0 ∧ stInDoubt1.esc.pending = none ∧ work0.beat + 16 ≤ beatNow stInDoubt1 ∧ escState stInDoubt1 = 2 ∧ stInDoubt1.esc.early = none) ∧
  (stInDoubt2.esc.ask = some { step := 1, members := [1, 2], pos := 0, since := 0 } ∧ askOrder 2 0 ≠ []) ∧
  (stInDoubt3.esc.work = some work0 ∧ stInDoubt3.esc.ask = some { step := 1, members := [1, 2], pos := 0, since := 0 } ∧ escState stInDoubt3 = 5 ∧ 0 + 16384 ≤ beatNow stInDoubt3) ∧
  (sliceState stInDoubt4 = 2 ∧ isMember stInDoubt4 2 = true ∧ keptDecision stInDoubt4 1 = some decision0) ∧
  (sliceState stInDoubt5 = 2 ∧ isMember stInDoubt5 2 = true ∧ heldDigest stInDoubt5 1 = some [7]) ∧
  (sliceState stInDoubt6 = 2 ∧ isMember stInDoubt6 2 = true ∧ heldDigest stInDoubt6 1 = none) := by decide +kernel

theorem witness_InDoubt_2 :
  (stInDoubt7.esc.work = some { work0 with action := 2 } ∧ escState stInDoubt7 = 1) := by decide +kernel

theorem witness_CheckValueScans :
  (Inv stCheckValueScans1 ∧ unitHeld stCheckValueScans1 3 = false ∧ unitBusy stCheckValueScans1 3 = false ∧ scanRefusal stCheckValueScans1 3 = 0 ∧ 0 < unitLength stCheckValueScans1 3 ∧ bitW 1 0 = true ∧ bitW 1 1 = false ∧ bitW 1 2 = false) ∧
  (Inv stCheckValueScans2 ∧ unitHeld stCheckValueScans2 7 = false ∧ unitBusy stCheckValueScans2 7 = false ∧ scanRefusal stCheckValueScans2 7 = 1) ∧
  (unitHeld stCheckValueScans3 3 = false ∧ unitBusy stCheckValueScans3 3 = true ∧ bitW 2 1 = true) ∧
  (Inv stCheckValueScans4 ∧ unitBusy stCheckValueScans4 3 = true) ∧
  (Inv stCheckValueScans5 ∧ unitBusy stCheckValueScans5 3 = true) := by decide +kernel

theorem witness_CheckValueCompareAndFeed :
  (Inv stCheckValueCompareAndFeed1 ∧ unitHeld stCheckValueCompareAndFeed1 7 = false ∧ unitBusy stCheckValueCompareAndFeed1 7 = false ∧ unitResult stCheckValueCompareAndFeed1 7 = unitReg stCheckValueCompareAndFeed1 7 (R.CRC_EXPECT 7)) ∧
  (Inv stCheckValueCompareAndFeed2 ∧ unitHeld stCheckValueCompareAndFeed2 7 = false ∧ unitBusy stCheckValueCompareAndFeed2 7 = false ∧ unitResult stCheckValueCompareAndFeed2 7 ≠ unitReg stCheckValueCompareAndFeed2 7 (R.CRC_EXPECT 7)) ∧
  (Inv stCheckValueCompareAndFeed3 ∧ unitHeld stCheckValueCompareAndFeed3 7 = false ∧ unitBusy stCheckValueCompareAndFeed3 7 = false ∧ getF stCheckValueCompareAndFeed3 (R.CRC_CTRL 7) F.CRC_CTRL_FEED_BYTES = 8) ∧
  (unitHeld stCheckValueCompareAndFeed4 7 = false ∧ getF stCheckValueCompareAndFeed4 (R.CRC_CTRL 7) F.CRC_CTRL_FEED_BYTES = 0) := by decide +kernel

theorem witness_HbmPagesAndScrub_1 :
  (Inv stHbmPagesAndScrub1 ∧ flagF stHbmPagesAndScrub1 R.HBM_RETIRE F.HBM_RETIRE_GO = false ∧ bitW 0 63 = false) ∧
  (Inv stHbmPagesAndScrub2 ∧ flagF stHbmPagesAndScrub2 R.HBM_RETIRE F.HBM_RETIRE_GO = false ∧ bitW 0x8000000000007FC0 63 = true ∧ retireRefusal stHbmPagesAndScrub2 0 32704 0 = 4) ∧
  (Inv stHbmPagesAndScrub3 ∧ flagF stHbmPagesAndScrub3 R.HBM_RETIRE F.HBM_RETIRE_GO = false ∧ bitW 0x800000007FFF0005 63 = true ∧ retireRefusal stHbmPagesAndScrub3 0 5 0x7FFF = 0 ∧ releasing stHbmPagesAndScrub3 = false) ∧
  (Inv stHbmPagesAndScrub4 ∧ stHbmPagesAndScrub4.hbm.flashWrite = some (7, 9)) ∧
  (Inv stHbmPagesAndScrub5 ∧ stHbmPagesAndScrub5.hbm.flashWrite = some (7, 9)) ∧
  (Inv stHbmPagesAndScrub6 ∧ flagF stHbmPagesAndScrub6 R.HBM_DONATE F.HBM_DONATE_GO = false ∧ frameOf stHbmPagesAndScrub6 7 4 ≠ none) := by decide +kernel

theorem witness_HbmPagesAndScrub_2 :
  (Inv stHbmPagesAndScrub7 ∧ flagF stHbmPagesAndScrub7 R.HBM_DONATE F.HBM_DONATE_GO = false ∧ frameOf stHbmPagesAndScrub7 0 3 = none ∧ frameOf stHbmPagesAndScrub7 0 8 = some 8 ∧ releasing stHbmPagesAndScrub7 = false ∧ bitW 0x8000000000080003 63 = true ∧ fld (0x8000000000080003 : Word) 14 0 = 3 ∧ fld (0x8000000000080003 : Word) 30 16 = 8) ∧
  (govOk ((List.range 6).map fun i => if i = 5 then BitVec.ofNat 64 (fld (0x4002 : Word) 14 8 * 256 + fld (0x4002 : Word) 6 0) else govAhead stHbmPagesAndScrub8 i) = true) ∧
  (govOk ((List.range 6).map fun i => if i = 5 then BitVec.ofNat 64 (fld (0x0002 : Word) 14 8 * 256 + fld (0x0002 : Word) 6 0) else govAhead stHbmPagesAndScrub9 i) = false) ∧
  (Inv stHbmPagesAndScrub10 ∧ flagF stHbmPagesAndScrub10 R.HBM_SCRUB F.HBM_SCRUB_ENABLE = true ∧ anchorState stHbmPagesAndScrub10 ≠ 3) := by decide +kernel

theorem witness_ArborFlits :
  (dirOn stArborFlits1 5 true = true ∧ 63 < linkGroups 5 ∧ (zeros 512).length = flitBytes 5 ∧ flitGood (zeros 512) (3934433988 * 2 ^ 96) = true ∧ bitsOf (3934433988 * 2 ^ 96) 95 84 = (getGroup (getDir stArborFlits1 5 true) 63).expect ∧ (getGroup (getDir stArborFlits1 5 true) 63).firstBad = none ∧ (3934433988 * 2 ^ 96).testBit 71 = false) ∧
  (dirOn stArborFlits2 5 true = true ∧ (zeros 512).length = flitBytes 5 ∧ flitGood (zeros 512) 0 = false) := by decide +kernel

theorem witness_ArborSparing :
  (dirOn stArborSparing1 5 true = true ∧ dirState stArborSparing1 5 true = 2 ∧ (getDir stArborSparing1 5 true).groups = []) ∧
  (Inv stArborSparing2 ∧ dirOn stArborSparing2 5 true = true ∧ (getGroup (getDir stArborSparing2 5 true) 3).switch = some ⟨false, 4, 9⟩) ∧
  ((getGroup (getDir stArborSparing3 5 true) 3).switch ≠ some ⟨false, 4, 9⟩) ∧
  (dirOn stArborSparing4 5 true = true ∧ dirState stArborSparing4 5 true = 2) ∧
  (Inv stArborSparing5 ∧ dirOn stArborSparing5 5 true = true ∧ dirState stArborSparing5 5 true = 2 ∧ ((getDir stArborSparing5 5 true).groups.any fun e => match e.2.switch with | some w => w.half && w.seq == 9 | none => false) = true) := by decide +kernel

theorem witness_ArborCreditsAndRetrain :
  (dirOn stArborCreditsAndRetrain1 5 true = true) ∧
  (Inv stArborCreditsAndRetrain2 ∧ mapSorted stArborCreditsAndRetrain2.links = true ∧ dirOn stArborCreditsAndRetrain2 5 true = true ∧ (getDir stArborCreditsAndRetrain2 5 true).probeNs ≠ none) ∧
  (dirOn stArborCreditsAndRetrain3 5 true = true ∧ (getDir stArborCreditsAndRetrain3 5 true).credits.getD 4 1 = 0 ∧ (getDir stArborCreditsAndRetrain3 5 true).probeNs = none) ∧
  (Inv stArborCreditsAndRetrain4 ∧ mapSorted stArborCreditsAndRetrain4.links = true ∧ dirOn stArborCreditsAndRetrain4 5 true = true ∧ (getDir stArborCreditsAndRetrain4 5 true).probeNs = some 0 ∧ 0 + 1000 ≤ stArborCreditsAndRetrain4.now ∧ getF stArborCreditsAndRetrain4 (R.ARB_LINK_STATUS 5) F.ARB_LINK_STATUS_RETRAINS_WATCH < 2) ∧
  (Inv stArborCreditsAndRetrain5 ∧ dirOn stArborCreditsAndRetrain5 5 true = true ∧ (getDir stArborCreditsAndRetrain5 5 true).probeNs = some 0 ∧ 0 + 1000 ≤ stArborCreditsAndRetrain5.now ∧ 2 ≤ getF stArborCreditsAndRetrain5 (R.ARB_LINK_STATUS 5) F.ARB_LINK_STATUS_RETRAINS_WATCH) := by decide +kernel


end Sys2Proof.Tests
end

section
/-!
What every command, and every step, keeps of a state: the queue, the time, the form of the registers and a condition on memory (`Stays`), for all commands at once.
-/
namespace Sys2Proof.Machine

/-- Every command answers a next state that keeps what `Stays` says, by the law of its own meaning. Only a command that may write memory needs the condition on memory to be one that stores keep, so the one lemma serves the canonical form and the frame alike. -/
theorem exec_stays {q : List Instr} {n : Nat} {M : List Host.Cell → Prop} {s : State} (c : Instr) (hM : mayWriteMemory c = true → MemOk M)
    (h : Stays q n M s) : StaysReply q n M (exec c s) := by
  cases c with
  | registerWrite => exact execRegisterWrite_stays (hM rfl) h
  | merCountRead => exact execMerCountRead_stays h
  | beatStart => exact execBeatStart_stays (hM rfl) h
  | superframeMarker => exact execSuperframeMarker_stays h
  | holdoverEntry => exact execHoldoverEntry_stays h
  | adriftEntry => exact execAdriftEntry_stays h
  | deputyTakeover => exact execDeputyTakeover_stays h
  | merPpsEdge => exact execMerPpsEdge_stays h
  | refLost => exact execRefLost_stays h
  | dogWatchOpen => exact execDogWatchOpen_stays h
  | dogWatchClose => exact execDogWatchClose_stays h
  | commandSlotWrite => exact execCommandSlotWrite_stays h
  | slotTimeout => exact execSlotTimeout_stays h
  | slotQuietExpiry => exact execSlotQuietExpiry_stays h
  | nop => exact execNop_stays h
  | fenceOnly => exact execFenceOnly_stays h
  | setStream => exact execSetStream_stays h
  | abort => exact execAbort_stays h
  | clearStream => exact execClearStream_stays h
  | queryStream => exact execQueryStream_stays h
  | commandStart => exact execCommandStart_stays (hM rfl) h
  | waitTimeout => exact execWaitTimeout_stays h
  | commandRetire => exact execCommandRetire_stays h
  | ringFullWait => exact execRingFullWait_stays h
  | commandStop => exact execCommandStop_stays h
  | commandTimeout => exact execCommandTimeout_stays h
  | cmdRingCtrlWrite => exact execCmdRingCtrlWrite_stays h
  | cmdRingConsumedWrite => exact execCmdRingConsumedWrite_stays h
  | copy => exact execCopy_stays (hM rfl) h
  | fill => exact execFill_stays (hM rfl) h
  | dataIn => exact execDataIn_stays (hM rfl) h
  | dataOut => exact execDataOut_stays (hM rfl) h
  | matmul => exact execMatmul_stays h
  | load => exact execLoad_stays (hM rfl) h
  | pass => exact execPass_stays (hM rfl) h
  | tileHandoff => exact execTileHandoff_stays h
  | tileDrain => exact execTileDrain_stays (hM rfl) h
  | vernierVerdict => exact execVernierVerdict_stays h
  | thirdReading => exact execThirdReading_stays h
  | thirdReadingSettled => exact execThirdReadingSettled_stays (hM rfl) h
  | laneProgram => exact execLaneProgram_stays h
  | laneNop => exact execLaneNop_stays (hM rfl) h
  | mov => exact execMov_stays (hM rfl) h
  | ldc => exact execLdc_stays (hM rfl) h
  | lid => exact execLid_stays (hM rfl) h
  | ld => exact execLd_stays (hM rfl) h
  | st => exact execSt_stays (hM rfl) h
  | red => exact execRed_stays (hM rfl) h
  | rdr => exact execRdr_stays (hM rfl) h
  | rnd => exact execRnd_stays (hM rfl) h
  | fadd => exact execFadd_stays (hM rfl) h
  | fsub => exact execFsub_stays (hM rfl) h
  | fmul => exact execFmul_stays (hM rfl) h
  | fma => exact execFma_stays (hM rfl) h
  | fmax => exact execFmax_stays (hM rfl) h
  | fmin => exact execFmin_stays (hM rfl) h
  | fabs => exact execFabs_stays (hM rfl) h
  | fneg => exact execFneg_stays (hM rfl) h
  | fsel => exact execFsel_stays (hM rfl) h
  | fcmp => exact execFcmp_stays (hM rfl) h
  | frnd => exact execFrnd_stays (hM rfl) h
  | frcp => exact execFrcp_stays (hM rfl) h
  | frsqrt => exact execFrsqrt_stays (hM rfl) h
  | fsqrt => exact execFsqrt_stays (hM rfl) h
  | fexp2 => exact execFexp2_stays (hM rfl) h
  | flog2 => exact execFlog2_stays (hM rfl) h
  | fsigm => exact execFsigm_stays (hM rfl) h
  | ftanh => exact execFtanh_stays (hM rfl) h
  | ferf => exact execFerf_stays (hM rfl) h
  | iadd => exact execIadd_stays (hM rfl) h
  | iand => exact execIand_stays (hM rfl) h
  | ior => exact execIor_stays (hM rfl) h
  | ixor => exact execIxor_stays (hM rfl) h
  | ishl => exact execIshl_stays (hM rfl) h
  | ishr => exact execIshr_stays (hM rfl) h
  | reductionRowResult => exact execReductionRowResult_stays (hM rfl) h
  | embGather => exact execEmbGather_stays h
  | embScatterAdd => exact execEmbScatterAdd_stays h
  | embRequest => exact execEmbRequest_stays (hM rfl) h
  | embResponse => exact execEmbResponse_stays (hM rfl) h
  | embContribution => exact execEmbContribution_stays (hM rfl) h
  | embEnd => exact execEmbEnd_stays (hM rfl) h
  | embStop => exact execEmbStop_stays (hM rfl) h
  | embStalled => exact execEmbStalled_stays h
  | relay => exact execRelay_stays (hM rfl) h
  | relayFrame => exact execRelayFrame_stays (hM rfl) h
  | heldFrameExpiry => exact execHeldFrameExpiry_stays h
  | hopTimeout => exact execHopTimeout_stays h
  | update => exact execUpdate_stays h
  | updateBlock => exact execUpdateBlock_stays (hM rfl) h
  | setDrawCounter => exact execSetDrawCounter_stays h
  | ferryOut => exact execFerryOut_stays (hM rfl) h
  | ferryBlock => exact execFerryBlock_stays (hM rfl) h
  | ferryVoid => exact execFerryVoid_stays h
  | commit => exact execCommit_stays h
  | escapementSeal => exact execEscapementSeal_stays (hM rfl) h
  | voteFrame => exact execVoteFrame_stays h
  | decisionFrame => exact execDecisionFrame_stays h
  | commitBeat => exact execCommitBeat_stays h
  | release => exact execRelease_stays (hM rfl) h
  | inDoubtEntry => exact execInDoubtEntry_stays h
  | decisionRequest => exact execDecisionRequest_stays h
  | escInDoubt => exact execEscInDoubt_stays h
  | crcGo => exact execCrcGo_stays h
  | crcStop => exact execCrcStop_stays (hM rfl) h
  | crcCheck => exact execCrcCheck_stays h
  | crcData => exact execCrcData_stays h
  | crcScanEnd => exact execCrcScanEnd_stays (hM rfl) h
  | scrubRead => exact execScrubRead_stays (hM rfl) h
  | hbmRetire => exact execHbmRetire_stays (hM rfl) h
  | hbmDonate => exact execHbmDonate_stays h
  | hbmGovWrite => exact execHbmGovWrite_stays h
  | flit => exact execFlit_stays (hM rfl) h
  | spareReq => exact execSpareReq_stays h
  | spareAck => exact execSpareAck_stays h
  | halfReq => exact execHalfReq_stays h
  | halfAck => exact execHalfAck_stays h
  | creditProbe => exact execCreditProbe_stays h
  | creditReport => exact execCreditReport_stays h
  | creditTimeout => exact execCreditTimeout_stays h
  | linkRetrain => exact execLinkRetrain_stays (hM rfl) h
  | darendFrame => exact execDarendFrame_stays h
  | ack => exact execAck_stays h
  | align => exact execAlign_stays h
  | hello0 => exact execHello0_stays h
  | hello1 => exact execHello1_stays h
  | hold => exact execHold_stays h
  | laneChange => exact execLaneChange_stays h
  | laneRestripe => exact execLaneRestripe_stays h
  | replayTimeout => exact execReplayTimeout_stays h
  | portLostTimeout => exact execPortLostTimeout_stays h
  | holdResumeTimeout => exact execHoldResumeTimeout_stays h
  | trainingTimeout => exact execTrainingTimeout_stays h
  | identityResend => exact execIdentityResend_stays h
  | keyRotation => exact execKeyRotation_stays h
  | oldKeyExpiry => exact execOldKeyExpiry_stays h
  | drdReplayRegionWrite => exact execDrdReplayRegionWrite_stays h
  | redraw => exact execRedraw_stays h
  | redrawSettled => exact execRedrawSettled_stays h
  | ringSweep => exact execRingSweep_stays h
  | lanternAlert => exact execLanternAlert_stays h
  | lanternBusTimeout => exact execLanternBusTimeout_stays h
  | laserSpareIn => exact execLaserSpareIn_stays h
  | chart => exact execChart_stays h
  | chartAmendment => exact execChartAmendment_stays h
  | sliceAllocation => exact execSliceAllocation_stays h
  | sliceTableSet => exact execSliceTableSet_stays h
  | chartEffect => exact execChartEffect_stays (s := s) h
  | chartAmendmentEffect => exact execChartAmendmentEffect_stays h
  | sliceAllocationEffect => exact execSliceAllocationEffect_stays (s := s) h
  | sliceTableSetEffect => exact execSliceTableSetEffect_stays (s := s) h
  | chartReq => exact execChartReq_stays h
  | chartChunk => exact execChartChunk_stays h
  | parityDelta => exact execParityDelta_stays (hM rfl) h
  | parityDeltaAck => exact execParityDeltaAck_stays h
  | readingRequest => exact execReadingRequest_stays (hM rfl) h
  | reading => exact execReading_stays (hM rfl) h
  | snapshotOut => exact execSnapshotOut_stays (hM rfl) h
  | standIn => exact execStandIn_stays h
  | attest => exact execAttest_stays h
  | keyInstall => exact execKeyInstall_stays h
  | sliceRelease => exact execSliceRelease_stays (hM rfl) h
  | selfTest => exact execSelfTest_stays (hM rfl) h
  | calibrate => exact execCalibrate_stays h
  | deferredFollowUp => exact execDeferredFollowUp_stays h
  | deferredTimeout => exact execDeferredTimeout_stays h
  | attestationRequest => exact execAttestationRequest_stays h
  | enrolment => exact execEnrolment_stays h
  | authorityHandover => exact execAuthorityHandover_stays h
  | debugUnlock => exact execDebugUnlock_stays h
  | bindRequest => exact execBindRequest_stays h
  | bindOfferExpiry => exact execBindOfferExpiry_stays h
  | bindAcceptance => exact execBindAcceptance_stays h
  | kxHello => exact execKxHello_stays h
  | kxCt => exact execKxCt_stays h
  | keySetupTimeout => exact execKeySetupTimeout_stays h
  | sliceKeyConfirmation => exact execSliceKeyConfirmation_stays h
  | collectorAck => exact execCollectorAck_stays (hM rfl) h
  | logResendTimeout => exact execLogResendTimeout_stays h
  | heartbeat => exact execHeartbeat_stays h
  | mgmtWatchdog => exact execMgmtWatchdog_stays h
  | engineOperationTimeout => exact execEngineOperationTimeout_stays h
  | computeDieReset => exact execComputeDieReset_stays (hM rfl) h
  | moduleWarmRestart => exact execModuleWarmRestart_stays (hM rfl) h
  | coldStart => exact execColdStart_stays (hM rfl) h
  | modReset => exact execModReset_stays (hM rfl) h
  | recoveryImageLength => exact execRecoveryImageLength_stays (hM rfl) h
  | recoveryChunk => exact execRecoveryChunk_stays h
  | recoveryDone => exact execRecoveryDone_stays (hM rfl) h
  | firmwareUpdateOrder => exact execFirmwareUpdateOrder_stays (hM rfl) h
  | pilotSelChange => exact execPilotSelChange_stays h
  | pcieReset => exact execPcieReset_stays h
  | anchorOrder => exact execAnchorOrder_stays h
  | anchorEnterBeat => exact execAnchorEnterBeat_stays h
  | anchorEntry => exact execAnchorEntry_stays h
  | anchorEntryTimeout => exact execAnchorEntryTimeout_stays h
  | wake => exact execWake_stays (hM rfl) h
  | powerDomainFail => exact execPowerDomainFail_stays (hM rfl) h
  | xinALost => exact execXinALost_stays h
  | xinBLost => exact execXinBLost_stays h
  | oscTrimMeasurement => exact execOscTrimMeasurement_stays h
  | clkSetWrite => exact execClkSetWrite_stays h
  | supplyFault => exact execSupplyFault_stays (hM rfl) h
  | supplyRecovery => exact execSupplyRecovery_stays h
  | singleFeed => exact execSingleFeed_stays h
  | powerCapSample => exact execPowerCapSample_stays h
  | thermalTripRecovery => exact execThermalTripRecovery_stays (hM rfl) h
  | i2cBusTimeout => exact execI2cBusTimeout_stays h
  | mgmtLinkSpeed => exact execMgmtLinkSpeed_stays h
  | regPathRead => exact execRegPathRead_stays (hM rfl) h
  | regPathWrite => exact execRegPathWrite_stays (hM rfl) h
  | regPathRequest => exact execRegPathRequest_stays (hM rfl) h
  | regPathAnswer => exact execRegPathAnswer_stays h
  | regPathTimeout => exact execRegPathTimeout_stays h
  | registerRead => exact execRegisterRead_stays h
  | ptpMessage => exact execPtpMessage_stays h
  | laneOut => exact execLaneOut_stays h
  | helloResend => exact execHelloResend_stays h
  | decisionRequestReceipt => exact execDecisionRequestReceipt_stays h
  | digestFetchRequest => exact execDigestFetchRequest_stays h
  | digestFetchAnswer => exact execDigestFetchAnswer_stays h
  | retirementEnd => exact execRetirementEnd_stays h
  | debugAccess => exact execDebugAccess_stays (hM rfl) h
  | updateRestartWaitExpiry => exact execUpdateRestartWaitExpiry_stays (hM rfl) h
  | bladePairRestored => exact execBladePairRestored_stays h
  | embLookup => exact execEmbLookup_stays (hM rfl) h

/-- With a command at the front of the queue, a step runs it on the queue's rest. -/
theorem step_of_pending_cons {s : State} {c : Instr} {rest : List Instr} (h : s.pending = c :: rest) : step s = exec c { s with pending := rest } := by
  simp only [step, h]

/-- On an empty queue, a step lets one nanosecond pass. -/
theorem step_of_pending_nil {s : State} (h : s.pending = []) : step s = .next (tick s) := by
  simp only [step, h]

/-- The canonical forms are `Stays` over canonical memory, at the state's own queue and time. -/
theorem stays_of_inv {s : State} (h : Inv s) : Stays s.pending s.now (fun m => memWf m = true) s := ⟨rfl, rfl, h.1, h.2⟩

theorem inv_of_stays {q : List Instr} {n : Nat} {s : State} (h : Stays q n (fun m => memWf m = true) s) : Inv s := ⟨h.mem, h.regs⟩

/-- A step answers a next state, and from the canonical forms it has them again: the front command keeps them, and so does a nanosecond. -/
theorem step_keeps_inv {s : State} (h : Inv s) : ∃ t, step s = .next t ∧ Inv t := by
  cases hq : s.pending with
  | nil => exact ⟨tick s, step_of_pending_nil hq, inv_of_stays (tick_stays (stays_of_inv h))⟩
  | cons c rest =>
    have hs : Stays rest s.now (fun m => memWf m = true) { s with pending := rest } := ⟨rfl, rfl, h.1, h.2⟩
    obtain ⟨t, ht, hk⟩ := exec_stays c (fun _ => memOk_memWf) hs
    exact ⟨t, (step_of_pending_cons hq).trans ht, inv_of_stays hk⟩

/-- Settles O4: the next state of a step is the one `step_keeps_inv` speaks of. -/
theorem everyStepKeepsInvariant : Obligations.EveryStepKeepsInvariant := by
  unfold Obligations.EveryStepKeepsInvariant
  intro s t hs hstep
  obtain ⟨u, hu, hinv⟩ := step_keeps_inv hs
  obtain rfl : u = t := by simpa [hu] using hstep
  exact hinv

end Sys2Proof.Machine
end

section
/-!
What an event changes of a state, and where it is entered (19 R569 to R574).
-/
namespace Sys2Proof.Machine

/-- The logbook's own registers (19 R574, R594). -/
abbrev logRegs : List Nat := [R.LOG_STATUS, R.LOG_HOST_EVENTS, R.LOG_LOST_TOTAL]

/-- Nothing but the logbook, its own registers and the outbox differs. -/
def OnlyLog (s t : State) : Prop := OnlyRegs logRegs s t ∧ t = { s with regs := t.regs, log := t.log, out := t.out }

theorem onlyLog_refl (s : State) : OnlyLog s s := ⟨fun _ _ => rfl, rfl⟩

theorem OnlyLog.trans {s t u : State} (h : OnlyLog s t) (k : OnlyLog t u) : OnlyLog s u := by
  obtain ⟨hregs, hrest⟩ := h
  obtain ⟨kregs, krest⟩ := k
  exact ⟨fun a ha => (kregs a ha).trans (hregs a ha), krest.trans (by rw [hrest])⟩

theorem onlyLog_setF (s : State) {a : Nat} (f : RF) (v : Nat) (ha : a ∈ logRegs) : OnlyLog s (setF s a f v) :=
  ⟨fun _ hb => rd_setF_other s f v fun e => hb (e ▸ ha), rfl⟩

theorem onlyLog_log (s : State) (lg : Logbook) : OnlyLog s { s with log := lg } := ⟨fun _ _ => rfl, rfl⟩

theorem onlyLog_send (s : State) (k : OutKind) (d : Nat) (as : List Nat) (b : Bytes) : OnlyLog s (send s k d as b) := ⟨fun _ _ => rfl, rfl⟩

theorem onlyLog_ite {s t u : State} {c : Prop} [Decidable c] (ht : OnlyLog s t) (hu : OnlyLog s u) : OnlyLog s (if c then t else u) := by
  split <;> assumption

theorem onlyLog_msix (s : State) (v : Nat) : OnlyLog s (msix s v) := onlyLog_ite (onlyLog_send s _ _ _ _) (onlyLog_refl s)

theorem onlyLog_logStatus (s : State) : OnlyLog s (logStatus s) :=
  ((onlyLog_setF s _ _ (by simp)).trans (onlyLog_setF _ _ _ (by simp))).trans (onlyLog_setF _ _ _ (by simp))

theorem onlyLog_placeEntry (s : State) (source code cls a0 a1 a2 : Nat) : OnlyLog s (placeEntry s source code cls a0 a1 a2) := by
  refine .trans ?_ (onlyLog_logStatus _)
  refine .trans ?_ (onlyLog_ite (.trans (onlyLog_setF _ _ _ (by simp)) (onlyLog_msix _ 0)) (onlyLog_refl _))
  exact .trans (onlyLog_log s _) (onlyLog_ite (onlyLog_send _ _ _ _ _) (onlyLog_refl _))

theorem onlyLog_placeOverrun (s : State) : OnlyLog s (placeOverrun s) :=
  onlyLog_ite (((onlyLog_placeEntry s _ _ _ _ _ _).trans (onlyLog_log _ _)).trans (onlyLog_logStatus _)) (onlyLog_refl s)

theorem onlyLog_loseEntry (s : State) (source : Nat) : OnlyLog s (loseEntry s source) :=
  ((onlyLog_log s _).trans (onlyLog_setF _ _ _ (by simp))).trans (onlyLog_logStatus _)

/-- An event changes nothing but the logbook, its registers and the outbox. -/
theorem onlyLog_logEvent (s : State) (source code cls a0 a1 a2 : Nat) : OnlyLog s (logEvent s source code cls a0 a1 a2) := by
  unfold logEvent
  extract_lets lg counted lg' key seen noted room
  have hcounted : OnlyLog s counted := onlyLog_log s _
  have hnoted : OnlyLog counted noted := onlyLog_ite (onlyLog_log _ _) (onlyLog_refl _)
  have hroom : OnlyLog noted room := onlyLog_placeOverrun noted
  refine hcounted.trans (onlyLog_ite (onlyLog_log _ _) (onlyLog_ite (onlyLog_refl _) ?_))
  exact (hnoted.trans hroom).trans (onlyLog_ite (onlyLog_loseEntry _ _) (onlyLog_placeEntry _ _ _ _ _ _ _))

/-! ### The logbook itself -/

@[simp] theorem logStatus_log (s : State) : (logStatus s).log = s.log :=
  (setF_log _ _ _ _).trans ((setF_log _ _ _ _).trans (setF_log _ _ _ _))

@[simp] theorem msix_log (s : State) (v : Nat) : (msix s v).log = s.log := by
  unfold msix; split <;> rfl

/-- An alarm counts itself in the logbook and touches neither its entries nor what is lost. -/
theorem alarmDue_log (s : State) (cls : Nat) :
    (alarmDue s cls).2.entries = s.log.entries ∧ (alarmDue s cls).2.lost = s.log.lost := by
  unfold alarmDue
  extract_lets sec n
  split <;> exact ⟨rfl, rfl⟩

/-- A new entry stands last, open and with its source and code; what is lost stays. -/
theorem placeEntry_log (s : State) (source code cls a0 a1 a2 : Nat) :
    (∃ e : LogEntry, (placeEntry s source code cls a0 a1 a2).log.entries = s.log.entries ++ [e] ∧ e.opened = true ∧ e.source = source ∧ e.code = code) ∧
      (placeEntry s source code cls a0 a1 a2).log.lost = s.log.lost := by
  obtain ⟨hentries, hlost⟩ := alarmDue_log s cls
  unfold placeEntry
  generalize alarmDue s cls = due at hentries hlost
  obtain ⟨al, lg⟩ := due
  dsimp only at hentries hlost
  simp [apply_ite State.log, hentries, hlost]

/-- The OVERRUN entry is placed only where it ends the loss and leaves room; so a logbook that has none afterwards was left as it was. -/
theorem placeOverrun_log (s : State) :
    (placeOverrun s).log.lost = s.log.lost ∧
      ((placeOverrun s).log.lostNow ≠ 0 ∨ 4096 ≤ (placeOverrun s).log.entries.length → s.log.lostNow ≠ 0 ∨ 4096 ≤ s.log.entries.length) := by
  unfold placeOverrun
  split
  · rename_i hroom
    obtain ⟨⟨e, he, -⟩, hlost⟩ := placeEntry_log s (srcOf 0 0) 0x00C0 clsInfo s.log.lostFirst s.log.lostLast ((s.log.lostNow % 2 ^ 48) + (s.log.lostSources.length % 65536) * 2 ^ 48)
    simp only [Bool.and_eq_true, decide_eq_true_eq] at hroom
    simp only [logStatus_log, he, List.length_append, List.length_singleton]
    exact ⟨hlost, fun h => by omega⟩
  · exact ⟨rfl, id⟩

theorem loseEntry_lost (s : State) (source : Nat) :
    mapGetD 0 (loseEntry s source).log.lost source = min (2 ^ 48 - 1) (mapGetD 0 s.log.lost source + 1) := by
  simp [loseEntry, incF, mapGetD, mapGet_put_same]

/-- Coalescing keeps the open entry of the source and code open. -/
theorem coalesce_opened {t source code : Nat} {l : List LogEntry} (h : ∃ e ∈ l, e.opened = true ∧ e.source = source ∧ e.code = code) :
    ∃ e ∈ coalesce t source code l, e.opened = true ∧ e.source = source ∧ e.code = code := by
  induction l with
  | nil => simp at h
  | cons x l ih =>
    simp only [coalesce]
    split
    · rename_i hx
      simp only [Bool.and_eq_true, beq_iff_eq] at hx
      exact ⟨_, List.mem_cons_self, hx.1.1, hx.1.2, hx.2⟩
    · rename_i hx
      obtain ⟨e, he, ho, hs, hc⟩ := h
      rcases List.mem_cons.1 he with rfl | he
      · simp [ho, hs, hc] at hx
      · obtain ⟨f, hf, hrest⟩ := ih ⟨e, he, ho, hs, hc⟩
        exact ⟨f, List.mem_cons_of_mem _ hf, hrest⟩

/-- An open entry of a source and code stands in the logbook of t; or s had no place for one, and t counts one more lost of that source (R573, R574). -/
def Entered (s t : State) (source code : Nat) : Prop :=
  (∃ e ∈ t.log.entries, e.opened = true ∧ e.source = source ∧ e.code = code) ∨
    ((4096 ≤ s.log.entries.length ∨ s.log.lostNow ≠ 0) ∧ mapGetD 0 t.log.lost source = min (2 ^ 48 - 1) (mapGetD 0 s.log.lost source + 1))

/-- An event of another class than CORRECTED is entered. -/
theorem logEvent_entered (s : State) (source code : Nat) {cls : Nat} (a0 a1 a2 : Nat) (hcls : cls ≠ clsCorrected) :
    Entered s (logEvent s source code cls a0 a1 a2) source code := by
  unfold logEvent
  simp only [beq_eq_false_iff_ne.2 hcls, Bool.false_and, Bool.false_eq_true, if_false]
  generalize hs : { s with log := { s.log with events := mapPut s.log.events source (min (2 ^ 48 - 1) (mapGetD 0 s.log.events source + 1)) } } = u
  have hlog : u.log.entries = s.log.entries ∧ u.log.lost = s.log.lost ∧ u.log.lostNow = s.log.lostNow := by subst hs; exact ⟨rfl, rfl, rfl⟩
  obtain ⟨hentries, hlost, hnow⟩ := hlog
  split
  · rename_i ho
    refine .inl (coalesce_opened ?_)
    simpa [openEntry, and_assoc] using ho
  · obtain ⟨holost, hofull⟩ := placeOverrun_log u
    split
    · rename_i hfull
      rw [hlost] at holost
      rw [hnow, hentries] at hofull
      refine .inr ⟨(hofull (by simpa using hfull)).symm, ?_⟩
      rw [loseEntry_lost, holost]
    · obtain ⟨⟨e, he, hrest⟩, -⟩ := placeEntry_log (placeOverrun u) source code cls a0 a1 a2
      exact .inl ⟨e, by simp [he], hrest⟩

theorem onlyLog_logAccess (s : State) (a w : Nat) (write : Bool) (cause v fid : Nat) : OnlyLog s (logAccess s a w write cause v fid) :=
  onlyLog_logEvent s _ _ _ _ _ _

/-- A refused access is entered as REGISTER_ACCESS, code 0x00C1, of the module's own source 0 (R572). -/
theorem logAccess_entered (s : State) (a w : Nat) (write : Bool) (cause v fid : Nat) : Entered s (logAccess s a w write cause v fid) 0 0x00C1 :=
  logEvent_entered s (srcOf 0 0) 0x00C1 _ _ _ (by decide)

end Sys2Proof.Machine
end

section
/-!
Register accesses by their cases (00 R6, R7, 23 R687, R694).
-/
namespace Sys2Proof.Machine

theorem goodAccess_eq_false {a w : Nat} (h8 : ¬ (w = 8 ∧ a % 8 = 0)) (h4 : ¬ (w = 4 ∧ a % 4 = 0)) : goodAccess a w = false := by
  simpa [goodAccess] using ⟨fun h e => h8 ⟨h, e⟩, fun h e => h4 ⟨h, e⟩⟩

theorem exec_registerWrite_of_reach {s : State} {req : Requester} {a : Nat} (w : Nat) (v : Word) (h : mayReach s req a = true) :
    exec (.registerWrite req a w v) s = .next (regWrite s req a w v.toNat) := by
  show done (onlyIf (mayReach s req a) s _) = _
  rw [h]; rfl

theorem exec_registerRead_of_reach {s : State} {req : Requester} {a : Nat} (w : Nat) (h : mayReach s req a = true) :
    exec (.registerRead req a w) s = .next (readAnswer (regRead s req a w).2 req a (regRead s req a w).1) := by
  show done (onlyIf (mayReach s req a) s _) = _
  rw [h]; rfl

/-- A write to another register than the register path's control starts nothing. -/
theorem regWrite_eq_regPut {s : State} {req : Requester} {a w v : Nat} (h : a / 8 * 8 ≠ R.CMD_REG_CTRL) : regWrite s req a w v = regPut s req a w v := by
  simp [regWrite, h]

theorem regWrite_of_badForm {s : State} {req : Requester} {a w v : Nat} (h : goodAccess a w = false) : regWrite s req a w v = logAccess s a w true 0 v 0 := by
  simp [regWrite, regPut, h]

theorem regPut_of_absent {s : State} {req : Requester} {a w v : Nat} (hg : goodAccess a w = true) (h : regHere s (a / 8 * 8) = none) :
    regPut s req a w v = logAccess s a w true 1 v 0 := by
  simp [regPut, hg, h]

theorem regPut_of_present {s : State} {req : Requester} {a w v : Nat} {r : RegRow} (hg : goodAccess a w = true) (h : regHere s (a / 8 * 8) = some r)
    (hheld : heldUnit s req (a / 8 * 8) = false) :
    regPut s req a w v = putReg s r (!fromHost req) (a / 8 * 8) (placed s r (a / 8 * 8) a w v) (a, w, v) := by
  simp [regPut, hg, h, hheld]

theorem regRead_of_badForm {s : State} {req : Requester} {a w : Nat} (h : goodAccess a w = false) : regRead s req a w = (0, logAccess s a w false 0 0 0) := by
  simp [regRead, h]

theorem regRead_of_absent {s : State} {req : Requester} {a w : Nat} (hg : goodAccess a w = true) (h : regHere s (a / 8 * 8) = none) :
    regRead s req a w = (0, logAccess s a w false 1 0 0) := by
  simp [regRead, hg, h]

theorem regRead_of_present {s : State} {req : Requester} {a w : Nat} (hg : goodAccess a w = true) (h : (regHere s (a / 8 * 8)).isSome = true)
    (hheld : heldUnit s req (a / 8 * 8) = false) (hcount : a / 8 * 8 ≠ R.MER_COUNT ∨ w = 8) :
    regRead s req a w = (halfOf (regView s req (a / 8 * 8)) a w, s) := by
  have hlatch : (a / 8 * 8 == R.MER_COUNT && w == 4) = false := by
    rcases hcount with h | h <;> simp [h]
  have hhere : (regHere s (a / 8 * 8)).isNone = false := by simpa using h
  simp [regRead, hg, hhere, hlatch, hheld]

theorem onlyLog_readAnswer {s t : State} (req : Requester) (a v : Nat) (h : OnlyLog s t) : OnlyLog s (readAnswer t req a v) :=
  h.trans (onlyLog_send t _ _ _ _)

/-- The value read is the last message sent. -/
theorem readAnswer_getLast (s : State) (req : Requester) (a v : Nat) :
    (readAnswer s req a v).out.getLast? = some ⟨.readValue, requesterNo req, [a, v], [], none⟩ := by
  simp [readAnswer]

/-- Settles O26: both accesses are `logAccess` by their form, which enters the event and touches nothing else. -/
theorem registerAccessForm : Obligations.RegisterAccessForm := by
  unfold Obligations.RegisterAccessForm
  constructor
  · intro s req a w v hreach h8 h4
    rw [Completes, exec_registerWrite_of_reach w v hreach, regWrite_of_badForm (goodAccess_eq_false h8 h4)]
    obtain ⟨hregs, hrest⟩ := onlyLog_logAccess s a w true 0 v.toNat 0
    exact ⟨_, rfl, hregs, hrest, logAccess_entered s a w true 0 v.toNat 0⟩
  · intro s req a w hreach h8 h4
    rw [Completes, exec_registerRead_of_reach w hreach, regRead_of_badForm (goodAccess_eq_false h8 h4)]
    obtain ⟨hregs, hrest⟩ := onlyLog_readAnswer req a 0 (onlyLog_logAccess s a w false 0 0 0)
    exact ⟨_, rfl, readAnswer_getLast _ req a 0, hregs, hrest, logAccess_entered s a w false 0 0 0⟩

/-- Settles O27: the cases of an aligned access, by whether the register is there. -/
theorem registerReadsAndAbsentRegisters : Obligations.RegisterReadsAndAbsentRegisters := by
  unfold Obligations.RegisterReadsAndAbsentRegisters
  refine ⟨?_, ?_, ?_⟩
  · intro s req a w hreach hgood hhere hheld hcount
    rw [exec_registerRead_of_reach w hreach, regRead_of_present hgood hhere hheld hcount]
    rfl
  · intro s req a w r v hreach hgood hhere hheld hctrl
    rw [exec_registerWrite_of_reach w v hreach, regWrite_eq_regPut hctrl, regPut_of_present hgood hhere hheld]
  · intro s req a w v hreach hgood habsent hctrl
    constructor
    · rw [Completes, exec_registerWrite_of_reach w v hreach, regWrite_eq_regPut hctrl, regPut_of_absent hgood habsent]
      exact ⟨_, rfl, onlyLog_logAccess s a w true 1 v.toNat 0⟩
    · rw [Completes, exec_registerRead_of_reach w hreach, regRead_of_absent hgood habsent]
      exact ⟨_, rfl, readAnswer_getLast _ req a 0, onlyLog_readAnswer req a 0 (onlyLog_logAccess s a w false 1 0 0)⟩

end Sys2Proof.Machine
end

section
/-!
A register written by its access codes (00 R8): each field of the register by itself, and the bits of no field.
-/
namespace Sys2Proof.Machine

/-- What a write of y makes of a field's value x, by its access code (R8). -/
def newField : Access → Nat → Nat → Nat
  | .rw, _, y => y
  | .w1c, x, y => bitsWithout x y
  | _, x, _ => x

/-- A register with one field written. -/
def fieldPut (v w : Word) (f : RegField) : Word := setFld w f.hi f.lo (newField f.acc (fld w f.hi f.lo) (fld v f.hi f.lo))

/-- A state with one field of a register written: one step of `putFields`. -/
def putField (a : Nat) (v : Word) (s : State) (f : RegField) : State :=
  match f.acc with
  | .rw => wr s a (setFld (rd s a) f.hi f.lo (fld v f.hi f.lo))
  | .w1c => wr s a (setFld (rd s a) f.hi f.lo (bitsWithout (fld (rd s a) f.hi f.lo) (fld v f.hi f.lo)))
  | _ => s

theorem putFields_eq_foldl (s : State) (r : RegRow) (a : Nat) (v : Word) : putFields s r a v = r.fields.foldl (putField a v) s := rfl

/-! ### One field -/

theorem setFld_fld_self (w : Word) (hi lo : Nat) : setFld w hi lo (fld w hi lo) = w := by
  have hle : fld w hi lo * 2 ^ lo ≤ w.toNat := by
    calc fld w hi lo * 2 ^ lo ≤ w.toNat / 2 ^ lo * 2 ^ lo := by
          unfold fld bitsOf
          rw [Nat.shiftRight_eq_div_pow]
          exact Nat.mul_le_mul_right _ (Nat.mod_le _ _)
      _ ≤ w.toNat := Nat.div_mul_le_self _ _
  unfold setFld
  rw [Nat.mod_eq_of_lt (fld_lt w hi lo), Nat.sub_add_cancel hle, BitVec.ofNat_toNat, BitVec.setWidth_eq]

theorem newField_lt {acc : Access} {x y n : Nat} (hx : x < n) (hy : y < n) : newField acc x y < n := by
  cases acc with
  | rw => exact hy
  | w1c => exact (Nat.sub_le _ _).trans_lt hx
  | ro | wo | w1s => exact hx

theorem fld_fieldPut_same (v w : Word) {f : RegField} (hf : f.lo ≤ f.hi) (h64 : f.hi < 64) :
    fld (fieldPut v w f) f.hi f.lo = newField f.acc (fld w f.hi f.lo) (fld v f.hi f.lo) := by
  rw [fieldPut, fld_setFld_same _ _ hf h64, Nat.mod_eq_of_lt (newField_lt (fld_lt w _ _) (fld_lt v _ _))]

theorem fld_fieldPut_apart (v w : Word) {f : RegField} {h l : Nat} (hf : f.lo ≤ f.hi) (h64 : f.hi < 64) (hd : h < f.lo ∨ f.hi < l) :
    fld (fieldPut v w f) h l = fld w h l :=
  hd.elim (fld_setFld_below w _ hf h64) (fld_setFld_above w _ hf h64)

theorem putField_sorted {s : State} (hs : mapSorted s.regs = true) (a : Nat) (v : Word) (f : RegField) : mapSorted (putField a v s f).regs = true := by
  unfold putField
  split
  · exact wr_sorted hs a _
  · exact wr_sorted hs a _
  · exact hs

theorem rd_putField {s : State} (hs : mapSorted s.regs = true) (a : Nat) (v : Word) (f : RegField) : rd (putField a v s f) a = fieldPut v (rd s a) f := by
  obtain ⟨hi, lo, acc⟩ := f
  cases acc with
  | rw | w1c => exact rd_wr_same hs a _
  | ro | wo | w1s => exact (setFld_fld_self _ _ _).symm

/-- Nothing but the register at an address differs. -/
def OnlyReg (a : Nat) (s t : State) : Prop := OnlyRegs [a] s t ∧ t = { s with regs := t.regs }

theorem onlyReg_refl (a : Nat) (s : State) : OnlyReg a s s := ⟨fun _ _ => rfl, rfl⟩

theorem OnlyReg.trans {a : Nat} {s t u : State} (h : OnlyReg a s t) (k : OnlyReg a t u) : OnlyReg a s u := by
  obtain ⟨hregs, hrest⟩ := h
  obtain ⟨kregs, krest⟩ := k
  exact ⟨fun b hb => (kregs b hb).trans (hregs b hb), krest.trans (by rw [hrest])⟩

theorem onlyReg_wr (s : State) (a : Nat) (w : Word) : OnlyReg a s (wr s a w) := ⟨fun _ hb => rd_wr_other s w (by simpa using hb), rfl⟩

theorem onlyReg_putField (a : Nat) (v : Word) (s : State) (f : RegField) : OnlyReg a s (putField a v s f) := by
  unfold putField
  split
  · exact onlyReg_wr s a _
  · exact onlyReg_wr s a _
  · exact onlyReg_refl a s

/-! ### All fields of a register -/

/-- A write by the access codes changes no register but its own, and nothing else of the state. -/
theorem onlyReg_putFields (s : State) (r : RegRow) (a : Nat) (v : Word) : OnlyReg a s (putFields s r a v) := by
  rw [putFields_eq_foldl]
  generalize r.fields = l
  induction l generalizing s with
  | nil => exact onlyReg_refl a s
  | cons f l ih => exact (onlyReg_putField a v s f).trans (ih (putField a v s f))

theorem rd_putFields {s : State} (hs : mapSorted s.regs = true) (r : RegRow) (a : Nat) (v : Word) :
    rd (putFields s r a v) a = r.fields.foldl (fieldPut v) (rd s a) := by
  rw [putFields_eq_foldl]
  generalize r.fields = l
  induction l generalizing s with
  | nil => rfl
  | cons f l ih => rw [List.foldl_cons, List.foldl_cons, ih (putField_sorted hs a v f), rd_putField hs]

/-- Fields that lie in the register and share no bit. -/
def fieldsApart (l : List RegField) : Prop := (∀ f ∈ l, f.lo ≤ f.hi ∧ f.hi < 64) ∧ l.Pairwise fun f g => f.hi < g.lo ∨ g.hi < f.lo

theorem fieldsApart_cons {f : RegField} {l : List RegField} (h : fieldsApart (f :: l)) :
    (f.lo ≤ f.hi ∧ f.hi < 64) ∧ (∀ g ∈ l, f.hi < g.lo ∨ g.hi < f.lo) ∧ fieldsApart l :=
  ⟨h.1 f List.mem_cons_self, (List.pairwise_cons.1 h.2).1, fun g hg => h.1 g (List.mem_cons_of_mem _ hg), (List.pairwise_cons.1 h.2).2⟩

/-- Bits that lie in no field stay. -/
theorem fld_fieldPuts_apart (v w : Word) {l : List RegField} {hi lo : Nat} (hl : fieldsApart l) (hd : ∀ f ∈ l, hi < f.lo ∨ f.hi < lo) :
    fld (l.foldl (fieldPut v) w) hi lo = fld w hi lo := by
  induction l generalizing w with
  | nil => rfl
  | cons f l ih =>
    obtain ⟨⟨hf, h64⟩, -, hl'⟩ := fieldsApart_cons hl
    rw [List.foldl_cons, ih _ hl' fun g hg => hd g (List.mem_cons_of_mem _ hg), fld_fieldPut_apart v w hf h64 (hd f List.mem_cons_self)]

/-- Each field of a register is written by its own access code, whatever the others are. -/
theorem fld_fieldPuts_mem (v w : Word) {l : List RegField} {f : RegField} (hl : fieldsApart l) (hf : f ∈ l) :
    fld (l.foldl (fieldPut v) w) f.hi f.lo = newField f.acc (fld w f.hi f.lo) (fld v f.hi f.lo) := by
  induction l generalizing w with
  | nil => simp at hf
  | cons g l ih =>
    obtain ⟨⟨hg, h64⟩, hapart, hl'⟩ := fieldsApart_cons hl
    rw [List.foldl_cons]
    rcases List.mem_cons.1 hf with rfl | hm
    · rw [fld_fieldPuts_apart v _ hl' hapart, fld_fieldPut_same v w hg h64]
    · rw [ih _ hl' hm, fld_fieldPut_apart v w hg h64 (hapart f hm).symm]

/-! ### The registers of the table -/

/-- In every register of the index the fields share no bit. -/
theorem regRows_fieldsApart : ∀ r ∈ regRows, fieldsApart r.fields := by
  unfold fieldsApart
  decide +kernel

theorem findRow_mem {rows : List RegRow} {a j : Nat} {r : RegRow} (h : findRow rows a = some (r, j)) : r ∈ rows := by
  induction rows with
  | nil => simp [findRow] at h
  | cons x rows ih =>
    simp only [findRow] at h
    split at h
    · obtain ⟨rfl, -⟩ := Prod.mk.inj (Option.some.inj h)
      exact List.mem_cons_self
    · exact List.mem_cons_of_mem _ (ih h)

theorem regHere_mem {s : State} {a : Nat} {r : RegRow} (h : regHere s a = some r) : r ∈ regRows := by
  unfold regHere at h
  split at h
  · obtain ⟨⟨r', j⟩, hr, rfl⟩ := Option.map_eq_some_iff.1 h
    exact findRow_mem hr
  · cases h

theorem getLsbD_eq_fld (w : Word) (i : Nat) : w.getLsbD i = decide (fld w i i = 1) := by
  rw [← BitVec.testBit_toNat, Nat.testBit_eq_decide_div_mod_eq, fld, bitsOf, Nat.shiftRight_eq_div_pow, Nat.add_sub_cancel_left, Nat.pow_one]

/-- No register of the MER, SEC and EMB blocks or of a die's own block has a rule of its own. -/
theorem putReg_eq_putFields {s : State} {r : RegRow} {fw : Bool} {a : Nat} {v : Word} {how : How}
    (h : blockOf a = 2 ∨ blockOf a = 11 ∨ blockOf a = 12 ∨ 14 ≤ blockOf a) : putReg s r fw a v how = putFields s r a v := by
  unfold putReg
  split
  case h_12 => rfl
  all_goals omega

/-- A 64-bit write by the management core of a register without a rule of its own is a write by the access codes. -/
theorem exec_registerWrite_mgmt {s : State} {a : Nat} {v : Word} {r : RegRow} (h8 : a % 8 = 0)
    (hb : blockOf a = 2 ∨ blockOf a = 11 ∨ blockOf a = 12 ∨ 14 ≤ blockOf a) (hreach : mayReach s .mgmt a = true) (hr : regHere s a = some r) :
    exec (.registerWrite .mgmt a 8 v) s = .next (putFields s r a v) := by
  have ha : a / 8 * 8 = a := by omega
  have hctrl : a / 8 * 8 ≠ R.CMD_REG_CTRL := by
    rw [ha]
    rintro rfl
    revert hb
    decide
  have hplaced : placed s r a a 8 v.toNat = v := by simp [placed]
  rw [exec_registerWrite_of_reach 8 v hreach, regWrite_eq_regPut hctrl, regPut_of_present (by simp [goodAccess, h8]) (ha.symm ▸ hr) rfl, ha, hplaced,
    putReg_eq_putFields hb]

/-- Settles O28: such a write is `putFields`, whose fields each follow their access code. -/
theorem registerFieldsWritten : Obligations.RegisterFieldsWritten := by
  unfold Obligations.RegisterFieldsWritten
  intro s a v r ⟨_, hsorted, _⟩ h8 hb hreach hr
  have hapart := regRows_fieldsApart r (regHere_mem hr)
  have hrd := rd_putFields hsorted r a v
  obtain ⟨hregs, hrest⟩ := onlyReg_putFields s r a v
  refine ⟨_, exec_registerWrite_mgmt h8 hb hreach hr, hregs, hrest, fun f hf => ?_, fun i _ hi => ?_⟩
  · have hnew : getF (putFields s r a v) a ⟨f.hi, f.lo⟩ = newField f.acc (getF s a ⟨f.hi, f.lo⟩) (fld v f.hi f.lo) := by
      rw [getF, hrd]
      exact fld_fieldPuts_mem v _ hapart hf
    rw [hnew]
    exact ⟨fun hacc => by rw [hacc]; rfl, fun hacc => by rw [hacc]; rfl, fun hacc => by rw [hacc]; rfl⟩
  · rw [getLsbD_eq_fld, getLsbD_eq_fld, hrd, fld_fieldPuts_apart v _ hapart hi]

end Sys2Proof.Machine
end

section
/-!
Meridian time: what a nanosecond leaves, reads of the count, lock states and measurements (02 R19 to R27).
-/
namespace Sys2Proof.Machine

/-- Settles O2: a nanosecond keeps the queue, every byte and the canonical forms (`tick_stays`, over equality to the memory before). -/
theorem emptyQueueIsOneNanosecond : Obligations.EmptyQueueIsOneNanosecond := by
  unfold Obligations.EmptyQueueIsOneNanosecond
  intro s ⟨hmem, hregs⟩ hq
  have hs : Stays [] s.now (fun m => m = s.mem) s := ⟨hq, rfl, rfl, hregs⟩
  obtain ⟨hpend, htime, hkept, hregs'⟩ := tick_stays hs
  exact ⟨tick s, step_of_pending_nil hq, hpend, htime, hkept, by rw [hkept]; exact hmem, hregs'⟩

/-! ### Reads of the count (R21) -/

/-- The latched upper halves without a requester's own. -/
abbrev latchWithout (l : List (Requester × BitVec 32)) (req : Requester) : List (Requester × BitVec 32) := l.filter fun x => x.1 != req

theorem latchWithout_find_same (l : List (Requester × BitVec 32)) (req : Requester) : (latchWithout l req).find? (fun e => e.1 == req) = none := by
  simp

theorem latchWithout_find_other (l : List (Requester × BitVec 32)) {r req : Requester} (h : r ≠ req) :
    (latchWithout l req).find? (fun e => e.1 == r) = l.find? (fun e => e.1 == r) := by
  rw [List.find?_filter]
  congr 1
  funext e
  by_cases he : e.1 = r <;> simp [he, h]

/-- A read at +0 sends the lower half and puts the upper half last among the latches, in place of the requester's own. -/
theorem exec_merCountRead_lower (s : State) (req : Requester) : exec (.merCountRead req false) s =
    .next (readAnswer { s with mer := { s.mer with latch := latchWithout s.mer.latch req ++ [(req, BitVec.ofNat 32 (countNow s / 2 ^ 32))] } } req
      R.MER_COUNT (countNow s % 2 ^ 32)) := rfl

/-- A read at +4 takes the half that its requester has latched. -/
theorem exec_merCountRead_latched {s : State} {req : Requester} {e : Requester × BitVec 32} (h : s.mer.latch.find? (fun e => e.1 == req) = some e) :
    exec (.merCountRead req true) s = .next (readAnswer { s with mer := { s.mer with latch := latchWithout s.mer.latch req } } req (R.MER_COUNT + 4) e.2.toNat) := by
  have hread : merCountRead s req true = (e.2.toNat, { s with mer := { s.mer with latch := latchWithout s.mer.latch req } }) := by
    simp [merCountRead, h]
  show done (readAnswer (merCountRead s req true).2 req (R.MER_COUNT + 4) (merCountRead s req true).1) = _
  rw [hread]; rfl

/-- Without a latched half, a read at +4 sends the live one. -/
theorem exec_merCountRead_live {s : State} {req : Requester} (h : s.mer.latch.find? (fun e => e.1 == req) = none) :
    exec (.merCountRead req true) s = .next (readAnswer s req (R.MER_COUNT + 4) (countNow s / 2 ^ 32)) := by
  have hread : merCountRead s req true = (countNow s / 2 ^ 32, s) := by simp [merCountRead, h]
  show done (readAnswer (merCountRead s req true).2 req (R.MER_COUNT + 4) (merCountRead s req true).1) = _
  rw [hread]; rfl

/-- The upper half of a count fits the latch. -/
theorem toNat_upperHalf (s : State) : (BitVec.ofNat 32 (countNow s / 2 ^ 32)).toNat = countNow s / 2 ^ 32 := by
  have hcount : countNow s < 2 ^ 64 := s.mer.count.isLt
  rw [BitVec.toNat_ofNat, Nat.mod_eq_of_lt (by omega)]

/-- A 64-bit read of the count is whole. -/
theorem regRead_merCount {s : State} {req : Requester} (h : (regHere s R.MER_COUNT).isSome = true) : regRead s req R.MER_COUNT 8 = (countNow s, s) :=
  regRead_of_present (by decide) h (by cases req <;> rfl) (.inr rfl)

/-- Settles O33: the first +4 read takes the latch that the +0 read has set, and leaves none. -/
theorem meridianCountReads : Obligations.MeridianCountReads := by
  unfold Obligations.MeridianCountReads
  refine ⟨fun s req hreach hhere => ?_, fun s req => ?_, fun s req hnone => ⟨_, exec_merCountRead_live hnone, rfl⟩⟩
  · rw [exec_registerRead_of_reach 8 hreach, regRead_merCount hhere]
    rfl
  · refine ⟨_, exec_merCountRead_lower s req, rfl, rfl, fun r hr => ?_, fun c => ?_⟩
    · show (latchWithout _ _ ++ _).find? _ = _
      rw [List.find?_append, latchWithout_find_other _ hr]
      simp [Ne.symm hr]
    · have hlatched : (latchWithout s.mer.latch req ++ [(req, BitVec.ofNat 32 (countNow s / 2 ^ 32))]).find? (fun e => e.1 == req) =
          some (req, BitVec.ofNat 32 (countNow s / 2 ^ 32)) := by
        rw [List.find?_append, latchWithout_find_same]
        simp
      refine ⟨_, exec_merCountRead_latched hlatched, by rw [toNat_upperHalf]; rfl, fun r hr => ?_, fun d => ⟨_, exec_merCountRead_live ?_, rfl⟩⟩
      · show (latchWithout (latchWithout _ _ ++ _) _).find? _ = _
        rw [latchWithout_find_other _ hr, List.find?_append, latchWithout_find_other _ hr]
        simp [Ne.symm hr]
      · exact latchWithout_find_same _ req

/-! ### Lock states and the source of markers (R23, R27) -/

/-- Nothing but MER_STATUS and the Meridian differs. -/
def OnlyMeridian (s t : State) : Prop := OnlyRegs [R.MER_STATUS] s t ∧ t = { s with regs := t.regs, mer := t.mer }

theorem onlyMeridian_refl (s : State) : OnlyMeridian s s := ⟨fun _ _ => rfl, rfl⟩

theorem OnlyMeridian.trans {s t u : State} (h : OnlyMeridian s t) (k : OnlyMeridian t u) : OnlyMeridian s u := by
  obtain ⟨hregs, hrest⟩ := h
  obtain ⟨kregs, krest⟩ := k
  exact ⟨fun a ha => (kregs a ha).trans (hregs a ha), krest.trans (by rw [hrest])⟩

theorem onlyMeridian_setF (s : State) (f : RF) (v : Nat) : OnlyMeridian s (setF s R.MER_STATUS f v) :=
  ⟨fun _ hb => rd_setF_other s f v (by simpa using hb), rfl⟩

theorem onlyMeridian_mer (s : State) (m : Meridian) : OnlyMeridian s { s with mer := m } := ⟨fun _ _ => rfl, rfl⟩

/-- A command whose condition holds has its effect. -/
theorem done_onlyIf {c : Bool} {s : State} {f : State → State} (h : c = true) : done (onlyIf c s f) = .next (f s) := by
  rw [h]; rfl

/-- MER_STATUS as it stands on entering a lock state (R38). -/
def lockShown (s : State) (v : Nat) : State := setF (setF s R.MER_STATUS F.MER_STATUS_STATE v) R.MER_STATUS F.MER_STATUS_STATE_CHANGED 1

theorem lockShown_mer (s : State) (v : Nat) : (lockShown s v).mer = s.mer := (setF_mer _ _ _ _).trans (setF_mer _ _ _ _)

theorem setLock_of_ne {s : State} {v : Nat} (h : lockState s ≠ v) : setLock s v =
    { lockShown s v with mer := { (lockShown s v).mer with firstLock := (lockShown s v).mer.firstLock || v == 2, inBand := 0, outBand := 0, holdover := 0 } } := by
  unfold setLock lockShown
  rw [if_neg (by simpa using h)]

/-- Of the Meridian, a lock state entered changes the bands, the time in HOLDOVER and, in LOCKED, the first lock. -/
theorem setLock_mer (s : State) (v : Nat) : (setLock s v).mer.count = s.mer.count ∧ (setLock s v).mer.markers = s.mer.markers ∧
    (v ≠ 2 → (setLock s v).mer.firstLock = s.mer.firstLock) := by
  by_cases h : lockState s = v
  · have hsame : setLock s v = s := if_pos (by simpa using h)
    rw [hsame]
    exact ⟨rfl, rfl, fun _ => rfl⟩
  · rw [setLock_of_ne h, lockShown_mer]
    exact ⟨rfl, rfl, fun hv => by simp [hv]⟩

/-- The fields of a register stand in the registers alone. -/
theorem getF_with_mer (s : State) (m : Meridian) (a : Nat) (f : RF) : getF { s with mer := m } a f = getF s a f := rfl

theorem lockState_setLock {s : State} (hs : mapSorted s.regs = true) {v : Nat} (h : lockState s ≠ v) (hv : v < 8) : lockState (setLock s v) = v := by
  rw [setLock_of_ne h, lockState, getF_with_mer, lockShown, getF_setF_field (setF_sorted hs _ _ _) _ _ _ _ (by decide) (by decide) (by decide),
    getF_setF_same hs _ _ _ (by decide) (by decide)]
  exact Nat.mod_eq_of_lt hv

theorem stateChanged_setLock {s : State} (hs : mapSorted s.regs = true) {v : Nat} (h : lockState s ≠ v) :
    flagF (setLock s v) R.MER_STATUS F.MER_STATUS_STATE_CHANGED = true := by
  rw [setLock_of_ne h, flagF, getF_with_mer, lockShown, getF_setF_same (setF_sorted hs _ _ _) _ _ _ (by decide) (by decide)]
  rfl

theorem onlyMeridian_setLock (s : State) (v : Nat) : OnlyMeridian s (setLock s v) := by
  unfold setLock
  split
  · exact onlyMeridian_refl s
  · exact ((onlyMeridian_setF s _ _).trans (onlyMeridian_setF _ _ _)).trans (onlyMeridian_mer _ _)

/-- A lock state entered from another one, as R27 says. -/
theorem setLock_enters {s : State} (hs : mapSorted s.regs = true) {v : Nat} (h : lockState s ≠ v) (hv : v < 8) :
    lockState (setLock s v) = v ∧ flagF (setLock s v) R.MER_STATUS F.MER_STATUS_STATE_CHANGED = true ∧ OnlyRegs [R.MER_STATUS] s (setLock s v) ∧
      setLock s v = { s with regs := (setLock s v).regs, mer := (setLock s v).mer } :=
  ⟨lockState_setLock hs h hv, stateChanged_setLock hs h, onlyMeridian_setLock s v⟩

/-- The fields of MER_STATUS that say whom this module follows (R38), written. -/
def putUpstream (s : State) (fid port hops : Nat) : State :=
  setF (setF (setF (setF s R.MER_STATUS F.MER_STATUS_SOURCE_FID fid) R.MER_STATUS F.MER_STATUS_UPSTREAM_PORT port) R.MER_STATUS F.MER_STATUS_HOPS (min 255 hops))
    R.MER_STATUS F.MER_STATUS_OUT_OF_BUDGET (b2n (24 < hops && hops < 255))

theorem showUpstream_of_sourcing {s : State} (h : sourcing s = true) : showUpstream s = putUpstream s (myFid s) 255 0 := by
  unfold showUpstream putUpstream
  extract_lets put
  rw [if_pos h]

theorem showUpstream_eq_putUpstream (s : State) : ∃ fid port hops, showUpstream s = putUpstream s fid port hops := by
  unfold showUpstream putUpstream
  extract_lets put
  split
  · exact ⟨_, _, _, rfl⟩
  · split <;> exact ⟨_, _, _, rfl⟩

@[simp] theorem putUpstream_mer (s : State) (fid port hops : Nat) : (putUpstream s fid port hops).mer = s.mer :=
  (setF_mer _ _ _ _).trans ((setF_mer _ _ _ _).trans ((setF_mer _ _ _ _).trans (setF_mer _ _ _ _)))

@[simp] theorem showUpstream_mer (s : State) : (showUpstream s).mer = s.mer := by
  obtain ⟨fid, port, hops, h⟩ := showUpstream_eq_putUpstream s
  rw [h, putUpstream_mer]

theorem onlyMeridian_putUpstream (s : State) (fid port hops : Nat) : OnlyMeridian s (putUpstream s fid port hops) :=
  (((onlyMeridian_setF s _ _).trans (onlyMeridian_setF _ _ _)).trans (onlyMeridian_setF _ _ _)).trans (onlyMeridian_setF _ _ _)

/-- Each of the fields reads what was put there, and SOURCING as before. -/
theorem putUpstream_shows {s : State} (hs : mapSorted s.regs = true) {fid hops : Nat} (port : Nat) (hf : fid < 2 ^ 16) (hh : hops < 2 ^ 8) :
    sourcing (putUpstream s fid port hops) = sourcing s ∧ getF (putUpstream s fid port hops) R.MER_STATUS F.MER_STATUS_SOURCE_FID = fid ∧
      getF (putUpstream s fid port hops) R.MER_STATUS F.MER_STATUS_HOPS = hops := by
  have h1 := setF_sorted hs R.MER_STATUS F.MER_STATUS_SOURCE_FID fid
  have h2 := setF_sorted h1 R.MER_STATUS F.MER_STATUS_UPSTREAM_PORT port
  have h3 := setF_sorted h2 R.MER_STATUS F.MER_STATUS_HOPS (min 255 hops)
  unfold sourcing flagF putUpstream
  refine ⟨?_, ?_, ?_⟩
  · rw [getF_setF_field h3 _ _ _ _ (by decide) (by decide) (by decide), getF_setF_field h2 _ _ _ _ (by decide) (by decide) (by decide),
      getF_setF_field h1 _ _ _ _ (by decide) (by decide) (by decide), getF_setF_field hs _ _ _ _ (by decide) (by decide) (by decide)]
  · rw [getF_setF_field h3 _ _ _ _ (by decide) (by decide) (by decide), getF_setF_field h2 _ _ _ _ (by decide) (by decide) (by decide),
      getF_setF_field h1 _ _ _ _ (by decide) (by decide) (by decide), getF_setF_same hs _ _ _ (by decide) (by decide)]
    exact Nat.mod_eq_of_lt hf
  · rw [getF_setF_field h3 _ _ _ _ (by decide) (by decide) (by decide), getF_setF_same h2 _ _ _ (by decide) (by decide), Nat.min_eq_right (by omega)]
    exact Nat.mod_eq_of_lt hh

/-- The state with SOURCING written and the counts of missed markers begun anew. -/
def sourcingSet (s : State) (v : Bool) : State :=
  { setF s R.MER_STATUS F.MER_STATUS_SOURCING (b2n v) with mer := { (setF s R.MER_STATUS F.MER_STATUS_SOURCING (b2n v)).mer with missed := 0, rankMissed := 0 } }

theorem sourcingSet_regs (s : State) (v : Bool) : (sourcingSet s v).regs = (setF s R.MER_STATUS F.MER_STATUS_SOURCING (b2n v)).regs := rfl

theorem sourcingSet_mer (s : State) (v : Bool) : (sourcingSet s v).mer = { s.mer with missed := 0, rankMissed := 0 } := by
  unfold sourcingSet
  rw [setF_mer]

theorem setSourcing_eq (s : State) (v : Bool) : setSourcing s v = showUpstream (sourcingSet s v) := rfl

theorem sourcing_sourcingSet {s : State} (hs : mapSorted s.regs = true) : sourcing (sourcingSet s true) = true := by
  rw [sourcing, flagF, sourcingSet, getF_with_mer, getF_setF_same hs _ _ _ (by decide) (by decide)]
  rfl

theorem onlyMeridian_sourcingSet (s : State) (v : Bool) : OnlyMeridian s (sourcingSet s v) := (onlyMeridian_setF s _ _).trans (onlyMeridian_mer _ _)

theorem myFid_sourcingSet (s : State) (v : Bool) : myFid (sourcingSet s v) = myFid s := by
  rw [myFid, sourcingSet, getF_with_mer, getF_setF_other _ _ _ _ (by decide)]
  rfl

/-- A module that begins to source markers shows itself as their source, no hop away (R23, R38). -/
theorem setSourcing_enters {s : State} (hs : mapSorted s.regs = true) :
    sourcing (setSourcing s true) = true ∧ getF (setSourcing s true) R.MER_STATUS F.MER_STATUS_SOURCE_FID = myFid s ∧
      getF (setSourcing s true) R.MER_STATUS F.MER_STATUS_HOPS = 0 ∧ OnlyMeridian s (setSourcing s true) := by
  have hset : mapSorted (sourcingSet s true).regs = true := by
    rw [sourcingSet_regs]
    exact setF_sorted hs _ _ _
  have hsource := sourcing_sourcingSet hs
  have hfid : myFid s < 2 ^ 16 := fld_lt _ _ _
  obtain ⟨hkept, hput, hhops⟩ := putUpstream_shows (hops := 0) hset 255 hfid (by decide)
  rw [setSourcing_eq, showUpstream_of_sourcing hsource, myFid_sourcingSet]
  exact ⟨hkept.trans hsource, hput, hhops, (onlyMeridian_sourcingSet s true).trans (onlyMeridian_putUpstream _ _ _ _)⟩

/-- Settles O34: the first two are `setLock` from another state, the third is `setSourcing`. -/
theorem meridianLockStates : Obligations.MeridianLockStates := by
  unfold Obligations.MeridianLockStates
  refine ⟨fun s ⟨_, hs, _⟩ hlock hsource hmissed => ?_, fun s ⟨_, hs, _⟩ hdue => ?_, fun s ⟨_, hs, _⟩ hrole hsource hmissed => ?_⟩
  · refine ⟨_, done_onlyIf (f := fun s => setLock s 3) ?_, setLock_enters hs (by omega) (by decide)⟩
    simp [hlock, hsource, hmissed]
  · refine ⟨_, done_onlyIf (f := fun s => setLock s 4) ?_, setLock_enters hs (by omega) (by decide)⟩
    simpa using hdue
  · refine ⟨_, done_onlyIf (f := fun s => setSourcing s true) ?_, setSourcing_enters hs⟩
    simp [hrole, hsource, hmissed]

/-! ### Measured offsets (R20, R22, R27) -/

/-- In LOCKED and HOLDOVER no measured value moves the count: it is left to be slewed. -/
theorem correctCount_of_locked {s : State} (o : Int) (h : lockState s = 2 ∨ lockState s = 3) : correctCount s o = s := by
  unfold correctCount
  rcases h with h | h <;> simp [h]

theorem measured_of_locked {s : State} (o : Int) (h : lockState s = 2 ∨ lockState s = 3) : measured s o = { s with mer := { s.mer with offset := some o } } := by
  have hlock : lockState { s with mer := { s.mer with offset := some o } } = lockState s := rfl
  unfold measured
  extract_lets mer1 s1 s2
  have hs2 : s2 = s1 := if_neg (by rcases h with h | h <;> simp [s1, mer1, hlock, h])
  rw [hs2]
  exact correctCount_of_locked o h

/-- Before the first lock the count is set to the measured value. -/
theorem correctCount_before_firstLock {s : State} (o : Int) (hlock : lockState s ≤ 1) (hfirst : s.mer.firstLock = false)
    {n : Nat} (hn : (countNow s : Int) - (o + 500) / 1000 = n) (h64 : n < 2 ^ 64) : (correctCount s o).mer.count.toNat = n := by
  unfold correctCount
  extract_lets d st old new note_ m
  split
  · have hd : d = 0 := by
      rename_i h
      simp only [Bool.or_eq_true, beq_iff_eq] at h
      omega
    show countNow s = n
    omega
  · rw [if_pos (by simp [m, hfirst])]
    show (BitVec.ofNat 64 ((countNow s : Int) - (o + 500) / 1000).toNat).toNat = n
    rw [hn, Int.toNat_natCast, BitVec.toNat_ofNat, Nat.mod_eq_of_lt h64]

theorem measured_before_firstLock {s : State} (hs : mapSorted s.regs = true) (o : Int) (hlock : lockState s ≤ 1) (hfirst : s.mer.firstLock = false)
    {n : Nat} (hn : (countNow s : Int) - (o + 500) / 1000 = n) (h64 : n < 2 ^ 64) : (measured s o).mer.count.toNat = n := by
  unfold measured
  extract_lets mer1 s1 s2
  have hlock1 : lockState s1 = lockState s := rfl
  obtain ⟨hcount, -, hkept⟩ := setLock_mer s1 1
  have hs2 : lockState s2 ≤ 1 ∧ s2.mer.firstLock = false ∧ s2.mer.count = s.mer.count := by
    by_cases h0 : lockState s = 0
    · have he : s2 = setLock s1 1 := if_pos (by simp [hlock1, h0])
      rw [he]
      exact ⟨(lockState_setLock (s := s1) hs (by omega) (by decide)).le, (hkept (by decide)).trans hfirst, hcount⟩
    · have he : s2 = s1 := if_neg (by simp [hlock1, h0]; omega)
      rw [he]
      exact ⟨hlock, hfirst, rfl⟩
  obtain ⟨hlock2, hfirst2, hcount2⟩ := hs2
  exact correctCount_before_firstLock o hlock2 hfirst2 (by rw [countNow, hcount2]; exact hn) h64

/-! ### The counter of a source's events (19 R569) -/

theorem placeEntry_events (s : State) (source code cls a0 a1 a2 : Nat) : (placeEntry s source code cls a0 a1 a2).log.events = s.log.events := by
  have hdue : (alarmDue s cls).2.events = s.log.events := by
    unfold alarmDue
    extract_lets sec n
    split <;> rfl
  unfold placeEntry
  generalize alarmDue s cls = due at hdue
  obtain ⟨al, lg⟩ := due
  dsimp only at hdue
  simp [apply_ite State.log, hdue]

theorem placeOverrun_events (s : State) : (placeOverrun s).log.events = s.log.events := by
  unfold placeOverrun
  split
  · simp [placeEntry_events]
  · rfl

theorem loseEntry_events (s : State) (source : Nat) : (loseEntry s source).log.events = s.log.events := by
  simp [loseEntry, incF]

/-- An event is counted for its source, whatever becomes of its entry. -/
theorem logEvent_events (s : State) (source code cls a0 a1 a2 : Nat) :
    mapGetD 0 (logEvent s source code cls a0 a1 a2).log.events source = min (2 ^ 48 - 1) (mapGetD 0 s.log.events source + 1) := by
  have hcounted : (logEvent s source code cls a0 a1 a2).log.events = mapPut s.log.events source (min (2 ^ 48 - 1) (mapGetD 0 s.log.events source + 1)) := by
    unfold logEvent
    extract_lets lg counted lg' key seen noted room
    have hnoted : noted.log.events = counted.log.events := by
      unfold noted
      split <;> rfl
    have hroom : room.log.events = counted.log.events := (placeOverrun_events noted).trans hnoted
    split
    · rfl
    · split
      · rfl
      · split
        · exact (loseEntry_events room source).trans hroom
        · exact (placeEntry_events room source code cls a0 a1 a2).trans hroom
  rw [hcounted, mapGetD, mapGet_put_same]
  rfl

theorem logEvent_mer (s : State) (source code cls a0 a1 a2 : Nat) : (logEvent s source code cls a0 a1 a2).mer = s.mer := by
  rw [(onlyLog_logEvent s source code cls a0 a1 a2).2]

/-! ### The loss of the reference (R22) -/

theorem refLost_setF {s : State} (hs : mapSorted s.regs = true) (lost : Bool) :
    flagF (setF s R.MER_STATUS F.MER_STATUS_REF_LOST (b2n lost)) R.MER_STATUS F.MER_STATUS_REF_LOST = lost := by
  rw [flagF, getF_setF_same hs _ _ _ (by decide) (by decide)]
  cases lost <;> rfl

theorem exec_refLost_of_change {s : State} {lost : Bool} (hrole : merRole s ≠ 0) (hlost : flagF s R.MER_STATUS F.MER_STATUS_REF_LOST ≠ lost) :
    exec (.refLost lost) s = .next (logEvent (setF s R.MER_STATUS F.MER_STATUS_REF_LOST (b2n lost)) merSource 0x03C0 (if lost then clsDegraded else clsInfo) (b2n lost) 0 0) :=
  done_onlyIf (by simp [hrole, Ne.symm hlost])

/-- A field written before an event is, but for the registers, nothing more than the event. -/
theorem setF_then_log {s t : State} {a : Nat} {f : RF} {v : Nat} (h : t = { setF s a f v with regs := t.regs, log := t.log, out := t.out }) :
    t = { s with regs := t.regs, log := t.log, out := t.out } := h

/-- REF_LOST takes the value given, and its change is an event of the Meridian source. -/
theorem refLost_completes {s : State} (hs : mapSorted s.regs = true) {lost : Bool} (hrole : merRole s ≠ 0) (hlost : flagF s R.MER_STATUS F.MER_STATUS_REF_LOST ≠ lost) :
    Completes (.refLost lost) s fun t =>
      flagF t R.MER_STATUS F.MER_STATUS_REF_LOST = lost ∧ mapGetD 0 t.log.events merSource = min (2 ^ 48 - 1) (mapGetD 0 s.log.events merSource + 1) ∧
      OnlyRegs [R.MER_STATUS, R.LOG_STATUS, R.LOG_HOST_EVENTS, R.LOG_LOST_TOTAL] s t ∧ t = { s with regs := t.regs, log := t.log, out := t.out } := by
  obtain ⟨hregs, hrest⟩ := onlyLog_logEvent (setF s R.MER_STATUS F.MER_STATUS_REF_LOST (b2n lost)) merSource 0x03C0 (if lost then clsDegraded else clsInfo) (b2n lost) 0 0
  refine ⟨_, exec_refLost_of_change hrole hlost, ?_, (logEvent_events _ _ _ _ _ _ _).trans (by rw [setF_log]), fun a ha => ?_, setF_then_log hrest⟩
  · rw [flagF, getF, hregs _ (by decide)]
    exact refLost_setF hs lost
  · rw [List.mem_cons, not_or] at ha
    obtain ⟨hother, hlog⟩ := ha
    exact (hregs a hlog).trans (rd_setF_other s _ _ hother)

/-! ### Markers (R24, R25) -/

theorem setSourcing_markers (s : State) (v : Bool) : (setSourcing s v).mer.markers = s.mer.markers := by
  rw [setSourcing_eq, showUpstream_mer, sourcingSet_mer]

theorem correctCount_markers (s : State) (o : Int) : (correctCount s o).mer.markers = s.mer.markers := by
  unfold correctCount
  extract_lets d st old new note_ m
  have hnote : (note_ s).mer = s.mer := (setF_mer _ _ _ _).trans (logEvent_mer _ _ _ _ _ _ _)
  split
  · rfl
  · split
    · show (note_ s).mer.markers = _
      rw [hnote]
    · split
      · show (note_ s).mer.markers = _
        rw [hnote]
      · rfl

/-- No measurement touches the markers kept. -/
theorem measured_markers (s : State) (o : Int) : (measured s o).mer.markers = s.mer.markers := by
  unfold measured
  extract_lets mer1 s1 s2
  have hs2 : s2.mer.markers = s1.mer.markers := by
    unfold s2
    split
    · obtain ⟨-, hmarkers, -⟩ := setLock_mer s1 1
      exact hmarkers
    · rfl
  exact (correctCount_markers s2 o).trans hs2

/-- What is kept of a marker that passes its checks (R25). -/
def keptMarker (s : State) (m : MarkerIn) : Marker :=
  { rank := if (getPort s m.port).keys != [] then m.rank else 0, sourceFid := m.sourceFid, hops := m.hops, peerFid := m.peerFid,
    delayPs := ((((m.t2 : Int) - m.t1) + ((m.t4 : Int) - m.t3)) / 2).toNat, offsetPs := (((m.t2 : Int) - m.t1) - ((m.t4 : Int) - m.t3)) / 2, beat := beatNow s }

/-- A marker on a port that exchanges control blocks, without a key or with a good MAC, is kept for its port. -/
theorem superframeMarker_keeps {s : State} {m : MarkerIn} (hport : m.port < 32) (hlow : 1 ≤ portState s m.port) (hhigh : portState s m.port ≤ 6)
    (hgood : (getPort s m.port).keys = [] ∨ m.good = true) :
    Completes (.superframeMarker m) s fun t => t.mer.markers = mapPut s.mer.markers m.port (keptMarker s m) := by
  refine ⟨_, done_onlyIf (by simp [hport, hlow, hhigh]), ?_⟩
  extract_lets keyed fwd back delay offset mk mer stored role higher yielded mer' counted shown timed mer''
  dsimp only
  rw [if_neg (by rcases hgood with h | h <;> simp [keyed, h])]
  have hyielded : yielded.mer.markers = mapPut s.mer.markers m.port mk := by
    unfold yielded
    split
    · exact setSourcing_markers stored false
    · rfl
  have hcounted : counted.mer.markers = yielded.mer.markers := by
    unfold counted
    split <;> rfl
  have hshown : shown.mer.markers = mapPut s.mer.markers m.port mk := by
    rw [showUpstream_mer, hcounted, hyielded]
  have htimed : timed.mer = shown.mer := (setF_mer _ _ _ _).trans (setF_mer _ _ _ _)
  split
  · split
    · rw [measured_markers]
      exact (congrArg Meridian.markers htimed).trans hshown
    · exact hshown
  · exact hshown

/-- A marker whose MAC fails on a keyed port is counted, and nothing else happens. -/
theorem exec_superframeMarker_bad {s : State} {m : MarkerIn} (hport : m.port < 32) (hlow : 1 ≤ portState s m.port) (hhigh : portState s m.port ≤ 6)
    (hkeyed : (getPort s m.port).keys ≠ []) (hbad : m.good = false) :
    exec (.superframeMarker m) s = .next (incF s (R.DRD_PORT_ERRORS m.port) F.DRD_PORT_ERRORS_TAG_FAIL 1) := by
  refine (done_onlyIf (by simp [hport, hlow, hhigh])).trans ?_
  rw [if_pos (by simp [hkeyed, hbad])]

theorem exec_merPpsEdge_of_follows {s : State} {n : Nat} (hf : followsReference s 1 = true) (hn : n % 1000000000 = 0) :
    exec (.merPpsEdge n) s = .next (measured s (1000 * ((countNow s : Int) - (n : Int)))) :=
  done_onlyIf (by simp [hf, hn])

/-- Settles O35: a reference's offset is a measurement, whose effect the lock state decides; a marker is kept or counted. -/
theorem meridianMeasurements : Obligations.MeridianMeasurements := by
  unfold Obligations.MeridianMeasurements
  refine ⟨?_, ?_, ?_, ?_, ?_, ?_⟩
  · intro s n ⟨_, hregs⟩ hf hn h64 hlock hfirst
    have hs : Stays s.pending s.now (fun m => m = s.mem) s := ⟨rfl, rfl, rfl, hregs⟩
    exact ⟨_, exec_merPpsEdge_of_follows hf hn, measured_before_firstLock hregs.1 _ hlock hfirst (by omega) h64, (measured_stays hs).mem⟩
  · intro s n hf hn hlock
    exact ⟨_, exec_merPpsEdge_of_follows hf hn, measured_of_locked _ hlock⟩
  · intro s x hf hlock
    exact ⟨_, done_onlyIf hf, measured_of_locked _ hlock⟩
  · intro s lost ⟨_, hs, _⟩ hrole hlost
    exact refLost_completes hs hrole hlost
  · intro s m hport hlow hhigh hgood
    obtain ⟨t, ht, hkept⟩ := superframeMarker_keeps hport hlow hhigh hgood
    refine ⟨t, ht, ?_⟩
    dsimp only
    rw [hkept, mapGet_put_same]
    rfl
  · intro s m hport hlow hhigh hkeyed hbad
    exact ⟨_, exec_superframeMarker_bad hport hlow hhigh hkeyed hbad, rfl⟩

end Sys2Proof.Machine
end

section
/-!
Command packets: what intake makes of an admitted packet (03 R46 to R53), and of those that set, stop, clear and ask for a stream (R55, R64 to R66, R75).
-/
namespace Sys2Proof.Machine

/-! ### Streams and accepted commands -/

theorem showStreams_cmd (s : State) : (showStreams s).cmd = s.cmd := setF_cmd _ _ _ _

theorem showStreams_mem (s : State) : (showStreams s).mem = s.mem := setF_mem _ _ _ _

theorem setStream_cmd (s : State) (n : Nat) (st : Stream) : (setStream s n st).cmd = { s.cmd with streams := mapPutD {} s.cmd.streams n st } := by
  simp only [setStream, showStreams_cmd]
  split <;> simp only [wr_cmd]

theorem setStream_mem (s : State) (n : Nat) (st : Stream) : (setStream s n st).mem = s.mem := by
  simp only [setStream, showStreams_mem]
  split <;> simp only [wr_mem]

/-- A stream that has accepted a work command reads as it was written: it is not the content of a stream never written. -/
theorem getStream_setStream (s : State) (n : Nat) {st : Stream} (h : st.lastWork ≠ 0) : getStream (setStream s n st) n = st := by
  have hne : st ≠ {} := fun he => h (he ▸ rfl)
  rw [getStream, setStream_cmd, mapGetD, mapPutD, if_neg hne, mapGet_put_same]
  rfl

/-- The stream of a packet once the packet is counted among its work commands (R51). -/
def streamCounted (s : State) (h : Header) (p : Bytes) : Stream := advance (getStream s (queueOf h)) false h.counter (packetTag p) none

/-- The state with one more accepted command, behind the others. -/
def joined (s : State) (x : Cmd) : State := { s with cmd := { s.cmd with cmds := s.cmd.cmds ++ [x], nextOrder := s.cmd.nextOrder + 1 } }

/-- A work packet without a start beat is counted and joins the accepted commands (R49, R51). -/
theorem acceptWork_of_noBeat (s : State) {h : Header} (p key : Bytes) (hbeat : h.atBeat = false) :
    ∃ x : Cmd, acceptWork s h p key = joined (setStream s (queueOf h) (streamCounted s h p)) x ∧
      x.q = queueOf h ∧ x.hdr = h ∧ x.pkt = p ∧ x.phase = .queued ∧ x.order = s.cmd.nextOrder := by
  simp only [acceptWork, hbeat, Bool.not_false, Bool.or_true, Bool.true_or, if_true]
  exact ⟨_, rfl, rfl, rfl, rfl, rfl, by rw [setStream_cmd]⟩

theorem joined_cmds (s : State) (x : Cmd) : (joined s x).cmd.cmds = s.cmd.cmds ++ [x] := rfl

theorem joined_intake (s : State) (x : Cmd) : (joined s x).cmd.intake = s.cmd.intake := rfl

theorem joined_mem (s : State) (x : Cmd) : (joined s x).mem = s.mem := rfl

theorem getStream_joined (s : State) (x : Cmd) (n : Nat) : getStream (joined s x) n = getStream s n := rfl

/-! ### Packets that pass the checks of the intake (R46 to R52) -/

theorem leNat_lt (b : Bytes) : leNat b < 256 ^ b.length := by
  induction b with
  | nil => decide
  | cons x r ih =>
    have hx : x.toNat < 256 := x.isLt
    rw [List.length_cons, Nat.pow_succ, leNat]
    omega

/-- COUNTER is a field of 8 bytes. -/
theorem counter_lt (p : Bytes) : (parseHeader p).counter < 2 ^ 64 := by
  have hlen : (sub p 16 8).length ≤ 8 := by simp [sub]
  calc leNat (sub p 16 8) < 256 ^ (sub p 16 8).length := leNat_lt _
    _ ≤ 256 ^ 8 := Nat.pow_le_pow_right (by decide) hlen
    _ = 2 ^ 64 := by decide

theorem admitted_opcode {s : State} {op : Nat} {p : Bytes} (h : Admitted s op p) : (parseHeader p).opcode = op := by
  simp only [Admitted, admitted, Bool.and_eq_true, beq_iff_eq] at h
  obtain ⟨⟨⟨⟨⟨⟨⟨⟨⟨-, hop⟩, -⟩, -⟩, -⟩, -⟩, -⟩, -⟩, -⟩, -⟩ := h
  exact hop

/-- An admitted packet has the counter its stream expects, which is not 0. -/
theorem admitted_counter {s : State} {op : Nat} {p : Bytes} (h : Admitted s op p) : (parseHeader p).counter ≠ 0 := by
  simp only [Admitted, admitted, Bool.and_eq_true, beq_iff_eq] at h
  obtain ⟨⟨-, hcount⟩, -⟩ := h
  omega

/-- What the intake makes of an admitted packet whose body has no fault: the act of its opcode. -/
theorem takePacket_of_admitted {s : State} {op : Nat} {p : Bytes} {bf : Bytes → Option Nat} (h : Admitted s op p) (hb : bf p = none)
    (act : State → Header → Bytes → Bytes → State) : takePacket s op bf act = act (taken s) (parseHeader p) p (packetKey (taken s) (parseHeader p)) := by
  have hlt := counter_lt p
  have hanchor : anchorState (taken s) = anchorState s := rfl
  simp only [Admitted, admitted, Bool.and_eq_true, beq_iff_eq, bne_iff_ne, ne_eq, Bool.or_eq_true, decide_eq_true_eq, List.head?_eq_some_iff, ← hanchor] at h
  obtain ⟨⟨⟨⟨⟨⟨⟨⟨⟨⟨rest, hin⟩, hop⟩, hlist⟩, hentering⟩, hanchored⟩, hfault⟩, hauth⟩, htag⟩, hcount⟩, hroom⟩ := h
  have hhead : headPacket s op = some p := by simp [headPacket, hin, hop]
  have hlast : lastOf (getStream (taken s) (queueOf (parseHeader p))) (isControl (parseHeader p).opcode) ≠ 2 ^ 64 - 1 := by omega
  rw [takePacket, hhead]
  dsimp -zeta only
  extract_lets h' cmd s1 q key st ctl last
  have hs1 : s1 = taken s := rfl
  clear_value s1
  subst hs1
  have hnext : h'.counter = last + 1 := hcount
  have hfree : ¬(!ctl && q != keyQueue && decide (unretired (taken s) q ≥ 512)) = true := by
    rcases hroom with (hctl | hkey) | hspace
    · simp [ctl, h', hctl]
    · simp [q, h', hkey]
    · simp [q, h', hspace]
  rw [if_neg (by simp [hentering, hanchored]), hfault]
  dsimp only
  rw [if_neg (by simp [h', hop, hlist]), if_neg (by simp [h', hauth]), if_neg (by simp [key, h', htag]), if_neg (by simpa using hlast),
    if_neg (by omega), if_neg (by omega), if_neg hfree, hb]

/-! ### The work opcodes (R53) -/

/-- A work packet that passes every check and names no start beat stands last among the accepted commands, and its stream has counted it. -/
theorem workPacket_joins {s : State} {op : Nat} {p : Bytes} {bf : Bytes → Option Nat} {c : Instr} (hexec : exec c s = done (intakeWork s op bf))
    (h : Admitted s op p) (hb : bf p = none) (hbeat : (parseHeader p).atBeat = false) :
    Completes c s fun t => ∃ x : Cmd, t.cmd.cmds = s.cmd.cmds ++ [x] ∧ x.q = queueOf (parseHeader p) ∧ x.hdr = parseHeader p ∧ x.pkt = p ∧ x.phase = .queued ∧
      x.order = s.cmd.nextOrder ∧ t.cmd.intake = s.cmd.intake.drop 1 ∧ (getStream t x.q).lastWork = (parseHeader p).counter ∧ t.mem = s.mem := by
  obtain ⟨x, hjoined, hq, hhdr, hpkt, hphase, horder⟩ := acceptWork_of_noBeat (taken s) p (packetKey (taken s) (parseHeader p)) hbeat
  refine ⟨_, hexec.trans (congrArg done ((takePacket_of_admitted h hb acceptWork).trans hjoined)), x, ?_, hq, hhdr, hpkt, hphase, horder, ?_, ?_, ?_⟩
  · rw [joined_cmds, setStream_cmd]
    rfl
  · rw [joined_intake, setStream_cmd]
    rfl
  · rw [getStream_joined, hq, getStream_setStream _ _ (admitted_counter h)]
    rfl
  · rw [joined_mem, setStream_mem]
    rfl

/-- Settles O38: each of the rows hands its packet to `intakeWork` with the checks of its body, and `workPacket_joins` says what becomes of it. -/
theorem workPacketsJoinTheirStream : Obligations.WorkPacketsJoinTheirStream := by
  unfold Obligations.WorkPacketsJoinTheirStream
  intro r hr s p hadm hbody hbeat
  refine workPacket_joins ?_ hadm hbody hbeat
  clear hadm hbody hbeat
  fin_cases hr <;> rfl

/-! ### The packets of a stream (R55, R64 to R66, R75) -/

/-- Only KEY_INSTALL stands in a queue that is no stream. -/
theorem queueOf_of_ne {h : Header} (hop : h.opcode ≠ opKEY_INSTALL) : queueOf h = h.stream := if_neg hop

/-- A packet counted among a stream's commands changes no halt of the stream. -/
theorem haltOf_streamCounted (s : State) (h : Header) (p : Bytes) (c : Nat) : haltOf (streamCounted s h p) c = haltOf (getStream s (queueOf h)) c := rfl

theorem lastWork_streamCounted (s : State) (h : Header) (p : Bytes) : (streamCounted s h p).lastWork = h.counter := rfl

/-- A SET_STREAM in range and without a start beat joins the accepted commands, and its values are its stream's limits (R55). -/
theorem setStream_completes {s : State} {p : Bytes} (hadm : Admitted s opSET_STREAM p) (hlen : p.length = 112) (hok : setStreamOk p = true)
    (hbeat : (parseHeader p).atBeat = false) (hhalt : haltOf (getStream s (parseHeader p).stream) (parseHeader p).counter = none) :
    Completes .setStream s fun t => (getStream t (parseHeader p).stream).timeoutMs = uAt p 64 4 ∧ (getStream t (parseHeader p).stream).waitMs = uAt p 68 4 ∧
      t.cmd.cmds.length = s.cmd.cmds.length + 1 := by
  have hq : queueOf (parseHeader p) = (parseHeader p).stream := queueOf_of_ne (by rw [admitted_opcode hadm]; decide)
  have hlast := admitted_counter hadm
  obtain ⟨x, hjoined, -⟩ := acceptWork_of_noBeat (taken s) p (packetKey (taken s) (parseHeader p)) hbeat
  have hstream : getStream (joined (setStream (taken s) (queueOf (parseHeader p)) (streamCounted (taken s) (parseHeader p) p)) x) (parseHeader p).stream =
      streamCounted (taken s) (parseHeader p) p := by
    rw [getStream_joined, hq, getStream_setStream _ _ hlast]
  refine ⟨_, congrArg done (takePacket_of_admitted hadm (by simp [bodyChecks, hlen, firstFault]) _), ?_⟩
  dsimp only
  rw [hjoined, hstream, haltOf_streamCounted, hq, if_pos (by rw [hok]; exact congrArg Option.isNone hhalt), getStream_setStream _ _ hlast, setStream_cmd, joined_cmds,
    setStream_cmd]
  exact ⟨rfl, rfl, List.length_append⟩

/-- Settles O39: each row's act on the packet taken, with the branch its stream's state takes. -/
theorem streamPackets : Obligations.StreamPackets := by
  unfold Obligations.StreamPackets
  refine ⟨fun s p hadm hlen hok hbeat hhalt => setStream_completes hadm hlen hok hbeat hhalt, fun s p hadm hbody => congrArg done (takePacket_of_admitted hadm hbody _),
    fun s p hadm hlen hfenced hopened => ?_, fun s p hadm hlen => congrArg done (takePacket_of_admitted hadm (by simp [bodyChecks, hlen, firstFault]) _)⟩
  refine congrArg done ((takePacket_of_admitted hadm (by simp [bodyChecks, hlen, firstFault]) _).trans ?_)
  have hstream : getStream (taken s) (parseHeader p).stream = getStream s (parseHeader p).stream := rfl
  dsimp only
  rw [hstream, if_neg (by simp [hfenced]), if_pos (by simp [hopened])]

end Sys2Proof.Machine
end

section
/-!
The command aperture: writes into slots, their timeouts, and slots that fall free (03 R43 to R46).
-/
namespace Sys2Proof.Machine

/-! ### Bits and counts of a register's field -/

theorem testBit_sub_two_pow {x n : Nat} (h : x.testBit n = true) : (x - 2 ^ n).testBit n = false := by
  have hsum : 2 ^ n + (x - 2 ^ n) = x := Nat.add_sub_of_le (Nat.ge_two_pow_of_testBit h)
  have hbit := Nat.testBit_two_pow_add_eq (x - 2 ^ n) n
  rw [hsum, h] at hbit
  simpa using hbit.symm

/-- A bit of a field reads what was written to it. -/
theorem bitF_setBitF_same {s : State} (hs : mapSorted s.regs = true) (a : Nat) (f : RF) {n : Nat} (v : Bool) (h64 : f.hi < 64) (hn : f.lo + n ≤ f.hi) :
    bitF (setBitF s a f n v) a f n = v := by
  have hwidth : n < f.hi + 1 - f.lo := by omega
  rw [bitF, setBitF, getF_setF_same hs _ _ _ (by omega) h64, Nat.testBit_mod_two_pow]
  cases v with
  | true => simp [hwidth]
  | false =>
    cases hbit : (getF s a f).testBit n with
    | true => simp [testBit_sub_two_pow hbit]
    | false => simp [hbit]

theorem onlyRegs_setBitF (s : State) (a : Nat) (f : RF) (n : Nat) (v : Bool) : OnlyRegs [a] s (setBitF s a f n v) :=
  fun _ hb => rd_setF_other s f _ (by simpa using hb)

theorem setBitF_sorted {s : State} (hs : mapSorted s.regs = true) (a : Nat) (f : RF) (n : Nat) (v : Bool) : mapSorted (setBitF s a f n v).regs = true :=
  setF_sorted hs _ _ _

/-- A counting field reads the count raised, cut at its width's highest value. -/
theorem getF_incF_same {s : State} (hs : mapSorted s.regs = true) (a : Nat) (f : RF) (d : Nat) (hl : f.lo ≤ f.hi) (h64 : f.hi < 64) :
    getF (incF s a f d) a f = satAdd (f.hi + 1 - f.lo) (getF s a f) d := by
  have hpos := Nat.two_pow_pos (f.hi + 1 - f.lo)
  rw [incF, getF_setF_same hs _ _ _ hl h64, Nat.mod_eq_of_lt]
  unfold satAdd
  omega

/-! ### A slot given a content -/

theorem setSlot_slots_some (s : State) (n : Nat) (k : Slot) : (setSlot s n (some k)).cmd.slots = mapPut s.cmd.slots n k := rfl

theorem setSlot_slots_none (s : State) (n : Nat) : (setSlot s n none).cmd.slots = mapDel s.cmd.slots n := rfl

/-- Whatever becomes of a slot, of the registers only its bit of CMD_SLOT_BUSY is written. -/
theorem setSlot_regs (s : State) (n : Nat) (k : Option Slot) : (setSlot s n k).regs = (setBitF s R.CMD_SLOT_BUSY F.CMD_SLOT_BUSY_BUSY n k.isSome).regs := by
  cases k <;> rfl

theorem setSlot_sorted {s : State} (hs : mapSorted s.regs = true) (n : Nat) (k : Option Slot) : mapSorted (setSlot s n k).regs = true := by
  rw [setSlot_regs]
  exact setBitF_sorted hs _ _ _ _

theorem rd_setSlot (s : State) (n : Nat) (k : Option Slot) (a : Nat) : rd (setSlot s n k) a = rd (setBitF s R.CMD_SLOT_BUSY F.CMD_SLOT_BUSY_BUSY n k.isSome) a := by
  rw [rd, setSlot_regs]
  rfl

/-- A slot with a content is busy, one without is not (R76). -/
theorem bitF_setSlot {s : State} (hs : mapSorted s.regs = true) {n : Nat} (hn : n < 64) (k : Option Slot) :
    bitF (setSlot s n k) R.CMD_SLOT_BUSY F.CMD_SLOT_BUSY_BUSY n = k.isSome := by
  rw [bitF, getF, rd_setSlot]
  exact bitF_setBitF_same hs _ _ _ (by decide) (show 0 + n ≤ 63 by omega)

theorem onlyRegs_setSlot (s : State) (n : Nat) (k : Option Slot) : OnlyRegs [R.CMD_SLOT_BUSY] s (setSlot s n k) :=
  fun a ha => (rd_setSlot s n k a).trans (onlyRegs_setBitF s _ _ _ _ a ha)

/-! ### Counts of the intake (R77) -/

theorem onlyRegs_incF (s : State) (a : Nat) (f : RF) (d : Nat) : OnlyRegs [a] s (incF s a f d) :=
  fun _ hb => rd_setF_other s f _ (by simpa using hb)

/-- Counting a packet without a header touches no busy bit. -/
theorem bitF_countIncomplete (s : State) (n : Nat) :
    bitF (countIncomplete s) R.CMD_SLOT_BUSY F.CMD_SLOT_BUSY_BUSY n = bitF s R.CMD_SLOT_BUSY F.CMD_SLOT_BUSY_BUSY n := by
  rw [bitF, getF, countIncomplete, onlyRegs_incF _ _ _ _ _ (by decide)]
  rfl

theorem countIncomplete_cmd (s : State) : (countIncomplete s).cmd = s.cmd := incF_cmd _ _ _ _

/-! ### Timeouts of slots (R44, R45) -/

/-- A slot that times out with a fitting LENGTH, or without one, and too few bytes for a header falls free and is counted. -/
theorem exec_slotTimeout_incomplete {s : State} {n : Nat} {k : Slot} (hslot : mapGet s.cmd.slots n = some k) (hquiet : k.quiet = false)
    (hdue : k.firstNs + 100000 ≤ s.now) (hfit : ∀ l, slotLength k = some l → lengthOk l = true) (hfew : slotCount k 64 < 64) :
    exec (.slotTimeout n) s = .next (countIncomplete (setSlot s n none)) := by
  have hcount : slotCount k 64 ≠ 64 := Nat.ne_of_lt hfew
  show execSlotTimeout n s = _
  rw [execSlotTimeout, hslot]
  dsimp only
  rw [if_neg (by simpa [hquiet] using hdue)]
  cases hlen : slotLength k with
  | none => simp [hcount, done]
  | some l => simp [hfit l hlen, hcount, done]

/-- A slot that times out with a LENGTH out of range loses its content and is counted, and stays busy. -/
theorem exec_slotTimeout_badLength {s : State} {n l : Nat} {k : Slot} (hslot : mapGet s.cmd.slots n = some k) (hquiet : k.quiet = false)
    (hdue : k.firstNs + 100000 ≤ s.now) (hlen : slotLength k = some l) (hbad : lengthOk l = false) :
    exec (.slotTimeout n) s = .next (countIncomplete (setSlot s n (some { k with data := [], quiet := true }))) := by
  show execSlotTimeout n s = _
  rw [execSlotTimeout, hslot]
  dsimp only
  rw [if_neg (by simpa [hquiet] using hdue), hlen]
  simp [hbad, done]

/-- A slot that waits out its quiet time falls free. -/
theorem exec_slotQuietExpiry_due {s : State} {n : Nat} {k : Slot} (hslot : mapGet s.cmd.slots n = some k) (hquiet : k.quiet = true)
    (hdue : k.lastNs + 100000 ≤ s.now) : exec (.slotQuietExpiry n) s = .next (setSlot s n none) := by
  show execSlotQuietExpiry n s = _
  rw [execSlotQuietExpiry, hslot]
  dsimp only
  rw [if_pos (by simpa [hquiet] using hdue)]
  rfl

/-- Settles O37: the branch each write and each timeout takes, then what is written of the slots and of the two registers. -/
theorem commandSlots : Obligations.CommandSlots := by
  unfold Obligations.CommandSlots
  refine ⟨fun s off bs hpilot hready hne => ?_, fun s off bs ⟨_, hs, _⟩ hpilot hready hne => ?_, fun s n k ⟨_, hs, _⟩ hn hslot hquiet hdue hfit hfew => ?_,
    fun s n l k ⟨_, hs, _⟩ hn hslot hquiet hdue hlen hbad => ?_, fun s n k ⟨_, hs, _⟩ hn hslot hquiet hdue => ?_⟩
  · exact (done_onlyIf (by simp [hpilot, hne])).trans (congrArg done (if_pos hready))
  · refine ⟨_, (done_onlyIf (by simp [hpilot, hne])).trans (congrArg done (if_neg (by simp [hready]))), ?_, onlyRegs_incF _ _ _ _, rfl⟩
    exact getF_incF_same hs _ _ _ (by decide) (by decide)
  · have hfree := setSlot_sorted hs n none
    refine ⟨_, exec_slotTimeout_incomplete hslot hquiet hdue hfit hfew, ?_, ?_, ?_, fun a ha => ?_⟩
    · rw [countIncomplete_cmd, setSlot_slots_none]
    · rw [bitF_countIncomplete, bitF_setSlot hs hn]
      rfl
    · rw [countIncomplete, getF_incF_same hfree _ _ _ (by decide) (by decide), getF, onlyRegs_setSlot s n none _ (by decide)]
      rfl
    · rw [List.mem_cons, not_or] at ha
      obtain ⟨hbusy, hstatus⟩ := ha
      exact (onlyRegs_incF _ _ _ _ a hstatus).trans (onlyRegs_setSlot s n none a (by simpa using hbusy))
  · refine ⟨_, exec_slotTimeout_badLength hslot hquiet hdue hlen hbad, ?_, ?_⟩
    · rw [countIncomplete_cmd, setSlot_slots_some, mapGet_put_same]
    · rw [bitF_countIncomplete, bitF_setSlot hs hn]
      rfl
  · exact ⟨_, exec_slotQuietExpiry_due hslot hquiet hdue, setSlot_slots_none s n, bitF_setSlot hs hn none, onlyRegs_setSlot s n none⟩

end Sys2Proof.Machine
end

section
/-!
Accepted commands from their turn to their retirement (03 R56 to R68), and completion rings as software sets them (R73 to R83).
-/
namespace Sys2Proof.Machine

/-! ### Commands found and changed -/

/-- A command changed in place without a change of queue and counter is found as changed. -/
theorem findCmd_modCmd (s : State) {q c : Nat} {f : Cmd → Cmd} (hf : ∀ x, isCmd q c x = true → isCmd q c (f x) = true) :
    findCmd (modCmd s q c f) q c = (findCmd s q c).map f := by
  show (s.cmd.cmds.map fun x => if isCmd q c x then f x else x).find? (isCmd q c) = (s.cmd.cmds.find? (isCmd q c)).map f
  induction s.cmd.cmds with
  | nil => rfl
  | cons x xs ih =>
    cases hx : isCmd q c x with
    | true => simp [hx, hf x hx]
    | false => simpa [hx] using ih

/-- A command whose work has ended is found with its outcome. -/
theorem findCmd_endCmd (s : State) (q c status cursor detail detail2 : Nat) : findCmd (endCmd s q c status cursor detail detail2) q c =
    (findCmd s q c).map fun x => { x with phase := .ended, issued := true, status := status, cursor := cursor, detail := detail, detail2 := detail2 } :=
  findCmd_modCmd s fun _ hx => hx

/-! ### The rows of a command's life -/

theorem exec_commandStart_queued {s : State} {q c : Nat} {x : Cmd} (hfind : findCmd s q c = some x) (hphase : x.phase = .queued) :
    exec (.commandStart q c) s = .next (startTurn s x) := by
  show execCommandStart q c s = _
  rw [execCommandStart, hfind]
  dsimp only
  rw [if_pos (by simp [hphase])]
  rfl

/-- Behind a command that failed, a command's turn ends it (R62). -/
theorem startTurn_of_halt {s : State} {x : Cmd} {f : Nat} (h : haltOf (getStream s x.q) x.hdr.counter = some f) :
    startTurn s x = endCmd s x.q x.hdr.counter 0x0003 0 0 f := by
  rw [startTurn, h]

theorem exec_waitTimeout_due {s : State} {q c w : Nat} {x : Cmd} (hfind : findCmd s q c = some x) (hwait : x.waitNs = some w) (hphase : x.phase = .queued)
    (hlow : fenceLow s x = true) (hhalt : haltOf (getStream s q) c = none) (hdue : w + x.waitMs * 1000000 < s.now) :
    exec (.waitTimeout q c) s = .next (failStart s q c 0x0024 x.hdr.waitFence (mapGetD 0 s.cmd.fences x.hdr.waitFence)) := by
  show execWaitTimeout q c s = _
  rw [execWaitTimeout, hfind]
  dsimp only
  rw [hwait]
  exact done_onlyIf (by simp [hphase, hlow, hhalt, hdue])

theorem exec_commandRetire_due {s : State} {q c : Nat} {x : Cmd} {held : Bool} (hfind : findCmd s q c = some x) (hphase : x.phase = .ended)
    (hagain : runsAgain x = false) (hpred : predRetired s q c = true) (hplace : hasPlace s x.hdr.ring (x.hdr.sliceTag % 4096) held = true) :
    exec (.commandRetire q c held) s = .next (retire s x) := by
  show execCommandRetire q c held s = _
  rw [execCommandRetire, hfind]
  exact done_onlyIf (by simp [hphase, hagain, hpred, hplace])

theorem exec_commandStop_due {s : State} {q c : Nat} {x : Cmd} {k : Stop} (hfind : findCmd s q c = some x) (hstop : x.stop = some k) (hphase : x.phase = .running)
    (hholds : holdsTile s q c = false) (hagain : runsAgain x = false) :
    exec (.commandStop q c) s = .next (endCmd (dropWork s x true) q c k.status (cursorOf s x) k.detail k.detail2) := by
  show execCommandStop q c s = _
  rw [execCommandStop, hfind]
  dsimp only
  rw [hstop]
  exact done_onlyIf (by simp [hphase, hholds, hagain])

/-- A command that has started and not yet retired times out: stopped while it runs, given the status once its work has ended (R68). -/
theorem exec_commandTimeout_due {s : State} {q c : Nat} {x : Cmd} (hfind : findCmd s q c = some x) (hphase : x.phase ≠ .queued) (hstarted : x.startedNs ≠ 0)
    (hstop : beyondStop s x = false) (hdue : x.startedNs + x.timeoutMs * 1000000 < s.now) :
    exec (.commandTimeout q c) s = .next (if x.phase == .running then haltAt (askStop s q c 0x0020 0 0) q c else haltAt (endCmd s q c 0x0020 x.cursor 0 0) q c) := by
  show execCommandTimeout q c s = _
  rw [execCommandTimeout, hfind]
  exact done_onlyIf (by simp [hphase, hstarted, hstop, hdue])

/-- Settles O40: each row's branch; behind a failed command the turn of a command is its end. -/
theorem commandsStartWaitAndEnd : Obligations.CommandsStartWaitAndEnd := by
  unfold Obligations.CommandsStartWaitAndEnd
  refine ⟨fun s q c x hfind hphase => exec_commandStart_queued hfind hphase, fun s q c f x hfind hphase hq hc hhalt => ?_,
    fun s q c w x hfind hwait hphase hlow hhalt hdue => exec_waitTimeout_due hfind hwait hphase hlow hhalt hdue,
    fun s q c x held hfind hphase hagain hpred hplace => exec_commandRetire_due hfind hphase hagain hpred hplace,
    fun s q c x k hfind hstop hphase hholds hagain => exec_commandStop_due hfind hstop hphase hholds hagain,
    fun s q c x hfind hphase hstarted hstop hdue => ?_, fun s q c x hfind hphase hstarted hstop hdue => ?_⟩
  · subst hq hc
    refine ⟨_, (exec_commandStart_queued hfind hphase).trans (congrArg _ (startTurn_of_halt hhalt)), ?_, rfl⟩
    rw [findCmd_endCmd, hfind]
    rfl
  · rw [exec_commandTimeout_due hfind (by simp [hphase]) hstarted hstop hdue, if_pos (by simp [hphase])]
  · rw [exec_commandTimeout_due hfind (by simp [hphase]) hstarted hstop hdue, if_neg (by simp [hphase])]

/-! ### Completion rings (R73, R79 to R83) -/

theorem ringRegs_apart (n : Nat) : R.CMD_RING_CTRL n ≠ R.CMD_RING_HEAD n ∧ R.CMD_RING_CTRL n ≠ R.CMD_RING_CONSUMED n ∧ R.CMD_RING_HEAD n ≠ R.CMD_RING_CONSUMED n := by
  unfold R.CMD_RING_CTRL R.CMD_RING_HEAD R.CMD_RING_CONSUMED
  omega

/-- The fields of CMD_RING_CTRL as a write enables its ring: SLICE_TAG and SIZE of the write, and ENABLE (R79). -/
def ringConfigured (s : State) (n : Nat) (v : Word) : State :=
  setF (setF (setF s (R.CMD_RING_CTRL n) F.CMD_RING_CTRL_SLICE_TAG (fld v 27 16)) (R.CMD_RING_CTRL n) F.CMD_RING_CTRL_SIZE (fld v 12 8))
    (R.CMD_RING_CTRL n) F.CMD_RING_CTRL_ENABLE 1

/-- The ring so enabled, with HEAD and CONSUMED 0 (R80). -/
def ringEnabled (s : State) (n : Nat) (v : Word) : State := wr (wr (ringConfigured s n v) (R.CMD_RING_HEAD n) 0) (R.CMD_RING_CONSUMED n) 0

theorem onlyReg_ringConfigured (s : State) (n : Nat) (v : Word) : OnlyReg (R.CMD_RING_CTRL n) s (ringConfigured s n v) :=
  ((onlyReg_wr s _ _).trans (onlyReg_wr _ _ _)).trans (onlyReg_wr _ _ _)

theorem ringConfigured_sorted {s : State} (hs : mapSorted s.regs = true) (n : Nat) (v : Word) : mapSorted (ringConfigured s n v).regs = true :=
  setF_sorted (setF_sorted (setF_sorted hs _ _ _) _ _ _) _ _ _

/-- Each field reads what the write gave it. -/
theorem ringConfigured_fields {s : State} (hs : mapSorted s.regs = true) (n : Nat) {v : Word} (hsize : fld v 12 8 ≤ 20) :
    getF (ringConfigured s n v) (R.CMD_RING_CTRL n) F.CMD_RING_CTRL_ENABLE = 1 ∧ getF (ringConfigured s n v) (R.CMD_RING_CTRL n) F.CMD_RING_CTRL_SIZE = fld v 12 8 ∧
      getF (ringConfigured s n v) (R.CMD_RING_CTRL n) F.CMD_RING_CTRL_SLICE_TAG = fld v 27 16 := by
  have h1 := setF_sorted hs (R.CMD_RING_CTRL n) F.CMD_RING_CTRL_SLICE_TAG (fld v 27 16)
  have h2 := setF_sorted h1 (R.CMD_RING_CTRL n) F.CMD_RING_CTRL_SIZE (fld v 12 8)
  unfold ringConfigured
  refine ⟨?_, ?_, ?_⟩
  · rw [getF_setF_same h2 _ _ _ (by decide) (by decide)]
    rfl
  · rw [getF_setF_field h2 _ _ _ _ (by decide) (by decide) (by decide), getF_setF_same h1 _ _ _ (by decide) (by decide)]
    exact Nat.mod_eq_of_lt (show fld v 12 8 < 32 by omega)
  · rw [getF_setF_field h2 _ _ _ _ (by decide) (by decide) (by decide), getF_setF_field h1 _ _ _ _ (by decide) (by decide) (by decide),
      getF_setF_same hs _ _ _ (by decide) (by decide)]
    exact Nat.mod_eq_of_lt (fld_lt v 27 16)

theorem getF_ringEnabled (s : State) (n : Nat) (v : Word) (f : RF) :
    getF (ringEnabled s n v) (R.CMD_RING_CTRL n) f = getF (ringConfigured s n v) (R.CMD_RING_CTRL n) f := by
  obtain ⟨hhead, hconsumed, -⟩ := ringRegs_apart n
  rw [getF, ringEnabled, rd_wr_other _ _ hconsumed, rd_wr_other _ _ hhead]
  rfl

theorem ringEnabled_counts {s : State} (hs : mapSorted s.regs = true) (n : Nat) (v : Word) :
    rd (ringEnabled s n v) (R.CMD_RING_HEAD n) = 0 ∧ rd (ringEnabled s n v) (R.CMD_RING_CONSUMED n) = 0 := by
  obtain ⟨-, -, hcounts⟩ := ringRegs_apart n
  have hconf := ringConfigured_sorted hs n v
  exact ⟨(rd_wr_other _ _ hcounts).trans (rd_wr_same hconf _ _), rd_wr_same (wr_sorted hconf _ _) _ _⟩

theorem onlyRegs_ringEnabled (s : State) (n : Nat) (v : Word) : OnlyRegs [R.CMD_RING_CTRL n, R.CMD_RING_HEAD n, R.CMD_RING_CONSUMED n] s (ringEnabled s n v) := by
  intro a ha
  simp only [List.mem_cons, List.not_mem_nil, or_false, not_or] at ha
  obtain ⟨hctrl, hhead, hconsumed⟩ := ha
  obtain ⟨hconf, -⟩ := onlyReg_ringConfigured s n v
  rw [ringEnabled, rd_wr_other _ _ hconsumed, rd_wr_other _ _ hhead]
  exact hconf a (by simpa using hctrl)

/-- A register written keeps the rest of a state as it was. -/
theorem wr_rest {s t : State} (a : Nat) (w : Word) (h : t = { s with regs := t.regs }) : wr t a w = { s with regs := (wr t a w).regs } := by
  rw [h]
  rfl

theorem ringEnabled_rest (s : State) (n : Nat) (v : Word) : ringEnabled s n v = { s with regs := (ringEnabled s n v).regs } := by
  obtain ⟨-, hrest⟩ := onlyReg_ringConfigured s n v
  exact wr_rest _ _ (wr_rest _ _ hrest)

theorem exec_cmdRingCtrlWrite_enables {s : State} {n : Nat} {v : Word} (hn : n < 16) (hoff : flagF s (R.CMD_RING_CTRL n) F.CMD_RING_CTRL_ENABLE = false)
    (hon : bitW v 0 = true) (hlow : 6 ≤ fld v 12 8) (hhigh : fld v 12 8 ≤ 20) : exec (.cmdRingCtrlWrite n v) s = .next (ringEnabled s n v) := by
  refine (done_onlyIf (by simpa using hn)).trans (congrArg done ?_)
  rw [writeRingCtrl]
  dsimp only
  rw [if_neg (by simp [hoff]), if_neg (by simp [hon]), if_pos (by simp [hlow, hhigh])]
  rfl

/-- Settles O41: a ring that is off is enabled as `ringEnabled` says; the other two rows take the one branch their conditions leave. -/
theorem completionRings : Obligations.CompletionRings := by
  unfold Obligations.CompletionRings
  refine ⟨fun s n v ⟨_, hs, _⟩ hn hoff hon hlow hhigh => ?_, fun s n v hn hold hhead => ?_, fun s n st c hpilot hon hfull hbeat hwaiter => ?_⟩
  · obtain ⟨henable, hsize, htag⟩ := ringConfigured_fields hs n hhigh
    obtain ⟨hhead, hconsumed⟩ := ringEnabled_counts hs n v
    refine ⟨_, exec_cmdRingCtrlWrite_enables hn hoff hon hlow hhigh, ?_, (getF_ringEnabled s n v _).trans hsize, (getF_ringEnabled s n v _).trans htag, hhead, hconsumed,
      onlyRegs_ringEnabled s n v, ringEnabled_rest s n v⟩
    simp [ringOn, flagF, getF_ringEnabled, henable, hn]
  · refine (done_onlyIf (by simpa using hn)).trans (congrArg done ?_)
    rw [writeRingConsumed]
    exact if_neg (by simp only [ringHead, gt_iff_lt, Bool.or_eq_true, decide_eq_true_eq]; omega)
  · refine (done_onlyIf (by simp [hpilot, hon, hfull, hbeat])).trans (congrArg done ?_)
    rw [hwaiter]

end Sys2Proof.Machine
end

section
/-!
Relay and ferry frames as they come (06 R163, 09 R255), and what becomes of those that wait too long (06 R164, R165, 09 R255). The status of a RELAY whose awaited hop does not come is RELAY_STALLED, 0x0313 (06 R170), counted in REL_ERRORS.STALLED (06 R173).
-/
namespace Sys2Proof.Machine

/-! ### The registers of the relay engine (06 R171, R173, R174) -/

theorem onlyRegs_showRelay (s : State) : OnlyRegs [R.REL_STATUS, R.REL_HOLD] s (showRelay s) := by
  intro a ha
  simp only [List.mem_cons, List.not_mem_nil, or_false, not_or] at ha
  obtain ⟨hstatus, hhold⟩ := ha
  exact (rd_setF_other _ _ _ hhold).trans (rd_setF_other _ _ _ hstatus)

/-- Showing the engine's counts leaves the fields of every other register. -/
theorem getF_showRelay (s : State) {a : Nat} (f : RF) (ha : a ∉ [R.REL_STATUS, R.REL_HOLD]) : getF (showRelay s) a f = getF s a f := by
  rw [getF, onlyRegs_showRelay s a ha, getF]

/-! ### Relay frames and the hold (06 R163, R164) -/

/-- The state with one more frame in the hold, behind the others. -/
def frameHeld (s : State) (h : HeldFrame) : State := { s with fleet := { s.fleet with held := s.fleet.held ++ [h] } }

/-- The state without the frame at a place of the hold. -/
def frameDropped (s : State) (i : Nat) : State := { s with fleet := { s.fleet with held := s.fleet.held.eraseIdx i } }

theorem holdBody_of_room {s : State} {bytes : Nat} (port : Nat) (b : HeldBody) (h : holdRoom s bytes = true) :
    holdBody s port bytes b = showRelay (frameHeld s ⟨b, s.now, bytes, port⟩) := if_pos h

theorem exec_relayFrame_of_running {s : State} {f : RelayFrame} {w : RelayWork} (port : Nat) (ups : List Upset) (hbound : sliceState s = 2)
    (hrun : (s.fleet.relays.find? fun w => w.relayId == f.relayId) = some w) :
    exec (.relayFrame port f ups) s = .next (inClass 1 s fun s => withUpsets ups s fun s => relayTry s fun s => takeRelayFrame s w f) := by
  refine (done_onlyIf (by simp [hbound])).trans (congrArg done ?_)
  rw [hrun]

theorem exec_relayFrame_of_room {s : State} {f : RelayFrame} (port : Nat) (ups : List Upset) (hbound : sliceState s = 2)
    (hnone : (s.fleet.relays.find? fun w => w.relayId == f.relayId) = none) (hroom : holdRoom s (f.data.length + 48) = true) :
    exec (.relayFrame port f ups) s = .next (showRelay (frameHeld s ⟨.relay f, s.now, f.data.length + 48, port⟩)) := by
  refine (done_onlyIf (by simp [hbound])).trans (congrArg done ?_)
  rw [hnone]
  exact holdBody_of_room port (.relay f) hroom

theorem exec_heldFrameExpiry_due {s : State} {i : Nat} {h : HeldFrame} (hheld : s.fleet.held[i]? = some h) (hdue : h.atNs + 16384 * 65536 ≤ s.now) :
    exec (.heldFrameExpiry i) s = .next (showRelay (incF (frameDropped s i) R.REL_ERRORS F.REL_ERRORS_DISCARDED 1)) := by
  show execHeldFrameExpiry i s = _
  rw [execHeldFrameExpiry, hheld]
  exact done_onlyIf (by simpa using hdue)

/-- A frame discarded is counted once in REL_ERRORS.DISCARDED, which saturates. -/
theorem discarded_counted {s : State} (hs : mapSorted s.regs = true) (i : Nat) :
    getF (showRelay (incF (frameDropped s i) R.REL_ERRORS F.REL_ERRORS_DISCARDED 1)) R.REL_ERRORS F.REL_ERRORS_DISCARDED =
      satAdd (F.REL_ERRORS_DISCARDED.hi + 1 - F.REL_ERRORS_DISCARDED.lo) (getF s R.REL_ERRORS F.REL_ERRORS_DISCARDED) 1 := by
  have hdropped : mapSorted (frameDropped s i).regs = true := hs
  rw [getF_showRelay _ _ (by decide), getF_incF_same hdropped _ _ _ (by decide) (by decide)]
  rfl

theorem onlyRegs_discarded (s : State) (i : Nat) :
    OnlyRegs [R.REL_ERRORS, R.REL_STATUS, R.REL_HOLD] s (showRelay (incF (frameDropped s i) R.REL_ERRORS F.REL_ERRORS_DISCARDED 1)) := by
  intro a ha
  rw [List.mem_cons, not_or] at ha
  obtain ⟨herrors, hshown⟩ := ha
  exact (onlyRegs_showRelay _ a hshown).trans (onlyRegs_incF (frameDropped s i) _ _ _ a (by simpa using herrors))

/-! ### A hop that does not come (06 R165) -/

theorem exec_hopTimeout_due {s : State} {q c k : Nat} {w : RelayWork} {x : Cmd} (hrun : s.fleet.relays.find? (isRelay q c) = some w) (hfind : findCmd s q c = some x)
    (hawaited : awaitedSeg w x.pkt = some k) (hstop : x.stop = none) (hhold : anyHold s = false) (hdue : w.waitNs + hopUs x.pkt 96 * 1000 ≤ s.now) :
    exec (.hopTimeout q c) s =
      .next (askStop (incF s R.REL_ERRORS F.REL_ERRORS_STALLED 1) q c 0x0313 ((w.pos + w.members.length - 1) % w.members.length) k) := by
  show execHopTimeout q c s = _
  rw [execHopTimeout, hrun, hfind]
  dsimp only
  rw [hawaited]
  exact done_onlyIf (by simp [hstop, hhold, hdue])

/-! ### Ferry deliveries (09 R255) -/

/-- The state without a delivery. -/
def ferryDropped (s : State) (d : FerryIn) : State := { s with fleet := { s.fleet with ferryIn := s.fleet.ferryIn.erase d } }

theorem exec_ferryVoid_due {s : State} {p i : Nat} {d : FerryIn}
    (hfind : (s.fleet.ferryIn.find? fun d => d.ferryId == i && (ferryInRoute s p).any fun r => r.route == d.route) = some d) (hfinal : d.final = none)
    (hdue : d.lastNs + 16384 * 65536 ≤ s.now) :
    exec (.ferryVoid p i) s = .next (logEvent (ferryDropped s d) (portSource p) 0x04C2 clsLostWork d.ferryId d.sourceFid d.step) := by
  show execFerryVoid p i s = _
  rw [execFerryVoid, hfind]
  exact congrArg done (if_pos (by simp [hfinal, hdue]))

theorem logEvent_fleet (s : State) (source code cls a0 a1 a2 : Nat) : (logEvent s source code cls a0 a1 a2).fleet = s.fleet := by
  obtain ⟨-, hrest⟩ := onlyLog_logEvent s source code cls a0 a1 a2
  rw [hrest]

/-- Settles O51: the branch each frame and each expiry takes; of the registers, the hold's two rows write only the relay engine's counts. -/
theorem relayAndFerryEvents : Obligations.RelayAndFerryEvents := by
  unfold Obligations.RelayAndFerryEvents
  refine ⟨fun s port f ups w hbound hrun => exec_relayFrame_of_running port ups hbound hrun, fun s port f ups _ hbound hnone hroom => ?_,
    fun s i h ⟨_, hs, _⟩ hheld hdue => ?_,
    fun s q c k w x hrun hfind hawaited hstop hhold hdue => exec_hopTimeout_due hrun hfind hawaited hstop hhold hdue,
    fun s f hbound => done_onlyIf (by simp [hbound]), fun s p i d hfind hfinal hdue => ?_⟩
  · exact ⟨_, exec_relayFrame_of_room port ups hbound hnone hroom, rfl, onlyRegs_showRelay (frameHeld s _), rfl⟩
  · exact ⟨_, exec_heldFrameExpiry_due hheld hdue, rfl, discarded_counted hs i, onlyRegs_discarded s i, rfl⟩
  · exact ⟨_, exec_ferryVoid_due hfind hfinal hdue, rfl, congrArg Fleet.ferryIn (logEvent_fleet (ferryDropped s d) _ _ _ _ _ _)⟩

end Sys2Proof.Machine
end

section
/-!
Lane instructions in a reduce wave (07 R176, R182, R185, R186): what an instruction's value leaves in the lanes' registers, and how the engine goes on.
-/
namespace Sys2Proof.Machine

/-! ### The registers of the lanes (R176) -/

/-- Register d of the lanes listed, each set from its lane. -/
def putLanes (d : Nat) (f : Nat → Nat) (ls : List Nat) (m : SMap Lane) : SMap Lane :=
  ls.foldl (fun m l => mapPutD 0 m (l * 32 + d) (BitVec.ofNat 32 (f l))) m

theorem setLanes_lanes (x : LaneCtx) (f : Nat → Nat) : (setLanes x f).lanes = putLanes x.w.d f (List.range (laneCount x)) x.v.lanes := rfl

/-- A key that is register d of no lane listed keeps its value. -/
theorem mapGetD_putLanes_other (f : Nat → Nat) {d k : Nat} {ls : List Nat} (m : SMap Lane) (hk : ∀ j ∈ ls, k ≠ j * 32 + d) :
    mapGetD 0 (putLanes d f ls m) k = mapGetD 0 m k := by
  induction ls generalizing m with
  | nil => rfl
  | cons j ls ih =>
    obtain ⟨hj, hrest⟩ := List.forall_mem_cons.1 hk
    exact (ih _ hrest).trans (mapGetD_putD_other hj)

theorem mapGetD_putLanes_same (f : Nat → Nat) {d l : Nat} {ls : List Nat} {m : SMap Lane} (hs : mapSorted m = true) (hl : l ∈ ls) :
    mapGetD 0 (putLanes d f ls m) (l * 32 + d) = BitVec.ofNat 32 (f l) := by
  induction ls generalizing m with
  | nil => exact absurd hl List.not_mem_nil
  | cons j ls ih =>
    by_cases hlater : l ∈ ls
    · exact ih (mapPutD_sorted 0 _ _ hs) hlater
    · obtain rfl : l = j := (List.mem_cons.1 hl).resolve_right hlater
      have hkeys : ∀ j ∈ ls, l * 32 + d ≠ j * 32 + d := fun j hj e => hlater ((by omega : l = j) ▸ hj)
      exact (mapGetD_putLanes_other f _ hkeys).trans (mapGetD_putD_same _ _ hs)

theorem laneWord_d_lt (p : Bytes) (i : Nat) : (laneWord p i).d < 32 := Nat.mod_lt _ (by decide)

theorem laneReg_lt (v : VecEngine) (l r : Nat) : laneReg v l r < 2 ^ 32 := BitVec.isLt _

theorem laneReg_setLanes_same {x : LaneCtx} (f : Nat → Nat) {l : Nat} (hs : mapSorted x.v.lanes = true) (hl : l < laneCount x) :
    laneReg (setLanes x f) l x.w.d = f l % 2 ^ 32 := by
  rw [laneReg, setLanes_lanes, mapGetD_putLanes_same f hs (List.mem_range.2 hl), BitVec.toNat_ofNat]

theorem laneReg_setLanes_other {x : LaneCtx} (f : Nat → Nat) (l : Nat) {q : Nat} (hd : x.w.d < 32) (hq : q < 32) (hne : q ≠ x.w.d) :
    laneReg (setLanes x f) l q = laneReg x.v l q := by
  rw [laneReg, setLanes_lanes, mapGetD_putLanes_other f _ fun j _ => by omega, laneReg]

/-- Setting register D half by half leaves every virtual lane with an element its own value, in the lane format's width. -/
theorem laneVal_setHalves {x : LaneCtx} (f : Nat → Nat) {vl : Nat} (hs : mapSorted x.v.lanes = true) (hvl : vl < x.n) :
    laneVal x.p (setHalves x f) vl x.w.d = f vl % 2 ^ (lpFmt x.p).width := by
  cases hbf : lpBf x.p with
  | false =>
    have hl : vl < laneCount x := by simpa [laneCount, hbf] using hvl
    simp [laneVal, setHalves, lpFmt, Fmt.width, hbf, laneReg_setLanes_same _ hs hl]
  | true =>
    have hl : vl / 2 < laneCount x := by simp only [laneCount, hbf, if_true, cdiv]; omega
    have hold := laneReg_lt x.v (vl / 2) x.w.d
    simp only [laneVal, setHalves, lpFmt, Fmt.width, hbf, if_true, laneReg_setLanes_same _ hs hl]
    rcases Nat.even_or_odd' vl with ⟨k, rfl | rfl⟩
    · have hk : 2 * k / 2 = k := by omega
      simp only [hk, hvl, if_true]
      split <;> omega
    · have hk : (2 * k + 1) / 2 = k := by omega
      have hlow : 2 * k < x.n := by omega
      have hodd : ¬ (2 * k + 1) % 2 = 0 := by omega
      simp only [hk, hvl, hlow, hodd, if_true, if_false]
      omega

/-! ### The engine goes on (R182) -/

theorem engineRow_of_mapGet {s : State} {e : Nat} {v : VecEngine} {c : Cmd} (hv : mapGet s.comp.engines e = some v) (hc : findCmd s v.stream v.counter = some c) :
    engineRow s e = some (v, c) := by
  rw [engineRow, hv]
  exact congrArg (Option.map _) hc

theorem vecDue_of_reduce {p : Bytes} {v : VecEngine} (hpart : v.part = .reduce) (hpc : v.pc < lpSplit p) : vecDue p v = some v.pc := by
  simp [vecDue, hpart, hpc]

theorem vecAdvance_of_reduce (s : State) (e : Nat) {v : VecEngine} {c : Cmd} (hpart : v.part = .reduce) (hpc : v.pc + 1 < lpSplit c.pkt) :
    vecAdvance s e v c = setEngine s e (some { v with pc := v.pc + 1 }) := by
  simp [vecAdvance, hpart, hpc]

/-- What a due instruction does in datapaths that agree: the engine goes on with what its meaning gives, or the row fails. -/
def laneEffect (e : Nat) (v : VecEngine) (c : Cmd) (body : LaneCtx → MM VecEngine) (s : State) : State :=
  match runMM (body (laneCtx s e v c)) s with
  | (.ok w, s) => vecAdvance s e w c
  | (.error er, s) => rowFailed s e v er

theorem laneStep_of_due {s : State} {e op : Nat} {v : VecEngine} {c : Cmd} (ups : List Upset) (body : LaneCtx → MM VecEngine) (h : LaneDue s e op v c) :
    laneStep s e ups op body = inClass 0 s fun s => withUpsets ups s fun s => engineRun s 5 e (laneEffect e v c body) := by
  obtain ⟨he, hon, hv, hc, hpart, hpc, hop, -⟩ := h
  have hgate : (decide (e < 16) && engineOn s 5 e) = true := by simp [he, hon]
  simp only [laneStep, onlyIf, if_pos hgate, engineRow_of_mapGet hv hc, vecDue_of_reduce hpart (Nat.lt_of_succ_lt hpc), hop, bne_self_eq_false, hpart]
  rfl

/-- The state that an operation of an engine without upsets finds, in traffic class 0. -/
def opState (s : State) (e : Nat) : State := endTimeout { s with hbm := { s.hbm with cls := 0 }, upsets := [] } (srcOf 5 e)

/-- Without upsets the duplicated datapaths agree at the first try (R275). -/
theorem engineRun_of_noUpsets {s : State} (kind inst : Nat) (f : State → State) (h : s.upsets = []) :
    engineRun s kind inst f = f (endTimeout s (srcOf kind inst)) := by
  simp [engineRun, engineTry, badTries, h]

/-- Without upsets an engine's units and memory are left as its operation leaves them. -/
theorem operation_of_noUpsets (s : State) (e : Nat) (f : State → State) :
    (inClass 0 s fun s => withUpsets [] s fun s => engineRun s 5 e f).comp = (f (opState s e)).comp ∧
      (inClass 0 s fun s => withUpsets [] s fun s => engineRun s 5 e f).mem = (f (opState s e)).mem := by
  have hrun := engineRun_of_noUpsets (s := { s with hbm := { s.hbm with cls := 0 }, upsets := [] }) 5 e f rfl
  exact ⟨(congrArg State.comp hrun :), (congrArg State.mem hrun :)⟩

theorem setEngine_engines (s : State) (e : Nat) (v : VecEngine) : (setEngine s e (some v)).comp.engines = mapPut s.comp.engines e v :=
  congrArg Compute.engines (setBitF_comp _ _ _ _ _)

theorem setEngine_mem (s : State) (e : Nat) (v : Option VecEngine) : (setEngine s e v).mem = s.mem := setBitF_mem _ _ _ _ _

/-- A due instruction that only sets lane registers: they are what it gives, the engine stands at the next instruction, and memory is as it was. -/
theorem laneWent_of_due {s : State} {e op : Nat} {v : VecEngine} {c : Cmd} {g : LaneCtx → VecEngine} (hg : ∀ x, g x = { x.v with lanes := (g x).lanes })
    (h : LaneDue s e op v c) : LaneWent s e v { g (laneCtx s e v c) with pc := v.pc + 1 } (laneStep s e [] op fun x => pure (g x)) := by
  rw [laneStep_of_due [] _ h]
  obtain ⟨hcomp, hmem⟩ := operation_of_noUpsets s e (laneEffect e v c fun x => pure (g x))
  obtain ⟨-, -, -, -, hpart, hpc, -⟩ := h
  have hlanes : g (laneCtx s e v c) = { v with lanes := (g (laneCtx s e v c)).lanes } := hg _
  have heffect : laneEffect e v c (fun x => pure (g x)) (opState s e) = setEngine (opState s e) e (some { g (laneCtx s e v c) with pc := v.pc + 1 }) := by
    refine (vecAdvance_of_reduce (opState s e) e (v := g (laneCtx s e v c)) ?_ ?_).trans ?_
    · rw [hlanes]; exact hpart
    · rw [hlanes]; exact hpc
    · rw [hlanes]
  refine ⟨?_, ?_, ?_⟩
  · rw [hcomp, heffect, setEngine_engines, mapGet_put_same]
  · rw [hlanes]
  · rw [hmem, heffect, setEngine_mem]; rfl

theorem laneCtx_sorted_of_due {s : State} {e op : Nat} {v : VecEngine} {c : Cmd} (h : LaneDue s e op v c) : mapSorted (laneCtx s e v c).v.lanes = true := by
  obtain ⟨-, -, -, -, -, -, -, hs⟩ := h
  exact hs

/-! ### The instructions (R185, R186) -/

/-- Settles O45: every OP's meaning is `floatOp` of its row's function, so `laneWent_of_due` gives the next engine, and what it sets and leaves are the laws of `setHalves` and `setLanes`. -/
theorem laneFloatInstructions : Obligations.LaneFloatInstructions := by
  unfold Obligations.LaneFloatInstructions
  intro r hr s e v c h
  have hexec : exec (r.1 e []) s = done (laneStep s e [] r.2.1 fun x => floatOp x (r.2.2 x.w.imm)) := by
    fin_cases hr <;> rfl
  refine ⟨_, hexec, _, laneWent_of_due (fun _ => rfl) h, fun vl hvl => ?_, fun l q hq hne => ?_⟩
  · exact laneVal_setHalves (x := laneCtx s e v c) _ (laneCtx_sorted_of_due h) hvl
  · exact laneReg_setLanes_other (x := laneCtx s e v c) _ l (laneWord_d_lt c.pkt v.pc) hq hne

/-- Settles O46: as O45, with `wordOp` of the row's function on whole registers. -/
theorem laneWordInstructions : Obligations.LaneWordInstructions := by
  unfold Obligations.LaneWordInstructions
  intro r hr s e v c h
  have hexec : exec (r.1 e []) s = done (laneStep s e [] r.2.1 fun x => wordOp x (r.2.2 x.w.imm)) := by
    fin_cases hr <;> rfl
  refine ⟨_, hexec, _, laneWent_of_due (fun _ => rfl) h, fun l hl => ?_, fun l q hq hne => ?_⟩
  · exact laneReg_setLanes_same (x := laneCtx s e v c) _ (laneCtx_sorted_of_due h) hl
  · exact laneReg_setLanes_other (x := laneCtx s e v c) _ l (laneWord_d_lt c.pkt v.pc) hq hne

end Sys2Proof.Machine
end

section
/-!
Embedding frames as they come (08 R208 to R212), the answers to what an exchange has sent (08 R215, R222), a member that stays silent (08 R211), and the lookup an embedding engine issues next (08 R217, R227).
-/
namespace Sys2Proof.Machine

/-! ### Frames (08 R208 to R212, R220) -/

theorem embFrame_of_running {s : State} {xid : Nat} {x : Exchange} (port bytes : Nat) (ups : List Upset) (b : HeldBody) (hbound : sliceState s = 2)
    (hrun : frameExch s xid = some x) : embFrame s port xid bytes ups b = inClass 1 s fun s => withUpsets ups s fun s => takeEmb s x b := by
  rw [embFrame, onlyIf, if_pos (by simp [hbound]), hrun]

/-- A frame for no running exchange stands in the hold behind the others, and the relay engine's counts show it (R210). -/
theorem embFrame_of_room {s : State} {xid bytes : Nat} (port : Nat) (ups : List Upset) (b : HeldBody) (hbound : sliceState s = 2)
    (hnone : frameExch s xid = none) (hroom : holdRoom s bytes = true) : embFrame s port xid bytes ups b = showRelay (frameHeld s ⟨b, s.now, bytes, port⟩) := by
  rw [embFrame, onlyIf, if_pos (by simp [hbound]), hnone]
  exact holdBody_of_room port b hroom

/-- A contribution is taken as the other frames are, but by an embedding engine, which adds it (R220, 10 R275). -/
theorem exec_embContribution_of_running {s : State} {xid : Nat} {x : Exchange} (port dig : Nat) (k : Contribution) (ups : List Upset) (hbound : sliceState s = 2)
    (hrun : frameExch s xid = some x) : exec (.embContribution port xid dig k ups) s =
      .next (inClass 1 s fun s => withUpsets ups s fun s => engineRun s 6 (((enginesOf s 6 15).head?).getD 0) fun s => takeEmb s x (.embContribution xid dig k)) := by
  refine (done_onlyIf (by simp [hbound])).trans (congrArg done ?_)
  rw [hrun]

/-! ### Answers (08 R210, R215, R222) -/

theorem exec_embResponse_of_mismatch {s : State} {xid dig : Nat} {x : Exchange} (src : Nat) (a : EmbAnswer) (ups : List Upset) (hrun : frameExch s xid = some x)
    (hdig : dig ≠ x.digest) : exec (.embResponse xid src dig a ups) s = .next (embMismatch s x src) := by
  show execEmbResponse xid src dig a ups s = _
  rw [execEmbResponse, hrun]
  exact congrArg done (if_pos (by simpa using hdig))

theorem exec_embResponse_applied {s : State} {xid : Nat} {x : Exchange} {y : Cmd} (src lk : Nat) (ups : List Upset) (hrun : frameExch s xid = some x)
    (hfind : findCmd s x.stream x.counter = some y) (hscatter : x.scatter = true) :
    exec (.embResponse xid src x.digest (.applied lk) ups) s =
      .next (embProgress (putExch s { x with acked := setIns lk x.acked, waitNs := s.now }) x.stream x.counter) := by
  show execEmbResponse xid src x.digest (.applied lk) ups s = _
  rw [execEmbResponse, hrun]
  dsimp only
  rw [if_neg (by simp), hfind]
  exact congrArg done (if_pos hscatter)

theorem exec_embResponse_row {s : State} {xid : Nat} {x : Exchange} {y : Cmd} {r : RowData} {b : BagWork} (src : Nat) (ups : List Upset) (hrun : frameExch s xid = some x)
    (hfind : findCmd s x.stream x.counter = some y)
    (hbag : (x.bags.find? fun b => b.combine ≤ r.lookup && r.lookup < b.issue && !(b.rows.any fun o => o.lookup == r.lookup)) = some b)
    (hgather : x.scatter = false) (hstop : y.stop = none) :
    exec (.embResponse xid src x.digest (.row r) ups) s =
      .next (inClass 0 s fun s => withUpsets ups s fun s => engineRun s 6 b.engine fun s => bagOn s x y { b with rows := b.rows ++ [r] }) := by
  show execEmbResponse xid src x.digest (.row r) ups s = _
  rw [execEmbResponse, hrun]
  dsimp only
  rw [if_neg (by simp), hfind]
  dsimp only
  rw [hbag]
  exact done_onlyIf (by simp [hgather, hstop])

/-! ### A silent member (08 R211) -/

theorem exec_embStalled_due {s : State} {q c pos : Nat} {x : Exchange} {y : Cmd} (hrun : findExch s q c = some x) (hfind : findCmd s q c = some y)
    (hawaited : embAwaits x pos = true) (hstop : y.stop = none) (hhold : anyHold s = false) (hdue : x.waitNs + x.hopUs * 1000 ≤ s.now) :
    exec (.embStalled q c pos) s = .next (embStopAsk s q c 0x0235 pos 0 (some F.EMB_ERRORS_STALLED)) := by
  show execEmbStalled q c pos s = _
  rw [execEmbStalled, hrun, hfind]
  exact done_onlyIf (by simp [hawaited, hstop, hhold, hdue])

/-! ### The next lookup (08 R217, R227) -/

/-- An engine that is on works at its pick: a bag newly dealt is opened, one in work has its next lookup issued. -/
theorem exec_embLookup_of_pick {s : State} {e item : Nat} {x : Exchange} {y : Cmd} {b : Option BagWork} (ups : List Upset) (he : e < 4)
    (hon : engineOn s 6 e = true) (hpick : embPick s e = some (x, y, b, item)) :
    exec (.embLookup e ups) s = .next (inClass 0 s fun s => withUpsets ups s fun s => engineRun s 6 e fun s =>
      b.elim (openBag s e x y item) fun b => if x.scatter then scatterLookup s x y b else gatherLookup s x y b) := by
  refine (done_onlyIf (by simp [he, hon])).trans (congrArg done ?_)
  rw [hpick]
  cases b <;> rfl

/-- Settles O50: every row is the branch its conditions choose; a frame held writes, of the registers, only the relay engine's counts. -/
theorem embeddingFrames : Obligations.EmbeddingFrames := by
  unfold Obligations.EmbeddingFrames
  refine ⟨fun s port xid src dig lk row ups x hbound hrun => congrArg done (embFrame_of_running port 16 ups _ hbound hrun),
    fun s port xid dig k ups x hbound hrun => exec_embContribution_of_running port dig k ups hbound hrun,
    fun s port xid src dig n x hbound hrun => congrArg done (embFrame_of_running port 16 [] _ hbound hrun),
    fun s port xid src dig x hbound hrun => congrArg done (embFrame_of_running port 16 [] _ hbound hrun),
    fun s port xid src dig n _ hbound hnone hroom => ?_,
    fun s xid src dig a ups x hrun hdig => exec_embResponse_of_mismatch src a ups hrun hdig,
    fun s xid src lk ups x y hrun hfind hscatter => exec_embResponse_applied src lk ups hrun hfind hscatter,
    fun s xid src r ups x y b hrun hfind hbag hgather hstop => exec_embResponse_row src ups hrun hfind hbag hgather hstop,
    fun s q c pos x y hrun hfind hawaited hstop hhold hdue => exec_embStalled_due hrun hfind hawaited hstop hhold hdue,
    fun s e item ups x y he hon hpick => exec_embLookup_of_pick (b := none) ups he hon hpick,
    fun s e item ups x y b he hon hpick => exec_embLookup_of_pick (b := some b) ups he hon hpick⟩
  exact ⟨_, congrArg done (embFrame_of_room port [] _ hbound hnone hroom), rfl, onlyRegs_showRelay (frameHeld s _), rfl⟩

end Sys2Proof.Machine
end

section
/-!
The Vernier's verdict on a tile (10 R274, R276), the third reading of a held one and its settling (10 R279, R280).
-/
namespace Sys2Proof.Machine

/-! ### The verdict (10 R274) -/

/-- A tile that waits for its verdict gets it: a third reading keeps its own, another tile is settled clean or held. -/
theorem exec_vernierVerdict_of_waiting {s : State} {q c i : Nat} {third : Bool} {x : Tile} (hfind : findTile s q c i third = some x) (hclean : x.clean = none)
    (hstage : x.stage = .handed ∨ x.stage = .drained) :
    exec (.vernierVerdict q c i third) s = .next (if x.third then putTile s { x with clean := some (tileClean (tilePkt s x) x) }
      else if tileClean (tilePkt s x) x then settleTile s { x with clean := some true } else disagree s x) := by
  have hwaits : ¬ (x.clean.isSome || !(x.stage == .handed || x.stage == .drained)) = true := by
    rcases hstage with h | h <;> simp [hclean, h]
  show execVernierVerdict q c i third s = _
  rw [execVernierVerdict, hfind]
  exact congrArg done (if_neg hwaits)

/-! ### The third reading (10 R279) -/

/-- The die of a third reading is one of the three others (assumption log 29). -/
theorem ne_of_thirdDie {s : State} {x : Tile} {d : Nat} (h : thirdDie s x = some d) : d ≠ x.die % 4 := by
  obtain ⟨i, hi, rfl⟩ := List.mem_map.mp (List.mem_of_find?_eq_some h)
  rw [List.mem_range] at hi
  omega

/-- The tile of a third reading as it begins: the held tile's place and promoted regions, over the first arrays of the die, one for each member. -/
def thirdTile (s : State) (q c i d : Nat) (x : Tile) : Tile :=
  { stream := q, counter := c, index := i, die := d, third := true, promo := x.promo,
    members := ((arraysOf s d).take x.members.length).map fun a => Member.mk a 0 0 0 [] [] [] [] false false false 0 0 }

theorem thirdTile_arrays (s : State) (q c i d : Nat) (x : Tile) :
    (thirdTile s q c i d x).members.map Member.array = (arraysOf s d).take x.members.length := by
  simp [thirdTile, Function.comp_def]

theorem exec_thirdReading_of_held {s : State} {q c i d : Nat} {x : Tile} (hfind : findTile s q c i false = some x) (hheld : x.stage = .held)
    (hnone : thirdOf s x = none) (hdie : thirdDie s x = some d) :
    exec (.thirdReading q c i) s = .next { s with comp := { s.comp with tiles := s.comp.tiles ++ [thirdTile s q c i d x] } } := by
  show execThirdReading q c i s = _
  rw [execThirdReading, hfind]
  dsimp only
  rw [if_neg (by simp [hheld, hnone]), hdie]
  rfl

/-! ### The settling (10 R276, R280) -/

/-- What the third reading of a held tile, or its absence, brings about: with a verdict it settles the tile, lost or with no die for it the tile is settled without one, and until then nothing (assumption log 29). -/
def settleHeld (s : State) (x : Tile) : State :=
  match thirdOf s x with
  | some y => if y.clean.isSome then settleThird s x (some y) else if thirdLost s y then settleThird (dropTile s y) x none else s
  | none => if (thirdDie s x).isNone then settleThird s x none else s

theorem exec_thirdReadingSettled_of_held {s : State} {q c i : Nat} {x : Tile} (ups : List Upset) (hfind : findTile s q c i false = some x) (hheld : x.stage = .held) :
    exec (.thirdReadingSettled q c i ups) s = .next (withUpsets ups s fun s => settleHeld s x) := by
  show execThirdReadingSettled q c i ups s = _
  rw [execThirdReadingSettled, hfind]
  exact congrArg done (if_neg (by simp [hheld]))

/-- Settles O44: the verdict's two rows are one lemma's branches, by whether the tile is a third reading; the reading's row adds `thirdTile`, the last is `settleHeld`. -/
theorem vernierAndThirdReadings : Obligations.VernierAndThirdReadings := by
  unfold Obligations.VernierAndThirdReadings
  refine ⟨fun s q c i x hfind hown hclean hstage => ?_, fun s q c i x hfind hthird hclean hstage => ?_, fun s q c i d x hfind hheld hnone hdie => ?_,
    fun s q c i ups x hfind hheld => exec_thirdReadingSettled_of_held ups hfind hheld⟩
  · rw [exec_vernierVerdict_of_waiting hfind hclean hstage, if_neg (by simp [hown])]
  · rw [exec_vernierVerdict_of_waiting hfind hclean hstage, if_pos hthird]
  · exact ⟨_, exec_thirdReading_of_held hfind hheld hnone hdie, rfl, thirdTile s q c i d x, rfl, rfl, rfl, rfl, rfl, rfl, rfl, ne_of_thirdDie hdie, thirdTile_arrays s q c i d x⟩

end Sys2Proof.Machine
end

section
/-!
A COMMIT in doubt: its entry, its requests and its end (10 R292), and the answers of the members that are asked (10 R287, R292).
-/
namespace Sys2Proof.Machine

/-! ### The entry (10 R292) -/

/-- The state of the Escapement reads as it was set. -/
theorem escState_setEsc {s : State} (hs : mapSorted s.regs = true) {v : Nat} (hv : v < 8) : escState (setEsc s v) = v :=
  (getF_setF_same hs _ _ _ (by decide) (by decide)).trans (Nat.mod_eq_of_lt hv)

theorem onlyRegs_setEsc (s : State) (v : Nat) : OnlyRegs [R.ARB_ESC_STATUS] s (setEsc s v) := (onlyReg_wr s _ _).1

/-- The state of a module that from now on asks for the decision of its COMMIT. -/
def asking (s : State) (w : CommitWork) : State :=
  { s with esc := { s.esc with ask := some { step := w.step, members := w.members, pos := w.pos, since := beatNow s } } }

theorem exec_inDoubtEntry_of_late {s : State} {w : CommitWork} (hwork : s.esc.work = some w) (haction : w.action ≠ 3) (hacted : w.acted = false)
    (hpending : s.esc.pending = none) (hlate : w.beat + 16 ≤ beatNow s) (hstate : escState s = 1 ∨ escState s = 2) (hearly : s.esc.early = none) :
    exec .inDoubtEntry s = .next (setEsc (asking s w) 5) := by
  have hdue : ¬ (w.action == 3 || w.acted || s.esc.pending.isSome || beatNow s < w.beat + 16 || !(escState s == 1 || escState s == 2) || s.esc.early.isSome) = true := by
    rcases hstate with h | h <;> simp [haction, hacted, hpending, hlate, h, hearly]
  show execInDoubtEntry s = _
  rw [execInDoubtEntry, hwork]
  exact congrArg done (if_neg hdue)

/-! ### The asking and the end (10 R292) -/

/-- A request that is due goes to the next member of the asking order, and is counted with its beat. -/
theorem exec_decisionRequest_of_due {s : State} {a : AskWork} (hask : s.esc.ask = some a)
    (hdue : ∀ b, a.last = some b → if a.slow then b + 16384 ≤ beatNow s else b < beatNow s) (horder : askOrder a.members.length a.pos ≠ []) :
    exec .decisionRequest s = .next (sendSlice { s with esc := { s.esc with ask := some { a with sent := a.sent + 1, last := some (beatNow s) } } } 0 1
      (a.members.getD ((askOrder a.members.length a.pos).getD (a.sent % (askOrder a.members.length a.pos).length) 0) 0) .decisionRequest [a.step]) := by
  show execDecisionRequest s = _
  rw [execDecisionRequest, hask]
  refine congrArg done (if_neg ?_)
  cases hlast : a.last with
  | none => simpa using horder
  | some b =>
    have hb := hdue b hlast
    by_cases hslow : a.slow = true
    · rw [if_pos hslow] at hb
      simp [hslow, hb, horder]
    · rw [if_neg hslow] at hb
      simp [hslow, hb, horder]

/-- A watch in doubt ends the COMMIT with IN_DOUBT; the asking goes on, slowed. -/
theorem exec_escInDoubt_of_watch {s : State} {w : CommitWork} {a : AskWork} (hwork : s.esc.work = some w) (hask : s.esc.ask = some a) (hstate : escState s = 5)
    (hopen : w.doubtDone = false) (hwatch : a.since + 16384 ≤ beatNow s) :
    exec .escInDoubt s = .next { endCommit s w (0x0434, 0, w.step) with
      esc := { s.esc with work := some { w with doubtDone := true }, ask := some { a with slow := true } } } := by
  show execEscInDoubt s = _
  rw [execEscInDoubt, hwork, hask]
  exact congrArg done (if_pos (by simp [hstate, hopen, hwatch]))

/-! ### What a member that is asked answers (10 R287, R292) -/

theorem exec_decisionRequestReceipt_of_kept {s : State} {fid step : Nat} {d : Decision} (hbound : sliceState s = 2) (hmember : isMember s fid = true)
    (hkept : keptDecision s step = some d) : exec (.decisionRequestReceipt fid step) s = .next (sendDecision s 0 fid d true) := by
  refine (done_onlyIf (by simp [hbound, hmember])).trans (congrArg done ?_)
  rw [hkept]

theorem exec_digestFetchRequest_of_held {s : State} {fid step : Nat} {d : Bytes} (hbound : sliceState s = 2) (hmember : isMember s fid = true)
    (hheld : heldDigest s step = some d) : exec (.digestFetchRequest fid step) s = .next (sendSlice s 0 1 fid .digestAnswer [step, 1] d) := by
  refine (done_onlyIf (by simp [hbound, hmember])).trans (congrArg done ?_)
  rw [hheld]

theorem exec_digestFetchRequest_of_none {s : State} {fid step : Nat} (hbound : sliceState s = 2) (hmember : isMember s fid = true)
    (hnone : heldDigest s step = none) : exec (.digestFetchRequest fid step) s = .next (sendSlice s 0 1 fid .digestAnswer [step, 0]) := by
  refine (done_onlyIf (by simp [hbound, hmember])).trans (congrArg done ?_)
  rw [hnone]

/-! ### The digest fetched (10 R287) -/

theorem exec_digestFetchAnswer_of_confirm {s : State} (d : Option Bytes) {w : CommitWork} (hwork : s.esc.work = some w) (haction : w.action = 2)
    (hopen : w.sealed = false) (hstate : escState s = 1) :
    exec (.digestFetchAnswer w.step d) s = .next (castVote { s with esc := { s.esc with
      work := some { w with sealed := true, verdict := if d = some s.esc.digest then .clean else .notClean, confirm := some (d == some s.esc.digest) } } }) := by
  show execDigestFetchAnswer w.step d s = _
  rw [execDigestFetchAnswer, hwork]
  refine congrArg done ((if_pos (by simp [haction, hopen, hstate])).trans ?_)
  simp only [beq_iff_eq]

/-- Settles O54: each row is what its command answers where its conditions hold; the entry writes, of the registers, only the state of the Escapement. That the watch runs from the entry is assumption log 24. -/
theorem inDoubt : Obligations.InDoubt := by
  unfold Obligations.InDoubt
  refine ⟨fun s w hinv hwork haction hacted hpending hlate hstate hearly => ?_, fun s a hask hdue horder => exec_decisionRequest_of_due hask hdue horder,
    fun s w a hwork hask hstate hopen hwatch => ⟨_, exec_escInDoubt_of_watch hwork hask hstate hopen hwatch, rfl, rfl, rfl⟩,
    fun s fid step d hbound hmember hkept => exec_decisionRequestReceipt_of_kept hbound hmember hkept,
    fun s fid step d hbound hmember hheld => exec_digestFetchRequest_of_held hbound hmember hheld,
    fun s fid step hbound hmember hnone => exec_digestFetchRequest_of_none hbound hmember hnone,
    fun s d w hwork haction hopen hstate => exec_digestFetchAnswer_of_confirm d hwork haction hopen hstate⟩
  obtain ⟨-, hsorted, -⟩ := hinv
  exact ⟨_, exec_inDoubtEntry_of_late hwork haction hacted hpending hlate hstate hearly, escState_setEsc (s := asking s w) hsorted (by decide), rfl,
    onlyRegs_setEsc (asking s w) 5, rfl⟩

end Sys2Proof.Machine
end

section
/-!
The check-value units: scans, their checks and their end (11 R309, R310), comparisons (R312) and bytes fed by CRC_DATA (R313).
-/
namespace Sys2Proof.Machine

/-! ### Nothing but some registers differs -/

/-- Nothing but the registers listed differs. -/
def OnlyListed (l : List Nat) (s t : State) : Prop := OnlyRegs l s t ∧ t = { s with regs := t.regs }

theorem onlyListed_refl (l : List Nat) (s : State) : OnlyListed l s s := ⟨fun _ _ => rfl, rfl⟩

theorem OnlyListed.wr_mem {l : List Nat} {s t : State} (h : OnlyListed l s t) {a : Nat} (w : Word) (ha : a ∈ l) : OnlyListed l s (wr t a w) := by
  obtain ⟨hregs, hrest⟩ := h
  exact ⟨fun b hb => (rd_wr_other t w fun e => hb (by rwa [e])).trans (hregs b hb), wr_rest a w hrest⟩

theorem OnlyListed.setF_mem {l : List Nat} {s t : State} (h : OnlyListed l s t) {a : Nat} (f : RF) (v : Nat) (ha : a ∈ l) : OnlyListed l s (setF t a f v) :=
  h.wr_mem _ ha

theorem getF_of_onlyRegs {l : List Nat} {s t : State} (h : OnlyRegs l s t) {a : Nat} (f : RF) (ha : a ∉ l) : getF t a f = getF s a f := by
  rw [getF, getF, h a ha]

theorem flagF_of_onlyRegs {l : List Nat} {s t : State} (h : OnlyRegs l s t) {a : Nat} (f : RF) (ha : a ∉ l) : flagF t a f = flagF s a f := by
  rw [flagF, flagF, getF_of_onlyRegs h f ha]

theorem unitReg_of_onlyRegs {l : List Nat} {s t : State} (h : OnlyRegs l s t) {u a : Nat} (hcfg : R.CRC_CFG u ∉ l) (ha : a ∉ l) : unitReg t u a = unitReg s u a := by
  simp only [unitReg, unitCut, unitWidth, getF_of_onlyRegs h _ hcfg, h a ha]

/-- A register of a unit, cut to WIDTH, fits the 64 bits of a register. -/
theorem unitReg_lt (s : State) (u a : Nat) : unitReg s u a < 2 ^ 64 :=
  (Nat.mod_lt _ (Nat.two_pow_pos _)).trans_le (Nat.pow_le_pow_right (by decide) (Nat.min_le_left 64 _))

/-! ### The settings a write of CRC_CTRL brings (R325) -/

/-- The unit with the settings of a write of CRC_CTRL taken: FEED_BYTES, IRQ_EN, CMP_EN and CONTINUE. -/
def settingsTaken (s : State) (u : Nat) (v : Word) : State := wr s (R.CRC_CTRL u) (BitVec.ofNat 64 (fld v 11 8 * 2 ^ 8 + fld v 5 3 * 2 ^ 3))

theorem settingsTaken_sorted {s : State} (hs : mapSorted s.regs = true) (u : Nat) (v : Word) : mapSorted (settingsTaken s u v).regs = true := wr_sorted hs _ _

theorem onlyListed_settingsTaken (s : State) (u : Nat) (v : Word) {l : List Nat} (hl : R.CRC_CTRL u ∈ l) : OnlyListed l s (settingsTaken s u v) :=
  (onlyListed_refl l s).wr_mem _ hl

theorem onlyRegs_settingsTaken (s : State) (u : Nat) (v : Word) : OnlyRegs [R.CRC_CTRL u] s (settingsTaken s u v) :=
  (onlyListed_settingsTaken s u v (by simp)).1

/-- CONTINUE reads bit 3 of the write. -/
theorem continue_settingsTaken {s : State} (hs : mapSorted s.regs = true) (u : Nat) (v : Word) :
    flagF (settingsTaken s u v) (R.CRC_CTRL u) F.CRC_CTRL_CONTINUE = bitW v 3 := by
  have hfeed : fld v 11 8 < 16 := fld_lt v 11 8
  have hflags : fld v 5 3 < 8 := fld_lt v 5 3
  have hbit : fld v 5 3 % 2 = v.toNat / 2 ^ 3 % 2 := by
    rw [fld, bitsOf, Nat.shiftRight_eq_div_pow]
    omega
  have hfield : fld (BitVec.ofNat 64 (fld v 11 8 * 2 ^ 8 + fld v 5 3 * 2 ^ 3)) 3 3 = fld v 5 3 % 2 := by
    rw [fld, bitsOf, Nat.shiftRight_eq_div_pow, BitVec.toNat_ofNat]
    omega
  rw [flagF, getF, settingsTaken, rd_wr_same hs, bitW, Nat.testBit_eq_decide_div_mod_eq]
  show (fld _ 3 3 != 0) = _
  rw [hfield, hbit]
  rcases Nat.mod_two_eq_zero_or_one (v.toNat / 2 ^ 3) with h | h <;> rw [h] <;> rfl

theorem unitBusy_settingsTaken (s : State) (u : Nat) (v : Word) : unitBusy (settingsTaken s u v) u = unitBusy s u :=
  flagF_of_onlyRegs (onlyRegs_settingsTaken s u v) _ (by simp [R.CRC_STATUS, R.CRC_CTRL])

theorem unitReg_settingsTaken (s : State) (u : Nat) (v : Word) {a : Nat} (ha : a ≠ R.CRC_CTRL u) : unitReg (settingsTaken s u v) u a = unitReg s u a :=
  unitReg_of_onlyRegs (onlyRegs_settingsTaken s u v) (by simp [R.CRC_CFG, R.CRC_CTRL]) (by simpa using ha)

theorem unitLength_settingsTaken (s : State) (u : Nat) (v : Word) : unitLength (settingsTaken s u v) u = unitLength s u :=
  getF_of_onlyRegs (onlyRegs_settingsTaken s u v) _ (by simp [R.CRC_LENGTH, R.CRC_CTRL])

theorem unitResult_settingsTaken (s : State) (u : Nat) (v : Word) : unitResult (settingsTaken s u v) u = unitResult s u := by
  have hregs := onlyRegs_settingsTaken s u v
  have hcfg : R.CRC_CFG u ∉ [R.CRC_CTRL u] := by simp [R.CRC_CFG, R.CRC_CTRL]
  simp only [unitResult, unitCut, unitWidth, getF_of_onlyRegs hregs _ hcfg, flagF_of_onlyRegs hregs _ hcfg,
    unitReg_settingsTaken s u v (a := R.CRC_XOROUT u) (by simp [R.CRC_XOROUT, R.CRC_CTRL]),
    unitReg_settingsTaken s u v (a := R.CRC_VALUE u) (by simp [R.CRC_VALUE, R.CRC_CTRL])]

/-! ### The address map does not depend on the settings (R309, 23 R684) -/

theorem regionOf_hbm_lt {a k : Nat} (h : regionOf a = .hbm k) : k < 8 := by
  unfold regionOf at h
  split at h
  · rename_i ha
    split at h
    · obtain rfl : a / stackBytes = k := by simpa using h
      exact Nat.div_lt_of_lt_mul (by rwa [Nat.mul_comm])
    · cases h
  · split at h
    · split at h <;> cases h
    · split at h <;> cases h

theorem stackFailed_settingsTaken (s : State) (u : Nat) (v : Word) {k : Nat} (hk : k < 8) : stackFailed (settingsTaken s u v) k = stackFailed s k := by
  have hstack : R.HBM_STACK_STATUS k ∉ [R.CRC_CTRL u] := by
    simp only [R.HBM_STACK_STATUS, R.CRC_CTRL, List.mem_singleton]
    omega
  rw [stackFailed, stackFailed, getF_of_onlyRegs (onlyRegs_settingsTaken s u v) _ hstack]

theorem dieFenced_settingsTaken (s : State) (u : Nat) (v : Word) (d : Nat) : dieFenced (settingsTaken s u v) d = dieFenced s d := by
  have hpower : R.PWR_DOMAIN_FAULT ∉ [R.CRC_CTRL u] := by
    simp only [R.PWR_DOMAIN_FAULT, R.CRC_CTRL, List.mem_singleton]
    omega
  rw [dieFenced, dieFenced, bitF, bitF, getF_of_onlyRegs (onlyRegs_settingsTaken s u v) _ hpower]

theorem inReplay_settingsTaken (s : State) (u : Nat) (v : Word) (a : Nat) : inReplay (settingsTaken s u v) a = inReplay s a := by
  have hreplay : R.DRD_REPLAY_REGION ∉ [R.CRC_CTRL u] := by
    simp only [R.DRD_REPLAY_REGION, R.CRC_CTRL, List.mem_singleton]
    omega
  simp only [inReplay, getF_of_onlyRegs (onlyRegs_settingsTaken s u v) _ hreplay]

theorem physOf_settingsTaken (s : State) (u : Nat) (v : Word) (a : Nat) : physOf (settingsTaken s u v) a = physOf s a := by
  unfold physOf
  cases hregion : regionOf a with
  | hbm k =>
    dsimp only
    rw [stackFailed_settingsTaken s u v (regionOf_hbm_lt hregion)]
    rfl
  | tile d => dsimp only; rw [dieFenced_settingsTaken]
  | fabric => dsimp only; rw [inReplay_settingsTaken]
  | none => rfl

theorem fencedTile_settingsTaken (s : State) (u : Nat) (v : Word) (a : Nat) : fencedTile (settingsTaken s u v) a = fencedTile s a := by
  unfold fencedTile
  cases regionOf a with
  | tile d => dsimp only; rw [dieFenced_settingsTaken]
  | _ => rfl

theorem firstBadAux_settingsTaken (s : State) (u : Nat) (v : Word) (stop fuel a : Nat) :
    firstBadAux (settingsTaken s u v) stop fuel a = firstBadAux s stop fuel a := by
  induction fuel generalizing a with
  | zero => rfl
  | succ fuel ih => simp only [firstBadAux, physOf_settingsTaken, fencedTile_settingsTaken, ih]

theorem rangeOk_settingsTaken (s : State) (u : Nat) (v : Word) (a n : Nat) : rangeOk (settingsTaken s u v) a n = rangeOk s a n :=
  congrArg Option.isNone (firstBadAux_settingsTaken s u v _ _ a)

theorem scanRefusal_settingsTaken (s : State) (u : Nat) (v : Word) : scanRefusal (settingsTaken s u v) u = scanRefusal s u := by
  have hregs := onlyRegs_settingsTaken s u v
  have hwidth : unitWidth (settingsTaken s u v) u = unitWidth s u := getF_of_onlyRegs hregs _ (by simp [R.CRC_CFG, R.CRC_CTRL])
  have hstart : unitStart (settingsTaken s u v) u = unitStart s u := getF_of_onlyRegs hregs _ (by simp [R.CRC_START, R.CRC_CTRL])
  unfold scanRefusal
  dsimp only
  rw [hwidth, hstart, unitLength_settingsTaken, rangeOk_settingsTaken]

/-- The refusals of a scan are codes of the 4-bit FAULT field. -/
theorem scanRefusal_lt (s : State) (u : Nat) : scanRefusal s u < 16 := by
  unfold scanRefusal
  dsimp only
  split
  · decide
  · split <;> decide

/-! ### GO (R309) -/

theorem exec_crcGo_of_idle {s : State} {u : Nat} {v : Word} (hu : u < 8) (hgo : bitW v 0 = true) (hstop : bitW v 1 = false) (hcheck : bitW v 2 = false)
    (hheld : unitHeld s u = false) (hidle : unitBusy s u = false) : exec (.crcGo u v) s = .next (unitGo (settingsTaken s u v) u) := by
  refine (done_onlyIf (by simp [hu, hgo, hstop])).trans (congrArg done ?_)
  simp only [writeCrcCtrl, hheld, hidle, hgo, hcheck, Bool.false_and, Bool.false_eq_true, if_false, if_true]
  rfl

/-- A unit whose settings fail: FAULT says why, and DONE is set. -/
def scanRefused (s : State) (u why : Nat) : State := setF (setF s (R.CRC_STATUS u) F.CRC_STATUS_FAULT why) (R.CRC_STATUS u) F.CRC_STATUS_DONE 1

theorem unitGo_of_refusal {s : State} {u : Nat} (h : scanRefusal s u ≠ 0) : unitGo s u = scanRefused s u (scanRefusal s u) := by
  unfold unitGo
  dsimp only
  rw [if_pos (by simpa using h)]
  rfl

theorem scanRefused_fields {s : State} (hs : mapSorted s.regs = true) (u : Nat) {why : Nat} (hwhy : why < 16) :
    unitBusy (scanRefused s u why) u = unitBusy s u ∧ getF (scanRefused s u why) (R.CRC_STATUS u) F.CRC_STATUS_FAULT = why ∧
      flagF (scanRefused s u why) (R.CRC_STATUS u) F.CRC_STATUS_DONE = true := by
  have hfault := setF_sorted hs (R.CRC_STATUS u) F.CRC_STATUS_FAULT why
  unfold scanRefused
  refine ⟨?_, ?_, ?_⟩
  · rw [unitBusy, flagF, getF_setF_field hfault _ _ _ _ (by decide) (by decide) (by decide), getF_setF_field hs _ _ _ _ (by decide) (by decide) (by decide)]
    rfl
  · rw [getF_setF_field hfault _ _ _ _ (by decide) (by decide) (by decide), getF_setF_same hs _ _ _ (by decide) (by decide)]
    exact Nat.mod_eq_of_lt hwhy
  · rw [flagF, getF_setF_same hfault _ _ _ (by decide) (by decide)]
    rfl

theorem onlyListed_scanRefused {l : List Nat} {s t : State} {u : Nat} (h : OnlyListed l s t) (why : Nat) (hl : R.CRC_STATUS u ∈ l) :
    OnlyListed l s (scanRefused t u why) := (h.setF_mem _ _ hl).setF_mem _ _ hl

/-- A unit whose scan begins: BUSY, FAULT 0 and PROGRESS 0. -/
def scanBegun (s : State) (u : Nat) : State :=
  setF (setF (setF s (R.CRC_STATUS u) F.CRC_STATUS_BUSY 1) (R.CRC_STATUS u) F.CRC_STATUS_FAULT 0) (R.CRC_PROGRESS u) F.CRC_PROGRESS_BYTES 0

/-- The same with INIT loaded into VALUE, unless CONTINUE is 1. -/
def scanStarted (s : State) (u : Nat) : State :=
  if flagF s (R.CRC_CTRL u) F.CRC_CTRL_CONTINUE then scanBegun s u else wr (scanBegun s u) (R.CRC_VALUE u) (BitVec.ofNat 64 (unitReg s u (R.CRC_INIT u)))

theorem onlyListed_scanBegun {l : List Nat} {s t : State} {u : Nat} (h : OnlyListed l s t) (hstatus : R.CRC_STATUS u ∈ l) (hprogress : R.CRC_PROGRESS u ∈ l) :
    OnlyListed l s (scanBegun t u) := ((h.setF_mem _ _ hstatus).setF_mem _ _ hstatus).setF_mem _ _ hprogress

theorem onlyListed_scanStarted {l : List Nat} {s t : State} {u : Nat} (h : OnlyListed l s t) (hstatus : R.CRC_STATUS u ∈ l) (hprogress : R.CRC_PROGRESS u ∈ l)
    (hvalue : R.CRC_VALUE u ∈ l) : OnlyListed l s (scanStarted t u) := by
  have hbegun := onlyListed_scanBegun h hstatus hprogress
  unfold scanStarted
  split
  · exact hbegun
  · exact hbegun.wr_mem _ hvalue

/-- Settings, INIT and VALUE are read as they were. -/
theorem onlyRegs_scanBegun (s : State) (u : Nat) : OnlyRegs [R.CRC_STATUS u, R.CRC_PROGRESS u] s (scanBegun s u) :=
  (onlyListed_scanBegun (onlyListed_refl _ s) (by simp) (by simp)).1

theorem unitLength_scanStarted (s : State) (u : Nat) : unitLength (scanStarted s u) u = unitLength s u := by
  obtain ⟨hregs, -⟩ := onlyListed_scanStarted (u := u) (l := [R.CRC_STATUS u, R.CRC_PROGRESS u, R.CRC_VALUE u]) (onlyListed_refl _ s) (by simp) (by simp) (by simp)
  exact getF_of_onlyRegs hregs _ (by simp [R.CRC_LENGTH, R.CRC_STATUS, R.CRC_PROGRESS, R.CRC_VALUE])

theorem unitGo_of_accepted {s : State} {u : Nat} (h : scanRefusal s u = 0) (hlength : 0 < unitLength s u) : unitGo s u = scanStarted s u := by
  have hregs := onlyRegs_scanBegun s u
  have hcontinue := flagF_of_onlyRegs hregs (a := R.CRC_CTRL u) F.CRC_CTRL_CONTINUE (by simp [R.CRC_CTRL, R.CRC_STATUS, R.CRC_PROGRESS])
  have hinit := unitReg_of_onlyRegs hregs (u := u) (a := R.CRC_INIT u) (by simp [R.CRC_CFG, R.CRC_STATUS, R.CRC_PROGRESS]) (by simp [R.CRC_INIT, R.CRC_STATUS, R.CRC_PROGRESS])
  have hstarted : unitGo s u = if unitLength (scanStarted s u) u = 0 then unitEnd (scanStarted s u) u 0 else scanStarted s u := by
    unfold scanStarted
    rw [← hcontinue, ← hinit]
    unfold unitGo
    dsimp only
    rw [if_neg (by simp [h])]
    rfl
  rw [hstarted, unitLength_scanStarted, if_neg (by omega)]

theorem scanBegun_sorted {s : State} (hs : mapSorted s.regs = true) (u : Nat) : mapSorted (scanBegun s u).regs = true :=
  setF_sorted (setF_sorted (setF_sorted hs _ _ _) _ _ _) _ _ _

theorem scanBegun_fields {s : State} (hs : mapSorted s.regs = true) (u : Nat) :
    unitBusy (scanBegun s u) u = true ∧ getF (scanBegun s u) (R.CRC_STATUS u) F.CRC_STATUS_FAULT = 0 ∧ getF (scanBegun s u) (R.CRC_PROGRESS u) F.CRC_PROGRESS_BYTES = 0 := by
  have happart : R.CRC_STATUS u ≠ R.CRC_PROGRESS u := by simp [R.CRC_STATUS, R.CRC_PROGRESS]
  have hbusy := setF_sorted hs (R.CRC_STATUS u) F.CRC_STATUS_BUSY 1
  have hfault := setF_sorted hbusy (R.CRC_STATUS u) F.CRC_STATUS_FAULT 0
  unfold scanBegun
  refine ⟨?_, ?_, ?_⟩
  · rw [unitBusy, flagF, getF_setF_other _ _ _ _ happart, getF_setF_field hbusy _ _ _ _ (by decide) (by decide) (by decide),
      getF_setF_same hs _ _ _ (by decide) (by decide)]
    rfl
  · rw [getF_setF_other _ _ _ _ happart, getF_setF_same hbusy _ _ _ (by decide) (by decide), Nat.zero_mod]
  · rw [getF_setF_same hfault _ _ _ (by decide) (by decide), Nat.zero_mod]

theorem scanStarted_fields {s : State} (hs : mapSorted s.regs = true) (u : Nat) :
    unitBusy (scanStarted s u) u = true ∧ getF (scanStarted s u) (R.CRC_STATUS u) F.CRC_STATUS_FAULT = 0 ∧ getF (scanStarted s u) (R.CRC_PROGRESS u) F.CRC_PROGRESS_BYTES = 0 := by
  have hbegun := scanBegun_fields hs u
  unfold scanStarted
  split
  · exact hbegun
  · have hloaded := ((onlyListed_refl [R.CRC_VALUE u] (scanBegun s u)).wr_mem (a := R.CRC_VALUE u) (BitVec.ofNat 64 (unitReg s u (R.CRC_INIT u))) (by simp)).1
    have hstatus : R.CRC_STATUS u ∉ [R.CRC_VALUE u] := by simp [R.CRC_STATUS, R.CRC_VALUE]
    rwa [unitBusy, flagF_of_onlyRegs hloaded _ hstatus, getF_of_onlyRegs hloaded _ hstatus, getF_of_onlyRegs hloaded _ (by simp [R.CRC_PROGRESS, R.CRC_VALUE])]

theorem scanStarted_value {s : State} (hs : mapSorted s.regs = true) (u : Nat) : (rd (scanStarted s u) (R.CRC_VALUE u)).toNat =
    if flagF s (R.CRC_CTRL u) F.CRC_CTRL_CONTINUE then (rd s (R.CRC_VALUE u)).toNat else unitReg s u (R.CRC_INIT u) := by
  unfold scanStarted
  split
  · rw [onlyRegs_scanBegun s u _ (by simp [R.CRC_VALUE, R.CRC_STATUS, R.CRC_PROGRESS])]
  · rw [rd_wr_same (scanBegun_sorted hs u), BitVec.toNat_ofNat, Nat.mod_eq_of_lt (unitReg_lt s u _)]

/-! ### Events of a unit and the comparison (R312) -/

/-- The signal of an event is an MSI-X vector and its cause in LOG_HOST_EVENTS. -/
theorem onlyLog_unitSignal (s : State) (u : Nat) : OnlyLog s (unitSignal s u) :=
  onlyLog_ite ((onlyLog_setF s _ _ (by simp)).trans (onlyLog_msix _ 1)) (onlyLog_refl s)

theorem msix_regs (s : State) (v : Nat) : (msix s v).regs = s.regs := by
  unfold msix; split <;> rfl

theorem unitSignal_sorted {s : State} (hs : mapSorted s.regs = true) (u : Nat) : mapSorted (unitSignal s u).regs = true := by
  unfold unitSignal
  split
  · rw [msix_regs]
    exact setF_sorted hs _ _ _
  · exact hs

/-- No register of a unit is one of the logbook's. -/
theorem crcRegs_not_logRegs (u : Nat) : R.CRC_STATUS u ∉ logRegs ∧ R.CRC_VALUE u ∉ logRegs := by
  simp only [logRegs, R.CRC_STATUS, R.CRC_VALUE, R.LOG_STATUS, R.LOG_HOST_EVENTS, R.LOG_LOST_TOTAL, List.mem_cons, List.not_mem_nil, or_false]
  omega

theorem crcRegs_not_events (u : Nat) : R.CRC_STATUS u ≠ R.CRC_EVENTS ∧ R.CRC_VALUE u ≠ R.CRC_EVENTS := by
  unfold R.CRC_STATUS R.CRC_VALUE R.CRC_EVENTS
  omega

/-- The unit's MISMATCH in STATUS and its bit in CRC_EVENTS. -/
def mismatchShown (s : State) (u : Nat) : State :=
  setBitF (setF s (R.CRC_STATUS u) F.CRC_STATUS_MISMATCH 1) R.CRC_EVENTS F.CRC_EVENTS_MISMATCH u true

theorem unitCompare_of_eq {s : State} {u : Nat} (h : unitResult s u = unitReg s u (R.CRC_EXPECT u)) : unitCompare s u = s := by
  unfold unitCompare
  dsimp only
  rw [if_pos (by simpa using h)]

/-- Values that differ are shown; what follows is an event and its signal. -/
theorem unitCompare_of_ne {s : State} {u : Nat} (h : unitResult s u ≠ unitReg s u (R.CRC_EXPECT u)) : OnlyLog (mismatchShown s u) (unitCompare s u) := by
  unfold unitCompare
  dsimp only
  rw [if_neg (by simpa using h)]
  exact (onlyLog_logEvent _ _ _ _ _ _ _).trans (onlyLog_unitSignal _ u)

/-- The comparison leaves every field of STATUS but MISMATCH. -/
theorem getF_status_unitCompare {s : State} (hs : mapSorted s.regs = true) (u : Nat) {f : RF} (hf : f.hi < 2 ∨ 2 < f.lo) :
    getF (unitCompare s u) (R.CRC_STATUS u) f = getF s (R.CRC_STATUS u) f := by
  by_cases h : unitResult s u = unitReg s u (R.CRC_EXPECT u)
  · rw [unitCompare_of_eq h]
  · obtain ⟨hregs, -⟩ := unitCompare_of_ne h
    rw [getF_of_onlyRegs hregs _ (crcRegs_not_logRegs u).1, mismatchShown, setBitF, getF_setF_other _ _ _ _ (crcRegs_not_events u).1,
      getF_setF_field hs _ _ _ _ (by decide) (by decide) hf]

/-! ### The end of a scan (R309, R310) -/

/-- STATUS at the end of a scan: BUSY clear, DONE set, and the fault that ended it. -/
def statusEnded (s : State) (u fault : Nat) : State :=
  setF (setF (setF s (R.CRC_STATUS u) F.CRC_STATUS_BUSY 0) (R.CRC_STATUS u) F.CRC_STATUS_DONE 1) (R.CRC_STATUS u) F.CRC_STATUS_FAULT fault

theorem statusEnded_sorted {s : State} (hs : mapSorted s.regs = true) (u fault : Nat) : mapSorted (statusEnded s u fault).regs = true :=
  setF_sorted (setF_sorted (setF_sorted hs _ _ _) _ _ _) _ _ _

theorem statusEnded_fields {s : State} (hs : mapSorted s.regs = true) (u : Nat) {fault : Nat} (hfault : fault < 16) :
    getF (statusEnded s u fault) (R.CRC_STATUS u) F.CRC_STATUS_BUSY = 0 ∧ getF (statusEnded s u fault) (R.CRC_STATUS u) F.CRC_STATUS_DONE = 1 ∧
      getF (statusEnded s u fault) (R.CRC_STATUS u) F.CRC_STATUS_FAULT = fault := by
  have hbusy := setF_sorted hs (R.CRC_STATUS u) F.CRC_STATUS_BUSY 0
  have hdone := setF_sorted hbusy (R.CRC_STATUS u) F.CRC_STATUS_DONE 1
  unfold statusEnded
  refine ⟨?_, ?_, ?_⟩
  · rw [getF_setF_field hdone _ _ _ _ (by decide) (by decide) (by decide), getF_setF_field hbusy _ _ _ _ (by decide) (by decide) (by decide),
      getF_setF_same hs _ _ _ (by decide) (by decide), Nat.zero_mod]
  · rw [getF_setF_field hdone _ _ _ _ (by decide) (by decide) (by decide), getF_setF_same hbusy _ _ _ (by decide) (by decide)]
    rfl
  · rw [getF_setF_same hdone _ _ _ (by decide) (by decide)]
    exact Nat.mod_eq_of_lt hfault

/-- After STATUS is written the end only reports, and compares where CMP_EN asks for it: every field of STATUS but MISMATCH stays. -/
theorem getF_status_unitEnd {s : State} (hs : mapSorted s.regs = true) (u fault : Nat) {f : RF} (hf : f.hi < 2 ∨ 2 < f.lo) :
    getF (unitEnd s u fault) (R.CRC_STATUS u) f = getF (statusEnded s u fault) (R.CRC_STATUS u) f := by
  obtain ⟨hsignal, -⟩ := onlyLog_unitSignal (setBitF (statusEnded s u fault) R.CRC_EVENTS F.CRC_EVENTS_DONE u true) u
  have hreported : getF (unitSignal (setBitF (statusEnded s u fault) R.CRC_EVENTS F.CRC_EVENTS_DONE u true) u) (R.CRC_STATUS u) f =
      getF (statusEnded s u fault) (R.CRC_STATUS u) f := by
    rw [getF_of_onlyRegs hsignal _ (crcRegs_not_logRegs u).1, setBitF, getF_setF_other _ _ _ _ (crcRegs_not_events u).1]
  unfold unitEnd
  dsimp only
  split
  · exact (getF_status_unitCompare (unitSignal_sorted (setBitF_sorted (statusEnded_sorted hs u fault) _ _ _ _) u) u hf).trans hreported
  · exact hreported

/-- How a unit stands after a scan that a fault, or 0, has ended. -/
def Ended (t : State) (u fault : Nat) : Prop :=
  unitBusy t u = false ∧ flagF t (R.CRC_STATUS u) F.CRC_STATUS_DONE = true ∧ getF t (R.CRC_STATUS u) F.CRC_STATUS_FAULT = fault

theorem unitEnd_ended {s : State} (hs : mapSorted s.regs = true) (u : Nat) {fault : Nat} (hfault : fault < 16) : Ended (unitEnd s u fault) u fault := by
  obtain ⟨hbusy, hdone, hcode⟩ := statusEnded_fields hs u hfault
  refine ⟨?_, ?_, (getF_status_unitEnd hs u fault (by decide)).trans hcode⟩
  · rw [unitBusy, flagF, getF_status_unitEnd hs u fault (by decide), hbusy]
    rfl
  · rw [flagF, getF_status_unitEnd hs u fault (by decide), hdone]
    rfl

/-- Only a hallmark or an ECC error of a block stops the taking of blocks. -/
theorem scanTo_fault (fuel : Nat) (s : State) (u stop : Nat) :
    (scanTo fuel s u stop).2 = 0 ∨ (scanTo fuel s u stop).2 = faultHallmark ∨ (scanTo fuel s u stop).2 = faultEcc := by
  induction fuel generalizing s with
  | zero => exact .inl rfl
  | succ fuel ih =>
    unfold scanTo
    dsimp only
    split
    · exact .inl rfl
    · split
      · exact ih _
      · split
        · exact .inr (.inl rfl)
        · exact .inr (.inr rfl)

/-- A scan taken to its end, or to a block that fails, is ended; with a fault where it was to end with one. -/
theorem scanEnd_ended {s : State} (hs : regsWf s.regs) (u stop : Nat) {fault : Nat} (hfault : fault < 16) :
    ∃ g, Ended (scanEnd s u stop fault) u g ∧ (fault ≠ 0 → g ≠ 0) := by
  have hstays : Stays s.pending s.now (fun _ => True) s := ⟨rfl, rfl, trivial, hs⟩
  have hkeeps := (scanTo_stays hstays (a0 := stop / 4096 + 2) (a2 := u) (a3 := stop)).regs
  have hcode := scanTo_fault (stop / 4096 + 2) s u stop
  unfold scanEnd
  generalize scanTo (stop / 4096 + 2) s u stop = r at hkeeps hcode
  obtain ⟨t, g⟩ := r
  obtain ⟨hsorted, -⟩ := hkeeps
  rcases hcode with rfl | rfl | rfl
  · exact ⟨fault, unitEnd_ended hsorted u hfault, id⟩
  · exact ⟨faultHallmark, unitEnd_ended hsorted u (by decide), fun _ => by decide⟩
  · exact ⟨faultEcc, unitEnd_ended hsorted u (by decide), fun _ => by decide⟩

/-! ### The state in which a command's scan goes on -/

/-- A state in the scans' traffic class, with the upsets of the command in hand brought in. -/
def scanState (s : State) (ups : List Upset) : State := { applyFlips { s with hbm := { s.hbm with cls := 4 } } ups with upsets := ups }

theorem applyFlips_regs (s : State) (ups : List Upset) : (applyFlips s ups).regs = s.regs := by
  unfold applyFlips
  induction ups generalizing s with
  | nil => rfl
  | cons x ups ih =>
    refine (ih _).trans ?_
    cases x <;> rfl

theorem scanState_regs (s : State) (ups : List Upset) : (scanState s ups).regs = s.regs := applyFlips_regs _ ups

theorem rd_scanState (s : State) (ups : List Upset) (a : Nat) : rd (scanState s ups) a = rd s a := by
  rw [rd, scanState_regs, rd]

/-- What the end of the command takes away again: its upsets and its traffic class. -/
def scanLeft (t : State) : State := { t with upsets := [], hbm := { t.hbm with cls := 0 } }

theorem inClass_withUpsets_eq (s : State) (ups : List Upset) (f : State → State) :
    (inClass 4 s fun s => withUpsets ups s f) = scanLeft (f (scanState s ups)) := rfl

theorem scanLeft_ended {t : State} {u fault : Nat} (h : Ended t u fault) : Ended (scanLeft t) u fault := h

/-- CRC_SCAN_END takes the scan to its end with no fault, or to where it stalls with TIMEOUT. -/
theorem crcScanEnd_completes {s : State} {u : Nat} (stall : Option Nat) (ups : List Upset) (hs : regsWf s.regs) (hu : u < 8) (hbusy : unitBusy s u = true) :
    Completes (.crcScanEnd u stall ups) s fun t => ∃ g, Ended t u g ∧ (stall ≠ none → g ≠ 0) := by
  have hwf : regsWf (scanState s ups).regs := by rwa [scanState_regs]
  refine ⟨_, done_onlyIf (by simp [hu, hbusy]), ?_⟩
  rw [inClass_withUpsets_eq]
  cases stall with
  | none =>
    obtain ⟨g, hended, -⟩ := scanEnd_ended hwf u (unitLength (scanState s ups) u) (fault := 0) (by decide)
    exact ⟨g, scanLeft_ended hended, fun h => absurd rfl h⟩
  | some n =>
    obtain ⟨g, hended, hfault⟩ := scanEnd_ended hwf u (min (unitLength (scanState s ups) u) n) (fault := faultTimeout) (by decide)
    exact ⟨g, scanLeft_ended hended, fun _ => hfault (by decide)⟩

/-- STOP takes a running scan on by whole 64 bytes and ends it as stopped. -/
theorem exec_crcStop_of_busy {s : State} {u : Nat} {v : Word} (n : Nat) (ups : List Upset) (hu : u < 8) (hstop : bitW v 1 = true) (hheld : unitHeld s u = false)
    (hbusy : unitBusy s u = true) : exec (.crcStop u v n ups) s = .next (inClass 4 s fun s => withUpsets ups s fun s =>
      scanEnd s u (min (unitLength s u) (max (getF s (R.CRC_PROGRESS u) F.CRC_PROGRESS_BYTES) (n / 64 * 64))) faultStopped) := by
  have hheld' : unitHeld (scanState s ups) u = false := by simpa only [unitHeld, bitF, getF, rd_scanState] using hheld
  have hbusy' : unitBusy (scanState s ups) u = true := by simpa only [unitBusy, flagF, getF, rd_scanState] using hbusy
  refine (done_onlyIf (by simp [hu, hstop])).trans (congrArg done ?_)
  rw [inClass_withUpsets_eq, inClass_withUpsets_eq]
  refine congrArg scanLeft ?_
  simp only [writeCrcCtrl, hheld', hbusy', hstop, Bool.false_and, Bool.false_eq_true, if_false, if_true]

/-- Settles O55: GO writes what `scanStarted` or `scanRefused` says on the settings taken; a scan's end is `unitEnd`, whatever has ended it. How many bytes a scan has taken when it stops is assumption log 106. -/
theorem checkValueScans : Obligations.CheckValueScans := by
  unfold Obligations.CheckValueScans
  refine ⟨fun s u v ⟨_, hs, _⟩ hu hgo hstop hcheck hheld hidle haccepted hlength => ?_, fun s u v ⟨_, hs, _⟩ hu hgo hstop hcheck hheld hidle hrefused => ?_,
    fun s u n v ups hu hstop hheld hbusy => exec_crcStop_of_busy n ups hu hstop hheld hbusy, fun s u ups ⟨_, hregs⟩ hu hbusy => ?_,
    fun s u n ups ⟨_, hregs⟩ hu hbusy => ?_⟩
  · have hexec := exec_crcGo_of_idle hu hgo hstop hcheck hheld hidle
    rw [unitGo_of_accepted ((scanRefusal_settingsTaken s u v).trans haccepted) (by rwa [unitLength_settingsTaken])] at hexec
    have htaken := settingsTaken_sorted hs u v
    obtain ⟨hbusy, hfault, hprogress⟩ := scanStarted_fields htaken u
    obtain ⟨hregs, hrest⟩ := onlyListed_scanStarted (u := u) (l := [R.CRC_CTRL u, R.CRC_STATUS u, R.CRC_PROGRESS u, R.CRC_VALUE u])
      (onlyListed_settingsTaken s u v (by simp)) (by simp) (by simp) (by simp)
    refine ⟨_, hexec, hbusy, hfault, hprogress, ?_, hregs, hrest⟩
    rw [scanStarted_value htaken, continue_settingsTaken hs, unitReg_settingsTaken s u v (by simp [R.CRC_INIT, R.CRC_CTRL]),
      onlyRegs_settingsTaken s u v _ (by simp [R.CRC_VALUE, R.CRC_CTRL])]
  · have hexec := exec_crcGo_of_idle hu hgo hstop hcheck hheld hidle
    rw [unitGo_of_refusal (by rwa [scanRefusal_settingsTaken]), scanRefusal_settingsTaken] at hexec
    obtain ⟨hbusy, hfault, hdone⟩ := scanRefused_fields (settingsTaken_sorted hs u v) u (scanRefusal_lt s u)
    obtain ⟨hregs, hrest⟩ := onlyListed_scanRefused (u := u) (l := [R.CRC_CTRL u, R.CRC_STATUS u]) (onlyListed_settingsTaken s u v (by simp)) (scanRefusal s u) (by simp)
    exact ⟨_, hexec, hbusy.trans ((unitBusy_settingsTaken s u v).trans hidle), hfault, hdone, hregs, hrest⟩
  · obtain ⟨t, hexec, g, ⟨hidle, hdone, -⟩, -⟩ := crcScanEnd_completes none ups hregs hu hbusy
    exact ⟨t, hexec, hidle, hdone⟩
  · obtain ⟨t, hexec, g, ⟨hidle, hdone, hfault⟩, hstalled⟩ := crcScanEnd_completes (some n) ups hregs hu hbusy
    exact ⟨t, hexec, hidle, hdone, hfault ▸ hstalled (by simp)⟩

/-! ### CHECK (R312) and CRC_DATA (R313) -/

theorem exec_crcCheck_of_idle {s : State} {u : Nat} {v : Word} (hu : u < 8) (hgo : bitW v 0 = false) (hstop : bitW v 1 = false) (hcheck : bitW v 2 = true)
    (hheld : unitHeld s u = false) (hidle : unitBusy s u = false) : exec (.crcCheck u v) s = .next (unitCompare (settingsTaken s u v) u) := by
  have hidle' : unitBusy (settingsTaken s u v) u = false := (unitBusy_settingsTaken s u v).trans hidle
  refine (done_onlyIf (by simp [hu, hgo, hstop, hcheck])).trans (congrArg done ?_)
  simp only [writeCrcCtrl, hheld, hidle, hgo, hcheck, Bool.false_and, Bool.false_eq_true, if_false, Bool.true_and]
  exact if_pos (by rw [Bool.not_eq_true']; exact hidle')

/-- RESULT and EXPECT are compared as they were before the settings. -/
theorem unitResult_eq_expect_settingsTaken (s : State) (u : Nat) (v : Word) :
    unitResult (settingsTaken s u v) u = unitReg (settingsTaken s u v) u (R.CRC_EXPECT u) ↔ unitResult s u = unitReg s u (R.CRC_EXPECT u) := by
  rw [unitResult_settingsTaken, unitReg_settingsTaken s u v (by simp [R.CRC_EXPECT, R.CRC_CTRL])]

theorem mismatchShown_flags {s : State} (hs : mapSorted s.regs = true) {u : Nat} (hu : u < 8) :
    flagF (mismatchShown s u) (R.CRC_STATUS u) F.CRC_STATUS_MISMATCH = true ∧ bitF (mismatchShown s u) R.CRC_EVENTS F.CRC_EVENTS_MISMATCH u = true := by
  refine ⟨?_, bitF_setBitF_same (setF_sorted hs _ _ _) _ _ _ (by decide) (show 8 + u ≤ 15 by omega)⟩
  rw [flagF, mismatchShown, setBitF, getF_setF_other _ _ _ _ (crcRegs_not_events u).1, getF_setF_same hs _ _ _ (by decide) (by decide)]
  rfl

theorem value_mismatchShown (s : State) (u : Nat) : rd (mismatchShown s u) (R.CRC_VALUE u) = rd s (R.CRC_VALUE u) :=
  (onlyRegs_setBitF _ _ _ _ _ _ (by simpa using (crcRegs_not_events u).2)).trans (rd_setF_other s _ _ (by simp [R.CRC_VALUE, R.CRC_STATUS]))

theorem mem_of_onlyLog {s t : State} (h : OnlyLog s t) : t.mem = s.mem := by
  obtain ⟨-, hrest⟩ := h
  rw [hrest]

theorem exec_crcData_feeds {s : State} {u : Nat} (v : Word) (hu : u < 8) (hheld : unitHeld s u = false) (hidle : unitBusy s u = false)
    (hlow : 1 ≤ getF s (R.CRC_CTRL u) F.CRC_CTRL_FEED_BYTES) (hhigh : getF s (R.CRC_CTRL u) F.CRC_CTRL_FEED_BYTES ≤ 8) :
    exec (.crcData u 8 v) s = .next (unitFeed s u (natLe (getF s (R.CRC_CTRL u) F.CRC_CTRL_FEED_BYTES) v.toNat)) := by
  refine (done_onlyIf (by simpa using hu)).trans (congrArg done ?_)
  unfold writeCrcData
  dsimp only
  rw [if_neg (by simp [hheld]), if_neg (by simp [hidle]; omega)]

theorem exec_crcData_refused {s : State} {u w : Nat} (v : Word) (hu : u < 8) (hheld : unitHeld s u = false)
    (h : unitBusy s u = true ∨ getF s (R.CRC_CTRL u) F.CRC_CTRL_FEED_BYTES = 0 ∨ 8 < getF s (R.CRC_CTRL u) F.CRC_CTRL_FEED_BYTES ∨ w ≠ 8) :
    exec (.crcData u w v) s = .next (refuseAs s (R.CRC_DATA u, w, v.toNat)) := by
  refine (done_onlyIf (by simpa using hu)).trans (congrArg done ?_)
  unfold writeCrcData
  dsimp only
  rw [if_neg (by simp [hheld]), if_pos (by simpa [or_assoc] using h)]

/-- Settles O56: CHECK compares on the settings taken, which change neither side of the comparison; CRC_DATA writes VALUE alone. -/
theorem checkValueCompareAndFeed : Obligations.CheckValueCompareAndFeed := by
  unfold Obligations.CheckValueCompareAndFeed
  refine ⟨fun s u v _ hu hgo hstop hcheck hheld hidle heq => ?_, fun s u v ⟨_, hs, _⟩ hu hgo hstop hcheck hheld hidle hne => ?_,
    fun s u n v ⟨_, hs, _⟩ hu hheld hidle hn hlow hhigh => ?_, fun s u w v hu hheld h => ⟨_, exec_crcData_refused v hu hheld h, rfl⟩⟩
  · have hexec := exec_crcCheck_of_idle hu hgo hstop hcheck hheld hidle
    rw [unitCompare_of_eq ((unitResult_eq_expect_settingsTaken s u v).2 heq)] at hexec
    exact ⟨_, hexec, onlyListed_settingsTaken s u v (by simp)⟩
  · have hlog := unitCompare_of_ne (mt (unitResult_eq_expect_settingsTaken s u v).1 hne)
    obtain ⟨hstatus, hvalue⟩ := crcRegs_not_logRegs u
    obtain ⟨hmismatch, hevent⟩ := mismatchShown_flags (settingsTaken_sorted hs u v) hu
    have hregs := hlog.1
    refine ⟨_, exec_crcCheck_of_idle hu hgo hstop hcheck hheld hidle, (flagF_of_onlyRegs hregs _ hstatus).trans hmismatch, ?_, ?_, (mem_of_onlyLog hlog :)⟩
    · rw [bitF, getF_of_onlyRegs hregs _ (by decide)]
      exact hevent
    · rw [hregs _ hvalue, value_mismatchShown, onlyRegs_settingsTaken s u v _ (by simp [R.CRC_VALUE, R.CRC_CTRL])]
  · subst hn
    exact ⟨_, exec_crcData_feeds v hu hheld hidle hlow hhigh, rd_wr_same hs _ _, (onlyListed_refl _ s).wr_mem _ (by simp)⟩

end Sys2Proof.Machine
end

section
/-!
The pages and the upkeep of the HBM: retirement (12 R344, R345, R360), donation (R346, R361), the governors (R350, R365) and the patrol scrub (R351).
-/
namespace Sys2Proof.Machine

/-- What every application of a fold's function leaves, the fold leaves. -/
theorem foldl_leaves {α β : Type} (g : State → α) {f : State → β → State} (hf : ∀ s b, g (f s b) = g s) (s : State) (l : List β) : g (l.foldl f s) = g s :=
  List.foldlRecOn (motive := fun t => g t = g s) l f rfl fun t ht b _ => (hf t b).trans ht

theorem rd_of_regs {s t : State} (h : t.regs = s.regs) (a : Nat) : rd t a = rd s a := by
  rw [rd, rd, h]

/-! ### The state in which a command's accesses are made (R348), and what its end takes away -/

theorem applyFlips_hbm (s : State) (ups : List Upset) : (applyFlips s ups).hbm = s.hbm := by
  unfold applyFlips
  refine foldl_leaves State.hbm ?_ s ups
  intro t u
  cases u <;> rfl

theorem scanState_hbm (s : State) (ups : List Upset) : (scanState s ups).hbm = { s.hbm with cls := 4 } :=
  applyFlips_hbm { s with hbm := { s.hbm with cls := 4 } } ups

theorem scanState_sorted {s : State} (hs : mapSorted s.regs = true) (ups : List Upset) : mapSorted (scanState s ups).regs = true := by
  rwa [scanState_regs]

theorem flagF_scanState (s : State) (ups : List Upset) (a : Nat) (f : RF) : flagF (scanState s ups) a f = flagF s a f := by
  rw [flagF, getF, rd_scanState, flagF, getF]

theorem releasing_scanState (s : State) (ups : List Upset) : releasing (scanState s ups) = releasing s := by
  rw [releasing, getF, rd_scanState, releasing, getF]

theorem scanLeft_regs (t : State) : (scanLeft t).regs = t.regs := rfl

theorem getF_scanLeft (t : State) (a : Nat) (f : RF) : getF (scanLeft t) a f = getF t a f := rfl

theorem flashWrite_scanLeft (t : State) : (scanLeft t).hbm.flashWrite = t.hbm.flashWrite := rfl

theorem flagF_scanLeft (t : State) (a : Nat) (f : RF) : flagF (scanLeft t) a f = flagF t a f := rfl

/-! ### The operands of HBM_RETIRE and HBM_DONATE, which lie alike in both registers (R360, R361) -/

/-- A register of a page operation with the operands of a write taken: stack, donor, and the frame or the target page. -/
def operandsTaken (s : State) (a : Nat) (v : Word) : State :=
  setF (setF (setF s a F.HBM_RETIRE_STACK (fld v 50 48)) a F.HBM_RETIRE_DONOR (fld v 30 16)) a F.HBM_RETIRE_FRAME (fld v 14 0)

theorem operandsTaken_sorted {s : State} (hs : mapSorted s.regs = true) (a : Nat) (v : Word) : mapSorted (operandsTaken s a v).regs = true :=
  setF_sorted (setF_sorted (setF_sorted hs _ _ _) _ _ _) _ _ _

theorem onlyListed_operandsTaken (s : State) (a : Nat) (v : Word) {l : List Nat} (ha : a ∈ l) : OnlyListed l s (operandsTaken s a v) :=
  (((onlyListed_refl l s).setF_mem _ _ ha).setF_mem _ _ ha).setF_mem _ _ ha

theorem operandsTaken_hbm (s : State) (a : Nat) (v : Word) : (operandsTaken s a v).hbm = s.hbm :=
  (setF_hbm _ _ _ _).trans ((setF_hbm _ _ _ _).trans (setF_hbm _ _ _ _))

/-- The three operands read as written. -/
theorem operandsTaken_fields {s : State} (hs : mapSorted s.regs = true) (a : Nat) (v : Word) :
    getF (operandsTaken s a v) a F.HBM_RETIRE_STACK = fld v 50 48 ∧ getF (operandsTaken s a v) a F.HBM_RETIRE_DONOR = fld v 30 16 ∧
      getF (operandsTaken s a v) a F.HBM_RETIRE_FRAME = fld v 14 0 := by
  have hstack := setF_sorted hs a F.HBM_RETIRE_STACK (fld v 50 48)
  have hdonor := setF_sorted hstack a F.HBM_RETIRE_DONOR (fld v 30 16)
  unfold operandsTaken
  refine ⟨?_, ?_, ?_⟩
  · rw [getF_setF_field hdonor _ _ _ _ (by decide) (by decide) (by decide), getF_setF_field hstack _ _ _ _ (by decide) (by decide) (by decide),
      getF_setF_same hs _ _ _ (by decide) (by decide)]
    exact Nat.mod_eq_of_lt (fld_lt v 50 48)
  · rw [getF_setF_field hdonor _ _ _ _ (by decide) (by decide) (by decide), getF_setF_same hstack _ _ _ (by decide) (by decide)]
    exact Nat.mod_eq_of_lt (fld_lt v 30 16)
  · rw [getF_setF_same hdonor _ _ _ (by decide) (by decide)]
    exact Nat.mod_eq_of_lt (fld_lt v 14 0)

/-- GO and RESULT lie above the operands. -/
theorem getF_operandsTaken_above {s : State} (hs : mapSorted s.regs = true) (a : Nat) (v : Word) {f : RF} (hf : 50 < f.lo) :
    getF (operandsTaken s a v) a f = getF s a f := by
  have hstack := setF_sorted hs a F.HBM_RETIRE_STACK (fld v 50 48)
  have hdonor := setF_sorted hstack a F.HBM_RETIRE_DONOR (fld v 30 16)
  rw [operandsTaken, getF_setF_field hdonor _ _ _ _ (by decide) (by decide) (.inr (Nat.lt_trans (by decide) hf)),
    getF_setF_field hstack _ _ _ _ (by decide) (by decide) (.inr (Nat.lt_trans (by decide) hf)), getF_setF_field hs _ _ _ _ (by decide) (by decide) (.inr hf)]

theorem go_operandsTaken {s : State} (hs : mapSorted s.regs = true) {a : Nat} (v : Word) (hidle : flagF s a F.HBM_RETIRE_GO = false) :
    flagF (operandsTaken s a v) a F.HBM_RETIRE_GO = false := by
  rwa [flagF, getF_operandsTaken_above hs a v (by decide)]

/-- A page operation that ends with RESULT r: RESULT reads r, and GO reads as before. -/
theorem resultGiven_fields {s : State} (hs : mapSorted s.regs = true) (a : Nat) {r : Nat} (hr : r < 8) :
    getF (setF s a F.HBM_RETIRE_RESULT r) a F.HBM_RETIRE_RESULT = r ∧ flagF (setF s a F.HBM_RETIRE_RESULT r) a F.HBM_RETIRE_GO = flagF s a F.HBM_RETIRE_GO := by
  refine ⟨(getF_setF_same hs _ _ _ (by decide) (by decide)).trans (Nat.mod_eq_of_lt hr), ?_⟩
  rw [flagF, getF_setF_field hs _ _ _ _ (by decide) (by decide) (by decide), flagF]

theorem goGiven_flag {s : State} (hs : mapSorted s.regs = true) (a : Nat) (b : Bool) : flagF (setF s a F.HBM_RETIRE_GO (b2n b)) a F.HBM_RETIRE_GO = b := by
  rw [flagF, getF_setF_same hs _ _ _ (by decide) (by decide)]
  cases b <;> rfl

/-! ### Retirement (R344, R345) -/

theorem retireRefusal_lt (s : State) (k f d : Nat) : retireRefusal s k f d < 8 := by
  unfold retireRefusal
  split
  · decide
  · split
    · decide
    · split <;> decide

theorem retireArgs_operandsTaken {s : State} (hs : mapSorted s.regs = true) (v : Word) :
    retireArgs (operandsTaken s R.HBM_RETIRE v) = (fld v 50 48, fld v 14 0, fld v 30 16) := by
  obtain ⟨hstack, hdonor, hframe⟩ := operandsTaken_fields hs R.HBM_RETIRE v
  rw [retireArgs, hstack, hdonor, hframe]

/-- A retirement is refused for the record and the page map alone. -/
theorem retireRefusal_of_hbm {s t : State} (hretired : t.hbm.retired = s.hbm.retired) (hpages : t.hbm.pages = s.hbm.pages) (k f d : Nat) :
    retireRefusal t k f d = retireRefusal s k f d := by
  have hlist : retiredOf t k = retiredOf s k := by rw [retiredOf, retiredOf, hretired]
  have hframe (p : Nat) : frameOf t k p = frameOf s k p := by rw [frameOf, frameOf, hpages]
  have hpage : pageOf t k f = pageOf s k f := by rw [pageOf, pageOf, hframe, hpages]
  simp only [retireRefusal, hretired, hlist, hframe, hpage]

theorem retireOperands_eq (s : State) (v : Word) :
    setF (setF (setF s R.HBM_RETIRE F.HBM_RETIRE_STACK (fld v 50 48)) R.HBM_RETIRE F.HBM_RETIRE_DONOR (fld v 30 16)) R.HBM_RETIRE F.HBM_RETIRE_FRAME (fld v 14 0) =
      operandsTaken s R.HBM_RETIRE v := rfl

theorem writeRetire_of_noGo {s : State} {v : Word} (hidle : flagF s R.HBM_RETIRE F.HBM_RETIRE_GO = false) (hgo : bitW v 63 = false) :
    writeRetire s v = operandsTaken s R.HBM_RETIRE v := by
  simp only [writeRetire, hidle, hgo, retireOperands_eq, Bool.false_eq_true, if_false, Bool.not_false, if_true]

theorem writeRetire_of_refusal {s : State} (hs : mapSorted s.regs = true) {v : Word} (hidle : flagF s R.HBM_RETIRE F.HBM_RETIRE_GO = false) (hgo : bitW v 63 = true)
    (hwhy : retireRefusal s (fld v 50 48) (fld v 14 0) (fld v 30 16) ≠ 0) :
    writeRetire s v = setF (operandsTaken s R.HBM_RETIRE v) R.HBM_RETIRE F.HBM_RETIRE_RESULT (retireRefusal s (fld v 50 48) (fld v 14 0) (fld v 30 16)) := by
  have hargs := retireArgs_operandsTaken hs v
  have hhbm := operandsTaken_hbm s R.HBM_RETIRE v
  have hrefusal := retireRefusal_of_hbm (congrArg Hbm.retired hhbm) (congrArg Hbm.pages hhbm) (fld v 50 48) (fld v 14 0) (fld v 30 16)
  simp only [writeRetire, hidle, hgo, retireOperands_eq, hargs, hrefusal, Bool.false_eq_true, if_false, Bool.not_true, bne_iff_ne, hwhy, ne_eq, not_false_eq_true, if_true]

/-- HBM_RETIRE with a retirement in progress. -/
def retireStarted (s : State) (v : Word) : State :=
  setF (setF (operandsTaken s R.HBM_RETIRE v) R.HBM_RETIRE F.HBM_RETIRE_GO 1) R.HBM_RETIRE F.HBM_RETIRE_RESULT 1

theorem retireStarted_eq (s : State) (v : Word) :
    setF (setF (operandsTaken s R.HBM_RETIRE v) R.HBM_RETIRE F.HBM_RETIRE_GO 1) R.HBM_RETIRE F.HBM_RETIRE_RESULT 1 = retireStarted s v := rfl

theorem onlyListed_retireStarted (s : State) (v : Word) : OnlyListed [R.HBM_RETIRE] s (retireStarted s v) :=
  ((onlyListed_operandsTaken s R.HBM_RETIRE v List.mem_cons_self).setF_mem _ _ List.mem_cons_self).setF_mem _ _ List.mem_cons_self

theorem writeRetire_of_accepted {s : State} (hs : mapSorted s.regs = true) {v : Word} (hidle : flagF s R.HBM_RETIRE F.HBM_RETIRE_GO = false) (hgo : bitW v 63 = true)
    (hwhy : retireRefusal s (fld v 50 48) (fld v 14 0) (fld v 30 16) = 0) (hfree : releasing s = false) :
    writeRetire s v = retireMove (retireStarted s v) (fld v 50 48) (fld v 14 0) (fld v 30 16) := by
  have hargs := retireArgs_operandsTaken hs v
  have hhbm := operandsTaken_hbm s R.HBM_RETIRE v
  have hrefusal := retireRefusal_of_hbm (congrArg Hbm.retired hhbm) (congrArg Hbm.pages hhbm) (fld v 50 48) (fld v 14 0) (fld v 30 16)
  have hfree' : releasing (retireStarted s v) = false := by
    rwa [releasing, getF_of_onlyRegs (onlyListed_retireStarted s v).1 _ (by decide)]
  simp only [writeRetire, hidle, hgo, retireOperands_eq, hargs, hrefusal, hwhy, retireStarted_eq, hfree', Bool.false_eq_true, if_false, Bool.not_true, bne_self_eq_false]

theorem retireStarted_fields {s : State} (hs : mapSorted s.regs = true) (v : Word) :
    getF (retireStarted s v) R.HBM_RETIRE F.HBM_RETIRE_RESULT = 1 ∧ flagF (retireStarted s v) R.HBM_RETIRE F.HBM_RETIRE_GO = true := by
  have htaken := operandsTaken_sorted hs R.HBM_RETIRE v
  obtain ⟨hresult, hgo⟩ := resultGiven_fields (setF_sorted htaken R.HBM_RETIRE F.HBM_RETIRE_GO 1) R.HBM_RETIRE (r := 1) (by decide)
  exact ⟨hresult, hgo.trans (goGiven_flag htaken R.HBM_RETIRE true)⟩

/-! ### The move of a retirement (R344) -/

theorem setFrame_regs (s : State) (k p : Nat) (f : Option Nat) : (setFrame s k p f).regs = s.regs := by
  rw [setFrame]

theorem onlyRegs_moved (s : State) (pa n : Nat) : OnlyRegs [R.HBM_GOV_BYTES s.hbm.cls] s (moved s pa n) := by
  unfold moved
  split
  · exact onlyRegs_incF s _ _ _
  · exact fun _ _ => rfl

theorem onlyRegs_moveFrame (s : State) (k f g : Nat) : OnlyRegs [R.HBM_GOV_BYTES s.hbm.cls] s (moveFrame s k f g) := by
  intro a ha
  unfold moveFrame
  extract_lets src dst bad copied counted cleared
  have hcleared : cleared.regs = counted.regs := foldl_leaves State.regs (f := unpoison) (fun _ _ => rfl) counted _
  have hpoisoned : (bad.foldl (fun s b => poisonBlock s (b - src + dst)) cleared).regs = cleared.regs :=
    foldl_leaves State.regs (f := fun s b => poisonBlock s (b - src + dst)) (fun _ _ => rfl) cleared _
  exact (rd_of_regs (hpoisoned.trans hcleared) a).trans (onlyRegs_moved copied _ _ a ha)

theorem meetFrame_of_noUpsets {s : State} (h : s.upsets = []) (k f : Nat) : meetFrame s k f = s := by
  rw [meetFrame, meetEcc, h, List.foldl_nil]

/-- The move of a retirement that meets no upset counts the bytes moved, and writes no other register. -/
theorem onlyRegs_retireMove {s : State} (h : s.upsets = []) (k f d : Nat) : OnlyRegs [R.HBM_GOV_BYTES s.hbm.cls] s (retireMove s k f d) := by
  intro a ha
  have hmoved (g : Nat) : rd (moveFrame (meetFrame s k f) k f g) a = rd s a := by
    rw [meetFrame_of_noUpsets h]
    exact onlyRegs_moveFrame s k f g a ha
  unfold retireMove
  extract_lets paged
  have hpaged : rd paged a = rd s a := by
    subst paged
    split
    · rfl
    · split
      · exact rd_of_regs (setFrame_regs s k _ _) a
      · exact (rd_of_regs ((setFrame_regs _ k _ _).trans (setFrame_regs _ k _ _)) a).trans (hmoved _)
  exact (rd_of_regs (s := paged) rfl a).trans hpaged

theorem retireMove_flashWrite (s : State) (k f d : Nat) : (retireMove s k f d).hbm.flashWrite = some (k, f) := rfl

theorem retireRefusal_scanState (s : State) (ups : List Upset) (k f d : Nat) : retireRefusal (scanState s ups) k f d = retireRefusal s k f d :=
  retireRefusal_of_hbm (by rw [scanState_hbm]) (by rw [scanState_hbm]) k f d

theorem exec_hbmRetire (s : State) (v : Word) : exec (.hbmRetire v []) s = .next (scanLeft (writeRetire (scanState s []) v)) := rfl

/-- A write of HBM_RETIRE that changes some registers alone leaves, when its command is done, memory as it was and no traffic class set. -/
theorem scanLeft_of_onlyListed {s t : State} {l : List Nat} (h : OnlyListed l (scanState s []) t) :
    OnlyRegs l s (scanLeft t) ∧ (scanLeft t).mem = s.mem ∧ (scanLeft t).hbm = { s.hbm with cls := 0 } := by
  obtain ⟨hregs, hrest⟩ := h
  refine ⟨fun a ha => (hregs a ha).trans (rd_scanState s [] a), ?_, ?_⟩
  · rw [hrest]; rfl
  · rw [hrest]; rfl

theorem hbmRetire_takesOperands {s : State} (hs : mapSorted s.regs = true) {v : Word} (hidle : flagF s R.HBM_RETIRE F.HBM_RETIRE_GO = false) (hgo : bitW v 63 = false) :
    Completes (.hbmRetire v []) s fun t => getF t R.HBM_RETIRE F.HBM_RETIRE_STACK = fld v 50 48 ∧ getF t R.HBM_RETIRE F.HBM_RETIRE_DONOR = fld v 30 16 ∧
      getF t R.HBM_RETIRE F.HBM_RETIRE_FRAME = fld v 14 0 ∧ flagF t R.HBM_RETIRE F.HBM_RETIRE_GO = false ∧ OnlyRegs [R.HBM_RETIRE] s t ∧ t.mem = s.mem ∧
      t.hbm = { s.hbm with cls := 0 } := by
  have hsorted := scanState_sorted hs []
  have hidle' := (flagF_scanState s [] R.HBM_RETIRE F.HBM_RETIRE_GO).trans hidle
  have hexec := exec_hbmRetire s v
  rw [writeRetire_of_noGo hidle' hgo] at hexec
  obtain ⟨hstack, hdonor, hframe⟩ := operandsTaken_fields hsorted R.HBM_RETIRE v
  exact ⟨_, hexec, (getF_scanLeft _ _ _).trans hstack, (getF_scanLeft _ _ _).trans hdonor, (getF_scanLeft _ _ _).trans hframe,
    (flagF_scanLeft _ _ _).trans (go_operandsTaken hsorted v hidle'), scanLeft_of_onlyListed (onlyListed_operandsTaken _ _ v List.mem_cons_self)⟩

theorem hbmRetire_refuses {s : State} (hs : mapSorted s.regs = true) {v : Word} (hidle : flagF s R.HBM_RETIRE F.HBM_RETIRE_GO = false) (hgo : bitW v 63 = true)
    (hwhy : retireRefusal s (fld v 50 48) (fld v 14 0) (fld v 30 16) ≠ 0) :
    Completes (.hbmRetire v []) s fun t => getF t R.HBM_RETIRE F.HBM_RETIRE_RESULT = retireRefusal s (fld v 50 48) (fld v 14 0) (fld v 30 16) ∧
      flagF t R.HBM_RETIRE F.HBM_RETIRE_GO = false ∧ OnlyRegs [R.HBM_RETIRE] s t ∧ t.mem = s.mem ∧ t.hbm = { s.hbm with cls := 0 } := by
  have hsorted := scanState_sorted hs []
  have hidle' := (flagF_scanState s [] R.HBM_RETIRE F.HBM_RETIRE_GO).trans hidle
  have hexec := exec_hbmRetire s v
  rw [writeRetire_of_refusal hsorted hidle' hgo (by rwa [retireRefusal_scanState]), retireRefusal_scanState] at hexec
  obtain ⟨hresult, hsame⟩ := resultGiven_fields (operandsTaken_sorted hsorted R.HBM_RETIRE v) R.HBM_RETIRE (retireRefusal_lt s (fld v 50 48) (fld v 14 0) (fld v 30 16))
  exact ⟨_, hexec, (getF_scanLeft _ _ _).trans hresult, (flagF_scanLeft _ _ _).trans (hsame.trans (go_operandsTaken hsorted v hidle')),
    scanLeft_of_onlyListed ((onlyListed_operandsTaken _ _ v List.mem_cons_self).setF_mem _ _ List.mem_cons_self)⟩

theorem hbmRetire_starts {s : State} (hs : mapSorted s.regs = true) {v : Word} (hidle : flagF s R.HBM_RETIRE F.HBM_RETIRE_GO = false) (hgo : bitW v 63 = true)
    (hwhy : retireRefusal s (fld v 50 48) (fld v 14 0) (fld v 30 16) = 0) (hfree : releasing s = false) :
    Completes (.hbmRetire v []) s fun t => getF t R.HBM_RETIRE F.HBM_RETIRE_RESULT = 1 ∧ flagF t R.HBM_RETIRE F.HBM_RETIRE_GO = true ∧
      t.hbm.flashWrite = some (fld v 50 48, fld v 14 0) := by
  have hsorted := scanState_sorted hs []
  have hexec := exec_hbmRetire s v
  rw [writeRetire_of_accepted hsorted ((flagF_scanState s [] R.HBM_RETIRE F.HBM_RETIRE_GO).trans hidle) hgo (by rwa [retireRefusal_scanState]) (by rwa [releasing_scanState])]
    at hexec
  obtain ⟨-, hrest⟩ := onlyListed_retireStarted (scanState s []) v
  have hupsets : (retireStarted (scanState s []) v).upsets = [] := by rw [hrest]; rfl
  have hcls : (retireStarted (scanState s []) v).hbm.cls = 4 := by rw [hrest]; rfl
  have hregs := onlyRegs_retireMove hupsets (fld v 50 48) (fld v 14 0) (fld v 30 16)
  rw [hcls] at hregs
  obtain ⟨hresult, hflag⟩ := retireStarted_fields hsorted v
  refine ⟨_, hexec, ?_, ?_, (flashWrite_scanLeft _).trans (retireMove_flashWrite (retireStarted (scanState s []) v) (fld v 50 48) (fld v 14 0) (fld v 30 16))⟩
  · rw [getF_scanLeft, getF_of_onlyRegs hregs _ (by decide), hresult]
  · rw [flagF_scanLeft, flagF_of_onlyRegs hregs _ (by decide), hflag]

/-! ### The end of a retirement (R344, R345) -/

/-- The flash write of a retirement has ended: GO reads 0. -/
def retireEnded (s : State) : State := setF { s with hbm := { s.hbm with flashWrite := none } } R.HBM_RETIRE F.HBM_RETIRE_GO 0

theorem retireEnded_sorted {s : State} (hs : mapSorted s.regs = true) : mapSorted (retireEnded s).regs = true :=
  setF_sorted (s := { s with hbm := { s.hbm with flashWrite := none } }) hs _ _ _

theorem retireEnded_go {s : State} (hs : mapSorted s.regs = true) : flagF (retireEnded s) R.HBM_RETIRE F.HBM_RETIRE_GO = false :=
  goGiven_flag (s := { s with hbm := { s.hbm with flashWrite := none } }) hs _ false

/-- The frame in the record, here and in flash. -/
def frameRecorded (s : State) (k f : Nat) : State :=
  let rs := s.hbm.retired ++ [(k, f)]
  { s with hbm := { s.hbm with retired := rs }, flash := { s.flash with retired := flashPut s.flash.retired rs } }

theorem exec_retirementEnd_recorded {s : State} {k f : Nat} (h : s.hbm.flashWrite = some (k, f)) :
    exec (.retirementEnd true) s = .next (showRetired (setF (frameRecorded (retireEnded s) k f) R.HBM_RETIRE F.HBM_RETIRE_RESULT 0) k) := by
  show execRetirementEnd true s = _
  simp only [execRetirementEnd, h, if_true, done, retireEnded, frameRecorded]

theorem exec_retirementEnd_failed {s : State} {k f : Nat} (h : s.hbm.flashWrite = some (k, f)) :
    exec (.retirementEnd false) s = .next (note (setF (retireEnded s) R.HBM_RETIRE F.HBM_RETIRE_RESULT 5) (srcOf 1 k) 0x01 clsInfo k 0 0) := by
  show execRetirementEnd false s = _
  simp only [execRetirementEnd, h, Bool.false_eq_true, if_false, done, retireEnded]

theorem stackStatus_ne_retire {k : Nat} (hk : k < 8) : R.HBM_RETIRE ≠ R.HBM_STACK_STATUS k := by
  simp only [R.HBM_RETIRE, R.HBM_STACK_STATUS]
  omega

theorem retireEnded_hbm (s : State) : (retireEnded s).hbm = { s.hbm with flashWrite := none } := setF_hbm _ _ _ _

theorem frameRecorded_hbm (s : State) (k f : Nat) : (frameRecorded s k f).hbm = { s.hbm with retired := s.hbm.retired ++ [(k, f)] } := rfl

theorem frameRecorded_regs (s : State) (k f : Nat) : (frameRecorded s k f).regs = s.regs := rfl

/-- Nothing but registers, the HBM's own state and flash differs. -/
def OnlyRecord (s t : State) : Prop := t = { s with regs := t.regs, hbm := t.hbm, flash := t.flash }

theorem OnlyRecord.trans {s t u : State} (h : OnlyRecord s t) (k : OnlyRecord t u) : OnlyRecord s u :=
  Eq.trans k (by rw [h])

theorem onlyRecord_setF (s : State) (a : Nat) (f : RF) (v : Nat) : OnlyRecord s (setF s a f v) := rfl

theorem onlyRecord_retireEnded (s : State) : OnlyRecord s (retireEnded s) := rfl

theorem onlyRecord_frameRecorded (s : State) (k f : Nat) : OnlyRecord s (frameRecorded s k f) := rfl

theorem onlyRegs_retireEnded (s : State) : OnlyRegs [R.HBM_RETIRE] s (retireEnded s) :=
  fun _ ha => rd_setF_other { s with hbm := { s.hbm with flashWrite := none } } _ _ (by simpa using ha)

theorem retirementEnd_records {s : State} (hs : mapSorted s.regs = true) {k f : Nat} (hk : k < 8) (hwrite : s.hbm.flashWrite = some (k, f)) :
    Completes (.retirementEnd true) s fun t => t.hbm = { s.hbm with flashWrite := none, retired := s.hbm.retired ++ [(k, f)] } ∧
      getF t R.HBM_RETIRE F.HBM_RETIRE_RESULT = 0 ∧ flagF t R.HBM_RETIRE F.HBM_RETIRE_GO = false ∧ OnlyRegs [R.HBM_RETIRE, R.HBM_STACK_STATUS k] s t ∧
      t = { s with regs := t.regs, hbm := t.hbm, flash := t.flash } := by
  have hsorted : mapSorted (frameRecorded (retireEnded s) k f).regs = true := by rw [frameRecorded_regs, retireEnded_sorted hs]
  obtain ⟨hresult, hsame⟩ := resultGiven_fields hsorted R.HBM_RETIRE (r := 0) (by decide)
  have hne := stackStatus_ne_retire hk
  refine ⟨_, exec_retirementEnd_recorded hwrite, ?_, ?_, ?_, fun a ha => ?_,
    (((onlyRecord_retireEnded s).trans (onlyRecord_frameRecorded _ k f)).trans (onlyRecord_setF _ _ _ _)).trans (onlyRecord_setF _ _ _ _)⟩
  · rw [showRetired, setF_hbm, setF_hbm, frameRecorded_hbm, retireEnded_hbm]
  · rw [showRetired, getF_setF_other _ _ _ _ hne, hresult]
  · rw [showRetired, flagF, getF_setF_other _ _ _ _ hne, ← flagF, hsame, flagF, getF, rd_of_regs (frameRecorded_regs _ _ _)]
    exact retireEnded_go hs
  · have ha' : a ≠ R.HBM_RETIRE ∧ a ≠ R.HBM_STACK_STATUS k := by simpa using ha
    obtain ⟨hretire, hstatus⟩ := ha'
    rw [showRetired, rd_setF_other _ _ _ hstatus, rd_setF_other _ _ _ hretire, rd_of_regs (frameRecorded_regs _ _ _)]
    exact onlyRegs_retireEnded s a (by simpa using hretire)

theorem retirementEnd_fails {s : State} (hs : mapSorted s.regs = true) {k f : Nat} (hwrite : s.hbm.flashWrite = some (k, f)) :
    Completes (.retirementEnd false) s fun t => t.hbm = { s.hbm with flashWrite := none } ∧ getF t R.HBM_RETIRE F.HBM_RETIRE_RESULT = 5 ∧
      flagF t R.HBM_RETIRE F.HBM_RETIRE_GO = false ∧ t.flash = s.flash ∧ t.mem = s.mem := by
  obtain ⟨hresult, hsame⟩ := resultGiven_fields (retireEnded_sorted hs) R.HBM_RETIRE (r := 5) (by decide)
  have hlog : OnlyLog (setF (retireEnded s) R.HBM_RETIRE F.HBM_RETIRE_RESULT 5) (note (setF (retireEnded s) R.HBM_RETIRE F.HBM_RETIRE_RESULT 5) (srcOf 1 k) 0x01 clsInfo k 0 0) :=
    onlyLog_logEvent _ _ _ _ _ _ _
  obtain ⟨hregs, hrest⟩ := hlog
  refine ⟨_, exec_retirementEnd_failed hwrite, ?_, (getF_of_onlyRegs hregs _ (by decide)).trans hresult,
    (flagF_of_onlyRegs hregs _ (by decide)).trans (hsame.trans (retireEnded_go hs)), ?_, ?_⟩
  · exact (congrArg State.hbm hrest).trans ((setF_hbm (retireEnded s) R.HBM_RETIRE F.HBM_RETIRE_RESULT 5).trans (retireEnded_hbm s))
  · exact (congrArg State.flash hrest).trans ((setF_flash (retireEnded s) R.HBM_RETIRE F.HBM_RETIRE_RESULT 5).trans (setF_flash _ _ _ _))
  · exact (congrArg State.mem hrest).trans ((setF_mem (retireEnded s) R.HBM_RETIRE F.HBM_RETIRE_RESULT 5).trans (setF_mem _ _ _ _))

/-! ### Donation (R346, R361) -/

theorem donateOperands_eq (s : State) (v : Word) :
    setF (setF (setF s R.HBM_DONATE F.HBM_DONATE_STACK (fld v 50 48)) R.HBM_DONATE F.HBM_DONATE_DONOR (fld v 30 16)) R.HBM_DONATE F.HBM_DONATE_TARGET (fld v 14 0) =
      operandsTaken s R.HBM_DONATE v := rfl

theorem donateOperands_fields {s : State} (hs : mapSorted s.regs = true) (v : Word) :
    getF (operandsTaken s R.HBM_DONATE v) R.HBM_DONATE F.HBM_DONATE_STACK = fld v 50 48 ∧ getF (operandsTaken s R.HBM_DONATE v) R.HBM_DONATE F.HBM_DONATE_DONOR = fld v 30 16 ∧
      getF (operandsTaken s R.HBM_DONATE v) R.HBM_DONATE F.HBM_DONATE_TARGET = fld v 14 0 :=
  operandsTaken_fields hs R.HBM_DONATE v

theorem frameOf_operandsTaken (s : State) (a : Nat) (v : Word) (k p : Nat) : frameOf (operandsTaken s a v) k p = frameOf s k p := by
  rw [frameOf, operandsTaken_hbm, frameOf]

theorem exec_hbmDonate_of_fault {s : State} {v : Word} (hidle : flagF s R.HBM_DONATE F.HBM_DONATE_GO = false) (hgo : bitW v 63 = true)
    (h : 32704 ≤ fld v 14 0 ∨ 32704 ≤ fld v 30 16 ∨ frameOf s (fld v 50 48) (fld v 14 0) ≠ none ∨ frameOf s (fld v 50 48) (fld v 30 16) = none) :
    exec (.hbmDonate v) s = .next (setF (operandsTaken s R.HBM_DONATE v) R.HBM_DONATE F.HBM_DONATE_RESULT 4) := by
  show done (writeDonate s v) = _
  have hfault : (decide (fld v 14 0 ≥ 32704) || decide (fld v 30 16 ≥ 32704) || (frameOf s (fld v 50 48) (fld v 14 0)).isSome || (frameOf s (fld v 50 48) (fld v 30 16)).isNone) = true := by
    simpa [or_assoc, Option.isSome_iff_ne_none] using h
  simp only [writeDonate, hidle, hgo, donateOperands_eq, frameOf_operandsTaken, hfault, Bool.false_eq_true, if_false, Bool.not_true, if_true, done]

/-- The pages of a donation: the target has the donor's frame, and the donor none. -/
def frameGiven (s : State) (k p d g : Nat) : State := setFrame (setFrame s k p (some g)) k d none

/-- A donation done: every block of the frame is poisoned, RESULT and GO read 0. -/
def donated (s : State) (k p d g : Nat) : State :=
  setF (setF ((frameBlocks k g).foldl poisonBlock (frameGiven s k p d g)) R.HBM_DONATE F.HBM_DONATE_RESULT 0) R.HBM_DONATE F.HBM_DONATE_GO 0

theorem exec_hbmDonate_of_good {s : State} (hs : mapSorted s.regs = true) {v : Word} {g : Nat} (hidle : flagF s R.HBM_DONATE F.HBM_DONATE_GO = false) (hgo : bitW v 63 = true)
    (hp : fld v 14 0 < 32704) (hd : fld v 30 16 < 32704) (htarget : frameOf s (fld v 50 48) (fld v 14 0) = none) (hdonor : frameOf s (fld v 50 48) (fld v 30 16) = some g)
    (hfree : releasing s = false) : exec (.hbmDonate v) s = .next (donated (operandsTaken s R.HBM_DONATE v) (fld v 50 48) (fld v 14 0) (fld v 30 16) g) := by
  show done (writeDonate s v) = _
  obtain ⟨hk, hd', hp'⟩ := donateOperands_fields hs v
  have hfree' : releasing (operandsTaken s R.HBM_DONATE v) = false := by
    rwa [releasing, getF_of_onlyRegs (onlyListed_operandsTaken s R.HBM_DONATE v (l := [R.HBM_DONATE]) List.mem_cons_self).1 _ (by decide)]
  have hgood : (decide (fld v 14 0 ≥ 32704) || decide (fld v 30 16 ≥ 32704) || (none : Option Nat).isSome || (some g).isNone) = false := by
    simp [hp, hd]
  simp only [writeDonate, donate, hidle, hgo, donateOperands_eq, frameOf_operandsTaken, htarget, hdonor, hgood, hfree', hk, hd', hp', Bool.false_eq_true, if_false, Bool.not_true, done,
    donated, frameGiven]

theorem foldl_poisonBlock (s : State) (l : List Nat) : (l.foldl poisonBlock s).regs = s.regs ∧ (l.foldl poisonBlock s).mem = s.mem ∧ (l.foldl poisonBlock s).hbm = s.hbm :=
  ⟨foldl_leaves State.regs (f := poisonBlock) (fun _ _ => rfl) s l, foldl_leaves State.mem (f := poisonBlock) (fun _ _ => rfl) s l,
    foldl_leaves State.hbm (f := poisonBlock) (fun _ _ => rfl) s l⟩

theorem frameGiven_regs (s : State) (k p d g : Nat) : (frameGiven s k p d g).regs = s.regs :=
  (setFrame_regs _ _ _ _).trans (setFrame_regs _ _ _ _)

theorem donated_keeps (s : State) (k p d g : Nat) : OnlyRegs [R.HBM_DONATE] s (donated s k p d g) ∧ (donated s k p d g).mem = s.mem ∧
    (donated s k p d g).hbm.pages = mapPutD (some d) (mapPutD (some p) s.hbm.pages (k * 32768 + p) (some g)) (k * 32768 + d) none := by
  obtain ⟨hregs, hmem, hhbm⟩ := foldl_poisonBlock (frameGiven s k p d g) (frameBlocks k g)
  unfold donated
  refine ⟨fun a ha => ?_, ?_, ?_⟩
  · have hne : a ≠ R.HBM_DONATE := by simpa using ha
    rw [rd_setF_other _ _ _ hne, rd_setF_other _ _ _ hne]
    exact rd_of_regs (hregs.trans (frameGiven_regs s k p d g)) a
  · rw [setF_mem, setF_mem, hmem, frameGiven, setFrame, setFrame]
  · rw [setF_hbm, setF_hbm, hhbm, frameGiven, setFrame, setFrame]

theorem donated_fields {s : State} (hs : mapSorted s.regs = true) (k p d g : Nat) :
    getF (donated s k p d g) R.HBM_DONATE F.HBM_DONATE_RESULT = 0 ∧ flagF (donated s k p d g) R.HBM_DONATE F.HBM_DONATE_GO = false := by
  have hpoisoned : mapSorted ((frameBlocks k g).foldl poisonBlock (frameGiven s k p d g)).regs = true := by
    rwa [(foldl_poisonBlock _ _).1, frameGiven_regs]
  have hresult := setF_sorted hpoisoned R.HBM_DONATE F.HBM_DONATE_RESULT 0
  refine ⟨?_, goGiven_flag hresult _ false⟩
  rw [donated, getF_setF_field hresult _ _ _ _ (by decide) (by decide) (by decide)]
  exact (resultGiven_fields hpoisoned R.HBM_DONATE (by decide)).1

/-! ### Governors (R350, R365) -/

theorem exec_hbmGovWrite {s : State} {c : Nat} (v : Word) (hc : c < 6) : exec (.hbmGovWrite c v) s = .next (writeGov s c v) :=
  done_onlyIf (decide_eq_true hc)

/-! ### What the scrub of a granule leaves (R351) -/

/-- The scrub works in its traffic class, and its position holds w. -/
def ScrubAt (w : Word) (s : State) : Prop := rd s R.HBM_SCRUB_POS = w ∧ s.hbm.cls = 4

section
variable {w : Word} {s t : State}

theorem scrubAt_of_eq (h : ScrubAt w s) (hregs : t.regs = s.regs) (hhbm : t.hbm.cls = s.hbm.cls) : ScrubAt w t := by
  obtain ⟨hpos, hcls⟩ := h
  exact ⟨(rd_of_regs hregs _).trans hpos, hhbm.trans hcls⟩

theorem scrubAt_wr (h : ScrubAt w s) {a : Nat} (x : Word) (ha : R.HBM_SCRUB_POS ≠ a) : ScrubAt w (wr s a x) := by
  obtain ⟨hpos, hcls⟩ := h
  exact ⟨(rd_wr_other s x ha).trans hpos, (congrArg Hbm.cls (wr_hbm s a x)).trans hcls⟩

theorem scrubAt_setF (h : ScrubAt w s) {a : Nat} (f : RF) (v : Nat) (ha : R.HBM_SCRUB_POS ≠ a) : ScrubAt w (setF s a f v) := scrubAt_wr h _ ha

theorem scrubAt_incF (h : ScrubAt w s) {a : Nat} (f : RF) (d : Nat) (ha : R.HBM_SCRUB_POS ≠ a) : ScrubAt w (incF s a f d) := scrubAt_setF h _ _ ha

theorem scrubAt_ite {c : Prop} [Decidable c] (hs : ScrubAt w s) (ht : ScrubAt w t) : ScrubAt w (if c then s else t) := by
  split <;> assumption

theorem scrubAt_foldl {α : Type} {f : State → α → State} {l : List α} (hf : ∀ t, ∀ x ∈ l, ScrubAt w t → ScrubAt w (f t x)) (h : ScrubAt w s) :
    ScrubAt w (l.foldl f s) :=
  List.foldlRecOn l f h fun t ht x hx => hf t x hx ht

theorem scrubAt_onlyLog (h : ScrubAt w s) (hlog : OnlyLog s t) : ScrubAt w t := by
  obtain ⟨hpos, hcls⟩ := h
  obtain ⟨hregs, hrest⟩ := hlog
  refine ⟨(hregs _ (by decide)).trans hpos, ?_⟩
  rw [hrest]
  exact hcls

theorem scrubAt_logEvent (h : ScrubAt w s) (source code cls a0 a1 a2 : Nat) : ScrubAt w (logEvent s source code cls a0 a1 a2) :=
  scrubAt_onlyLog h (onlyLog_logEvent s source code cls a0 a1 a2)

/-! #### Frames sent for a repair (14 R400, 16 R485, 17 R508) -/

theorem scrubAt_pumpN (h : ScrubAt w s) (n p : Nat) : ScrubAt w (pumpN n s p) := by
  induction n generalizing s with
  | zero => exact h
  | succ n ih =>
    unfold pumpN
    split
    · exact ih (scrubAt_of_eq h rfl rfl)
    · exact h

theorem scrubAt_giveFrame (h : ScrubAt w s) (p : Nat) (f : SentFrame) : ScrubAt w (giveFrame s p f) :=
  scrubAt_pumpN (s := modPort s p fun x => { x with queue := x.queue ++ [f] }) (scrubAt_of_eq h (modPort_regs _ _ _) (congrArg Hbm.cls (modPort_hbm _ _ _))) _ p

theorem scrubAt_pickPort (h : ScrubAt w s) (gen dest cls : Nat) : ScrubAt w (pickPort s gen dest cls).2 := by
  unfold pickPort
  split
  · exact h
  · extract_lets counted fabric chosen
    have hcounted : ScrubAt w counted := by
      subst counted
      split
      · exact scrubAt_ite h (scrubAt_incF h _ _ (by decide))
      · exact h
    have hchosen : ScrubAt w chosen := scrubAt_of_eq hcounted rfl rfl
    split
    · exact hchosen
    · exact scrubAt_of_eq hchosen rfl rfl

theorem scrubAt_routeFrame (h : ScrubAt w s) (f : SentFrame) : ScrubAt w (routeFrame s f) := by
  unfold routeFrame
  extract_lets fwd
  split
  · split
    · exact scrubAt_giveFrame h _ _
    · exact scrubAt_of_eq h rfl rfl
  · have hpick := scrubAt_pickPort h f.gen f.dest f.cls
    split
    · rename_i hport
      rw [hport] at hpick
      exact scrubAt_giveFrame hpick _ _
    · rename_i t hport
      rw [hport] at hpick
      exact scrubAt_incF (s := { t with fab := { t.fab with noRoute := t.fab.noRoute ++ [f] } }) (scrubAt_of_eq hpick rfl rfl) _ _ (by decide)

theorem scrubAt_askReading (h : ScrubAt w s) (g pos stripe off : Nat) (fold : Bool) : ScrubAt w (askReading s g pos stripe off fold) := by
  unfold askReading
  split
  · exact scrubAt_routeFrame (scrubAt_of_eq h (takeFree_regs s) (congrArg Hbm.cls (takeFree_hbm s))) _
  · exact h

/-! #### The repair of a failed block (17 R509) -/

theorem scrubAt_startRead (h : ScrubAt w s) (why : ReadingFor) (g pos stripe off : Nat) (from_ lost : List Nat) :
    ScrubAt w (startRead s why g pos stripe off from_ lost) := by
  unfold startRead
  extract_lets n kg absent asked got work reckoning listed
  exact scrubAt_foldl (fun _ _ _ ht => scrubAt_askReading ht _ _ _ _ _) (s := listed) (scrubAt_of_eq h rfl rfl)

theorem scrubAt_showReckon (h : ScrubAt w s) : ScrubAt w (showReckon s) :=
  scrubAt_ite (scrubAt_setF h _ _ (by decide)) h

theorem scrubAt_loseBlock (h : ScrubAt w s) (a : Nat) : ScrubAt w (loseBlock s a) := by
  unfold loseBlock
  extract_lets counted reckoning
  have hcounted : ScrubAt w counted := scrubAt_incF h _ _ (by decide)
  exact scrubAt_showReckon (scrubAt_of_eq hcounted rfl rfl)

theorem scrubAt_repairBlock (h : ScrubAt w s) (a : Nat) : ScrubAt w (repairBlock s a) := by
  unfold repairBlock
  split
  · split
    · exact h
    · exact scrubAt_ite (scrubAt_loseBlock h a) (scrubAt_startRead h _ _ _ _ _ _ _)
  · exact h

theorem scrubAt_noteBlockErr (h : ScrubAt w s) (e : MemErr) (counter : Nat) : ScrubAt w (noteBlockErr s e counter) := by
  unfold noteBlockErr
  split
  · extract_lets src logged counted
    have hlogged : ScrubAt w logged := scrubAt_logEvent h _ _ _ _ _ _
    have hcounted : ScrubAt w counted :=
      scrubAt_ite (scrubAt_setF (scrubAt_setF (scrubAt_incF hlogged _ _ (by decide)) _ _ (by decide)) _ _ (by decide)) hlogged
    exact scrubAt_ite (scrubAt_of_eq hcounted rfl rfl) hcounted
  · exact h

theorem scrubAt_blockFailed (h : ScrubAt w s) (e : MemErr) (counter : Nat) : ScrubAt w (blockFailed s e counter) :=
  scrubAt_ite (scrubAt_repairBlock (scrubAt_noteBlockErr h e counter) _) (scrubAt_noteBlockErr h e counter)

/-! #### The errors met in a granule (R339, R340, R342) -/

theorem scrubPos_ne_counts {k : Nat} (hk : k < 8) : R.HBM_SCRUB_POS ≠ R.HBM_CE k ∧ R.HBM_SCRUB_POS ≠ R.HBM_UE k := by
  simp only [R.HBM_SCRUB_POS, R.HBM_CE, R.HBM_UE]
  omega

theorem stackOf_lt {pa : Nat} (h : pa < 8 * stackBytes) : pa / stackBytes < 8 := Nat.div_lt_of_lt_mul (by rwa [Nat.mul_comm])

theorem scrubAt_advise (h : ScrubAt w s) (pa reason : Nat) : ScrubAt w (advise s pa reason) :=
  scrubAt_logEvent (scrubAt_wr h _ (by decide)) _ _ _ _ _ _

theorem scrubAt_correctedAt (h : ScrubAt w s) (pa : Nat) : ScrubAt w (correctedAt s pa) := by
  unfold correctedAt
  split
  · rename_i hpa
    extract_lets k counted watch seen key n hbm watched noted
    have hcounted : ScrubAt w counted := scrubAt_incF h _ _ (scrubPos_ne_counts (stackOf_lt hpa)).1
    have hwatched : ScrubAt w watched := scrubAt_of_eq hcounted rfl rfl
    have hnoted : ScrubAt w noted := scrubAt_logEvent hwatched _ _ _ _ _ _
    exact scrubAt_ite (scrubAt_advise hnoted _ _) hnoted
  · exact scrubAt_logEvent h _ _ _ _ _ _

theorem scrubAt_ueCounted (h : ScrubAt w s) {pa : Nat} (hpa : pa < 8 * stackBytes) :
    ScrubAt w (advise (incF s (R.HBM_UE (pa / stackBytes)) F.HBM_UE_COUNT 1) pa 1) :=
  scrubAt_advise (scrubAt_incF h _ _ (scrubPos_ne_counts (stackOf_lt hpa)).2) _ _

theorem scrubAt_scrubUe (h : ScrubAt w s) {pa : Nat} (hpa : pa < 8 * stackBytes) : ScrubAt w (scrubUe s pa) := by
  have hpoison (t : State) (b : Nat) (ht : ScrubAt w t) : ScrubAt w (poisonBlock t b) := scrubAt_of_eq ht rfl rfl
  unfold scrubUe
  extract_lets k o first poisoned met
  split
  · exact scrubAt_ueCounted (scrubAt_foldl (fun t i _ ht => hpoison t _ ht) h) hpa
  · have hmet : ScrubAt w met := by
      subst met
      unfold uncorrectedAt
      rw [if_pos hpa]
      exact scrubAt_ueCounted (hpoison s _ h) hpa
    split
    · exact scrubAt_blockFailed hmet _ _
    · exact hmet

/-- The scrub of a stack leaves its position; an upset it meets lies in the granule, so in the stack. -/
theorem scrubAt_scrubStack (h : ScrubAt w s) {k : Nat} (hk : k < 8) : ScrubAt w (scrubStack s k) := by
  unfold scrubStack
  split
  · exact h
  · extract_lets pa
    have hgranule : getF s R.HBM_SCRUB_POS F.HBM_SCRUB_POS_GRANULE < 2 ^ 30 := fld_lt _ 29 0
    have hend : pa + 64 ≤ 8 * stackBytes := by
      simp only [pa, stackBytes]
      omega
    have hmoved : ScrubAt w (moved s pa 64) := by
      unfold moved
      refine scrubAt_ite (scrubAt_incF h _ _ ?_) h
      rw [h.2]
      decide
    refine scrubAt_foldl (fun t u _ ht => ?_) hmoved
    split
    · exact scrubAt_ite (scrubAt_of_eq (scrubAt_correctedAt ht _) rfl rfl) ht
    · split
      · rename_i a _ hin
        have hstack : a < 8 * stackBytes := by
          simp only [Bool.and_eq_true, decide_eq_true_eq] at hin
          omega
        exact scrubAt_of_eq (scrubAt_scrubUe ht hstack) rfl rfl
      · exact ht
    · exact ht

end

/-! ### A scrub read (R351, R368) -/

/-- The granule of every active stack read, in the scrub's traffic class. -/
def granulesRead (s : State) (ups : List Upset) : State := scanLeft ((List.range 8).foldl scrubStack (scanState s ups))

/-- The position on the next granule; past the last one it begins again, and the pass is counted. -/
def posMoved (s : State) : State :=
  let g := getF s R.HBM_SCRUB_POS F.HBM_SCRUB_POS_GRANULE + 1
  if g = 2 ^ 30 then incF (setF s R.HBM_SCRUB_POS F.HBM_SCRUB_POS_GRANULE 0) R.HBM_SCRUB_POS F.HBM_SCRUB_POS_PASSES 1
  else setF s R.HBM_SCRUB_POS F.HBM_SCRUB_POS_GRANULE g

theorem exec_scrubRead {s : State} (ups : List Upset) (henabled : flagF s R.HBM_SCRUB F.HBM_SCRUB_ENABLE = true) (hawake : anchorState s ≠ 3) :
    exec (.scrubRead ups) s = .next (posMoved (granulesRead s ups)) := by
  refine (done_onlyIf (by simp [henabled, hawake])).trans (congrArg done ?_)
  show posMoved (inClass 4 s fun s => withUpsets ups s fun s => (List.range 8).foldl scrubStack s) = _
  rw [inClass_withUpsets_eq, granulesRead]

theorem granulesRead_pos (s : State) (ups : List Upset) : rd (granulesRead s ups) R.HBM_SCRUB_POS = rd s R.HBM_SCRUB_POS := by
  have hbegun : ScrubAt (rd s R.HBM_SCRUB_POS) (scanState s ups) := ⟨rd_scanState s ups _, congrArg Hbm.cls (scanState_hbm s ups)⟩
  obtain ⟨hpos, -⟩ := scrubAt_foldl (l := List.range 8) (fun t k hk ht => scrubAt_scrubStack ht (List.mem_range.1 hk)) hbegun
  rw [granulesRead, rd_of_regs (scanLeft_regs _), hpos]

theorem scrubStacks_sorted {s : State} (hs : regsWf s.regs) (l : List Nat) : mapSorted (l.foldl scrubStack s).regs = true := by
  have hbegun : Stays s.pending s.now (fun _ => True) s := ⟨rfl, rfl, trivial, hs⟩
  obtain ⟨hsorted, -⟩ := (stays_foldl (l := l) hbegun fun _ _ h => scrubStack_stays h).regs
  exact hsorted

theorem granulesRead_sorted {s : State} (hs : regsWf s.regs) (ups : List Upset) : mapSorted (granulesRead s ups).regs = true := by
  rw [granulesRead, scanLeft_regs]
  exact scrubStacks_sorted (by rwa [scanState_regs]) _

theorem granule_posMoved {s : State} (hs : mapSorted s.regs = true) :
    getF (posMoved s) R.HBM_SCRUB_POS F.HBM_SCRUB_POS_GRANULE = (getF s R.HBM_SCRUB_POS F.HBM_SCRUB_POS_GRANULE + 1) % 2 ^ 30 := by
  unfold posMoved
  extract_lets g
  split
  · rename_i hlast
    rw [incF, getF_setF_field (setF_sorted hs _ _ _) _ _ _ _ (by decide) (by decide) (by decide), getF_setF_same hs _ _ _ (by decide) (by decide)]
    show 0 % 2 ^ 30 = g % 2 ^ 30
    rw [hlast, Nat.mod_self, Nat.zero_mod]
  · exact getF_setF_same hs _ _ _ (by decide) (by decide)

/-- Settles O57: a write of HBM_RETIRE or HBM_DONATE takes its operands (`operandsTaken`) and then is refused, starts or acts; the end of a retirement is `frameRecorded` or a NOTE; the granules' errors leave the scrub's position (`ScrubAt`). The steps of a retirement are R344, those of a donation R346; that a governor's setting waits for the next beat is R350 and assumption log 54. -/
theorem hbmPagesAndScrub : Obligations.HbmPagesAndScrub := by
  unfold Obligations.HbmPagesAndScrub
  refine ⟨fun s v ⟨_, hs, _⟩ hidle hgo => ?_, fun s v ⟨_, hs, _⟩ hidle hgo hwhy => ?_, fun s v ⟨_, hs, _⟩ hidle hgo hwhy hfree => ?_,
    fun s k f ⟨_, hs, _⟩ hk hwrite => ?_, fun s k f ⟨_, hs, _⟩ hwrite => ?_, fun s v ⟨_, hs, _⟩ hidle hgo hfault => ?_,
    fun s v k p d g ⟨_, hs, _⟩ hidle hgo hk hp hd hplow hdlow htarget hdonor hfree => ?_, fun s c v hc hok => ?_, fun s c v hc hbad => ?_,
    fun s ups ⟨_, hregs⟩ henabled hawake => ?_⟩
  · exact hbmRetire_takesOperands hs hidle hgo
  · exact hbmRetire_refuses hs hidle hgo hwhy
  · exact hbmRetire_starts hs hidle hgo hwhy hfree
  · exact retirementEnd_records hs hk hwrite
  · exact retirementEnd_fails hs hwrite
  · obtain ⟨hresult, hsame⟩ := resultGiven_fields (operandsTaken_sorted hs R.HBM_DONATE v) R.HBM_DONATE (r := 4) (by decide)
    exact ⟨_, exec_hbmDonate_of_fault hidle hgo hfault, hresult, hsame.trans (go_operandsTaken hs v hidle),
      (onlyListed_operandsTaken s R.HBM_DONATE v List.mem_cons_self).setF_mem F.HBM_RETIRE_RESULT 4 List.mem_cons_self⟩
  · subst hk hp hd
    obtain ⟨hresult, hflag⟩ := donated_fields (operandsTaken_sorted hs R.HBM_DONATE v) (fld v 50 48) (fld v 14 0) (fld v 30 16) g
    obtain ⟨hregs, hmem, hpages⟩ := donated_keeps (operandsTaken s R.HBM_DONATE v) (fld v 50 48) (fld v 14 0) (fld v 30 16) g
    have htaken := onlyListed_operandsTaken s R.HBM_DONATE v (l := [R.HBM_DONATE]) List.mem_cons_self
    rw [operandsTaken_hbm] at hpages
    refine ⟨_, exec_hbmDonate_of_good hs hidle hgo hplow hdlow htarget hdonor hfree, hresult, hflag, fun a ha => (hregs a ha).trans (htaken.1 a ha), hmem.trans ?_, hpages⟩
    rw [htaken.2]
  · refine ⟨_, exec_hbmGovWrite v hc, ?_⟩
    rw [writeGov]
    exact if_pos hok
  · have hrefused : writeGov s c v = refuseAs s (R.HBM_GOV c, 8, v.toNat) := if_neg (by rw [hbad]; decide)
    obtain ⟨-, hrest⟩ := onlyLog_logAccess s (R.HBM_GOV c) 8 true 4 v.toNat 0
    refine ⟨_, exec_hbmGovWrite v hc, hrefused, ?_⟩
    rw [hrefused, refuseAs, refuseWrite, hrest]
  · have hmoved := granule_posMoved (granulesRead_sorted hregs ups)
    rw [getF, getF, granulesRead_pos] at hmoved
    exact ⟨_, exec_scrubRead ups henabled hawake, hmoved⟩

end Sys2Proof.Machine
end

section
/-!
The links of the Arbor: flits (13 R371 to R373), lanes spared and half-muster (R378, R380, R381), credits and retraining (R374 to R376, R382).
-/
namespace Sys2Proof.Machine

/-! ### A direction of a link and the groups of its lanes -/

theorem dirNo_not (l : Nat) (up : Bool) : dirNo l up ≠ dirNo l (!up) := by
  cases up <;> simp [dirNo, b2n]

/-- A value other than the default reads back from any map, in rising order or not. -/
theorem mapGetD_putD_of_ne {α : Type} [DecidableEq α] {d v : α} (m : SMap α) (k : Nat) (h : v ≠ d) : mapGetD d (mapPutD d m k v) k = v := by
  rw [mapGetD, mapPutD, if_neg h, mapGet_put_same, Option.getD_some]

theorem getDir_setDir_of_ne (s : State) (l : Nat) (up : Bool) {x : LinkDir} (h : x ≠ {}) : getDir (setDir s l up x) l up = x :=
  mapGetD_putD_of_ne _ _ h

theorem getDir_setDir_of_sorted {s : State} (hs : mapSorted s.links = true) (l : Nat) (up : Bool) (x : LinkDir) : getDir (setDir s l up x) l up = x :=
  mapGetD_putD_same _ _ hs

/-- The two directions of a link are kept apart. -/
theorem getDir_setDir_not (s : State) (l : Nat) (up : Bool) (x : LinkDir) : getDir (setDir s l (!up) x) l up = getDir s l up :=
  mapGetD_putD_other (dirNo_not l up)

theorem getDir_of_links {s t : State} (h : t.links = s.links) (l : Nat) (up : Bool) : getDir t l up = getDir s l up := by
  rw [getDir, getDir, h]

theorem getGroup_setGroup_of_ne (x : LinkDir) (g : Nat) {y : LaneGroup} (h : y ≠ {}) : getGroup (setGroup x g y) g = y :=
  mapGetD_putD_of_ne _ _ h

/-- A direction with a group that is not as at reset is not as at reset. -/
theorem setGroup_ne (x : LinkDir) (g : Nat) {y : LaneGroup} (h : y ≠ {}) : setGroup x g y ≠ {} := fun e =>
  h (by rw [← getGroup_setGroup_of_ne x g h, e]; rfl)

theorem link_lt_of_dirOn {s : State} {l : Nat} {up : Bool} (h : dirOn s l up = true) : l < 6 := by
  rw [dirOn, Bool.and_eq_true, decide_eq_true_eq] at h
  exact h.1

theorem dirState_setDirState {s : State} (hs : mapSorted s.regs = true) (l : Nat) (up : Bool) {v : Nat} (hv : v < 16) : dirState (setDirState s l up v) l up = v := by
  cases up with
  | true => exact (getF_setF_same hs _ _ _ (by decide) (by decide)).trans (Nat.mod_eq_of_lt hv)
  | false => exact (getF_setF_same hs _ _ _ (by decide) (by decide)).trans (Nat.mod_eq_of_lt hv)

theorem stateField_below_watch (up : Bool) :
    (if up then F.ARB_LINK_STATUS_STATE_UP else F.ARB_LINK_STATUS_STATE_DN).hi < F.ARB_LINK_STATUS_RETRAINS_WATCH.lo := by
  cases up <;> decide

/-! ### Flits (R371 to R373) -/

/-- Nothing but the links and the outbox differs. -/
def OnlyLinks (s t : State) : Prop := t = { s with out := t.out, links := t.links }

theorem reassemble_dealt (fuel l : Nat) (x : LinkDir) : (reassemble fuel l x).dealt = x.dealt := by
  induction fuel generalizing x with
  | zero => rfl
  | succ fuel ih =>
    unfold reassemble
    dsimp only
    split
    · rfl
    · exact ih _

/-- A flit in order where no discarded copy is kept: the direction counts it, and its ACK goes out. -/
theorem acceptFlit_of_noCopy {s : State} {l g : Nat} {up : Bool} (p : Bytes) (w : Nat) (h : (getGroup (getDir s l up) g).firstBad = none) :
    ∃ x : LinkDir, x.dealt = (getDir s l up).dealt + 1 ∧ acceptFlit s l up g p w = send (setDir s l up x) .arborAck l [b2n up, g, bitsOf w 95 84] := by
  unfold acceptFlit
  extract_lets x y seq copy valid pool full lanes y' x' counted answered
  have hlanes : lanes = [] := by simp only [lanes, y, x, h]
  exact ⟨_, reassemble_dealt (linkGroups l) l (setGroup x' g y'), if_pos (by rw [hlanes]; rfl)⟩

/-- What a flit says to the other direction's sender changes that direction alone, where it asks for no replay. -/
theorem takeReverse_of_noReplay (s : State) (l : Nat) (up : Bool) (g : Nat) {w : Nat} (h : w.testBit 71 = false) :
    ∃ x, takeReverse s l up g w = setDir s l (!up) x := by
  unfold takeReverse
  extract_lets x y ack kept y' credits told counted
  exact ⟨_, if_neg (by rw [h]; decide)⟩

theorem exec_flit_inOrder {s : State} {l g w : Nat} {up : Bool} {p : Bytes} (hon : dirOn s l up = true) (hg : g < linkGroups l) (hlen : p.length = flitBytes l)
    (hgood : flitGood p w = true) (hseq : bitsOf w 95 84 = (getGroup (getDir s l up) g).expect) :
    exec (.flit l up g p w) s = .next
      (if dirOn (acceptFlit s l up g p w) l (!up) then takeReverse (acceptFlit s l up g p w) l up g w else acceptFlit s l up g p w) := by
  refine (done_onlyIf (by simp [hon, hg, hlen])).trans (congrArg done ?_)
  dsimp only
  rw [if_neg (by simp [hgood]), if_neg (by simp [hseq])]

theorem exec_flit_discarded {s : State} {l g w : Nat} {up : Bool} {p : Bytes} (hon : dirOn s l up = true) (hg : g < linkGroups l) (hlen : p.length = flitBytes l)
    (h : flitGood p w = false ∨ bitsOf w 95 84 ≠ (getGroup (getDir s l up) g).expect) :
    ∃ copy, exec (.flit l up g p w) s = .next (discardFlit s l up g copy) := by
  show ∃ copy, execFlit l up g p w s = _
  rw [execFlit, onlyIf, if_pos (by simp [hon, hg, hlen])]
  dsimp only
  split
  · exact ⟨_, rfl⟩
  · rename_i hgood
    exact ⟨_, congrArg done (if_pos (by simpa using h.resolve_left (by simpa using hgood)))⟩

theorem flit_accepted {s : State} {l g w : Nat} {up : Bool} {p : Bytes} (hon : dirOn s l up = true) (hg : g < linkGroups l) (hlen : p.length = flitBytes l)
    (hgood : flitGood p w = true) (hseq : bitsOf w 95 84 = (getGroup (getDir s l up) g).expect) (hcopy : (getGroup (getDir s l up) g).firstBad = none)
    (hreplay : w.testBit 71 = false) :
    Completes (.flit l up g p w) s fun t =>
      t.out = s.out ++ [⟨.arborAck, l, [b2n up, g, bitsOf w 95 84], [], none⟩] ∧ (getDir t l up).dealt = (getDir s l up).dealt + 1 ∧ OnlyLinks s t := by
  obtain ⟨x, hdealt, haccept⟩ := acceptFlit_of_noCopy p w hcopy
  have hx : x ≠ {} := fun e => by simp [e] at hdealt
  have hcounted : (getDir (setDir s l up x) l up).dealt = (getDir s l up).dealt + 1 := by rw [getDir_setDir_of_ne s l up hx, hdealt]
  have hexec := exec_flit_inOrder hon hg hlen hgood hseq
  rw [haccept] at hexec
  split at hexec
  · obtain ⟨y, hreverse⟩ := takeReverse_of_noReplay (send (setDir s l up x) .arborAck l [b2n up, g, bitsOf w 95 84]) l up g hreplay
    rw [hreverse] at hexec
    exact ⟨_, hexec, rfl, (congrArg LinkDir.dealt (getDir_setDir_not _ l up y)).trans hcounted, rfl⟩
  · exact ⟨_, hexec, rfl, hcounted, rfl⟩

theorem discardFlit_refuses (s : State) (l : Nat) (up : Bool) (g : Nat) (copy : Bytes) :
    (discardFlit s l up g copy).out = s.out ++ [⟨.arborNak, l, [b2n up, g, ((getGroup (getDir s l up) g).expect + 4095) % 4096], [], none⟩] ∧
      OnlyLinks s (discardFlit s l up g copy) := by
  unfold discardFlit
  dsimp only
  split <;> exact ⟨rfl, rfl⟩

/-- Settles O58: a flit in order with no copy kept is counted and acknowledged (`acceptFlit_of_noCopy`), and what it says to the other direction stays there; any other is discarded (`discardFlit_refuses`). That one record holds both ends of a direction, and that a replay entry is made when a flit is accepted, is assumption log 69. -/
theorem arborFlits : Obligations.ArborFlits := by
  unfold Obligations.ArborFlits
  refine ⟨fun _ _ _ _ _ _ => flit_accepted, fun s l up g p w hon hg hlen h => ?_⟩
  obtain ⟨copy, hexec⟩ := exec_flit_discarded hon hg hlen h
  exact ⟨_, hexec, discardFlit_refuses s l up g copy⟩

/-! ### What a change of lanes reports (R379, R381) -/

theorem onlyLog_noteAt (s : State) (source range cls : Nat) : OnlyLog s (noteAt s source range cls) := onlyLog_logEvent s _ _ _ _ _ _

theorem onlyLog_tellBluvisen (s : State) (rule : Nat) (args : List Nat) : OnlyLog s (tellBluvisen s rule args) :=
  onlyLog_ite (onlyLog_send s _ _ _ _) (onlyLog_refl s)

theorem links_of_onlyLog {s t : State} (h : OnlyLog s t) : t.links = s.links := by
  obtain ⟨-, hrest⟩ := h
  rw [hrest]

/-- A lane taken out of use: the link's event bit, the link repair record and the entry. -/
def laneReported (s : State) (l : Nat) (event : RF) (lane : Nat × Nat × Nat × Nat) : State :=
  noteAt (recordLinks (setBitF s R.ARB_LINK_EVENTS event l true) fun r => { r with lanes := r.lanes ++ [lane] }) (linkSrc l) 0x02 clsDegraded

theorem linkEvents_not_logRegs : R.ARB_LINK_EVENTS ∉ logRegs := by decide

theorem laneReported_event {s : State} (hs : mapSorted s.regs = true) {l : Nat} {event : RF} (lane : Nat × Nat × Nat × Nat) (h64 : event.hi < 64)
    (hl : event.lo + l ≤ event.hi) : bitF (laneReported s l event lane) R.ARB_LINK_EVENTS event l = true := by
  obtain ⟨hregs, -⟩ := onlyLog_noteAt (recordLinks (setBitF s R.ARB_LINK_EVENTS event l true) fun r => { r with lanes := r.lanes ++ [lane] }) (linkSrc l) 0x02 clsDegraded
  rw [bitF, laneReported, getF_of_onlyRegs hregs _ linkEvents_not_logRegs]
  exact bitF_setBitF_same hs _ _ _ h64 hl

theorem onlyRegs_laneReported (s : State) (l : Nat) (event : RF) (lane : Nat × Nat × Nat × Nat) :
    OnlyRegs (R.ARB_LINK_EVENTS :: logRegs) s (laneReported s l event lane) := fun a ha => by
  rw [List.mem_cons, not_or] at ha
  obtain ⟨hevents, hlog⟩ := ha
  obtain ⟨hregs, -⟩ := onlyLog_noteAt (recordLinks (setBitF s R.ARB_LINK_EVENTS event l true) fun r => { r with lanes := r.lanes ++ [lane] }) (linkSrc l) 0x02 clsDegraded
  exact (hregs a hlog).trans (onlyRegs_setBitF s _ _ _ _ a (by simpa using hevents))

theorem laneReported_links (s : State) (l : Nat) (event : RF) (lane : Nat × Nat × Nat × Nat) : (laneReported s l event lane).links = s.links :=
  (links_of_onlyLog (onlyLog_noteAt _ _ _ _)).trans (setBitF_links s R.ARB_LINK_EVENTS event l true)

theorem laneReported_mem (s : State) (l : Nat) (event : RF) (lane : Nat × Nat × Nat × Nat) : (laneReported s l event lane).mem = s.mem :=
  (mem_of_onlyLog (onlyLog_noteAt _ _ _ _)).trans (setBitF_mem s R.ARB_LINK_EVENTS event l true)

/-- The status register of a link is none of those the logbook and the links' events stand in. -/
theorem linkStatus_not_reported (l : Nat) (hl : l < 6) : R.ARB_LINK_STATUS l ∉ R.ARB_LINK_EVENTS :: logRegs := by
  decide +revert

/-! ### A lane spared (R378) -/

/-- A group whose data has left a failed lane. -/
def laneSpared (y : LaneGroup) (n : Nat) : LaneGroup := { y with failed := y.failed ++ [n], switch := none, counts := mapDel y.counts n, runs := mapDel y.runs n }

theorem laneSpared_ne (y : LaneGroup) (n : Nat) : laneSpared y n ≠ {} := fun e =>
  List.append_ne_nil_of_right_ne_nil y.failed (List.cons_ne_nil n []) (congrArg LaneGroup.failed e)

/-- The state with a lane of a group spared, and SPARED_UP or SPARED_DN as the groups stand. -/
def groupSpared (s : State) (l : Nat) (up : Bool) (g n : Nat) : State :=
  showSpared (setDir s l up (setGroup (getDir s l up) g (laneSpared (getGroup (getDir s l up) g) n))) l up

theorem groupSpared_sorted {s : State} (hs : mapSorted s.regs = true) (l : Nat) (up : Bool) (g n : Nat) : mapSorted (groupSpared s l up g n).regs = true :=
  setF_sorted hs _ _ _

theorem getGroup_groupSpared (s : State) (l : Nat) (up : Bool) (g n : Nat) :
    getGroup (getDir (groupSpared s l up g n) l up) g = laneSpared (getGroup (getDir s l up) g) n := by
  have hne := laneSpared_ne (getGroup (getDir s l up) g) n
  rw [groupSpared, showSpared, getDir_of_links (setF_links _ _ _ _), getDir_setDir_of_ne _ _ _ (setGroup_ne _ _ hne), getGroup_setGroup_of_ne _ _ hne]

theorem exec_spareAck_of_switch {s : State} {l g n q : Nat} {up : Bool} (hon : dirOn s l up = true) (hg : g < linkGroups l)
    (hswitch : (getGroup (getDir s l up) g).switch = some ⟨false, n, q⟩) :
    exec (.spareAck l up g n q) s = .next (laneReported (groupSpared s l up g n) l F.ARB_LINK_EVENTS_SPARED (l, b2n (!up), g, n)) :=
  (done_onlyIf (by simp [hon, hg])).trans (congrArg done (if_pos (by simpa using hswitch)))

theorem exec_spareAck_of_other {s : State} {l g n q : Nat} {up : Bool} (hswitch : (getGroup (getDir s l up) g).switch ≠ some ⟨false, n, q⟩) :
    exec (.spareAck l up g n q) s = .next s := by
  show done (onlyIf _ s _) = _
  unfold onlyIf
  split
  · exact congrArg done (if_neg (by simpa using hswitch))
  · rfl

theorem spareAck_spares {s : State} {l g n q : Nat} {up : Bool} (hs : mapSorted s.regs = true) (hon : dirOn s l up = true) (hg : g < linkGroups l)
    (hswitch : (getGroup (getDir s l up) g).switch = some ⟨false, n, q⟩) :
    Completes (.spareAck l up g n q) s fun t => (getGroup (getDir t l up) g).failed = (getGroup (getDir s l up) g).failed ++ [n] ∧
      (getGroup (getDir t l up) g).switch = none ∧ bitF t R.ARB_LINK_EVENTS F.ARB_LINK_EVENTS_SPARED l = true ∧ t.mem = s.mem := by
  have hgroup := getGroup_groupSpared s l up g n
  rw [← getDir_of_links (laneReported_links (groupSpared s l up g n) l F.ARB_LINK_EVENTS_SPARED (l, b2n (!up), g, n))] at hgroup
  have hwide : F.ARB_LINK_EVENTS_SPARED.lo + l ≤ F.ARB_LINK_EVENTS_SPARED.hi := by
    have hl := link_lt_of_dirOn hon
    simp only [F.ARB_LINK_EVENTS_SPARED]
    omega
  exact ⟨_, exec_spareAck_of_switch hon hg hswitch, congrArg LaneGroup.failed hgroup, congrArg LaneGroup.switch hgroup,
    laneReported_event (groupSpared_sorted hs l up g n) _ (by decide) hwide, laneReported_mem _ _ _ _⟩

/-! ### Half-muster (R380, R381) -/

/-- A group with a switch to half-muster under way whose SEQ is q. -/
def halfSwitch (q : Nat) (e : Nat × LaneGroup) : Bool := match e.2.switch with | some w => w.half && w.seq == q | none => false

/-- HALF_ACK of a switch under way: the direction, with its groups as they then are, stands in HALF_MUSTER, and the lane given up is reported. -/
theorem exec_halfAck_of_switch {s : State} {l q : Nat} {up : Bool} (hon : dirOn s l up = true) (hfull : dirState s l up = 2)
    (hswitch : (getDir s l up).groups.any (halfSwitch q) = true) :
    ∃ x lane, exec (.halfAck l up q) s =
      .next (tellBluvisen (laneReported (setDirState (setDir s l up x) l up 3) l F.ARB_LINK_EVENTS_HALF_MUSTER lane) 381 [l, b2n (!up)]) := by
  show ∃ x lane, execHalfAck l up q s = _
  rw [execHalfAck, onlyIf, if_pos (by simp [hon, hfull])]
  dsimp only
  split
  · rename_i hnone
    obtain ⟨e, he, hhalf⟩ := List.any_eq_true.1 hswitch
    exact absurd hhalf (List.find?_eq_none.1 hnone e he)
  · exact ⟨_, _, rfl⟩

theorem halfAck_musters {s : State} {l q : Nat} {up : Bool} (hs : mapSorted s.regs = true) (hon : dirOn s l up = true) (hfull : dirState s l up = 2)
    (hswitch : (getDir s l up).groups.any (halfSwitch q) = true) :
    Completes (.halfAck l up q) s fun t => dirState t l up = 3 ∧ bitF t R.ARB_LINK_EVENTS F.ARB_LINK_EVENTS_HALF_MUSTER l = true := by
  obtain ⟨x, lane, hexec⟩ := exec_halfAck_of_switch hon hfull hswitch
  have hl := link_lt_of_dirOn hon
  have hsorted : mapSorted (setDirState (setDir s l up x) l up 3).regs = true := setF_sorted hs _ _ _
  have hwide : F.ARB_LINK_EVENTS_HALF_MUSTER.lo + l ≤ F.ARB_LINK_EVENTS_HALF_MUSTER.hi := by
    simp only [F.ARB_LINK_EVENTS_HALF_MUSTER]
    omega
  obtain ⟨htold, -⟩ := onlyLog_tellBluvisen (laneReported (setDirState (setDir s l up x) l up 3) l F.ARB_LINK_EVENTS_HALF_MUSTER lane) 381 [l, b2n (!up)]
  refine ⟨_, hexec, ?_, ?_⟩
  · rw [dirState, getF_of_onlyRegs htold _ fun h => linkStatus_not_reported l hl (List.mem_cons_of_mem _ h),
      getF_of_onlyRegs (onlyRegs_laneReported _ _ _ _) _ (linkStatus_not_reported l hl)]
    exact dirState_setDirState (s := setDir s l up x) hs l up (by decide)
  · rw [bitF, getF_of_onlyRegs htold _ linkEvents_not_logRegs]
    exact laneReported_event hsorted lane (by decide) hwide

/-- Settles O59: the acknowledgement of a request is one message; the SPARE_ACK awaited leaves `groupSpared`, the HALF_ACK awaited HALF_MUSTER (`halfAck_musters`), and both the same report (`laneReported`). That the lanes change at the acknowledgement, not from the switch SEQ onward (R378, R380), is assumption log 70. -/
theorem arborSparing : Obligations.ArborSparing := by
  unfold Obligations.ArborSparing
  refine ⟨fun s l up g n q hon hg hn hfull hhalf => ?_, fun _ _ _ _ _ _ ⟨_, hs, _⟩ => spareAck_spares hs, fun _ _ _ _ _ _ => exec_spareAck_of_other,
    fun s l up q hon hfull => done_onlyIf (by simp [hon, hfull]), fun _ _ _ _ ⟨_, hs, _⟩ => halfAck_musters hs⟩
  have hhere : (dirOn s l up && g < linkGroups l && n < groupLanes l && dirState s l up == 2) = true := by simp [hon, hg, hn, hfull]
  refine done_onlyIf ?_
  exact Bool.and_eq_true_iff.2 ⟨hhere, congrArg not hhalf⟩

/-! ### Credits (R374, R376) -/

theorem exec_creditReport_of_awaited {s : State} {l : Nat} {up : Bool} {f : List Nat} (hon : dirOn s l up = true) (hprobe : (getDir s l up).probeNs ≠ none)
    (hlen : f.length = 5) : exec (.creditReport l up f) s =
      .next (incF (setDir s l up { getDir s l up with credits := (f.zip poolSizes).map fun e => min e.2 e.1, probeNs := none })
        (R.ARB_LINK_COUNTS l) F.ARB_LINK_COUNTS_CREDIT_RESYNC 1) :=
  done_onlyIf (by simp [hon, hlen, Option.isSome_iff_ne_none, hprobe])

theorem creditReport_sets {s : State} {l : Nat} {up : Bool} {f : List Nat} (hlinks : mapSorted s.links = true) (hon : dirOn s l up = true)
    (hprobe : (getDir s l up).probeNs ≠ none) (hlen : f.length = 5) :
    Completes (.creditReport l up f) s fun t => (getDir t l up).credits = (f.zip poolSizes).map (fun e => min e.2 e.1) ∧ (getDir t l up).probeNs = none ∧
      OnlyRegs [R.ARB_LINK_COUNTS l] s t ∧ t = { s with regs := t.regs, links := t.links } := by
  refine ⟨_, exec_creditReport_of_awaited hon hprobe hlen, ?_, ?_, onlyRegs_incF _ _ _ _, rfl⟩ <;>
    rw [getDir_of_links (incF_links _ _ _ _), getDir_setDir_of_sorted hlinks]

theorem creditTimeout_probes {s : State} {l c : Nat} {up : Bool} (hon : dirOn s l up = true) (hc : c < 5) (hcredits : (getDir s l up).credits.getD c 1 = 0)
    (hidle : (getDir s l up).probeNs = none) :
    Completes (.creditTimeout l up c) s fun t =>
      (getDir t l up).probeNs = some s.now ∧ t = { s with out := s.out ++ [⟨.creditProbe, l, [b2n up], [], none⟩], links := t.links } := by
  have hne : { getDir s l up with probeNs := some s.now } ≠ ({} : LinkDir) := fun e => Option.some_ne_none _ (congrArg LinkDir.probeNs e)
  refine ⟨_, done_onlyIf (by rw [hcredits, hidle]; simp [hon, hc]), ?_, rfl⟩
  exact congrArg LinkDir.probeNs (getDir_setDir_of_ne s l up hne)

/-! ### Retraining (R376, R382) -/

/-- The replays of a retraining are messages only: whatever a message leaves is as the direction reset and the retries counted have left it. -/
theorem retrainDir_leaves {α : Type} (g : State → α) (hsend : ∀ s k d as b, g (send s k d as b) = g s) (s : State) (l : Nat) (up : Bool) :
    g (retrainDir s l up) = g (incF (setDir s l up { getDir s l up with probeNs := none }) (R.ARB_LINK_COUNTS l) F.ARB_LINK_COUNTS_RETRIES
      (((getDir s l up).groups.map fun e => e.2.replay.length).sum)) := by
  unfold retrainDir
  exact foldl_leaves g (fun t (e : Nat × LaneGroup) => foldl_leaves g (fun t f => hsend t _ _ _ _) t e.2.replay) _ _

/-- A direction retrained, and the retraining counted and entered. -/
def retrained (s : State) (l : Nat) (up : Bool) : State :=
  noteAt (incF (retrainDir s l up) (R.ARB_LINK_COUNTS l) F.ARB_LINK_COUNTS_RETRAINS 1) (linkSrc l) 0x02 clsInfo

theorem retrained_links (s : State) (l : Nat) (up : Bool) : (retrained s l up).links = (setDir s l up { getDir s l up with probeNs := none }).links := by
  rw [retrained, links_of_onlyLog (onlyLog_noteAt _ _ _ _), incF_links, retrainDir_leaves State.links send_links, incF_links]

theorem retrained_mem (s : State) (l : Nat) (up : Bool) : (retrained s l up).mem = s.mem := by
  rw [retrained, mem_of_onlyLog (onlyLog_noteAt _ _ _ _), incF_mem, retrainDir_leaves State.mem send_mem, incF_mem, setDir]

theorem onlyRegs_retrained (s : State) (l : Nat) (up : Bool) : OnlyRegs (R.ARB_LINK_COUNTS l :: logRegs) s (retrained s l up) := fun a ha => by
  rw [List.mem_cons, not_or] at ha
  obtain ⟨hcounts, hlog⟩ := ha
  obtain ⟨hnote, -⟩ := onlyLog_noteAt (incF (retrainDir s l up) (R.ARB_LINK_COUNTS l) F.ARB_LINK_COUNTS_RETRAINS 1) (linkSrc l) 0x02 clsInfo
  have hreplays : rd (retrainDir s l up) a = rd s a :=
    (retrainDir_leaves (rd · a) (fun _ _ _ _ _ => rfl) s l up).trans (onlyRegs_incF _ _ _ _ a (by simpa using hcounts))
  exact (hnote a hlog).trans ((onlyRegs_incF _ _ _ _ a (by simpa using hcounts)).trans hreplays)

theorem retrained_sorted {s : State} (h : Inv s) (l : Nat) (up : Bool) : mapSorted (retrained s l up).regs = true := by
  obtain ⟨hsorted, -⟩ := (noteAt_stays (incF_stays (retrainDir_stays (stays_of_inv h)))).regs
  exact hsorted

theorem linkStatus_not_counted {l : Nat} (hl : l < 6) : R.ARB_LINK_STATUS l ∉ R.ARB_LINK_COUNTS l :: logRegs := by
  decide +revert

theorem getF_status_retrained (s : State) {l : Nat} (hl : l < 6) (up : Bool) (f : RF) : getF (retrained s l up) (R.ARB_LINK_STATUS l) f = getF s (R.ARB_LINK_STATUS l) f :=
  getF_of_onlyRegs (onlyRegs_retrained s l up) f (linkStatus_not_counted hl)

/-- A retraining that is due: the watch's count of them decides whether the die is fenced. -/
theorem exec_linkRetrain_of_due {s : State} {l b : Nat} {up : Bool} (hon : dirOn s l up = true) (hprobe : (getDir s l up).probeNs = some b) (hdue : b + 1000 ≤ s.now) :
    exec (.linkRetrain l up) s = .next
      (if getF s (R.ARB_LINK_STATUS l) F.ARB_LINK_STATUS_RETRAINS_WATCH + 1 ≥ 3 then fenceDie (retrained s l up) l
       else setF (retrained s l up) (R.ARB_LINK_STATUS l) F.ARB_LINK_STATUS_RETRAINS_WATCH (getF s (R.ARB_LINK_STATUS l) F.ARB_LINK_STATUS_RETRAINS_WATCH + 1)) := by
  rw [← getF_status_retrained s (link_lt_of_dirOn hon) up]
  exact done_onlyIf (by rw [hprobe]; simp [hon, hdue])

theorem linkRetrain_counts {s : State} {l b : Nat} {up : Bool} (h : Inv s) (hlinks : mapSorted s.links = true) (hon : dirOn s l up = true)
    (hprobe : (getDir s l up).probeNs = some b) (hdue : b + 1000 ≤ s.now) (hfew : getF s (R.ARB_LINK_STATUS l) F.ARB_LINK_STATUS_RETRAINS_WATCH < 2) :
    Completes (.linkRetrain l up) s fun t => (getDir t l up).probeNs = none ∧
      getF t (R.ARB_LINK_STATUS l) F.ARB_LINK_STATUS_RETRAINS_WATCH = getF s (R.ARB_LINK_STATUS l) F.ARB_LINK_STATUS_RETRAINS_WATCH + 1 ∧
      dirState t l up = dirState s l up ∧ t.mem = s.mem := by
  have hsorted := retrained_sorted h l up
  refine ⟨_, (exec_linkRetrain_of_due hon hprobe hdue).trans (congrArg done (if_neg (by omega))), ?_, ?_, ?_, retrained_mem s l up⟩
  · rw [getDir_of_links ((setF_links _ _ _ _).trans (retrained_links s l up)), getDir_setDir_of_sorted hlinks]
  · rw [getF_setF_same hsorted _ _ _ (by decide) (by decide)]
    exact Nat.mod_eq_of_lt (by simp only [F.ARB_LINK_STATUS_RETRAINS_WATCH] at hfew ⊢; omega)
  · rw [dirState, getF_setF_field hsorted _ _ _ _ (by decide) (by decide) (.inl (stateField_below_watch up)), getF_status_retrained s (link_lt_of_dirOn hon)]
    rfl

/-- Settles O60: a probe, a report and a class without credits change one direction; a retraining due leaves `retrained`, which touches no status register, and the watch's count tells a retraining from a fence (`exec_linkRetrain_of_due`; the fence at the third is R382). That a retraining leaves the direction's state as it was, never TRAINING, is the model's choice beside assumption log 70, by which it leaves the credits as they are. -/
theorem arborCreditsAndRetrain : Obligations.ArborCreditsAndRetrain := by
  unfold Obligations.ArborCreditsAndRetrain
  refine ⟨fun s l up hon => done_onlyIf hon, fun _ _ _ _ _ => creditReport_sets, fun _ _ _ _ => creditTimeout_probes,
    fun _ _ _ _ => linkRetrain_counts, fun s l up b _ hon hprobe hdue hmany => ?_⟩
  exact (exec_linkRetrain_of_due hon hprobe hdue).trans (congrArg done (if_pos (by omega)))

end Sys2Proof.Machine
end

section
/-!
The Darend ports: what a port reads after it was changed, and frames and acknowledgements received on a port in service (14 R402, R403, R405).
-/
namespace Sys2Proof.Machine

/-! ### A port changed -/

/-- A port changed to other than its reset content reads as changed, be the ports in rising order or not. -/
theorem getPort_modPort_of_ne (s : State) (p : Nat) {f : Port → Port} (h : f (getPort s p) ≠ {}) : getPort (modPort s p f) p = f (getPort s p) :=
  mapGetD_putD_of_ne _ _ h

theorem getPort_modPort_of_sorted {s : State} (hs : mapSorted s.ports = true) (p : Nat) (f : Port → Port) : getPort (modPort s p f) p = f (getPort s p) :=
  mapGetD_putD_same _ _ hs

theorem getPort_modPort_other (s : State) {p q : Nat} (f : Port → Port) (h : q ≠ p) : getPort (modPort s p f) q = getPort s q :=
  mapGetD_putD_other h

theorem modPort_ports_sorted {s : State} (hs : mapSorted s.ports = true) (p : Nat) (f : Port → Port) : mapSorted (modPort s p f).ports = true :=
  mapPutD_sorted _ _ _ hs

theorem getPort_of_ports {s t : State} (h : t.ports = s.ports) (p : Nat) : getPort t p = getPort s p := by
  rw [getPort, getPort, h]

/-- The state of a port stands in its register, which no change of a port's record touches. -/
theorem portState_modPort (s : State) (p : Nat) (f : Port → Port) (q : Nat) : portState (modPort s p f) q = portState s q := rfl

/-! ### Frames (R402, R403) -/

/-- A frame with an uncorrectable codeword: nothing of it is used. -/
theorem exec_darendFrame_uncorrectable {s : State} {p : Nat} {f : FrameIn} (hp : p < 32) (hserv : inService s p = true) (hbad : f.good = false) :
    exec (.darendFrame p f) s = .next (sendAck (incF s (R.DRD_PORT_FEC p) F.DRD_PORT_FEC_UNCORRECTABLE 1) p true) :=
  (done_onlyIf (by simp [hp, hserv])).trans (congrArg done (if_pos (by simp [hbad])))

/-- Only the count of such codewords and the NAK show it. -/
theorem darendFrame_uncorrectable {s : State} {p : Nat} {f : FrameIn} (h : Inv s) (hp : p < 32) (hserv : inService s p = true) (hbad : f.good = false) :
    Completes (.darendFrame p f) s fun t =>
      t.out = s.out ++ [⟨.ack, p, [((getPort s p).rxNext + 2 ^ 64 - 1) % 2 ^ 32, (getPort s p).freed.getD 0 0, (getPort s p).freed.getD 1 0,
        (getPort s p).freed.getD 2 0, 1], [], some (p, 0)⟩] ∧
      getF t (R.DRD_PORT_FEC p) F.DRD_PORT_FEC_UNCORRECTABLE = satAdd 32 (getF s (R.DRD_PORT_FEC p) F.DRD_PORT_FEC_UNCORRECTABLE) 1 ∧ OnlyRegs [R.DRD_PORT_FEC p] s t ∧
      t = { s with regs := t.regs, out := t.out } := by
  obtain ⟨-, hsorted, -⟩ := h
  exact ⟨_, exec_darendFrame_uncorrectable hp hserv hbad, rfl, getF_incF_same hsorted _ _ _ (by decide) (by decide), onlyRegs_incF s _ _ _, rfl⟩

section
variable {s u : State} {p : Nat} {f : FrameIn} (hp : p < 32) (hserv : inService s p = true) (hgood : f.good = true)
  (hu : u = takeAck (cleanBlock s p) p f.trailer)
include hp hserv hgood hu

/-- A good frame out of order is acknowledged again, or refused. -/
theorem exec_darendFrame_outOfOrder (hseq : hdSeq f.header ≠ (getPort u p).rxNext % 2 ^ 32) :
    exec (.darendFrame p f) s = .next (sendAck u p (!seqLe (hdSeq f.header) (getPort u p).rxNext)) := by
  subst hu
  refine (done_onlyIf (by simp [hp, hserv])).trans (congrArg done ?_)
  dsimp only
  rw [if_neg (by simp [hgood]), if_pos (by simpa using hseq)]

/-- A frame in order takes its place and is counted FOREIGN where its scope is not one the port lets in, or, on a RESTRICTED port, its class. -/
theorem exec_darendFrame_foreign (hseq : hdSeq f.header = (getPort u p).rxNext % 2 ^ 32)
    (hforeign : admits u p (hdScope f.header) = false ∨ (restricted u p = true ∧ ¬ (hdScope f.header = 0 ∧ hdClass f.header = 0))) :
    exec (.darendFrame p f) s = .next (noteAt (incF (acceptSeq u p (hdClass f.header) (cdiv (hdLength f.header) 64) true) (R.DRD_PORT_ERRORS p)
      F.DRD_PORT_ERRORS_FOREIGN 1) (portSource p) 0x03 clsInfo) := by
  subst hu
  refine (done_onlyIf (by simp [hp, hserv])).trans (congrArg done ?_)
  dsimp only
  rw [if_neg (by simp [hgood]), if_neg (by simpa using hseq), if_pos]
  rcases hforeign with hscope | ⟨hrestricted, hclass⟩
  · simp [hscope]
  · simpa [hrestricted] using .inr (not_and_or.1 hclass)

section
variable (hseq : hdSeq f.header = (getPort u p).rxNext % 2 ^ 32) (hadmits : admits u p (hdScope f.header) = true) (hrestricted : restricted u p = false)
include hseq hadmits hrestricted

/-- A frame in order and admitted that no key of the port opens. -/
theorem exec_darendFrame_tagFailed (hopen : openFrame u p f = none) : exec (.darendFrame p f) s = .next (tagFailed u p) := by
  subst hu
  refine (done_onlyIf (by simp [hp, hserv])).trans (congrArg done ?_)
  dsimp only
  rw [if_neg (by simp [hgood]), if_neg (by simpa using hseq), if_neg (by simp [hadmits, hrestricted]), hopen]

/-- A frame in order and admitted that the only key of the port opens: there are no newer keys whose first frame it could be. -/
theorem exec_darendFrame_opened {g k : KeyGen} {body : Bytes} (hopen : openFrame u p f = some (g, body)) (hkeys : (getPort u p).keys = [k]) :
    exec (.darendFrame p f) s = .next (takeBody u p f body) := by
  subst hu
  refine (done_onlyIf (by simp [hp, hserv])).trans (congrArg done ?_)
  dsimp only
  rw [if_neg (by simp [hgood]), if_neg (by simpa using hseq), if_neg (by simp [hadmits, hrestricted]), hopen]
  dsimp only
  rw [if_neg (by simp [hkeys])]

end

end

/-- Settles O6: each outcome of R403's checks by its own lemma. That a RESTRICTED port counts any frame but a MANAGEMENT frame of installation scope as FOREIGN is R415; which of the keys held opens a frame is assumption log 46. -/
theorem darendFramesReceived : Obligations.DarendFramesReceived := by
  unfold Obligations.DarendFramesReceived
  refine ⟨fun _ _ _ => darendFrame_uncorrectable, fun _ _ _ _ => exec_darendFrame_outOfOrder, fun _ _ _ _ => exec_darendFrame_foreign,
    fun _ _ _ _ => exec_darendFrame_tagFailed, fun _ _ _ _ _ _ hp hserv hgood hu hseq hadmits hrestricted =>
      exec_darendFrame_opened hp hserv hgood hu hseq hadmits hrestricted, fun s p a hp hserv => done_onlyIf (by simp [hp, hserv])⟩

end Sys2Proof.Machine
end

section
/-!
Training of a Darend port: ALIGN blocks, identity blocks, and the timeouts of its phases and of a hold (14 R404, R409, R412, R413).
-/
namespace Sys2Proof.Machine

/-! ### ALIGN blocks (R413) -/

/-- What an ALIGN block makes of a port in training: its marker is kept, and its filter counts it or starts again. -/
def alignCounted (a : AlignIn) (x : Port) : Port :=
  { x with markerCount := if a.formed then a.marker else x.markerCount,
           aligns := if a.formed && a.wavelength == a.filter then mapPut x.aligns a.filter (mapGetD 0 x.aligns a.filter + 1) else mapDel x.aligns a.filter }

theorem alignBlock_of_training {s : State} {p : Nat} (a : AlignIn) (hstate : portState s p = 1) : alignBlock s p a = modPort s p (alignCounted a) :=
  if_pos (by simp [hstate])

theorem alignPhase_of_phase {s : State} {p : Nat} (h : (getPort s p).phase ≠ 2) : alignPhase s p = s :=
  if_neg (by simp [h])

theorem cleanBlock_of_noHold {s : State} {p : Nat} (h : (getPort s p).hold = none) : cleanBlock s p = s := by
  rw [cleanBlock, h]

/-- Outside phase 2 a block that ends no hold is counted, and that is all. -/
theorem exec_align_of_training {s : State} {p : Nat} {a : AlignIn} (hp : p < 32) (hfilter : a.filter < 9) (hstate : portState s p = 1)
    (hphase : (getPort s p).phase ≠ 2) (hclean : (if a.formed then cleanBlock s p else s) = s)
    (hread : getPort (modPort s p (alignCounted a)) p = alignCounted a (getPort s p)) : exec (.align p a) s = .next (modPort s p (alignCounted a)) := by
  refine (done_onlyIf (by simp [hp, hfilter])).trans (congrArg done ?_)
  rw [hclean, alignBlock_of_training a hstate, alignPhase_of_phase]
  rwa [hread]

theorem align_unformed {s : State} {p : Nat} {a : AlignIn} (hp : p < 32) (hfilter : a.filter < 9) (hstate : portState s p = 1) (hphase : (getPort s p).phase ≠ 2)
    (hbad : a.formed = false) (hports : mapSorted s.ports = true) (haligns : mapSorted (getPort s p).aligns = true) :
    Completes (.align p a) s fun t => mapGet (getPort t p).aligns a.filter = none ∧ t = { s with ports := t.ports } := by
  have hread := getPort_modPort_of_sorted hports p (alignCounted a)
  refine ⟨_, exec_align_of_training hp hfilter hstate hphase (if_neg (by simp [hbad])) hread, ?_, rfl⟩
  simpa [hread, alignCounted, hbad] using mapGet_del_same a.filter haligns

theorem align_onItsWavelength {s : State} {p : Nat} {a : AlignIn} (hp : p < 32) (hfilter : a.filter < 9) (hstate : portState s p = 1) (hphase : (getPort s p).phase ≠ 2)
    (hhold : (getPort s p).hold = none) (hformed : a.formed = true) (hwave : a.wavelength = a.filter) :
    Completes (.align p a) s fun t => mapGetD 0 (getPort t p).aligns a.filter = mapGetD 0 (getPort s p).aligns a.filter + 1 ∧ (getPort t p).markerCount = a.marker ∧
      t = { s with ports := t.ports } := by
  have hcount : mapGetD 0 (alignCounted a (getPort s p)).aligns a.filter = mapGetD 0 (getPort s p).aligns a.filter + 1 := by
    simp [alignCounted, hformed, hwave, mapGetD, mapGet_put_same]
  have hread : getPort (modPort s p (alignCounted a)) p = alignCounted a (getPort s p) :=
    getPort_modPort_of_ne s p fun e => by simp [e, mapGetD, mapGet] at hcount
  refine ⟨_, exec_align_of_training hp hfilter hstate hphase ((if_pos hformed).trans (cleanBlock_of_noHold hhold)) hread, ?_, ?_, rfl⟩
  · rw [hread, hcount]
  · rw [hread]
    exact if_pos hformed

/-! ### Identity blocks (R412, R420 to R422) -/

theorem uAt_lt (b : Bytes) (o n : Nat) : uAt b o n < 256 ^ n :=
  (leNat_lt _).trans_le (Nat.pow_le_pow_right (by decide) (List.length_take_le _ _))

theorem hello0_kept {s : State} {p : Nat} {b : Bytes} (hp : p < 32) (hlen : b.length = 31) (hlow : 1 ≤ portState s p) (hhigh : portState s p ≤ 6) :
    Completes (.hello0 p b) s fun t => (getPort t p).hello0 = some b ∧ t = { s with ports := t.ports } := by
  refine ⟨_, done_onlyIf (by simp [hp, hlen, hlow, hhigh]), ?_, rfl⟩
  rw [getPort_modPort_of_ne s p fun e => by simpa using congrArg Port.hello0 e]

/-- PEER_FID and PEER_PORT of a port as the peer's block has them. -/
def peerNamed (s : State) (p : Nat) (b : Bytes) : State :=
  setF (setF s (R.DRD_PORT_STATUS p) F.DRD_PORT_STATUS_PEER_FID (idFid b)) (R.DRD_PORT_STATUS p) F.DRD_PORT_STATUS_PEER_PORT (idPort b)

/-- Of the registers that show the peer, the status register is the first. -/
theorem portStatus_not_peer (p : Nat) : R.DRD_PORT_STATUS p ∉ [R.DRD_PORT_PEER p, R.DRD_PORT_PEER_INFO p] := by
  simp [R.DRD_PORT_STATUS, R.DRD_PORT_PEER, R.DRD_PORT_PEER_INFO]

theorem onlyListed_showPeer_named (s : State) (p : Nat) (b : Bytes) : OnlyListed [R.DRD_PORT_PEER p, R.DRD_PORT_PEER_INFO p] (peerNamed s p b) (showPeer s p b) :=
  (((((onlyListed_refl _ _).wr_mem _ (by simp)).setF_mem _ _ (by simp)).setF_mem _ _ (by simp)).setF_mem _ _ (by simp)).setF_mem _ _ (by simp)

theorem getF_status_showPeer (s : State) (p : Nat) (b : Bytes) (f : RF) :
    getF (showPeer s p b) (R.DRD_PORT_STATUS p) f = getF (peerNamed s p b) (R.DRD_PORT_STATUS p) f := by
  obtain ⟨hregs, -⟩ := onlyListed_showPeer_named s p b
  exact getF_of_onlyRegs hregs f (portStatus_not_peer p)

theorem showPeer_fields {s : State} (hs : mapSorted s.regs = true) (p : Nat) (b : Bytes) :
    getF (showPeer s p b) (R.DRD_PORT_STATUS p) F.DRD_PORT_STATUS_PEER_FID = idFid b ∧
      getF (showPeer s p b) (R.DRD_PORT_STATUS p) F.DRD_PORT_STATUS_PEER_PORT = idPort b % 256 ∧ portState (showPeer s p b) p = portState s p := by
  have hsorted := setF_sorted hs (R.DRD_PORT_STATUS p) F.DRD_PORT_STATUS_PEER_FID (idFid b)
  have hfid : idFid b < 2 ^ 16 := uAt_lt b 24 2
  refine ⟨?_, ?_, ?_⟩
  · rw [getF_status_showPeer, peerNamed, getF_setF_field hsorted _ _ _ _ (by decide) (by decide) (by decide), getF_setF_same hs _ _ _ (by decide) (by decide)]
    exact Nat.mod_eq_of_lt hfid
  · rw [getF_status_showPeer, peerNamed, getF_setF_same hsorted _ _ _ (by decide) (by decide)]
    rfl
  · rw [portState, getF_status_showPeer, peerNamed, getF_setF_field hsorted _ _ _ _ (by decide) (by decide) (by decide),
      getF_setF_field hs _ _ _ _ (by decide) (by decide) (by decide), portState]

theorem onlyListed_showPeer (s : State) (p : Nat) (b : Bytes) :
    OnlyListed [R.DRD_PORT_STATUS p, R.DRD_PORT_PEER p, R.DRD_PORT_PEER_INFO p] s (showPeer s p b) :=
  (((((((onlyListed_refl _ _).setF_mem _ _ (by simp)).setF_mem _ _ (by simp)).wr_mem _ (by simp)).setF_mem _ _ (by simp)).setF_mem _ _ (by simp)).setF_mem
    _ _ (by simp)).setF_mem _ _ (by simp)

/-- A port with the peer's block complete: it is the block last received. -/
def peerKept (s : State) (p : Nat) (b : Bytes) : State :=
  modPort s p fun y => { y with hello0 := none, peer := some b, peerTwice := (getPort s p).peer == some b }

theorem getPort_peerKept (s : State) (p : Nat) (b : Bytes) :
    getPort (peerKept s p b) p = { getPort s p with hello0 := none, peer := some b, peerTwice := (getPort s p).peer == some b } :=
  getPort_modPort_of_ne s p fun e => by simpa using congrArg Port.peer e

theorem getPort_showPeer (s : State) (p : Nat) (b : Bytes) (q : Nat) : getPort (showPeer s p b) q = getPort s q := by
  obtain ⟨-, hrest⟩ := onlyListed_showPeer s p b
  exact getPort_of_ports (by rw [hrest]) q

/-- Before phase 4 the second half of a block shows the peer, and that is all. -/
theorem exec_hello1_before_phase4 {s : State} {p : Nat} {h b : Bytes} (hp : p < 32) (hlen : b.length = 31) (hfirst : (getPort s p).hello0 = some h)
    (hstate : portState s p = 1) (hphase : (getPort s p).phase < 4) : exec (.hello1 p b) s = .next (showPeer (peerKept s p (h ++ b)) p (h ++ b)) := by
  show execHello1 p b s = _
  have hlater : (getPort (showPeer (peerKept s p (h ++ b)) p (h ++ b)) p).phase ≠ 4 := by
    rw [getPort_showPeer, getPort_peerKept]
    exact hphase.ne
  rw [execHello1, hfirst]
  refine (done_onlyIf (by simp [hp, hlen])).trans (congrArg done ?_)
  dsimp only
  rw [if_pos (by simp [hstate, hphase.le])]
  refine if_neg fun hcheck => hlater ?_
  simp only [Bool.and_eq_true, beq_iff_eq] at hcheck
  obtain ⟨⟨hfour, -⟩, -⟩ := hcheck
  exact hfour

theorem hello1_shows {s : State} {p : Nat} {h b : Bytes} (hinv : Inv s) (hp : p < 32) (hlen : b.length = 31) (hfirst : (getPort s p).hello0 = some h)
    (hstate : portState s p = 1) (hphase : (getPort s p).phase < 4) : Completes (.hello1 p b) s fun t =>
      (getPort t p).peer = some (h ++ b) ∧ (getPort t p).hello0 = none ∧ (getPort t p).peerTwice = decide ((getPort s p).peer = some (h ++ b)) ∧
        getF t (R.DRD_PORT_STATUS p) F.DRD_PORT_STATUS_PEER_FID = idFid (h ++ b) ∧ getF t (R.DRD_PORT_STATUS p) F.DRD_PORT_STATUS_PEER_PORT = idPort (h ++ b) % 256 ∧
        portState t p = 1 ∧ OnlyRegs [R.DRD_PORT_STATUS p, R.DRD_PORT_PEER p, R.DRD_PORT_PEER_INFO p] s t ∧ t = { s with regs := t.regs, ports := t.ports } := by
  obtain ⟨-, hsorted, -⟩ := hinv
  have hport := (getPort_showPeer (peerKept s p (h ++ b)) p (h ++ b) p).trans (getPort_peerKept s p (h ++ b))
  obtain ⟨hfid, hnumber, hkept⟩ := showPeer_fields (s := peerKept s p (h ++ b)) hsorted p (h ++ b)
  obtain ⟨hregs, hrest⟩ := onlyListed_showPeer (peerKept s p (h ++ b)) p (h ++ b)
  refine ⟨_, exec_hello1_before_phase4 hp hlen hfirst hstate hphase, ?_, ?_, ?_, hfid, hnumber, hkept.trans hstate, hregs, ?_⟩
  · rw [hport]
  · rw [hport]
  · rw [hport]
    exact beq_eq_decide _ _
  · exact hrest.trans (by rw [hrest]; rfl)

/-! ### Timeouts (R409, R413, R417) -/

/-- In phase 4 the block goes out again every 10 µs; each 100 µs are a try, and after the eighth the port is given up. -/
theorem exec_helloResend_of_due {s : State} {p : Nat} (hp : p < 32) (hstate : portState s p = 1) (hphase : (getPort s p).phase = 4)
    (hdue : (getPort s p).identNs + 10000 ≤ s.now) :
    exec (.helloResend p) s = .next (
      if (getPort s p).helloNs + 100000 ≤ s.now then
        if (getPort s p).tries ≥ 8 then setPortState s p 0
        else sendHello (modPort s p fun y => { y with tries := y.tries + 1, helloNs := s.now }) p
      else sendHello s p) :=
  done_onlyIf (by simp [hp, hstate, hphase, hdue])

theorem exec_holdResumeTimeout_of_due {s : State} {p : Nat} {h : PortHold} (hp : p < 32) (hserv : inService s p = true) (hhold : (getPort s p).hold = some h)
    (hdue : h.endNs + 100000 ≤ s.now) : exec (.holdResumeTimeout p) s = .next (setPortState s p 1) := by
  show execHoldResumeTimeout p s = _
  rw [execHoldResumeTimeout, hhold]
  exact done_onlyIf (by simp [hp, hserv, hdue])

/-- Settles O7: ALIGN blocks outside phase 2 only count (`exec_align_of_training`), the second half of an identity block before phase 4 only shows the peer (`exec_hello1_before_phase4`), and each timeout is its own effect where it is due. That the eighth try of phase 4 and 2 ms of training lead to DARK is assumption log 44; that the maps of ports and of counted filters are in rising order is a premise. -/
theorem portTraining : Obligations.PortTraining := by
  unfold Obligations.PortTraining
  refine ⟨fun _ _ _ => align_unformed, fun _ _ _ => align_onItsWavelength, fun _ _ _ => hello0_kept, fun _ _ _ _ hinv hp hlen _ => hello1_shows hinv hp hlen,
    fun s p hp hstate hphase hdue hsoon => ?_, fun s p hp hstate hphase hdue hlate htries => ?_, fun s p hp hstate hdue => ?_, fun s p hp hstate hphase hlong => ?_,
    fun _ _ _ => exec_holdResumeTimeout_of_due⟩
  · exact (exec_helloResend_of_due hp hstate hphase hdue).trans (congrArg done (if_neg (by omega)))
  · exact (exec_helloResend_of_due hp hstate hphase hdue).trans (congrArg done ((if_pos hlate).trans (if_pos htries)))
  · exact done_onlyIf (by simp [hp, hdue, or_assoc, hstate])
  · exact done_onlyIf (by simp [hp, hstate, hphase, hlong])

end Sys2Proof.Machine
end

section
/-!
Lanes of a Darend port taken out and put back, holds, replays, and the replay region (14 R406 to R411, R430).
-/
namespace Sys2Proof.Machine

/-! ### Lane maps (R423) -/

theorem modNth_const {α : Type} (n : Nat) (x : α) (l : List α) : modNth n (fun _ => x) l = l.set n x := by
  induction l generalizing n with
  | nil => simp [modNth]
  | cons y l ih =>
    cases n with
    | zero => rfl
    | succ n => rw [modNth, ih, List.set_cons_succ]

/-- The number a lane map is kept as: one hexadecimal digit to a logical lane. -/
theorem laneMap_sum_eq_ofDigits (m : List Nat) : (m.zipIdx.map fun e => e.1 * 16 ^ e.2).sum = Nat.ofDigits 16 m := by
  rw [Nat.ofDigits_eq_sum_mapIdx, List.mapIdx_eq_zipIdx_map]

theorem bitsOf_ofDigits {m : List Nat} (hm : ∀ w ∈ m, w < 16) {i : Nat} (hi : i < m.length) : bitsOf (Nat.ofDigits 16 m) (4 * i + 3) (4 * i) = m[i] := by
  have hdigit : m[i] < 16 := hm _ (List.getElem_mem hi)
  have hwidth : 4 * i + 3 + 1 - 4 * i = 4 := by omega
  rw [bitsOf, Nat.shiftRight_eq_div_pow, Nat.pow_mul, hwidth, Nat.ofDigits_div_pow_eq_ofDigits_drop i (by decide) m hm, List.drop_eq_getElem_cons hi,
    Nat.ofDigits_cons]
  omega

theorem ofDigits_lt_of_laneMap {m : List Nat} (hlen : m.length = 8) (hm : ∀ w ∈ m, w < 16) : Nat.ofDigits 16 m < 2 ^ 32 := by
  have hlt := Nat.ofDigits_lt_base_pow_length (by decide : 1 < 16) hm
  rwa [hlen] at hlt

/-- The field of a direction's lane map. -/
abbrev laneField (tx : Bool) : RF := if tx then F.DRD_PORT_LANES_TX_MAP else F.DRD_PORT_LANES_RX_MAP

theorem lanesOf_length (s : State) (p : Nat) (tx : Bool) : (lanesOf s p tx).length = 8 := by simp [lanesOf]

theorem lanesOf_lt (s : State) (p : Nat) (tx : Bool) : ∀ w ∈ lanesOf s p tx, w < 16 := by
  intro w hw
  obtain ⟨i, -, rfl⟩ := List.mem_map.1 hw
  have hwidth : 4 * i + 3 + 1 - 4 * i = 4 := by omega
  rw [bitsOf, hwidth]
  exact Nat.mod_lt _ (by decide)

theorem portLanes_ne_status (p : Nat) : R.DRD_PORT_LANES p ≠ R.DRD_PORT_STATUS p := by
  simp [R.DRD_PORT_LANES, R.DRD_PORT_STATUS]

/-- A lane map of eight wavelengths reads back as it was set. -/
theorem lanesOf_setLaneMap {s : State} (hs : mapSorted s.regs = true) (p : Nat) (tx : Bool) {m : List Nat} (hlen : m.length = 8) (hm : ∀ w ∈ m, w < 16) :
    lanesOf (setLaneMap s p tx m) p tx = m := by
  have hfield : getF (setLaneMap s p tx m) (R.DRD_PORT_LANES p) (laneField tx) = Nat.ofDigits 16 m := by
    rw [setLaneMap, getF_setF_other _ _ _ _ (portLanes_ne_status p), getF_setF_other _ _ _ _ (portLanes_ne_status p), laneMap_sum_eq_ofDigits,
      getF_setF_same hs _ _ _ (by cases tx <;> decide) (by cases tx <;> decide)]
    cases tx <;> exact Nat.mod_eq_of_lt (ofDigits_lt_of_laneMap hlen hm)
  refine List.ext_getElem ((lanesOf_length _ _ _).trans hlen.symm) fun i _ hi => ?_
  simp only [lanesOf, List.getElem_map, List.getElem_range]
  rw [hfield, bitsOf_ofDigits hm hi]

theorem onlyListed_setLaneMap (s : State) (p : Nat) (tx : Bool) (m : List Nat) : OnlyListed [R.DRD_PORT_LANES p, R.DRD_PORT_STATUS p] s (setLaneMap s p tx m) :=
  (((onlyListed_refl _ s).setF_mem _ _ (by simp)).setF_mem _ _ (by simp)).setF_mem _ _ (by simp)

/-! ### Changes asked for and made (R410, R411) -/

/-- The lane map a change of one logical lane gives is again one of eight wavelengths. -/
theorem laneChanged_map (s : State) (p i : Nat) (tx : Bool) {w : Nat} (hw : w ≤ 8 ∨ w = 15) :
    (modNth i (fun _ => w) (lanesOf s p tx)).length = 8 ∧ ∀ v ∈ modNth i (fun _ => w) (lanesOf s p tx), v < 16 := by
  rw [modNth_const]
  refine ⟨(List.length_set).trans (lanesOf_length s p tx), fun v hv => ?_⟩
  rcases List.mem_or_eq_of_mem_set hv with hold | rfl
  · exact lanesOf_lt s p tx v hold
  · omega

/-- A change the peer asks of a port in training is answered and made at once. -/
theorem laneChange_inTraining {s : State} {p a i w m : Nat} (h : Inv s) (hp : p < 32) (hi : i < 8) (hw : w ≤ 8 ∨ w = 15) (hstate : portState s p = 1) (ha : a < 2) :
    Completes (.laneChange p a i w m) s fun t =>
      lanesOf t p true = modNth i (fun _ => w) (lanesOf s p true) ∧ t.out = s.out ++ [⟨.laneChange, p, [a + 2, i, w, m], [], some (p, 0)⟩] ∧
        OnlyRegs [R.DRD_PORT_LANES p, R.DRD_PORT_STATUS p] s t ∧ t = { s with regs := t.regs, out := t.out } := by
  obtain ⟨-, hsorted, -⟩ := h
  have hexec : exec (.laneChange p a i w m) s =
      .next (setLaneMap (sendBlock s p .laneChange [a + 2, i, w, m]) p true (modNth i (fun _ => w) (lanesOf s p true))) :=
    (done_onlyIf (by simp [hp, hi, hw, hstate])).trans (congrArg done ((if_pos ha).trans (if_pos (beq_iff_eq.2 hstate))))
  obtain ⟨hlen, hlt⟩ := laneChanged_map s p i true hw
  generalize modNth i (fun _ => w) (lanesOf s p true) = lanes at hexec hlen hlt ⊢
  obtain ⟨hregs, hrest⟩ := onlyListed_setLaneMap (sendBlock s p .laneChange [a + 2, i, w, m]) p true lanes
  exact ⟨_, hexec, lanesOf_setLaneMap (s := sendBlock s p .laneChange [a + 2, i, w, m]) hsorted p true hlen hlt, by rw [hrest]; rfl, hregs, by rw [hrest]; rfl⟩

/-- The change an answer is for: of a received lane, and with the fields of the answer. -/
def isAnswered (a i w m : Nat) (c : LaneChange) : Bool := !c.tx && c.logical == i && c.wavelength == w && c.atMarker == m && c.takeOut == (a == 2)

/-- An answer marks the request it is for. -/
theorem exec_laneChange_answer {s : State} {p a i w m : Nat} (hp : p < 32) (hi : i < 8) (hw : w ≤ 8 ∨ w = 15) (hon : portState s p = 1 ∨ inService s p = true)
    (ha : a = 2 ∨ a = 3) : exec (.laneChange p a i w m) s =
      .next (modPort s p fun x => { x with changes := x.changes.map fun c => if isAnswered a i w m c then { c with echoed := true } else c }) :=
  (done_onlyIf (by simpa [hp, hi] using ⟨hw, hon⟩)).trans (congrArg done ((if_neg (by omega)).trans (if_pos (by omega))))

theorem laneChange_answer_marks {s : State} {p a i w m : Nat} (hp : p < 32) (hi : i < 8) (hw : w ≤ 8 ∨ w = 15) (hports : mapSorted s.ports = true)
    (hon : portState s p = 1 ∨ inService s p = true) (ha : a = 2 ∨ a = 3) : Completes (.laneChange p a i w m) s fun t => t = { s with ports := t.ports } ∧
      ∀ c ∈ (getPort t p).changes, c.tx = false → c.logical = i → c.wavelength = w → c.atMarker = m → c.takeOut = decide (a = 2) → c.echoed = true := by
  refine ⟨_, exec_laneChange_answer hp hi hw hon ha, rfl, fun c hc htx hlane hwave hmarker hout => ?_⟩
  rw [getPort_modPort_of_sorted hports] at hc
  obtain ⟨d, -, rfl⟩ := List.mem_map.1 hc
  by_cases hd : isAnswered a i w m d = true
  · rw [if_pos hd]
  · rw [if_neg hd] at htx hlane hwave hmarker hout
    exact absurd (by simp [isAnswered, htx, hlane, hwave, hmarker, hout, beq_eq_decide]) hd

section
variable {s : State} {p i : Nat} {tx : Bool} {c : LaneChange} (hfind : (getPort s p).changes.find? (fun c => c.tx == tx && c.logical == i) = some c)
include hfind

/-- A request without its answer is made again, with a later marker. -/
theorem exec_laneRestripe_unanswered (hecho : c.echoed = false) : exec (.laneRestripe p tx i) s =
    .next (askChange (modPort s p fun x => { x with markerCount := max x.markerCount c.atMarker }) p c.takeOut c.logical c.wavelength) := by
  show execLaneRestripe p tx i s = _
  rw [execLaneRestripe, hfind]
  exact congrArg done (if_pos (by simp [hecho]))

/-- A change that puts no received lane back leaves its ring's count of clean blocks. -/
theorem exec_laneRestripe_answered (hecho : c.echoed = true) (hring : tx = true ∨ c.takeOut = true) : exec (.laneRestripe p tx i) s =
    .next (lanesChanged (setLaneMap (modPort s p fun x => { x with changes := x.changes.erase c }) p tx (modNth i (fun _ => c.wavelength) (lanesOf s p tx))) p) := by
  show execLaneRestripe p tx i s = _
  rw [execLaneRestripe, hfind]
  refine congrArg done ((if_neg (by simp [hecho])).trans ?_)
  dsimp only
  rw [if_pos (by simpa using hring)]
  rfl

end

/-! ### Lanes out of order (R410) -/

section
variable {s : State} {p i : Nat} (hp : p < 32) (hi : i < 8) (hserv : inService s p = true) (hhold : holding s (getPort s p) = false)
include hp hi hserv hhold

/-- Every fault that R410 names takes the lane out; bad codewords and corrected symbols are counted first (R424). -/
theorem exec_laneOut_of_fault (n : Nat) : exec (.laneOut p i (.missing (n + 2))) s = .next (takeLaneOut s p i) ∧
    exec (.laneOut p i (.skew (n + 65))) s = .next (takeLaneOut s p i) ∧
    exec (.laneOut p i (.codewords (n + 4))) s = .next (takeLaneOut (incF s (R.DRD_PORT_FEC p) F.DRD_PORT_FEC_UNCORRECTABLE (n + 4)) p i) ∧
    exec (.laneOut p i (.symbols (n + 2049))) s = .next (takeLaneOut (incF s (R.DRD_PORT_FEC p) F.DRD_PORT_FEC_CORRECTED (n + 2049)) p i) := by
  have hdue : (decide (p < 32) && decide (i < 8) && inService s p && !holding s (getPort s p)) = true := by simp [hp, hi, hserv, hhold]
  refine ⟨?_, ?_, ?_, ?_⟩ <;> exact (done_onlyIf hdue).trans (congrArg done (if_pos (by omega)))

end

/-! ### Replays (R407, R408) -/

theorem exec_portLostTimeout_of_late {s : State} {p b : Nat} (hp : p < 32) (hleft : (getPort s p).leftNs = some b) (hserv : inService s p = false)
    (hlate : 2000000 < counted s p b) : exec (.portLostTimeout p) s = .next (modPort (discardStore s p) p fun y => { y with leftNs := none }) := by
  show execPortLostTimeout p s = _
  rw [execPortLostTimeout, hleft]
  exact done_onlyIf (by simp [hp, hserv, hlate])

/-! ### The replay region (R406, R430) -/

/-- While no port holds an extension, a region of up to 64 MiB is taken that is empty or lies in the fabric buffer. -/
theorem writeReplayRegion_of_room {s : State} {v : Word} (how : How) (hfree : ∀ p, p < 32 → (getPort s p).extension = 0) (hsize : fld v 54 48 ≤ 64)
    (hroom : fld v 54 48 = 0 ∨ (fabricBase ≤ fld v 47 20 * 2 ^ 20 ∧ (fld v 47 20 + fld v 54 48) * 2 ^ 20 ≤ fabricBase + fabricBytes)) :
    writeReplayRegion s v how = wr s R.DRD_REPLAY_REGION (BitVec.ofNat 64 (fld v 54 48 * 2 ^ 48 + fld v 47 20 * 2 ^ 20)) := by
  rw [Nat.add_mul] at hroom
  exact if_neg (by simpa [allPorts, hsize] using ⟨hfree, or_iff_not_imp_left.1 hroom⟩)

theorem writeReplayRegion_of_large {s : State} {v : Word} (how : How) (hsize : 64 < fld v 54 48) : writeReplayRegion s v how = refuseAs s how :=
  if_pos (by simp [hsize])

theorem drdReplayRegionWrite_takes {s : State} {v : Word} (h : Inv s) (hfree : ∀ p, p < 32 → (getPort s p).extension = 0) (hsize : fld v 54 48 ≤ 64)
    (hroom : fld v 54 48 = 0 ∨ (fabricBase ≤ fld v 47 20 * 2 ^ 20 ∧ (fld v 47 20 + fld v 54 48) * 2 ^ 20 ≤ fabricBase + fabricBytes)) :
    Completes (.drdReplayRegionWrite v) s fun t => rd t R.DRD_REPLAY_REGION = BitVec.ofNat 64 (fld v 54 48 * 2 ^ 48 + fld v 47 20 * 2 ^ 20) ∧
      OnlyRegs [R.DRD_REPLAY_REGION] s t ∧ t = { s with regs := t.regs } := by
  obtain ⟨-, hsorted, -⟩ := h
  obtain ⟨hregs, hrest⟩ := onlyReg_wr s R.DRD_REPLAY_REGION (BitVec.ofNat 64 (fld v 54 48 * 2 ^ 48 + fld v 47 20 * 2 ^ 20))
  exact ⟨_, congrArg done (writeReplayRegion_of_room _ hfree hsize hroom), rd_wr_same hsorted _ _, hregs, hrest⟩

/-- Settles O8: a lane map reads back as it was set (`lanesOf_setLaneMap`), an answer marks the request with its fields (`exec_laneChange_answer`), and each other clause is the effect of its command where its condition holds. That a change asked of a port in training is made at once, without a marker, is the model's choice beside assumption log 42; writes of the replay region follow R406 (assumption log 48). -/
theorem portLanesAndReplay : Obligations.PortLanesAndReplay := by
  unfold Obligations.PortLanesAndReplay
  refine ⟨fun _ _ _ _ _ _ => laneChange_inTraining, fun _ _ _ _ _ _ => laneChange_answer_marks, fun _ _ _ _ _ => exec_laneRestripe_unanswered,
    fun _ _ _ _ _ _ _ => exec_laneRestripe_answered, fun _ _ _ n hp hi hserv hhold => exec_laneOut_of_fault hp hi hserv hhold n,
    fun s p b us r hp hus hon => done_onlyIf (by simpa [hp, hus, or_assoc] using hon),
    fun s p hp hserv hstore hhold hlate => done_onlyIf (by simp [hp, hserv, hstore, hhold, hlate]), fun _ _ _ => exec_portLostTimeout_of_late,
    fun _ _ => drdReplayRegionWrite_takes, fun s v hsize => ⟨_, congrArg done (writeReplayRegion_of_large _ hsize), rfl⟩⟩

end Sys2Proof.Machine
end

section
/-!
The life of the link keys: rotation, expiry and the confirmation of the slice key (14 R418, 18 R544, R545).
-/
namespace Sys2Proof.Machine

/-! ### What the showing of a port's keys leaves -/

/-- FLOOR and the admitted tags are registers; nothing else of the state shows them. -/
theorem showPorts_eq (s : State) : showPorts s = { s with regs := (showPorts s).regs } := by
  have hadmit : ∀ l : List Nat, ∀ t : State, t = { s with regs := t.regs } → l.foldl showAdmit t = { s with regs := (l.foldl showAdmit t).regs } := by
    intro l
    induction l with
    | nil => exact fun _ h => h
    | cons p l ih => exact fun t h => ih _ (wr_rest _ _ h)
  exact wr_rest _ _ (hadmit allPorts s rfl)

theorem showKeys_eq (s : State) (p : Nat) : showKeys s p = { s with regs := (showKeys s p).regs } := by
  unfold showKeys
  extract_lets t
  have ht : t = { s with regs := t.regs } := by
    cases hgen : sendGen s p 0 with
    | none =>
      simp only [t, hgen]
      exact wr_rest _ _ rfl
    | some g =>
      simp only [t, hgen]
      exact wr_rest _ _ (wr_rest _ _ rfl)
  exact (showPorts_eq t).trans (by rw [ht])

theorem showKeys_mer (s : State) (p : Nat) : (showKeys s p).mer = s.mer := by rw [showKeys_eq]

theorem showKeys_ports (s : State) (p : Nat) : (showKeys s p).ports = s.ports := by rw [showKeys_eq]

theorem showKeys_mem (s : State) (p : Nat) : (showKeys s p).mem = s.mem := by rw [showKeys_eq]

theorem noteAt_mer (s : State) (source range cls : Nat) : (noteAt s source range cls).mer = s.mer := logEvent_mer s _ _ _ _ _ _

/-! ### Rotation (R418, R545) -/

/-- The ports at a rotation: one without the new keys is entered, and one with keys shows those it now sends with. -/
def keysTurned (s : State) : State :=
  allPorts.foldl (fun s p => if (getPort s p).keys == [] then s else showKeys s p)
    (allPorts.foldl (fun s p => if inService s p && lacking s p (rotNow s) then noteAt s (portSource p) 0x03 clsInfo else s) s)

theorem exec_keyRotation_of_due {s : State} (hwatch : watchNow s % 16384 = 0) (hbeat : beatNow s % 16384 = 0) :
    exec .keyRotation s = .next (showRotation (keysTurned s)) :=
  done_onlyIf (by simp [hwatch, hbeat])

theorem keysTurned_stays {q : List Instr} {n : Nat} {M : List Host.Cell → Prop} {s : State} (h : Stays q n M s) : Stays q n M (keysTurned s) :=
  stays_foldl (stays_foldl h fun _ _ hs => stays_ite (noteAt_stays hs) hs) fun _ _ hs => stays_ite hs (showKeys_stays hs)

theorem keysTurned_mer (s : State) : (keysTurned s).mer = s.mer := by
  refine (foldl_leaves State.mer (fun t p => ?_) _ _).trans (foldl_leaves State.mer (fun t p => ?_) _ _)
  · split
    · rfl
    · exact showKeys_mer t p
  · split
    · exact noteAt_mer t _ _ _
    · rfl

theorem watchNow_of_mer {s t : State} (h : t.mer = s.mer) : watchNow t = watchNow s := by
  rw [watchNow, beatNow, countNow, h]
  rfl

theorem keyRotation_shows_next {s : State} (h : Inv s) (hwatch : watchNow s % 16384 = 0) (hbeat : beatNow s % 16384 = 0) : Completes .keyRotation s fun t =>
    getF t R.SEC_ROTATION F.SEC_ROTATION_NEXT_BEAT = ((watchNow s / 16384 + 1) * 2 ^ 28) % 2 ^ (F.SEC_ROTATION_NEXT_BEAT.hi + 1 - F.SEC_ROTATION_NEXT_BEAT.lo) ∧
      t.mem = s.mem := by
  obtain ⟨-, hregs⟩ := h
  obtain ⟨-, -, hmem, hsorted, -⟩ := keysTurned_stays (⟨rfl, rfl, rfl, hregs⟩ : Stays s.pending s.now (fun m => m = s.mem) s)
  refine ⟨_, exec_keyRotation_of_due hwatch hbeat, ?_, (setF_mem _ _ _ _).trans hmem⟩
  rw [showRotation, getF_setF_same hsorted _ _ _ (by decide) (by decide), rotNow, watchNow_of_mer (keysTurned_mer s)]

/-! ### Expiry (R418) -/

theorem mem_allPorts {p : Nat} : p ∈ allPorts ↔ p < 32 := List.mem_range

/-- What the expiry leaves of a port's keys. -/
def liveKeys (s : State) (p : Nat) : List KeyGen := (getPort s p).keys.filter fun g => !genExpired s g

/-- One port at the expiry: without keys and stored states there is nothing to do. -/
def portExpired (s : State) (p : Nat) : State := if (getPort s p).keys == [] && (getPort s p).stored == [] then s else expireKeys s p

theorem exec_oldKeyExpiry (s : State) : exec .oldKeyExpiry s =
    .next (if allPorts.any fun p => (getPort s p).keys.any (genExpired s ·) || (getPort s p).stored.any fun t => t.keys.all (genExpired s ·) then allPorts.foldl portExpired s
      else s) := rfl

theorem expireKeys_ports (s : State) (p : Nat) : (expireKeys s p).ports =
    (modPort s p fun x => { x with keys := x.keys.filter fun g => !genExpired s g, stored := x.stored.filter fun t => t.keys.any fun g => !genExpired s g }).ports :=
  showKeys_ports _ p

theorem portExpired_leaves (s : State) (p : Nat) : (portExpired s p).mer = s.mer ∧ (portExpired s p).mem = s.mem := by
  unfold portExpired
  split
  · exact ⟨rfl, rfl⟩
  · exact ⟨showKeys_mer _ p, showKeys_mem _ p⟩

theorem portExpired_sorted {s : State} (hs : mapSorted s.ports = true) (p : Nat) : mapSorted (portExpired s p).ports = true := by
  unfold portExpired
  split
  · exact hs
  · rw [expireKeys_ports]
    exact modPort_ports_sorted hs p _

theorem keys_portExpired_same {s : State} (hs : mapSorted s.ports = true) (p : Nat) : (getPort (portExpired s p) p).keys = liveKeys s p := by
  unfold portExpired
  split
  · rename_i hnone
    simp only [Bool.and_eq_true, beq_iff_eq] at hnone
    obtain ⟨hkeys, -⟩ := hnone
    simp [liveKeys, hkeys]
  · rw [getPort_of_ports (expireKeys_ports s p), getPort_modPort_of_sorted hs]
    rfl

theorem getPort_portExpired_other (s : State) {p q : Nat} (h : q ≠ p) : getPort (portExpired s p) q = getPort s q := by
  unfold portExpired
  split
  · rfl
  · rw [getPort_of_ports (expireKeys_ports s p), getPort_modPort_other s _ h]

theorem genExpired_of_mer {s t : State} (h : t.mer = s.mer) (g : KeyGen) : genExpired t g = genExpired s g := by
  rw [genExpired, genExpired, watchNow_of_mer h]

/-- One port's turn changes nothing of what another keeps. -/
theorem liveKeys_portExpired {s : State} (hs : mapSorted s.ports = true) (p q : Nat) : liveKeys (portExpired s p) q = liveKeys s q := by
  obtain ⟨hmer, -⟩ := portExpired_leaves s p
  simp only [liveKeys, genExpired_of_mer hmer]
  by_cases hq : q = p
  · subst hq
    rw [keys_portExpired_same hs, liveKeys, List.filter_filter]
    simp only [Bool.and_self]
  · rw [getPort_portExpired_other s hq]

/-- After the turns of a list of ports each of them has only live keys, and no other port has changed. -/
theorem keys_foldl_portExpired {s : State} (hs : mapSorted s.ports = true) (l : List Nat) (q : Nat) :
    (getPort (l.foldl portExpired s) q).keys = if q ∈ l then liveKeys s q else (getPort s q).keys := by
  induction l generalizing s with
  | nil => simp
  | cons p l ih =>
    rw [List.foldl_cons, ih (portExpired_sorted hs p), liveKeys_portExpired hs]
    by_cases hq : q = p
    · subst hq
      simp [keys_portExpired_same hs]
    · simp [hq, getPort_portExpired_other s hq]

theorem mem_foldl_portExpired (s : State) (l : List Nat) : (l.foldl portExpired s).mem = s.mem :=
  foldl_leaves State.mem (fun t p => (portExpired_leaves t p).2) s l

theorem oldKeyExpiry_drops {s : State} (hports : mapSorted s.ports = true) : Completes .oldKeyExpiry s fun t =>
    t.mem = s.mem ∧ ∀ p, p < 32 → (getPort t p).keys = (getPort s p).keys.filter fun g => !genExpired s g := by
  refine ⟨_, exec_oldKeyExpiry s, ?_⟩
  split
  · refine ⟨mem_foldl_portExpired s allPorts, fun p hp => ?_⟩
    rw [keys_foldl_portExpired hports, if_pos (mem_allPorts.2 hp), liveKeys]
  · rename_i hlive
    refine ⟨rfl, fun p hp => (List.filter_eq_self.2 fun g hg => ?_).symm⟩
    simp only [List.any_eq_true, Bool.or_eq_true, not_exists, not_and, not_or] at hlive
    obtain ⟨hkeys, -⟩ := hlive p (mem_allPorts.2 hp)
    simpa using hkeys g hg

/-! ### Confirmation (R544) -/

/-- What another MAC leaves before it is entered: the failure counted, and its event set. -/
def confirmFailed (s : State) : State := setF (incF s R.SEC_COUNTS F.SEC_COUNTS_CONFIRM_FAIL 1) R.SEC_EVENTS F.SEC_EVENTS_CONFIRM_FAIL 1

theorem confirmFailed_ports (s : State) : (confirmFailed s).ports = s.ports := (setF_ports _ _ _ _).trans (incF_ports _ _ _ _)

theorem confirmFailed_mem (s : State) : (confirmFailed s).mem = s.mem := (setF_mem _ _ _ _).trans (incF_mem _ _ _ _)

theorem ports_of_onlyLog {s t : State} (h : OnlyLog s t) : t.ports = s.ports := by
  obtain ⟨-, hrest⟩ := h
  rw [hrest]

theorem confirmFailed_fields {s : State} (hs : mapSorted s.regs = true) :
    getF (confirmFailed s) R.SEC_COUNTS F.SEC_COUNTS_CONFIRM_FAIL =
        satAdd (F.SEC_COUNTS_CONFIRM_FAIL.hi + 1 - F.SEC_COUNTS_CONFIRM_FAIL.lo) (getF s R.SEC_COUNTS F.SEC_COUNTS_CONFIRM_FAIL) 1 ∧
      getF (confirmFailed s) R.SEC_EVENTS F.SEC_EVENTS_CONFIRM_FAIL = 1 := by
  refine ⟨?_, ?_⟩
  · rw [confirmFailed, getF_setF_other _ _ _ _ (by decide), getF_incF_same hs _ _ _ (by decide) (by decide)]
  · exact getF_setF_same (setF_sorted hs _ _ _) _ _ _ (by decide) (by decide)

section
variable {s : State} {p : Nat} {mac : Bytes} {g : KeyGen} {peer : Bytes} (hp : p < 32) (hserv : inService s p = true)
  (hkeys : ((getPort s p).keys.find? fun g => g.slice != []) = some g) (hpeer : (getPort s p).peer = some peer)
include hp hserv hkeys hpeer

/-- The peer's MAC under the slice key confirms the key, once. -/
theorem exec_sliceKeyConfirmation_verified (hmac : kmac256 g.slice (idDigest peer) 32 nmSlc = mac) (hnew : confirmed s p = false) :
    exec (.sliceKeyConfirmation p mac) s = .next (retryRoutes (pump (sendConfirm (showKeys (setBitF s R.SEC_LINK_KEYS F.SEC_LINK_KEYS_SLICE_CONFIRMED p true) p) p) p)) := by
  refine (done_onlyIf (by simp [hp, hserv])).trans (congrArg done ?_)
  dsimp only
  rw [hkeys, hpeer]
  dsimp only
  rw [if_pos (by simp [hmac]), if_neg (by simp [hnew])]

theorem exec_sliceKeyConfirmation_failed (hmac : kmac256 g.slice (idDigest peer) 32 nmSlc ≠ mac) :
    exec (.sliceKeyConfirmation p mac) s = .next (tellBluvisen (noteAt (confirmFailed s) (portSource p) 0x06 clsInfo) 544 [p]) := by
  refine (done_onlyIf (by simp [hp, hserv])).trans (congrArg done ?_)
  dsimp only
  rw [hkeys, hpeer]
  dsimp only
  rw [if_neg (by simpa using hmac)]
  rfl

theorem sliceKeyConfirmation_fails (h : Inv s) (hmac : kmac256 g.slice (idDigest peer) 32 nmSlc ≠ mac) : Completes (.sliceKeyConfirmation p mac) s fun t =>
    getF t R.SEC_COUNTS F.SEC_COUNTS_CONFIRM_FAIL = satAdd (F.SEC_COUNTS_CONFIRM_FAIL.hi + 1 - F.SEC_COUNTS_CONFIRM_FAIL.lo) (getF s R.SEC_COUNTS F.SEC_COUNTS_CONFIRM_FAIL) 1 ∧
      getF t R.SEC_EVENTS F.SEC_EVENTS_CONFIRM_FAIL = 1 ∧ t.ports = s.ports ∧ t.mem = s.mem := by
  obtain ⟨-, hsorted, -⟩ := h
  obtain ⟨hcount, hevent⟩ := confirmFailed_fields hsorted
  have hlog := (onlyLog_noteAt (confirmFailed s) (portSource p) 0x06 clsInfo).trans (onlyLog_tellBluvisen _ 544 [p])
  have hmem := mem_of_onlyLog hlog
  have hports := ports_of_onlyLog hlog
  obtain ⟨hregs, -⟩ := hlog
  refine ⟨_, exec_sliceKeyConfirmation_failed hp hserv hkeys hpeer hmac, ?_, ?_, hports.trans (confirmFailed_ports s), hmem.trans (confirmFailed_mem s)⟩
  · rw [getF_of_onlyRegs hregs _ (by decide), hcount]
  · rw [getF_of_onlyRegs hregs _ (by decide), hevent]

end

/-- Settles O10: the turn of the ports leaves the count that NEXT_BEAT is taken from (`keysTurned_mer`), the expiry goes over every port once (`keys_foldl_portExpired`), and a confirmation is verified or entered. That a confirmation newly verified has this end send its own once more is assumption log 36. -/
theorem linkKeyLife : Obligations.LinkKeyLife := by
  unfold Obligations.LinkKeyLife
  exact ⟨fun _ => keyRotation_shows_next, fun _ => oldKeyExpiry_drops, fun _ _ _ _ _ hp hserv hkeys hpeer => exec_sliceKeyConfirmation_verified hp hserv hkeys hpeer,
    fun _ _ _ _ _ h hp hserv hkeys hpeer => sliceKeyConfirmation_fails hp hserv hkeys hpeer h⟩

end Sys2Proof.Machine
end

section
/-!
What every command does to the queue, the time and memory, read off the one law of all commands (`exec_stays`).
-/
namespace Sys2Proof.Machine

/-- Settles O1: a step on a queue that is not empty is `step_of_pending_cons`. -/
theorem stepRunsFrontCommand : Obligations.StepRunsFrontCommand := by
  unfold Obligations.StepRunsFrontCommand
  exact fun _ _ _ h => step_of_pending_cons h

/-- The canonical forms of the state after a cold start: it lists no byte and no register. -/
theorem inv_reset : Inv State.reset := ⟨rfl, regsWf_nil⟩

/-- Settles O3: the state after reset lists nothing, and its queue is empty. -/
theorem resetHoldsInvariant : Obligations.ResetHoldsInvariant := by
  unfold Obligations.ResetHoldsInvariant
  exact ⟨inv_reset, rfl⟩

/-- Settles O5: `exec_stays` over canonical memory, at the state's own queue and time. That no command faults or refuses is the model's choice (assumption log 4), and that none takes time is assumption log 3. -/
theorem everyCommandGoesOn : Obligations.EveryCommandGoesOn := by
  unfold Obligations.EveryCommandGoesOn
  intro c s hs
  obtain ⟨t, ht, hk⟩ := exec_stays c (fun _ => memOk_memWf) (stays_of_inv hs)
  exact ⟨t, ht, hk.pend, hk.time, inv_of_stays hk⟩

/-- Settles O30: `exec_stays` over equality to the memory before, which only a command that may write memory needs stores to keep. -/
theorem commandsThatWriteNoByte : Obligations.CommandsThatWriteNoByte := by
  unfold Obligations.CommandsThatWriteNoByte
  intro c s hc hs
  have hstay : Stays s.pending s.now (fun m => m = s.mem) s := ⟨rfl, rfl, rfl, hs.2⟩
  obtain ⟨t, ht, hk⟩ := exec_stays c (fun h => by simp [hc] at h) hstay
  exact ⟨t, ht, hk.mem, fun a => by rw [hk.mem]⟩

/-- Settles O32: nothing is listed at reset, so every register reads the reset value of the register table. -/
theorem resetRegisterValues : Obligations.ResetRegisterValues := by
  unfold Obligations.ResetRegisterValues
  decide

end Sys2Proof.Machine
end

section
/-!
The entry an event makes, adds to, or loses (19 R571, R573, R574).
-/
namespace Sys2Proof.Machine

/-- Coalescing changes the first open entry of the source and code, and no other. -/
theorem coalesce_first {t source code : Nat} {l r : List LogEntry} {e : LogEntry} (hl : ∀ x ∈ l, ¬ (x.opened = true ∧ x.source = source ∧ x.code = code))
    (hopen : e.opened = true) (hsource : e.source = source) (hcode : e.code = code) :
    coalesce t source code (l ++ e :: r) = l ++ { e with count := min (2 ^ 32 - 1) (e.count + 1), lastTime := t } :: r := by
  induction l with
  | nil => simp [coalesce, hopen, hsource, hcode]
  | cons x l ih =>
    have hx : (x.opened && x.source == source && x.code == code) = false := by simpa [and_assoc] using hl x List.mem_cons_self
    simp only [List.cons_append, coalesce, hx, Bool.false_eq_true, if_false, ih fun y hy => hl y (List.mem_cons_of_mem _ hy)]

theorem openEntry_of_mem {lg : Logbook} {source code : Nat} {e : LogEntry} (h : e ∈ lg.entries) (hopen : e.opened = true) (hsource : e.source = source)
    (hcode : e.code = code) : openEntry lg source code = true :=
  List.any_eq_true.2 ⟨e, h, by simp [hopen, hsource, hcode]⟩

/-- The state in which an event's counter has risen (R569). -/
def eventCounted (s : State) (source : Nat) : State :=
  { s with log := { s.log with events := mapPut s.log.events source (min (2 ^ 48 - 1) (mapGetD 0 s.log.events source + 1)) } }

theorem logEvent_of_open {s : State} {source code : Nat} (cls a0 a1 a2 : Nat) (h : openEntry s.log source code = true) :
    logEvent s source code cls a0 a1 a2 = { eventCounted s source with log := { (eventCounted s source).log with entries := coalesce (countNow s) source code s.log.entries } } :=
  if_pos h

/-- Without an open entry, an event that is not CORRECTED is lost where there is no place, and else gets an entry. -/
theorem logEvent_of_noOpen {s : State} {source code cls : Nat} (a0 a1 a2 : Nat) (h : openEntry s.log source code = false) (hcls : cls ≠ clsCorrected) :
    logEvent s source code cls a0 a1 a2 =
      (let room := placeOverrun (eventCounted s source)
       if room.log.lostNow != 0 || room.log.entries.length ≥ 4096 then loseEntry room source else placeEntry room source code cls a0 a1 a2) := by
  have hopen : openEntry (eventCounted s source).log source code = false := h
  refine (if_neg (Bool.eq_false_iff.1 hopen)).trans ?_
  simp only [beq_eq_false_iff_ne.2 hcls, Bool.false_and, Bool.false_eq_true, if_false]
  rfl

/-- No OVERRUN entry is due while nothing is lost or the logbook is full. -/
theorem placeOverrun_of_notDue {s : State} (h : s.log.lostNow = 0 ∨ 4096 ≤ s.log.entries.length) : placeOverrun s = s := by
  refine if_neg ?_
  simp only [Bool.and_eq_true, bne_iff_ne, ne_eq, decide_eq_true_eq]
  omega

/-- The alarm of an entry sets nothing of the logbook but its own count. -/
theorem alarmDue_nextSeq (s : State) (cls : Nat) : (alarmDue s cls).2.nextSeq = s.log.nextSeq := by
  unfold alarmDue
  extract_lets sec n
  split <;> rfl

/-- The fields of a new entry (R571). -/
theorem placeEntry_fields (s : State) (source code cls a0 a1 a2 : Nat) : ∃ alarmed : Bool,
    (placeEntry s source code cls a0 a1 a2).log.entries = s.log.entries ++ [{ time := countNow s, lastTime := countNow s, seq := s.log.nextSeq, count := 1, source := source, code := code, cls := cls, opened := true, alarmed := alarmed, slice := logSlice s, a0 := a0 % 2 ^ 64, a1 := a1 % 2 ^ 64, a2 := a2 % 2 ^ 64 }] ∧
    (placeEntry s source code cls a0 a1 a2).log.nextSeq = s.log.nextSeq + 1 := by
  obtain ⟨hentries, -⟩ := alarmDue_log s cls
  have hseq := alarmDue_nextSeq s cls
  unfold placeEntry
  generalize alarmDue s cls = due at hentries hseq
  obtain ⟨al, lg⟩ := due
  dsimp only at hentries hseq
  refine ⟨al, ?_⟩
  simp [apply_ite State.log, hentries, hseq]

theorem loseEntry_entries (s : State) (source : Nat) : (loseEntry s source).log.entries = s.log.entries := by
  simp [loseEntry]

/-- Settles O31: the three ways of an event (`logEvent_of_open`, `logEvent_of_noOpen`), whose entry is `coalesce_first` or `placeEntry_fields`. -/
theorem eventsOfTheLogbook : Obligations.EventsOfTheLogbook := by
  unfold Obligations.EventsOfTheLogbook
  rintro s _ source code cls a0 a1 a2 rfl
  obtain ⟨hregs, hrest⟩ := onlyLog_logEvent s source code cls a0 a1 a2
  refine ⟨logEvent_events s source code cls a0 a1 a2, hregs, hrest, ?_, ?_, ?_⟩
  · intro l r e hentries hl hopen hsource hcode
    have he : e ∈ s.log.entries := by simp [hentries]
    rw [logEvent_of_open _ _ _ _ (openEntry_of_mem he hopen hsource hcode)]
    dsimp only
    rw [hentries, coalesce_first hl hopen hsource hcode]
  · intro hnone hcls hlost hroom
    have hnext : placeOverrun (eventCounted s source) = eventCounted s source := placeOverrun_of_notDue (.inl hlost)
    have hplace : ¬ (((eventCounted s source).log.lostNow != 0 || decide ((eventCounted s source).log.entries.length ≥ 4096)) = true) := by
      simp [eventCounted, hlost, hroom]
    rw [logEvent_of_noOpen _ _ _ hnone hcls, hnext]
    dsimp only
    rw [if_neg hplace]
    exact placeEntry_fields (eventCounted s source) source code cls a0 a1 a2
  · intro hnone hcls hfull
    have hnext : placeOverrun (eventCounted s source) = eventCounted s source := placeOverrun_of_notDue (.inr hfull)
    have hplace : ((eventCounted s source).log.lostNow != 0 || decide ((eventCounted s source).log.entries.length ≥ 4096)) = true := by
      simp [eventCounted, hfull]
    rw [logEvent_of_noOpen _ _ _ hnone hcls, hnext]
    dsimp only
    rw [if_pos hplace]
    exact ⟨loseEntry_entries _ _, loseEntry_lost _ _⟩

end Sys2Proof.Machine
end

section
/-!
The Lantern: its lines as alerts and spare-ins change them, and its bus (15 R447 to R453, R464, R465).
-/
namespace Sys2Proof.Machine

/-! ### What the Lantern's operations leave -/

/-- Nothing but registers, the outbox and the Rose dies' side differs. -/
def OnlyRose (s t : State) : Prop := t = { s with regs := t.regs, out := t.out, rose := t.rose }

theorem OnlyRose.trans {s t u : State} (h : OnlyRose s t) (k : OnlyRose t u) : OnlyRose s u := by
  unfold OnlyRose at *
  exact k.trans (by rw [h])

theorem onlyRose_setF (s : State) (a : Nat) (f : RF) (v : Nat) : OnlyRose s (setF s a f v) := rfl

theorem onlyRose_rose (s : State) (r : Rose) : OnlyRose s { s with rose := r } := rfl

theorem onlyRose_modLine (s : State) (k : Nat) (f : LanternLine → LanternLine) : OnlyRose s (modLine s k f) := rfl

theorem onlyRose_lanternWrite (s : State) (reg value : Nat) : OnlyRose s (lanternWrite s reg value) := rfl

/-! ### A line read after it was changed -/

theorem getLine_modLine_of_ne (s : State) (k : Nat) {f : LanternLine → LanternLine} (h : f (getLine s k) ≠ {}) : getLine (modLine s k f) k = f (getLine s k) :=
  mapGetD_putD_of_ne _ k h

theorem getLine_of_rose {s t : State} (h : t.rose = s.rose) (k : Nat) : getLine t k = getLine s k := by
  unfold getLine; rw [h]

theorem lineReg_ne_status {k : Nat} : R.LNT_LINE k ≠ R.LNT_STATUS := by
  unfold R.LNT_LINE R.LNT_STATUS; omega

theorem lntStatus_not_logRegs : R.LNT_STATUS ∉ logRegs := by decide

theorem spareStateOf_lt (s : State) (k st : Nat) : spareStateOf s k st < 8 := by
  unfold spareStateOf
  split_ifs <;> decide

/-- SPARE_STATE shows the state given. -/
theorem spareState_setF {s : State} (hs : mapSorted s.regs = true) (k : Nat) {v : Nat} (hv : v < 8) :
    spareState (setF s (R.LNT_LINE k) F.LNT_LINE_SPARE_STATE v) k = v :=
  (getF_setF_same hs _ F.LNT_LINE_SPARE_STATE v (by decide) (by decide)).trans (Nat.mod_eq_of_lt hv)

/-- LOST, given, reads as given. -/
theorem busLost_setF {s : State} (hs : mapSorted s.regs = true) (b : Bool) : busLost (setF s R.LNT_STATUS F.LNT_STATUS_LOST (b2n b)) = b := by
  unfold busLost flagF
  rw [getF_setF_same hs _ F.LNT_STATUS_LOST _ (by decide) (by decide)]
  cases b <;> rfl

/-! ### Alerts (R447, R449) -/

/-- The state in which an alert is heard: ALERT is cleared, the bus answers, and no retry is counted. -/
def alertHeard (s : State) (alert : Nat) : State :=
  let u := setF (lanternWrite s 0x06 (alert % 1024)) R.LNT_STATUS F.LNT_STATUS_LOST 0
  { u with rose := { u.rose with busTries := 0 } }

theorem alertHeard_sorted {s : State} (hs : mapSorted s.regs = true) (alert : Nat) : mapSorted (alertHeard s alert).regs = true :=
  setF_sorted (s := lanternWrite s 0x06 (alert % 1024)) hs R.LNT_STATUS F.LNT_STATUS_LOST 0

theorem onlyRegs_alertHeard (s : State) (alert : Nat) : OnlyRegs [R.LNT_STATUS] s (alertHeard s alert) := fun _ ha =>
  rd_setF_other (lanternWrite s 0x06 (alert % 1024)) F.LNT_STATUS_LOST 0 (List.ne_of_not_mem_cons ha)

theorem busLost_alertHeard {s : State} (hs : mapSorted s.regs = true) (alert : Nat) : busLost (alertHeard s alert) = false :=
  busLost_setF (s := lanternWrite s 0x06 (alert % 1024)) hs false

theorem onlyRose_alertHeard (s : State) (alert : Nat) : OnlyRose s (alertHeard s alert) :=
  ((onlyRose_lanternWrite s _ _).trans (onlyRose_setF _ _ _ _)).trans (onlyRose_rose _ _)

/-- The effect of an alert on one line, if it names it. -/
def lineAlerted (alert : Nat) (w : List Nat) (s : State) (k : Nat) : State := if alert.testBit k then lineAlert s k (w.getD k 0 % 128) else s

theorem exec_lanternAlert_of_present {s : State} {alert : Nat} (w : List Nat) (henabled : flagF s R.LNT_STATUS F.LNT_STATUS_ENABLED = true)
    (hpresent : flagF s R.LNT_STATUS F.LNT_STATUS_PRESENT = true) (halert : alert ≠ 0) :
    exec (.lanternAlert alert w) s = .next ((List.range 9).foldl (lineAlerted alert w) (alertHeard s alert)) := by
  show done (onlyIf _ s _) = _
  rw [done_onlyIf (by simp [henabled, hpresent, halert])]
  simp only [hpresent, if_true]
  rfl

/-- A fold that acts on one element of a list without repeats is that action. -/
theorem foldl_one {α : Type} {l : List Nat} {k : Nat} {f : α → Nat → α} (hk : k ∈ l) (hl : l.Nodup) (hf : ∀ a j, j ≠ k → f a j = a) (a : α) :
    l.foldl f a = f a k := by
  induction l generalizing a with
  | nil => simp at hk
  | cons j l ih =>
    obtain ⟨hj, hl⟩ := List.nodup_cons.1 hl
    rw [List.foldl_cons]
    by_cases hjk : j = k
    · subst hjk
      have hrest : ∀ b, ∀ i ∈ l, f b i = b := fun b i hi => hf b i fun e => hj (e ▸ hi)
      exact (List.foldl_ext f (fun b _ => b) _ hrest).trans (List.foldl_fixed l)
    · rw [hf a j hjk]
      exact ih ((List.mem_cons.1 hk).resolve_left (Ne.symm hjk)) hl a

/-- The line k with its status read: the status kept, and what it says of the spare shown. -/
def lineRead (s : State) (k st : Nat) : State :=
  let u := modLine s k fun l => { l with status := st }
  setF u (R.LNT_LINE k) F.LNT_LINE_SPARE_STATE (spareStateOf u k st)

theorem getLine_lineRead (s : State) (k : Nat) {st : Nat} (hst : 0 < st) : getLine (lineRead s k st) k = { getLine s k with status := st } :=
  getLine_modLine_of_ne s k (f := fun l => { l with status := st }) fun e => hst.ne' (congrArg LanternLine.status e)

theorem onlyRegs_lineRead (s : State) (k st : Nat) : OnlyRegs [R.LNT_LINE k] s (lineRead s k st) := fun _ ha =>
  rd_setF_other (modLine s k fun l => { l with status := st }) F.LNT_LINE_SPARE_STATE _ (List.ne_of_not_mem_cons ha)

theorem onlyRose_lineRead (s : State) (k st : Nat) : OnlyRose s (lineRead s k st) := (onlyRose_modLine s _ _).trans (onlyRose_setF _ _ _ _)

theorem lineAlert_of_noSpare {s : State} {k st : Nat} (hst : 0 < st) (h : (getLine s k).spare = none) : lineAlert s k st = lineRead s k st := by
  have hspare : (getLine (lineRead s k st) k).spare = none := by rw [getLine_lineRead s k hst]; exact h
  show (match (getLine (lineRead s k st) k).spare with | none => lineRead s k st | some x => _) = _
  rw [hspare]

theorem spareStateOf_of_rd {s t : State} {k : Nat} (h : rd t (R.LNT_LINE k) = rd s (R.LNT_LINE k)) (st : Nat) : spareStateOf t k st = spareStateOf s k st := by
  have hactive : lineActive t k = lineActive s k := by unfold lineActive flagF getF; rw [h]
  have hstate : spareState t k = spareState s k := by unfold spareState getF; rw [h]
  unfold spareStateOf
  rw [hactive, hstate]

theorem alert_of_one {s : State} {k st : Nat} {w : List Nat} (hk : k < 9) (hw : w.getD k 0 = st) (hst : st < 128) :
    (List.range 9).foldl (lineAlerted (2 ^ k) w) s = lineAlert s k st := by
  have hother : ∀ t j, j ≠ k → lineAlerted (2 ^ k) w t j = t := fun t j hj => by simp [lineAlerted, Ne.symm hj]
  rw [foldl_one (List.mem_range.2 hk) List.nodup_range hother, lineAlerted, Nat.testBit_two_pow_self, if_pos rfl, hw, Nat.mod_eq_of_lt hst]

theorem lanternAlert_oneLine {s : State} {k st : Nat} {w : List Nat} (h : Inv s) (hk : k < 9) (henabled : flagF s R.LNT_STATUS F.LNT_STATUS_ENABLED = true)
    (hpresent : flagF s R.LNT_STATUS F.LNT_STATUS_PRESENT = true) (hspare : (getLine s k).spare = none) (hw : w.getD k 0 = st) (hst : st < 128) (hpos : 0 < st) :
    Completes (.lanternAlert (2 ^ k) w) s fun t => (getLine t k).status = st ∧ spareState t k = spareStateOf s k st ∧ busLost t = false ∧
      t.out = s.out ++ [⟨.lantern, 0, [6, 2 ^ k], [], none⟩] ∧ OnlyRegs [R.LNT_STATUS, R.LNT_LINE k] s t ∧ t = { s with regs := t.regs, out := t.out, rose := t.rose } := by
  have hs := alertHeard_sorted h.2.1 (2 ^ k)
  have hrd : rd (alertHeard s (2 ^ k)) (R.LNT_LINE k) = rd s (R.LNT_LINE k) := onlyRegs_alertHeard s _ _ (by simpa using lineReg_ne_status)
  have halert : (2 ^ k) % 1024 = 2 ^ k := Nat.mod_eq_of_lt (Nat.pow_lt_pow_right (by decide) (by omega : k < 10))
  have hexec := exec_lanternAlert_of_present w henabled hpresent (Nat.two_pow_pos k).ne'
  rw [alert_of_one hk hw hst, lineAlert_of_noSpare (s := alertHeard s (2 ^ k)) hpos hspare] at hexec
  refine ⟨_, hexec, ?_, ?_, ?_, ?_, ?_, ?_⟩
  · rw [getLine_lineRead _ _ hpos]
  · exact (spareState_setF hs k (spareStateOf_lt _ _ _)).trans (spareStateOf_of_rd hrd st)
  · exact (flagF_of_onlyRegs (onlyRegs_lineRead _ k st) F.LNT_STATUS_LOST (by simpa using lineReg_ne_status.symm)).trans (busLost_alertHeard h.2.1 _)
  · show s.out ++ [⟨.lantern, 0, [6, 2 ^ k % 1024], [], none⟩] = _
    rw [halert]
  · intro a ha
    simp only [List.mem_cons, List.not_mem_nil, or_false, not_or] at ha
    obtain ⟨hstatus, hline⟩ := ha
    exact (onlyRegs_lineRead _ k st a (by simpa using hline)).trans (onlyRegs_alertHeard s _ a (by simpa using hstatus))
  · show OnlyRose s _
    exact (onlyRose_alertHeard s _).trans (onlyRose_lineRead _ k st)

/-! ### A bus that does not answer (R449) -/

/-- The state in which a retry of the bus is counted. -/
def busRetried (s : State) : State := { s with rose := { s.rose with busTries := s.rose.busTries + 1 } }

theorem exec_lanternBusTimeout_again {s : State} (henabled : flagF s R.LNT_STATUS F.LNT_STATUS_ENABLED = true) (hlost : busLost s = false)
    (hfew : s.rose.busTries < 3) :
    exec .lanternBusTimeout s = .next (incF (busRetried s) R.LNT_STATUS F.LNT_STATUS_BUS_ERRORS 1) := by
  show done (onlyIf _ s _) = _
  rw [done_onlyIf (by simp [henabled, hlost]), if_pos hfew]
  rfl

theorem busLost_busRetried {s : State} (hs : mapSorted s.regs = true) : busLost (incF (busRetried s) R.LNT_STATUS F.LNT_STATUS_BUS_ERRORS 1) = busLost s := by
  have hfield := getF_setF_field (s := busRetried s) hs R.LNT_STATUS F.LNT_STATUS_BUS_ERRORS F.LNT_STATUS_LOST
    (satAdd 32 (getF (busRetried s) R.LNT_STATUS F.LNT_STATUS_BUS_ERRORS) 1) (by decide) (by decide) (by decide)
  unfold busLost flagF
  rw [incF]
  exact congrArg (· != 0) hfield

/-- The state in which the bus is found lost. -/
def busFoundLost (s : State) : State :=
  setF { s with rose := { s.rose with busTries := 0, lostWatch := watchNow s } } R.LNT_STATUS F.LNT_STATUS_LOST 1

theorem exec_lanternBusTimeout_last {s : State} (henabled : flagF s R.LNT_STATUS F.LNT_STATUS_ENABLED = true) (hlost : busLost s = false)
    (hmany : 3 ≤ s.rose.busTries) :
    exec .lanternBusTimeout s = .next (tellBluvisen (noteAt (busFoundLost s) (lineSource 15) 0x03 clsInfo) 449 []) := by
  show done (onlyIf _ s _) = _
  rw [done_onlyIf (by simp [henabled, hlost]), if_neg (by omega)]
  rfl

/-- What is said of the bus that is lost changes nothing but the logbook and the outbox. -/
theorem onlyLog_busTold (s : State) : OnlyLog s (tellBluvisen (noteAt s (lineSource 15) 0x03 clsInfo) 449 []) :=
  (onlyLog_noteAt s _ _ _).trans (onlyLog_tellBluvisen _ _ _)

/-! ### A spare-in at its time (R453) -/

/-- The state in which SPARE_GO has been written and the registers show the spare of a line in use. -/
def spareShown (s : State) (k : Nat) : State :=
  setF (setF (lanternWrite s 0x72 1) (R.LNT_LINE k) F.LNT_LINE_ACTIVE 1) (R.LNT_LINE k) F.LNT_LINE_SPARE_STATE 3

/-- The state in which the spare of a line is in use, and the beat of its spare-in is past. -/
def spareUsed (s : State) (k : Nat) (x : SpareIn) : State := modLine (spareShown s k) k fun l => { l with spare := some { x with gone := true, beat := none } }

theorem spareShown_sorted {s : State} (hs : mapSorted s.regs = true) (k : Nat) : mapSorted (spareShown s k).regs = true :=
  setF_sorted (setF_sorted (s := lanternWrite s 0x72 1) hs _ _ _) _ _ _

theorem spareShown_fields {s : State} (hs : mapSorted s.regs = true) (k : Nat) :
    getF (spareShown s k) (R.LNT_LINE k) F.LNT_LINE_ACTIVE = 1 ∧ spareState (spareShown s k) k = 3 := by
  have hactive : mapSorted (setF (lanternWrite s 0x72 1) (R.LNT_LINE k) F.LNT_LINE_ACTIVE 1).regs = true := setF_sorted (s := lanternWrite s 0x72 1) hs _ _ _
  refine ⟨?_, spareState_setF hactive k (by decide)⟩
  rw [spareShown, getF_setF_field hactive _ F.LNT_LINE_SPARE_STATE F.LNT_LINE_ACTIVE _ (by decide) (by decide) (by decide)]
  exact getF_setF_same (s := lanternWrite s 0x72 1) hs _ F.LNT_LINE_ACTIVE 1 (by decide) (by decide)

theorem onlyRegs_spareShown (s : State) (k : Nat) : OnlyRegs [R.LNT_LINE k] s (spareShown s k) := fun a ha => by
  have hne : a ≠ R.LNT_LINE k := List.ne_of_not_mem_cons ha
  rw [spareShown, rd_setF_other _ _ _ hne, rd_setF_other _ _ _ hne]
  rfl

theorem spareUsed_regs (s : State) (k : Nat) (x : SpareIn) : (spareUsed s k x).regs = (spareShown s k).regs := rfl

theorem onlyRose_spareUsed (s : State) (k : Nat) (x : SpareIn) : OnlyRose s (spareUsed s k x) :=
  (((onlyRose_lanternWrite s _ _).trans (onlyRose_setF _ _ _ _)).trans (onlyRose_setF _ _ _ _)).trans (onlyRose_modLine _ _ _)

theorem spareUsed_out (s : State) (k : Nat) (x : SpareIn) : (spareUsed s k x).out = s.out ++ [⟨.lantern, 0, [0x72, 1], [], none⟩] := rfl

theorem getLine_spareUsed (s : State) (k : Nat) (x : SpareIn) :
    getLine (spareUsed s k x) k = { getLine s k with spare := some { x with gone := true, beat := none } } :=
  getLine_modLine_of_ne _ k fun e => Option.some_ne_none _ (congrArg LanternLine.spare e)

theorem exec_laserSpareIn_due {s : State} {k b d : Nat} {x : SpareIn} (hk : k < 9) (hspare : (getLine s k).spare = some x) (hbeat : x.beat = some b)
    (hgo : x.goNs = some d) (hgone : x.gone = false) (hup : busUp s = true) (hlocked : locked s = true) (hdue : b * 65536 + d ≤ countNow s) :
    exec (.laserSpareIn k) s = .next (setF (spareUsed s k x) (R.LNT_LINE k) F.LNT_LINE_SCHED_BEAT 0) := by
  have hsched : showSched (spareUsed s k x) k = setF (spareUsed s k x) (R.LNT_LINE k) F.LNT_LINE_SCHED_BEAT 0 := by
    rw [showSched, getLine_spareUsed]; rfl
  have hcond : (decide (k < 9) && !x.gone && busUp s && locked s && decide (b * 65536 + d ≤ countNow s)) = true := by
    simp only [hk, hgone, hup, hlocked, hdue, decide_true, Bool.not_false, Bool.and_true]
  show execLaserSpareIn k s = _
  rw [execLaserSpareIn, hspare]
  dsimp only
  rw [hbeat, hgo]
  dsimp only
  rw [onlyIf, if_pos hcond, ← hsched, spareUsed, spareShown, done, hgo]

theorem laserSpareIn_due {s : State} {k b d : Nat} {x : SpareIn} (h : Inv s) (hk : k < 9) (hspare : (getLine s k).spare = some x) (hbeat : x.beat = some b)
    (hgo : x.goNs = some d) (hgone : x.gone = false) (hup : busUp s = true) (hlocked : locked s = true) (hdue : b * 65536 + d ≤ countNow s) :
    Completes (.laserSpareIn k) s fun t => t.out = s.out ++ [⟨.lantern, 0, [0x72, 1], [], none⟩] ∧ getF t (R.LNT_LINE k) F.LNT_LINE_ACTIVE = 1 ∧ spareState t k = 3 ∧
      getF t (R.LNT_LINE k) F.LNT_LINE_SCHED_BEAT = 0 ∧ (getLine t k).spare = some { x with gone := true, beat := none } ∧ OnlyRegs [R.LNT_LINE k] s t ∧
      t = { s with regs := t.regs, out := t.out, rose := t.rose } := by
  obtain ⟨hactive, hstate⟩ := spareShown_fields h.2.1 k
  have hused : mapSorted (spareUsed s k x).regs = true := spareShown_sorted h.2.1 k
  have hread : ∀ f : RF, getF (spareUsed s k x) (R.LNT_LINE k) f = getF (spareShown s k) (R.LNT_LINE k) f := fun _ => rfl
  refine ⟨_, exec_laserSpareIn_due hk hspare hbeat hgo hgone hup hlocked hdue, ?_, ?_, ?_, ?_, ?_, ?_, ?_⟩
  · rw [setF_out, spareUsed_out]
  · rw [getF_setF_field hused _ F.LNT_LINE_SCHED_BEAT F.LNT_LINE_ACTIVE _ (by decide) (by decide) (by decide), hread, hactive]
  · rw [spareState, getF_setF_field hused _ F.LNT_LINE_SCHED_BEAT F.LNT_LINE_SPARE_STATE _ (by decide) (by decide) (by decide), hread]
    exact hstate
  · exact (getF_setF_same hused _ F.LNT_LINE_SCHED_BEAT 0 (by decide) (by decide)).trans (Nat.zero_mod _)
  · rw [getLine_of_rose (setF_rose _ _ _ _), getLine_spareUsed]
  · intro a ha
    rw [rd_setF_other _ _ _ (List.ne_of_not_mem_cons ha), rd_of_regs (spareUsed_regs s k x)]
    exact onlyRegs_spareShown s k a ha
  · show OnlyRose s _
    exact (onlyRose_spareUsed s k x).trans (onlyRose_setF _ _ _ _)

/-- Settles O12: an alert for one line acts on that line (`alert_of_one`), a bus timeout retries or gives up, and a spare-in due switches its line. That LOST is cleared by the next alert is assumption log 59; that a spare-in needs LOCKED or HOLDOVER is assumption log 58. -/
theorem lanternEvents : Obligations.LanternEvents := by
  unfold Obligations.LanternEvents
  refine ⟨fun _ _ _ _ h hk henabled hpresent hspare hw hst hpos => lanternAlert_oneLine h hk henabled hpresent hspare hw hst hpos, ?_, ?_,
    fun _ _ _ _ _ h hk hspare hbeat hgo hgone hup hlocked hdue => laserSpareIn_due h hk hspare hbeat hgo hgone hup hlocked hdue⟩
  · intro s h henabled hlost hfew
    exact ⟨_, exec_lanternBusTimeout_again henabled hlost hfew, rfl, (busLost_busRetried h.2.1).trans hlost, onlyRegs_incF (busRetried s) _ _ _, rfl⟩
  · intro s h henabled hlost hmany
    obtain ⟨hregs, hrest⟩ := onlyLog_busTold (busFoundLost s)
    refine ⟨_, exec_lanternBusTimeout_last henabled hlost hmany, ?_, ?_, ?_⟩
    · exact (flagF_of_onlyRegs hregs F.LNT_STATUS_LOST lntStatus_not_logRegs).trans (busLost_setF (s := { s with rose := _ }) h.2.1 true)
    · rw [hrest]; rfl
    · rw [hrest]; rfl

end Sys2Proof.Machine
end

section
/-!
Documents: heard and checked, taking effect, and asked for over the fabric (16 R467, R472 to R477, R482).
-/
namespace Sys2Proof.Machine

/-! ### Documents heard (R467) -/

/-- Each of the four rows hands a document of its kind to the checks. -/
theorem exec_document_heard {e : Nat × (Bytes → Instr)} (he : e ∈ ([(1, .chart), (2, .chartAmendment), (3, .sliceAllocation), (4, .sliceTableSet)] : List (Nat × (Bytes → Instr))))
    {s : State} {d : Bytes} (hheard : docHeard s = true) (hkind : docKind d = e.1) : exec (e.2 d) s = .next (takeDoc s e.1 d none) := by
  have hcond : ∀ k, docKind d = k → (docHeard s && docKind d == k) = true := fun k hk => by simp [hheard, hk]
  simp only [List.mem_cons, List.not_mem_nil, or_false] at he
  rcases he with rfl | rfl | rfl | rfl
  case inl => exact done_onlyIf (hcond 1 hkind)
  case inr.inl => exact done_onlyIf (hcond 2 hkind)
  case inr.inr.inl => exact done_onlyIf (hcond 3 hkind)
  case inr.inr.inr => exact done_onlyIf (hcond 4 hkind)

theorem takeDoc_of_unsigned {s : State} {d : Bytes} (kind : Nat) (via : Option Nat) (h : docSigned s d = false) : takeDoc s kind d via = refuseDoc s d 1 :=
  if_pos (by rw [h]; rfl)

/-- The state in which REFUSE_REASON shows the code of a document refused. -/
def reasonShown (s : State) (code : Nat) : State := setF s R.DRD_CHART_STATUS F.DRD_CHART_STATUS_REFUSE_REASON code

theorem reasonShown_field {s : State} (hs : mapSorted s.regs = true) {code : Nat} (hcode : code < 16) :
    getF (reasonShown s code) R.DRD_CHART_STATUS F.DRD_CHART_STATUS_REFUSE_REASON = code :=
  (getF_setF_same hs _ F.DRD_CHART_STATUS_REFUSE_REASON code (by decide) (by decide)).trans (Nat.mod_eq_of_lt hcode)

/-- A refusal says its reason, and else changes nothing but the logbook and the outbox. -/
theorem onlyLog_refuseDoc (s : State) (d : Bytes) (code : Nat) : OnlyLog (reasonShown s code) (refuseDoc s d code) :=
  (onlyLog_logEvent _ _ _ _ _ _ _).trans (onlyLog_tellBluvisen _ _ _)

theorem chartStatus_not_logRegs : R.DRD_CHART_STATUS ∉ logRegs := by decide

theorem fab_of_onlyLog {s t : State} (h : OnlyLog s t) : t.fab = s.fab := by
  obtain ⟨-, hrest⟩ := h
  rw [hrest]

/-- Settles O13: a document heard goes through `takeDoc`, whose first check is the signature. -/
theorem documentsHeard : Obligations.DocumentsHeard := by
  unfold Obligations.DocumentsHeard
  refine ⟨fun e he s d hheard hkind => exec_document_heard he hheard hkind, ?_⟩
  intro e he s d h hheard hkind hunsigned
  have hexec := exec_document_heard he hheard hkind
  rw [takeDoc_of_unsigned _ _ hunsigned] at hexec
  have hlog := onlyLog_refuseDoc s d 1
  refine ⟨_, hexec, ?_, (fab_of_onlyLog hlog).trans (setF_fab _ _ _ _), (mem_of_onlyLog hlog).trans (setF_mem _ _ _ _)⟩
  rw [getF_of_onlyRegs hlog.1 _ chartStatus_not_logRegs]
  exact reasonShown_field h.2.1 (by decide)

/-! ### Charts and amendments that take effect (R472, R474) -/

theorem exec_chartEffect_of_due {s : State} {w : Waiting} {c : Chart} (hdue : (s.fab.waiting.find? fun w => w.kind == 1 && docDue s w) = some w)
    (hread : readChart w.raw = some c) (hunlisted : ownEntry s = none) :
    exec .chartEffect s = .next (afterChart (storeChart (wr (showHeld { s with fab := { s.fab with
      chart := some c, waiting := s.fab.waiting.filter fun x => x.kind > 2 || (x.kind == 1 && x.epoch > w.epoch) } })
      R.DRD_CHART_EPOCH (BitVec.ofNat 64 c.epoch))) (ownPorts s) []) := by
  show execChartEffect s = _
  rw [execChartEffect, hdue]
  dsimp only
  rw [hread]
  dsimp only
  rw [hunlisted, Option.isSome_none, Bool.false_and, if_neg Bool.false_ne_true, done]

/-- A PORT record changes nothing of the slice. -/
theorem sliceChange_of_port (before s : State) {r : Bytes} (h : chKind r = 1) : sliceChange before s r = s := by
  unfold sliceChange
  split
  · simp [h]
  · rfl

theorem foldl_sliceChange_of_ports (before s : State) {rs : List Bytes} (h : rs.all (fun r => chKind r == 1) = true) : rs.foldl (sliceChange before) s = s := by
  have hport : ∀ t, ∀ r ∈ rs, sliceChange before t r = t := fun t r hr => sliceChange_of_port before t (by simpa using List.all_eq_true.1 h r hr)
  exact (List.foldl_ext _ (fun t _ => t) s hport).trans (List.foldl_fixed rs)

theorem exec_chartAmendmentEffect_of_ports {s : State} {w : Waiting} {c d : Chart} {rs : List Bytes}
    (hdue : ((heldAmends s).find? fun w => docBase w.raw == chartEpoch s && docDue s w) = some w) (hchart : s.fab.chart = some c) (hamend : amend c w.raw = some d)
    (hfits : docFault s 2 w.raw (some c) = none) (hchanges : docChanges w.raw = some rs) (hports : rs.all (fun r => chKind r == 1) = true) :
    exec .chartAmendmentEffect s = .next (afterChart (storeChart (wr (showHeld { s with fab := { s.fab with
        chart := some d, waiting := (s.fab.waiting.filter fun x => !(x.kind == 2 && x.epoch == w.epoch)).map (fun (x : Waiting) => if x.kind == 2 then { x with beat := max x.beat (beatNow s + 1) } else x),
        mChart := digest32 (s.fab.mChart ++ w.raw) } }) R.DRD_CHART_EPOCH (BitVec.ofNat 64 d.epoch))) (ownPorts s) (namedPorts s (myFid s) rs)) := by
  have hgone : (rs.any fun r => (chKind r == 3 || (chKind r == 2 && chDigest r != ownDigest)) && chFid r == myFid s && myFid s != 0) = false := by
    refine List.any_eq_false.2 fun r hr => ?_
    have hkind : chKind r = 1 := by simpa using List.all_eq_true.1 hports r hr
    simp [hkind]
  show execChartAmendmentEffect s = _
  rw [execChartAmendmentEffect, hdue]
  dsimp only
  rw [hchart, Option.bind_some, hamend, hfits]
  dsimp only
  rw [hchanges, Option.getD_some, foldl_sliceChange_of_ports _ _ hports, hgone, if_neg Bool.false_ne_true, done]

/-! ### Allocations that take effect (18 R539) -/

/-- The allocations still waiting once one is taken from them. -/
def allocTaken (s : State) (w : Waiting) : State :=
  { s with fab := { s.fab with waiting := s.fab.waiting.filter fun x => !(x.kind == 3 && x.slice == w.slice && x.epoch == w.epoch) } }

theorem myFid_with_fab (s : State) (f : Fabric) : myFid { s with fab := f } = myFid s := rfl

theorem mySlice_with_fab (s : State) (f : Fabric) : mySlice { s with fab := f } = mySlice s := rfl

theorem sliceState_with_fab (s : State) (f : Fabric) : sliceState { s with fab := f } = sliceState s := rfl

theorem exec_sliceAllocationEffect_of_named {s : State} {w : Waiting} {a : Alloc} (hdue : (s.fab.waiting.find? fun w => w.kind == 3 && docDue s w) = some w)
    (hread : readAlloc w.raw = some a) (hfree : sliceState s = 0) (hnamed : myFid s ∈ a.working ++ a.spares) (hfid : myFid s ≠ 0) :
    exec .sliceAllocationEffect s = .next (allocateHere (showPolicy { allocTaken s w with fab := { (allocTaken s w).fab with alloc := some a } }) a) := by
  have hin : ((a.working ++ a.spares).contains (myFid s) && myFid s != 0) = true := Bool.and_eq_true_iff.2 ⟨List.contains_iff_mem.2 hnamed, bne_iff_ne.2 hfid⟩
  show execSliceAllocationEffect s = _
  rw [execSliceAllocationEffect, hdue]
  dsimp only
  rw [hread]
  dsimp only
  rw [myFid_with_fab, sliceState_with_fab, if_pos hin, hfree]
  rfl

theorem exec_sliceAllocationEffect_of_others {s : State} {w : Waiting} {a : Alloc} (hdue : (s.fab.waiting.find? fun w => w.kind == 3 && docDue s w) = some w)
    (hread : readAlloc w.raw = some a) (hfree : sliceState s = 0) (hnamed : myFid s ∉ a.working ++ a.spares) :
    exec .sliceAllocationEffect s = .next (allocTaken s w) := by
  have hout : ((a.working ++ a.spares).contains (myFid s) && myFid s != 0) = false := Bool.and_eq_false_imp.2 fun h => absurd (List.contains_iff_mem.1 h) hnamed
  show execSliceAllocationEffect s = _
  rw [execSliceAllocationEffect, hdue]
  dsimp only
  rw [hread]
  dsimp only
  rw [myFid_with_fab, sliceState_with_fab, hout, hfree]
  rfl

/-! ### Table sets that take effect (R482, R488) -/

/-- The state in which a table set, with no other in effect before, is shown and no redraw is due. -/
def tablesShown (u : State) (x : TableSet) : State :=
  putRedraw (showTables (pruneTables { u with fab := { u.fab with tables := some x, chosen := [] } }) x) none

theorem showTables_esc (s : State) (x : TableSet) : (showTables s x).esc = s.esc := by
  unfold showTables
  exact (foldl_leaves State.esc (fun _ _ => setF_esc _ _ _ _) _ _).trans (by rw [setF_esc, setF_esc, setF_esc, setF_esc, wr_esc])

theorem putRedraw_esc (s : State) (r : Option (Nat × Nat)) : (putRedraw s r).esc = s.esc := by
  unfold putRedraw showPending
  refine foldl_leaves State.esc (fun u n => ?_) _ _
  split <;> rw [setF_esc, setF_esc, setF_esc]

theorem pruneTables_esc (s : State) : (pruneTables s).esc = s.esc := rfl

theorem exec_sliceTableSetEffect_of_due {s : State} {w : Waiting} {x : TableSet} (hdue : (s.fab.waiting.find? fun w => w.kind == 4 && docDue s w) = some w)
    (hread : readTables w.raw = some x) (hbound : sliceState s = 2) (htag : x.tag = mySlice s) (htarget : x.target = myFid s) (hnone : s.fab.tables = none)
    (hdecided : s.esc.decisions = []) {u : State}
    (hu : u = { s with fab := { s.fab with waiting := s.fab.waiting.filter fun x => !(x.kind == 4 && x.slice == w.slice && x.epoch == w.epoch) } }) :
    exec .sliceTableSetEffect s = .next (startFerryKeys (retryRoutes (showPorts (retune u (setOrigin (tablesShown u x) w.beat) x.initialDraw)))) := by
  have hours : ((sliceState s == 1 || sliceState s == 2) && x.tag == mySlice s && x.target == myFid s) = true := by simp [hbound, htag, htarget]
  have hundecided : (s.esc.decisions == []) = true := by simpa using hdecided
  subst hu
  show execSliceTableSetEffect s = _
  rw [execSliceTableSetEffect, hdue]
  dsimp only
  rw [hread]
  dsimp only
  rw [sliceState_with_fab, mySlice_with_fab, myFid_with_fab, if_pos hours, putRedraw_esc, showTables_esc, pruneTables_esc, if_pos hundecided, hnone, done, tablesShown]

/-- Settles O14: each effect is the branch its document takes; a set of PORT records changes nothing of the slice (`foldl_sliceChange_of_ports`). That an effect comes at its beat without a lock is assumption log 64, when M_CHART and the chart store are written log 65, and that every table set tunes the rings again log 66. -/
theorem documentsTakeEffect : Obligations.DocumentsTakeEffect := by
  unfold Obligations.DocumentsTakeEffect
  exact ⟨fun _ _ _ hdue hread hunlisted => exec_chartEffect_of_due hdue hread hunlisted,
    fun _ _ _ _ _ hdue hchart hamend hfits hchanges hports => exec_chartAmendmentEffect_of_ports hdue hchart hamend hfits hchanges hports,
    fun _ _ _ hdue hread hfree hnamed hfid => exec_sliceAllocationEffect_of_named hdue hread hfree hnamed hfid,
    fun _ _ _ hdue hread hfree hnamed => exec_sliceAllocationEffect_of_others hdue hread hfree hnamed,
    fun _ _ _ _ hdue hread hbound htag htarget hnone hdecided hu => exec_sliceTableSetEffect_of_due hdue hread hbound htag htarget hnone hdecided hu⟩

/-! ### Charts asked for and sent in chunks (R475, R476) -/

theorem exec_chartReq_of_kept {s : State} {p e : Nat} {need : List Bytes} (hp : p < 32) (hserv : inService s p = true) (hlower : e < chartEpoch s)
    (hneed : need = (List.range (chartEpoch s - e)).filterMap fun i => s.fab.recent.find? fun a => docEpoch a == e + 1 + i) (hall : need.length = chartEpoch s - e) :
    exec (.chartReq p e) s = .next (need.foldl (fun s a => sendDoc s p a) s) := by
  show execChartReq p e s = _
  rw [execChartReq, done_onlyIf (by simp [hp, hserv, hlower])]
  dsimp only
  rw [← hneed, if_pos (by simpa using hall)]

section
variable {s : State} {p k e i n : Nat} {b : Bytes} (hp : p < 32) (hserv : inService s p = true) (hkind : k = 1 ∨ k = 2) (hlen : b.length ≤ 1984) (hkey : authKey s ≠ [])
  (hnewer : chartEpoch s < e) (hnone : s.fab.gathers.find? (fun g => g.port == p && g.kind == k && g.epoch == e) = none)
include hp hserv hkind hlen hkey hnewer hnone

/-- The first chunk of a newer document opens its gather, which holds that chunk alone. -/
theorem exec_chartChunk_of_newer (hi : i < n) :
    exec (.chartChunk p k e i n b) s = .next (
      let rest := s.fab.gathers.filter fun g => !(g.port == p && g.kind == k && g.epoch == e)
      if (List.range n).all fun j => (mapGet [(i, b)] j).isSome then
        takeDoc { s with fab := { s.fab with gathers := rest } } k ((List.range n).map fun j => mapGetD [] [(i, b)] j).flatten (some p)
      else { s with fab := { s.fab with gathers := rest ++ [⟨p, k, e, n, [(i, b)]⟩] } }) := by
  have hcond : (decide (p < 32) && inService s p && (k == 1 || k == 2) && decide (i < n) && decide (b.length ≤ 1984) && authKey s != []) = true := by
    simp [hp, hserv, hkind, hi, hlen, hkey]
  show execChartChunk p k e i n b s = _
  rw [execChartChunk, done_onlyIf hcond]
  dsimp only
  rw [if_neg (by omega), hnone]
  rfl

theorem exec_chartChunk_kept (hi : i < n) (hmore : 1 < n) :
    exec (.chartChunk p k e i n b) s = .next { s with fab := { s.fab with
      gathers := s.fab.gathers.filter (fun g => !(g.port == p && g.kind == k && g.epoch == e)) ++ [⟨p, k, e, n, [(i, b)]⟩] } } := by
  have hmissing : ¬ ((List.range n).all fun j => (mapGet [(i, b)] j).isSome) = true := fun hall => by
    obtain ⟨j, hj, hji⟩ : ∃ j < n, i ≠ j := if h : i = 0 then ⟨1, hmore, by omega⟩ else ⟨0, by omega, h⟩
    have := List.all_eq_true.1 hall j (List.mem_range.2 hj)
    simp [mapGet, hji] at this
  rw [exec_chartChunk_of_newer hp hserv hkind hlen hkey hnewer hnone hi]
  dsimp only
  rw [if_neg hmissing]

end

theorem exec_chartChunk_whole {s : State} {p k e : Nat} {b : Bytes} (hp : p < 32) (hserv : inService s p = true) (hkind : k = 1 ∨ k = 2) (hlen : b.length ≤ 1984)
    (hkey : authKey s ≠ []) (hnewer : chartEpoch s < e) (hnone : s.fab.gathers = []) : exec (.chartChunk p k e 0 1 b) s = .next (takeDoc s k b (some p)) := by
  have hsame : { s with fab := { s.fab with gathers := [] } } = s := by rw [← hnone]
  have hwhole : ((List.range 1).map fun j => mapGetD [] [(0, b)] j).flatten = b := by simp [mapGetD, mapGet]
  have hall : ((List.range 1).all fun j => (mapGet [(0, b)] j).isSome) = true := rfl
  rw [exec_chartChunk_of_newer hp hserv hkind hlen hkey hnewer (by rw [hnone]; rfl) Nat.one_pos, hnone]
  dsimp only
  rw [if_pos hall, hwhole, List.filter_nil, hsame]

/-- Settles O15: what a peer lacks is sent where all of it is kept; a first chunk is the whole document or opens its gather (`exec_chartChunk_of_newer`). -/
theorem chartSpread : Obligations.ChartSpread := by
  unfold Obligations.ChartSpread
  refine ⟨fun _ _ _ _ hp hserv hlower hneed hall => exec_chartReq_of_kept hp hserv hlower hneed hall, ?_,
    fun _ _ _ _ _ hp hserv hkind hlen hkey hnewer hnone => exec_chartChunk_whole hp hserv hkind hlen hkey hnewer hnone⟩
  intro s p k e i n b hp hserv hkind hi hmore hlen hkey hnewer hnone
  exact ⟨_, exec_chartChunk_kept hp hserv hkind hlen hkey hnewer hnone hi hmore, rfl⟩

end Sys2Proof.Machine
end

section
/-!
Keys and identity: the key exchange of a training port (18 R543), reports, enrolment and handover (R534 to R537), debug and the binding to a tenant (R530, R540 to R542).
-/
namespace Sys2Proof.Machine

/-! ### The higher end's side of a key exchange (R543) -/

/-- What the checks of R543 ask of a hello: the chain, the serial's digest, and the signature. -/
def helloGood (h : HelloIn) (peer : Bytes) : Bool :=
  Config.chainValid h.chain && shake256 (izName [83, 69, 82] ++ Config.chainSerial h.chain) 24 == idDigest peer &&
    Config.dsaVerify (Config.chainKey h.chain) (helloFields h.chain h.ek h.nonce ++ peer) h.sig

theorem exec_kxHello_higher {s : State} {p : Nat} {h : HelloIn} {k : KeyExchange} {peer : Bytes} (hp : p < 32) (hstate : portState s p = 1)
    (hphase : (getPort s p).phase = 6) (hkx : getKx s p false = some k) (hpeer : (getPort s p).peer = some peer) (hhigher : lowerThan ownDigest (idDigest peer) = false) :
    exec (.kxHello p false h) s = .next (if helloGood h peer
      then putKx s p false { k with peerHello := some (helloFields h.chain h.ek h.nonce ++ h.sig ++ h.report), peerChain := h.chain } else kxFail s p false) := by
  have htraining : (portState s p == 1 && (getPort s p).phase == 6) = true := by simp [hstate, hphase]
  have hopen : (getKx s p false).isSome = true := by rw [hkx]; rfl
  show execKxHello p false h s = _
  rw [execKxHello]
  dsimp only
  rw [done_onlyIf (by simp [hp, htraining]), if_pos hopen, hkx, hpeer]
  dsimp only
  rw [hhigher, ← helloGood]
  cases helloGood h peer <;> rfl

theorem exec_kxCt_higher {s : State} {p : Nat} {ct sig hello : Bytes} {k : KeyExchange} {peer : Bytes} (hkx : getKx s p false = some k)
    (hpeer : (getPort s p).peer = some peer) (hhigher : lowerThan ownDigest (idDigest peer) = false) (hhello : k.peerHello = some hello) :
    exec (.kxCt p false ct sig) s = .next (if Config.dsaVerify (Config.chainKey k.peerChain) (hello ++ k.hello ++ ct) sig
      then (match Config.kemDecap k.draw ct with | some ss => installKeys s p false k ss (hello ++ k.hello ++ ct) | none => kxFail s p false) else kxFail s p false) := by
  show execKxCt p false ct sig s = _
  rw [execKxCt, hkx, hpeer]
  dsimp only
  rw [hhello]
  dsimp only
  rw [done_onlyIf (by rw [hhigher]; rfl)]
  cases Config.dsaVerify (Config.chainKey k.peerChain) (hello ++ k.hello ++ ct) sig <;> rfl

/-- Whether the exchange of a port, if there is one, has been open for 5 ms. -/
def kxLate (s : State) (p : Nat) (ferry : Bool) : Bool :=
  match getKx s p ferry with | some k => decide (k.startNs + 5000000 ≤ s.now) | none => false

theorem exec_keySetupTimeout (s : State) (p : Nat) : exec (.keySetupTimeout p) s = .next (if decide (p < 32) then
    let u := if kxLate s p true then dropKx s p true else s
    if kxLate s p false then (if portState s p == 1 && (getPort s p).phase == 6 then setPortState (dropKx u p false) p 0 else dropKx u p false) else u
  else s) := rfl

theorem exec_keySetupTimeout_late {s : State} {p : Nat} (hp : p < 32) (hferry : kxLate s p true = false) (hlate : kxLate s p false = true)
    (hstate : portState s p = 1) (hphase : (getPort s p).phase = 6) : exec (.keySetupTimeout p) s = .next (setPortState (dropKx s p false) p 0) := by
  have htraining : (portState s p == 1 && (getPort s p).phase == 6) = true := by simp [hstate, hphase]
  rw [exec_keySetupTimeout, if_pos (by simpa using hp), hferry, hlate, if_neg Bool.false_ne_true]
  dsimp only
  rw [if_pos rfl, if_pos htraining]

theorem exec_keySetupTimeout_early {s : State} {p : Nat} (h : ∀ f, kxLate s p f = false) : exec (.keySetupTimeout p) s = .next s := by
  rw [exec_keySetupTimeout, h, h]
  exact congrArg Host.Outcome.next (ite_self s)

/-- Settles O9: the branch each message takes at the end with the higher digest, and an exchange that has been open too long. The order of the transcript is assumption log 37; that the identity block last received is the one signed is assumption log 45. -/
theorem linkKeyExchange : Obligations.LinkKeyExchange := by
  unfold Obligations.LinkKeyExchange
  refine ⟨fun _ _ _ _ _ hp hstate hphase hkx hpeer hhigher => exec_kxHello_higher hp hstate hphase hkx hpeer hhigher,
    fun _ _ _ _ _ _ _ hkx hpeer hhigher hhello => exec_kxCt_higher hkx hpeer hhigher hhello, ?_, ?_⟩
  · intro s p k hp hferry hkx hlate hstate hphase
    exact exec_keySetupTimeout_late hp (by rw [kxLate, hferry]) (by rw [kxLate, hkx]; simpa using hlate) hstate hphase
  · intro s p h
    refine exec_keySetupTimeout_early fun f => ?_
    unfold kxLate
    split
    · rename_i k hk
      simpa using h f k hk
    · rfl

/-! ### Reports and the authority (R534, R535, R537) -/

theorem exec_attestationRequest_answered {s : State} (nonce : Bytes) (hon : bluvisenOn s = true)
    (hfew : s.ladder.attSecond ≠ s.now / 1000000000 ∨ s.ladder.attCount < 10) :
    exec (.attestationRequest nonce) s = .next (sendReport { s with ladder := { s.ladder with
      attSecond := s.now / 1000000000, attCount := if s.ladder.attSecond = s.now / 1000000000 then s.ladder.attCount + 1 else 1 } } nonce) := by
  show execAttestationRequest nonce s = _
  rw [execAttestationRequest, done_onlyIf hon]
  dsimp only
  by_cases hsecond : s.ladder.attSecond = s.now / 1000000000
  · have hcount : s.ladder.attCount < 10 := hfew.resolve_left fun h => h hsecond
    rw [if_pos (beq_iff_eq.2 hsecond), if_pos hcount, if_pos hsecond]
  · rw [if_neg (fun h => hsecond (beq_iff_eq.1 h)), if_pos (by decide), if_neg hsecond]

theorem exec_attestationRequest_busy {s : State} (nonce : Bytes) (hon : bluvisenOn s = true) (hsecond : s.ladder.attSecond = s.now / 1000000000)
    (hmany : 10 ≤ s.ladder.attCount) : exec (.attestationRequest nonce) s = .next (send s .bluvisen 0 [537]) := by
  show execAttestationRequest nonce s = _
  rw [execAttestationRequest, done_onlyIf hon]
  dsimp only
  rw [if_pos (beq_iff_eq.2 hsecond), if_neg (by omega), tellBluvisen, bluvisen, if_pos hon]

theorem exec_enrolment_first {s : State} {key : Bytes} (n : Nat) (col sig : Bytes) (hon : bluvisenOn s = true) (hflash : flashGet s.flash.authority ≠ none)
    (hempty : authKey s = []) (hkey : key ≠ []) :
    exec (.enrolment key n col sig) s =
      .next (if Config.dsaVerify key (enrolBytes key n col) sig then setAuthority s { key := key, installation := n, collector := col } else s) := by
  show execEnrolment key n col sig s = _
  have hcond : (bluvisenOn s && (flashGet s.flash.authority).isSome && authKey s == [] && key != []) = true := by
    simp [hon, hempty, hkey, Option.isSome_iff_ne_none, hflash]
  rw [execEnrolment, hcond, Bool.true_and, onlyIf, done]

theorem exec_enrolment_again {s : State} (key : Bytes) (n : Nat) (col sig : Bytes) (hheld : authKey s ≠ []) : exec (.enrolment key n col sig) s = .next s := by
  show execEnrolment key n col sig s = _
  rw [execEnrolment, onlyIf, if_neg (by simp [hheld]), done]

theorem exec_authorityHandover {s : State} {key : Bytes} (sig : Bytes) (hon : bluvisenOn s = true) (hkey : key ≠ []) :
    exec (.authorityHandover key sig) s = .next (if underAuthority s key sig then setAuthority s { authRecord s with key := key } else s) := by
  show execAuthorityHandover key sig s = _
  have hcond : (bluvisenOn s && key != []) = true := by simp [hon, hkey]
  rw [execAuthorityHandover, hcond, Bool.true_and, onlyIf, done]

/-- Settles O17: the requests of a second are counted before a report goes out, and the record changes only on the signature its state asks for. The order of the signed fields is assumption log 10; that signatures are opaque is assumption log 9. -/
theorem identityAndAuthority : Obligations.IdentityAndAuthority := by
  unfold Obligations.IdentityAndAuthority
  exact ⟨fun _ nonce hon hfew => exec_attestationRequest_answered nonce hon hfew,
    fun _ nonce hon hsecond hmany => ⟨_, exec_attestationRequest_busy nonce hon hsecond hmany, rfl⟩,
    fun _ _ col sig n hon hflash hempty hkey => exec_enrolment_first n col sig hon hflash hempty hkey,
    fun _ key col sig n hheld => exec_enrolment_again key n col sig hheld,
    fun _ _ sig hon hkey => exec_authorityHandover sig hon hkey⟩

/-! ### Debug (R530) -/

theorem exec_debugUnlock_unallocated {s : State} (sig : Bytes) (hfree : sliceState s = 0) :
    exec (.debugUnlock sig) s = .next (if Config.dsaVerify Config.omwethenKey Config.serial sig then setF s R.SEC_STATUS F.SEC_STATUS_DEBUG_UNLOCKED 1 else s) := by
  show execDebugUnlock sig s = _
  rw [execDebugUnlock, hfree, BEq.rfl, Bool.true_and, onlyIf, done]

theorem exec_debugUnlock_allocated {s : State} (sig : Bytes) (h : sliceState s ≠ 0) : exec (.debugUnlock sig) s = .next s := by
  show execDebugUnlock sig s = _
  rw [execDebugUnlock, onlyIf, if_neg (by simp [h]), done]

theorem exec_debugAccess_open {s : State} (a n : Nat) (w : Option Bytes) (hopen : debugUnlocked s = true) (hfree : sliceState s = 0) :
    exec (.debugAccess a n w) s = .next (match w with
      | some bs => (runMM (writeBytes a bs) s).2
      | none => match runMM (readRaw a n) s with | (.ok bs, s) => send s .arborFlit 3 [a] bs | (.error _, s) => s) := by
  show execDebugAccess a n w s = _
  rw [execDebugAccess.eq_def, if_pos (by simp [hopen, hfree]), done] <;> rfl

theorem exec_debugAccess_refused {s : State} (a n : Nat) (w : Option Bytes) (h : debugUnlocked s = false ∨ sliceState s ≠ 0) :
    exec (.debugAccess a n w) s = .next (noteAt s srcSec 0x06 clsInfo) := by
  show execDebugAccess a n w s = _
  rw [execDebugAccess.eq_def, if_neg (by rcases h with h | h <;> simp [h]), done]

/-! ### The binding to a tenant (R540 to R542) -/

theorem onlyLog_bluvisen (s : State) (kind : OutKind) (args : List Nat) (data : Bytes) : OnlyLog s (bluvisen s kind args data) :=
  onlyLog_ite (onlyLog_send s _ _ _ _) (onlyLog_refl s)

/-- A report takes free values for its signature, and nothing else of the state. -/
theorem makeReport_state (s : State) (nonce mb : Bytes) : ∃ n, (makeReport s nonce mb).2 = { s with free := n } := by
  unfold makeReport signWith
  dsimp only
  split
  · exact ⟨s.free, rfl⟩
  · exact ⟨s.free + 1, rfl⟩

theorem bindRequest_offers {s : State} (nonce : Bytes) {a : Alloc} (hallocated : sliceState s = 1) (hon : bluvisenOn s = true) (halloc : s.fab.alloc = some a) :
    Completes (.bindRequest nonce) s fun t => (∃ dg, t.sec.offer = some ⟨s.free, dg, beatNow s + a.offerWatches * 16384⟩) ∧ t.mem = s.mem := by
  obtain ⟨n, hn⟩ := makeReport_state { s with free := s.free + 1 } nonce (digest32 (fit 1568 (Config.kemPublic s.free)))
  have hexec : ∃ u r, exec (.bindRequest nonce) s = .next (bluvisen u .bindOffer [] r) ∧
      u = { s with free := n, sec := { s.sec with offer := some ⟨s.free, digest32 r, beatNow s + a.offerWatches * 16384⟩ } } := by
    show ∃ u r, execBindRequest nonce s = _ ∧ _
    rw [execBindRequest, done_onlyIf (by simp [hallocated, hon])]
    dsimp only
    rw [hn]
    dsimp only
    rw [halloc]
    exact ⟨_, _, rfl, rfl⟩
  obtain ⟨u, r, hexec, rfl⟩ := hexec
  obtain ⟨-, hrest⟩ := onlyLog_bluvisen { s with free := n, sec := { s.sec with offer := some ⟨s.free, digest32 r, beatNow s + a.offerWatches * 16384⟩ } } .bindOffer [] r
  refine ⟨_, hexec, ⟨digest32 r, ?_⟩, ?_⟩ <;> rw [hrest]

theorem exec_bindOfferExpiry_of_offer {s : State} {o : Offer} (h : s.sec.offer = some o) :
    exec .bindOfferExpiry s = .next { s with sec := { s.sec with offer := if o.untilBeat ≤ beatNow s then none else some o } } := by
  show execBindOfferExpiry s = _
  rw [execBindOfferExpiry, h]
  dsimp only
  rw [onlyIf, done]
  split
  case isTrue hpast => rw [if_pos (by simpa using hpast)]
  case isFalse hopen => rw [if_neg (by simpa using hopen), ← h]

theorem exec_bindAcceptance_unallocated {s : State} (d : Bytes) (hon : bluvisenOn s = true) (h : sliceState s ≠ 1) :
    exec (.bindAcceptance d) s = .next (refuseBind s 1) := by
  show execBindAcceptance d s = _
  rw [execBindAcceptance, done_onlyIf hon]
  dsimp only
  rw [if_pos (by simp [h])]

/-- The first four causes for which an acceptance is refused, in their order (R541). -/
theorem exec_bindAcceptance_checked {s : State} (d : Bytes) {a : Alloc} {o : Offer} (hon : bluvisenOn s = true) (hallocated : sliceState s = 1)
    (hlocked : debugUnlocked s = false) (halloc : s.fab.alloc = some a) (hoffer : s.sec.offer = some o) (halive : beatNow s < o.untilBeat) :
    exec (.bindAcceptance d) s = .next (
      if !Config.dsaVerify (sub d 1656 1952) (sub d 0 3896) (sub d 3896 3309) then refuseBind s 2
      else if digest32 (sub d 1656 1952) != a.tenantDigest then refuseBind s 3
      else if sub d 8 24 != ownDigest || uAt d 32 2 != mySlice s || uAt d 40 8 != a.epoch then refuseBind s 4
      else if o.digest != sub d 56 32 then refuseBind s 5
      else match (Config.kemDecap o.draw (sub d 88 1568)).bind fun ss => gcmOpen (bundleKey ss (sub d 56 32) (uAt d 48 8)) (sub d 3608 12) (sub d 0 88) (sub d 3624 256) (sub d 3880 16) with
      | none => refuseBind { s with sec := { s.sec with offer := none } } 6
      | some b =>
        if uAt d 48 8 == 0 || uAt b 128 4 == 0 || uAt b 128 4 ≥ 2 ^ 28 || uAt b 128 4 == s.sec.lastEpoch || !allZero (sub b 132 124) || !allZero (sub d 34 6) || !allZero (sub d 3620 4) then refuseBind s 7
        else { s with
          flash := { s.flash with bind := flashPut s.flash.bind { (flashGet s.flash.bind).getD {} with bind := some (uAt d 48 8, mySlice s) } },
          sec := { s.sec with offer := none, pendingBind := some (beatNow s + 1, { kCtl := sub b 0 32, kFab := sub b 32 32, seed := sub b 64 32, kSnap := sub b 96 32, epoch := uAt b 128 4, bindId := uAt d 48 8, offerDigest := sub d 56 32 }, digest32 d) } }) := by
  have hearly : (decide (o.untilBeat ≤ beatNow s)) = false := decide_eq_false (by omega)
  show execBindAcceptance d s = _
  rw [execBindAcceptance, done_onlyIf hon]
  dsimp only
  rw [if_neg (by simp [hallocated, hlocked]), halloc, hoffer]
  dsimp only
  rw [hearly, Bool.or_false]
  rfl

/-- Settles O18: debug is open on an unlocked UNALLOCATED module alone; an acceptance meets the causes of R542 in their order. That an access reads and writes without hallmark upkeep is assumption log 33. -/
theorem debugAndBinding : Obligations.DebugAndBinding := by
  unfold Obligations.DebugAndBinding
  refine ⟨fun _ sig hfree => exec_debugUnlock_unallocated sig hfree, fun _ sig h => exec_debugUnlock_allocated sig h,
    fun _ a n bs hopen hfree => exec_debugAccess_open a n (some bs) hopen hfree, ?_, fun _ a n w h => exec_debugAccess_refused a n w h,
    fun _ nonce _ hallocated hon halloc => bindRequest_offers nonce hallocated hon halloc,
    fun _ _ hoffer => ⟨_, exec_bindOfferExpiry_of_offer hoffer, rfl⟩, fun _ d hon h => exec_bindAcceptance_unallocated d hon h,
    fun _ d _ _ hon hallocated hlocked halloc hoffer halive => exec_bindAcceptance_checked d hon hallocated hlocked halloc hoffer halive⟩
  intro s u a n bs hopen hfree hread
  rw [exec_debugAccess_open a n none hopen hfree]
  dsimp only
  rw [hread]
  rfl

end Sys2Proof.Machine
end

section
/-!
The logbook's traffic with its collector, deferred tests and the ladder of recovery (19 R574 to R592).
-/
namespace Sys2Proof.Machine

/-! ### Follow-ups of deferred tests (R590, R591) -/

section
variable {s : State} {o : Nat} {x : DeferredTest} (htest : testAt s o = some x)
include htest

theorem exec_deferredFollowUp_outcome {r : Nat × Nat × Nat} (f : Option Nat) (hrun : x.running = true) (hout : x.outcome = some r) :
    exec (.deferredFollowUp o f) s = .next (followUp s x r) := by
  show execDeferredFollowUp o f s = _
  rw [execDeferredFollowUp, htest]
  dsimp only
  rw [hrun, hout, if_neg (by decide), done]

theorem exec_deferredFollowUp_ok (hrun : x.running = true) (hout : x.outcome = none) : exec (.deferredFollowUp o none) s = .next (followUp s x (0, 0, 0)) := by
  show execDeferredFollowUp o none s = _
  rw [execDeferredFollowUp, htest]
  dsimp only
  rw [hrun, hout, if_neg (by decide), done]

theorem exec_deferredFollowUp_fault (f : Nat) (hrun : x.running = true) (hout : x.outcome = none) :
    exec (.deferredFollowUp o (some f)) s = .next (followUp (strikeUnit s f) x (0x0701, x.code, f % 4096)) := by
  show execDeferredFollowUp o (some f) s = _
  rw [execDeferredFollowUp, htest]
  dsimp only
  rw [hrun, hout, if_neg (by decide), done]
  rfl

theorem exec_deferredTimeout_due (hwait : x.running = false) (hdue : deferralEnd s x.acceptBeat ≤ beatNow s) :
    exec (.deferredTimeout o) s = .next (followUp s x (0x0031, 0, 0)) := by
  show execDeferredTimeout o s = _
  rw [execDeferredTimeout, htest]
  dsimp only
  rw [hwait, if_neg (by simpa using hdue), done]

end

/-- Settles O19: the record a request ends with, by its own outcome, by the fault found, or by its deferral. That DETAIL2 is the number of the unit at fault within its kind is assumption log 76 (and 77 for a follow-up without a unit). -/
theorem followUpsOfTests : Obligations.FollowUpsOfTests := by
  unfold Obligations.FollowUpsOfTests
  refine ⟨fun _ _ _ _ f htest hrun hout => exec_deferredFollowUp_outcome htest f hrun hout, fun _ _ _ htest hrun hout => exec_deferredFollowUp_ok htest hrun hout,
    fun _ _ f _ htest hrun hout => exec_deferredFollowUp_fault htest f hrun hout, fun _ _ _ htest hwait hdue => exec_deferredTimeout_due htest hwait hdue, ?_⟩
  intro s o f hnone
  constructor
  · show execDeferredFollowUp o f s = _
    rw [execDeferredFollowUp, hnone, done]
  · show execDeferredTimeout o s = _
    rw [execDeferredTimeout, hnone, done]

/-! ### LOG_STATUS as the logbook stands (R594) -/

/-- LOG_STATUS shows the entries held, and keeps what it says of the collector. -/
theorem logStatus_fields {s : State} (hs : mapSorted s.regs = true) :
    getF (logStatus s) R.LOG_STATUS F.LOG_STATUS_USED = s.log.entries.length % 2 ^ (F.LOG_STATUS_USED.hi + 1 - F.LOG_STATUS_USED.lo) ∧
      getF (logStatus s) R.LOG_STATUS F.LOG_STATUS_COLLECTOR_UP = getF s R.LOG_STATUS F.LOG_STATUS_COLLECTOR_UP := by
  have hused := setF_sorted hs R.LOG_STATUS F.LOG_STATUS_USED s.log.entries.length
  generalize hu : setF s R.LOG_STATUS F.LOG_STATUS_USED s.log.entries.length = u at hused
  have hnewest := setF_sorted hused R.LOG_STATUS F.LOG_STATUS_NEWEST_SEQ (u.log.nextSeq - 1)
  have hshown : logStatus s = setF (setF u R.LOG_STATUS F.LOG_STATUS_NEWEST_SEQ (u.log.nextSeq - 1)) R.LOG_STATUS F.LOG_STATUS_OVERRUN_PENDING
      (b2n ((setF u R.LOG_STATUS F.LOG_STATUS_NEWEST_SEQ (u.log.nextSeq - 1)).log.lostNow != 0)) := by rw [← hu]; rfl
  rw [hshown]
  constructor
  · rw [getF_setF_field hnewest _ F.LOG_STATUS_OVERRUN_PENDING F.LOG_STATUS_USED _ (by decide) (by decide) (by decide),
      getF_setF_field hused _ F.LOG_STATUS_NEWEST_SEQ F.LOG_STATUS_USED _ (by decide) (by decide) (by decide), ← hu]
    exact getF_setF_same hs _ _ _ (by decide) (by decide)
  · rw [getF_setF_field hnewest _ F.LOG_STATUS_OVERRUN_PENDING F.LOG_STATUS_COLLECTOR_UP _ (by decide) (by decide) (by decide),
      getF_setF_field hused _ F.LOG_STATUS_NEWEST_SEQ F.LOG_STATUS_COLLECTOR_UP _ (by decide) (by decide) (by decide), ← hu]
    exact getF_setF_field hs _ _ _ _ (by decide) (by decide) (by decide)

/-! ### Acknowledgements of the collector (R574) -/

/-- The state in which the collector is heard, and the entry of one SEQ is freed. -/
def entryFreed (s : State) (e : LogEntry) : State :=
  { setF s R.LOG_STATUS F.LOG_STATUS_COLLECTOR_UP 1 with log := { s.log with entries := s.log.entries.filter fun x => x.seq != e.seq, sent := mapDel s.log.sent e.seq } }

theorem entryFreed_log (s : State) (e : LogEntry) :
    (entryFreed s e).log = { s.log with entries := s.log.entries.filter fun x => x.seq != e.seq, sent := mapDel s.log.sent e.seq } := by
  rw [entryFreed]

theorem entryFreed_boot (s : State) (e : LogEntry) : (entryFreed s e).boot = s.boot := by
  rw [entryFreed, setF_boot]

/-- Nothing but registers and the logbook differs. -/
def OnlyBook (s t : State) : Prop := t = { s with regs := t.regs, log := t.log }

theorem OnlyBook.trans {s t u : State} (h : OnlyBook s t) (k : OnlyBook t u) : OnlyBook s u := by
  unfold OnlyBook at *
  exact k.trans (by rw [h])

theorem onlyBook_setF (s : State) (a : Nat) (f : RF) (v : Nat) : OnlyBook s (setF s a f v) := rfl

theorem onlyBook_log (s : State) (lg : Logbook) : OnlyBook s { s with log := lg } := rfl

theorem onlyBook_logStatus (s : State) : OnlyBook s (logStatus s) := ((onlyBook_setF s _ _ _).trans (onlyBook_setF _ _ _ _)).trans (onlyBook_setF _ _ _ _)

theorem onlyBook_entryFreed (s : State) (e : LogEntry) : OnlyBook s (entryFreed s e) := (onlyBook_setF s _ _ _).trans (onlyBook_log _ _)

theorem with_log_regs (s : State) (lg : Logbook) : ({ s with log := lg } : State).regs = s.regs := rfl

theorem entryFreed_regs (s : State) (e : LogEntry) : (entryFreed s e).regs = (setF s R.LOG_STATUS F.LOG_STATUS_COLLECTOR_UP 1).regs := with_log_regs _ _

theorem exec_collectorAck_of_sent {s : State} {q : Nat} {e : LogEntry} (hon : bluvisenOn s = true)
    (hsent : (s.log.entries.find? fun e => e.seq % 2 ^ 32 == q % 2 ^ 32 && (mapGet s.log.sent e.seq).isSome) = some e) (hrestart : s.boot.restartBy = none)
    (hlost : s.log.lostNow = 0) : exec (.collectorAck q) s = .next (logStatus (entryFreed s e)) := by
  have hnext : placeOverrun (logStatus (entryFreed s e)) = logStatus (entryFreed s e) := placeOverrun_of_notDue (.inl (by rw [logStatus_log, entryFreed_log]; exact hlost))
  have hboot : (logStatus (entryFreed s e)).boot.restartBy = none := by
    rw [logStatus, setF_boot, setF_boot, setF_boot, entryFreed_boot, hrestart]
  have hexec : exec (.collectorAck q) s = .next (let t := placeOverrun (logStatus (entryFreed s e)); if t.boot.restartBy.isSome && t.log.entries.isEmpty then coldReset t true else t) := by
    show execCollectorAck q s = _
    rw [execCollectorAck, done_onlyIf hon]
    dsimp only
    rw [setF_log, hsent]
    rfl
  rw [hexec, hnext]
  dsimp only
  rw [hboot, Option.isSome_none, Bool.false_and, if_neg Bool.false_ne_true]

theorem collectorAck_frees {s : State} {q : Nat} {e : LogEntry} (h : Inv s) (hon : bluvisenOn s = true)
    (hsent : (s.log.entries.find? fun e => e.seq % 2 ^ 32 == q % 2 ^ 32 && (mapGet s.log.sent e.seq).isSome) = some e) (hrestart : s.boot.restartBy = none)
    (hlost : s.log.lostNow = 0) :
    Completes (.collectorAck q) s fun t => t.log = { s.log with entries := s.log.entries.filter fun x => x.seq != e.seq, sent := mapDel s.log.sent e.seq } ∧
      getF t R.LOG_STATUS F.LOG_STATUS_COLLECTOR_UP = 1 ∧ getF t R.LOG_STATUS F.LOG_STATUS_USED = t.log.entries.length % 2 ^ (F.LOG_STATUS_USED.hi + 1 - F.LOG_STATUS_USED.lo) ∧
      OnlyRegs [R.LOG_STATUS] s t ∧ t = { s with regs := t.regs, log := t.log } := by
  have hs : mapSorted (entryFreed s e).regs = true := by
    rw [entryFreed_regs]; exact setF_sorted h.2.1 _ _ _
  obtain ⟨hused, hup⟩ := logStatus_fields hs
  refine ⟨_, exec_collectorAck_of_sent hon hsent hrestart hlost, (logStatus_log _).trans (entryFreed_log s e), ?_, ?_, ?_, ?_⟩
  · rw [hup, getF, rd_of_regs (entryFreed_regs s e)]
    exact getF_setF_same h.2.1 _ F.LOG_STATUS_COLLECTOR_UP 1 (by decide) (by decide)
  · rw [hused, logStatus_log]
  · intro a ha
    have hne : a ≠ R.LOG_STATUS := List.ne_of_not_mem_cons ha
    rw [logStatus, rd_setF_other _ _ _ hne, rd_setF_other _ _ _ hne, rd_setF_other _ _ _ hne, rd_of_regs (entryFreed_regs s e), rd_setF_other _ _ _ hne]
  · show OnlyBook s _
    exact (onlyBook_entryFreed s e).trans (onlyBook_logStatus _)

/-! ### Entries sent again, and heartbeats (R575, R578) -/

theorem exec_logResendTimeout_of_late {s : State} {l : List LogEntry} (hon : bluvisenOn s = true)
    (hl : l = (s.log.entries.filter fun e => match mapGet s.log.sent e.seq with | some t => t + 1000000000 ≤ s.now | none => false)) (hsome : l ≠ []) :
    exec .logResendTimeout s = .next (streamThese (setF s R.LOG_STATUS F.LOG_STATUS_COLLECTOR_UP 0) l) := by
  have hexec : exec .logResendTimeout s = .next (if l.isEmpty || !bluvisenOn s then s else streamThese (setF s R.LOG_STATUS F.LOG_STATUS_COLLECTOR_UP 0) l) := by
    rw [hl]; rfl
  rw [hexec, if_neg (by simp [hon, hsome])]

/-- The state in which a heartbeat is counted, its watchdog kicked, and n the next free value. -/
def heartbeatCounted (s : State) (n : Nat) : State := incF { s with free := n, ladder := { s.ladder with lastKickNs := s.now } } R.LOG_MGMT F.LOG_MGMT_HEARTBEATS 1

theorem signWith_state (s : State) (msg : Bytes) : ∃ n, (signWith s msg).2 = { s with free := n } := by
  unfold signWith
  split
  · exact ⟨s.free, rfl⟩
  · exact ⟨s.free + 1, rfl⟩

theorem exec_heartbeat_due {s : State} (hbeat : beating s = true) (hdue : s.ladder.lastKickNs + 100000000 ≤ s.now) :
    ∃ n b, exec .heartbeat s = .next (bluvisen (heartbeatCounted s n) .heartbeat [] b) := by
  obtain ⟨n, hn⟩ := signWith_state { s with ladder := { s.ladder with lastKickNs := s.now } } (heartbeatBody s)
  show ∃ n b, execHeartbeat s = _
  rw [execHeartbeat, done_onlyIf (by simp [hbeat, hdue])]
  dsimp only
  rw [hn]
  exact ⟨n, _, rfl⟩

theorem heartbeat_counts {s : State} (h : Inv s) (hbeat : beating s = true) (hdue : s.ladder.lastKickNs + 100000000 ≤ s.now) :
    Completes .heartbeat s fun t => getF t R.LOG_MGMT F.LOG_MGMT_HEARTBEATS = satAdd (F.LOG_MGMT_HEARTBEATS.hi + 1 - F.LOG_MGMT_HEARTBEATS.lo) (getF s R.LOG_MGMT F.LOG_MGMT_HEARTBEATS) 1 ∧
      t.ladder = { s.ladder with lastKickNs := s.now } ∧ t.log = s.log ∧ OnlyRegs [R.LOG_MGMT] s t ∧ t.mem = s.mem := by
  obtain ⟨n, b, hexec⟩ := exec_heartbeat_due hbeat hdue
  have hsent : (bluvisen (heartbeatCounted s n) .heartbeat [] b).regs = (heartbeatCounted s n).regs ∧
      (bluvisen (heartbeatCounted s n) .heartbeat [] b).ladder = (heartbeatCounted s n).ladder ∧
      (bluvisen (heartbeatCounted s n) .heartbeat [] b).log = (heartbeatCounted s n).log ∧ (bluvisen (heartbeatCounted s n) .heartbeat [] b).mem = (heartbeatCounted s n).mem := by
    unfold bluvisen
    split
    · exact ⟨send_regs _ _ _ _ _, send_ladder _ _ _ _ _, send_log _ _ _ _ _, send_mem _ _ _ _ _⟩
    · exact ⟨rfl, rfl, rfl, rfl⟩
  obtain ⟨hregs, hladder, hlog, hmem⟩ := hsent
  refine ⟨_, hexec, ?_, ?_, ?_, ?_, ?_⟩
  · rw [getF, rd_of_regs hregs]
    exact getF_incF_same (s := { s with free := n, ladder := { s.ladder with lastKickNs := s.now } }) h.2.1 _ F.LOG_MGMT_HEARTBEATS 1 (by decide) (by decide)
  · rw [hladder, heartbeatCounted, incF_ladder]
  · rw [hlog, heartbeatCounted, incF_log]
  · intro a ha
    rw [rd_of_regs hregs]
    exact onlyRegs_incF { s with free := n, ladder := { s.ladder with lastKickNs := s.now } } _ _ _ a ha
  · rw [hmem, heartbeatCounted, incF_mem]

/-- Settles O20: one entry is freed and LOG_STATUS shows it (`logStatus_fields`); what is late goes out again; a heartbeat counts itself. That acknowledgements come one by one is assumption log 83. -/
theorem logbookTraffic : Obligations.LogbookTraffic := by
  unfold Obligations.LogbookTraffic
  exact ⟨fun _ _ _ h hon hsent hrestart hlost => collectorAck_frees h hon hsent hrestart hlost,
    fun _ _ hon hl hsome => exec_logResendTimeout_of_late hon hl hsome, fun _ h hbeat hdue => heartbeat_counts h hbeat hdue⟩

/-! ### The ladder of recovery (R578 to R583) -/

theorem exec_mgmtWatchdog_due {s : State} {d : Bool} (hbeat : beating s = true) (hdue : d = true ∨ s.ladder.lastKickNs + 100000000 < s.now) :
    exec (.mgmtWatchdog d) s = .next (restartMgmt s (b2n d)) := by
  show execMgmtWatchdog d s = _
  rw [execMgmtWatchdog, done_onlyIf (by simpa [hbeat] using hdue)]

theorem restartMgmt_mem (s : State) (cause : Nat) : (restartMgmt s cause).mem = s.mem := by
  unfold restartMgmt
  dsimp only
  rw [mem_of_onlyLog (onlyLog_logEvent _ _ _ _ _ _ _), setF_mem, setF_mem, incF_mem]

theorem restartMgmt_silent (s : State) (cause : Nat) : (restartMgmt s cause).ladder.mgmtDownUntil = some (s.now + 300000000) := by
  unfold restartMgmt
  dsimp only
  obtain ⟨-, hrest⟩ := onlyLog_logEvent (setF (setF (incF s R.LOG_MGMT F.LOG_MGMT_RESTARTS 1) R.LOG_MGMT F.LOG_MGMT_RESTARTS_WATCH
    (min 2 ((if s.ladder.restartWatch == watchNow s then getF s R.LOG_MGMT F.LOG_MGMT_RESTARTS_WATCH else 0) + 1))) R.LOG_MGMT F.LOG_MGMT_HEARTBEATS 0) (srcOf 0xF 0) 0x07C2 clsRecovered cause
    ((if s.ladder.restartWatch == watchNow s then getF s R.LOG_MGMT F.LOG_MGMT_RESTARTS_WATCH else 0) + 1) 0
  rw [hrest]
  dsimp only
  rw [setF_now, setF_now, incF_now]

/-- The state in which the ladder of a source stands at a rung. -/
def rungSet (s : State) (e n : Nat) : State := { s with ladder := { s.ladder with rung := mapPut s.ladder.rung e n } }

theorem rungSet_rung (s : State) (e n : Nat) : mapGet (rungSet s e n).ladder.rung e = some n := mapGet_put_same _ _ _

theorem rungSet_rest (s : State) (e n : Nat) : rungSet s e n = { s with ladder := (rungSet s e n).ladder } := rfl

theorem exec_engineOperationTimeout {s : State} {e : Nat} (h : watched s e = true) :
    exec (.engineOperationTimeout e) s = .next (if mapGetD 0 s.ladder.rung e == 0 then rungSet (ladderRung s 1 e) e 1
      else if mapGetD 0 s.ladder.rung e == 1 then rungSet (ladderRung s 2 e) e 2 else fenceUnit (endTimeout s e) e) := by
  show execEngineOperationTimeout e s = _
  rw [execEngineOperationTimeout, done_onlyIf h]
  rfl

theorem exec_computeDieReset_fenced {s : State} {d : Nat} (h : dieFenced s d = true) : exec (.computeDieReset d) s = .next s := by
  have hleft : dieRung s d = s := if_pos h
  show execComputeDieReset d s = _
  rw [execComputeDieReset, onlyIf, hleft, done, ite_self]

theorem exec_moduleWarmRestart_serving {s : State} (x : BringUp) (hstage : s.boot.stage = 9) (hawake : anchorState s ≤ 2)
    (hclock : flagF s R.CLK_XIN_STATUS F.CLK_XIN_STATUS_XIN_B_LOST = false) : exec (.moduleWarmRestart x) s = .next (warmRestart s x) := by
  have hback : clockBack s = true := by rw [clockBack, hclock, Bool.not_false, Bool.true_or]
  show execModuleWarmRestart x s = _
  rw [execModuleWarmRestart, done_onlyIf (by simp [hstage, hawake, hback]), hclock]
  rfl

/-- Settles O21: the watchdog restarts the management core (`restartMgmt`), an engine's rung is its next one (`exec_engineOperationTimeout`), and a die or the module takes its own. That the silence is 300 ms is assumption log 84, that a warm restart is one command log 95. -/
theorem recoveryLadder : Obligations.RecoveryLadder := by
  unfold Obligations.RecoveryLadder
  refine ⟨?_, ?_, ?_, ?_, ?_, fun _ _ h => exec_computeDieReset_fenced h, fun _ x hstage hawake hclock => exec_moduleWarmRestart_serving x hstage hawake hclock⟩
  · intro s d hbeat hdue
    exact ⟨_, exec_mgmtWatchdog_due hbeat hdue, rfl, restartMgmt_silent s _, restartMgmt_mem s _⟩
  · intro s e hwatched hrung
    have hexec := exec_engineOperationTimeout hwatched
    rw [hrung, if_pos (by decide)] at hexec
    exact ⟨_, hexec, rungSet_rung _ _ _, rungSet_rest _ _ _⟩
  · intro s e hwatched hrung
    have hexec := exec_engineOperationTimeout hwatched
    rw [hrung, if_neg (by decide), if_pos (by decide)] at hexec
    exact ⟨_, hexec, rungSet_rung _ _ _, rungSet_rest _ _ _⟩
  · intro s e hwatched hrung
    have hfirst : mapGetD 0 s.ladder.rung e ≠ 0 := by omega
    have hsecond : mapGetD 0 s.ladder.rung e ≠ 1 := by omega
    rw [exec_engineOperationTimeout hwatched, if_neg (by simpa using hfirst), if_neg (by simpa using hsecond)]
  · intro s d hd hstage
    show execComputeDieReset d s = _
    rw [execComputeDieReset, done_onlyIf (by simp [hd, hstage])]

end Sys2Proof.Machine
end

section
/-!
The register path of the pilot: GO, the access at its target, the answer and the timeout (23 R694 to R697).
-/
namespace Sys2Proof.Machine

/-! ### The end of an access -/

/-- The state in which no answer is awaited. -/
def pathIdle (s : State) : State := { s with cmd := { s.cmd with regWait := none } }

theorem pathEnd_fields {s : State} (hs : mapSorted s.regs = true) {r : Nat} (hr : r < 8) :
    getF (pathEnd s r) R.CMD_REG_CTRL F.CMD_REG_CTRL_RESULT = r ∧ getF (pathEnd s r) R.CMD_REG_CTRL F.CMD_REG_CTRL_GO = 0 := by
  have hgo := setF_sorted hs R.CMD_REG_CTRL F.CMD_REG_CTRL_GO 0
  rw [pathEnd, getF_setF_same hgo _ F.CMD_REG_CTRL_RESULT r (by decide) (by decide),
    getF_setF_field hgo _ F.CMD_REG_CTRL_RESULT F.CMD_REG_CTRL_GO r (by decide) (by decide) (by decide),
    getF_setF_same hs _ F.CMD_REG_CTRL_GO 0 (by decide) (by decide)]
  exact ⟨Nat.mod_eq_of_lt hr, Nat.zero_mod _⟩

theorem onlyListed_pathEnd (s : State) (r : Nat) : OnlyListed [R.CMD_REG_CTRL] s (pathEnd s r) :=
  ((onlyListed_refl _ s).setF_mem _ _ (List.mem_singleton.2 rfl)).setF_mem _ _ (List.mem_singleton.2 rfl)

theorem onlyLog_pathFail (s : State) (r : Nat) : OnlyLog (pathEnd (pathIdle s) r) (pathFail s r) := onlyLog_logAccess _ _ _ _ _ _ _

theorem pathRegs_apart : R.CMD_REG_CTRL ∉ logRegs ∧ R.CMD_REG_DATA ∉ logRegs ∧ R.CMD_REG_DATA ∉ [R.CMD_REG_CTRL] ∧ R.CMD_REG_TARGET ∉ [R.CMD_REG_CTRL] := by decide

/-- A failure shows its RESULT and leaves CMD_REG_DATA and memory. -/
theorem pathFail_shows {s : State} (hs : mapSorted s.regs = true) {r : Nat} (hr : r < 8) :
    getF (pathFail s r) R.CMD_REG_CTRL F.CMD_REG_CTRL_RESULT = r ∧ getF (pathFail s r) R.CMD_REG_CTRL F.CMD_REG_CTRL_GO = 0 ∧
      rd (pathFail s r) R.CMD_REG_DATA = rd s R.CMD_REG_DATA ∧ (pathFail s r).cmd = { s.cmd with regWait := none } ∧ (pathFail s r).mem = s.mem := by
  obtain ⟨hctrl, hdata, hapart, -⟩ := pathRegs_apart
  obtain ⟨hregs, hrest⟩ := onlyLog_pathFail s r
  obtain ⟨hended, hkept⟩ := onlyListed_pathEnd (pathIdle s) r
  obtain ⟨hresult, hgo⟩ := pathEnd_fields (s := pathIdle s) hs hr
  refine ⟨(getF_of_onlyRegs hregs _ hctrl).trans hresult, (getF_of_onlyRegs hregs _ hctrl).trans hgo, (hregs _ hdata).trans (hended _ hapart), ?_, ?_⟩
  · rw [hrest]; dsimp only; rw [hkept, pathIdle]
  · rw [hrest]; dsimp only; rw [hkept, pathIdle]

/-! ### GO (R694) -/

/-- On the pilot, with no access running, a write that sets GO starts one. -/
theorem regWrite_of_go {s : State} {v : Word} (hpilot : isPilot s = true) (hidle : pathBusy s = false) (hhere : (regHere s R.CMD_REG_CTRL).isSome = true)
    (hgo : bitW v 0 = true) : regWrite s .host R.CMD_REG_CTRL 8 v.toNat = pathGo (regPut s .host R.CMD_REG_CTRL 8 v.toNat) := by
  have hform : (R.CMD_REG_CTRL / 8 * 8 == R.CMD_REG_CTRL && goodAccess R.CMD_REG_CTRL 8 && R.CMD_REG_CTRL % 8 == 0) = true := by decide
  have hbit : v.toNat.testBit 0 = true := hgo
  refine if_pos ?_
  rw [hform, hbit, hhere, hidle, hpilot]
  rfl

theorem exec_regPathRead_of_go {s : State} {v : Word} (hpilot : isPilot s = true) (hidle : pathBusy s = false) (hreach : mayReach s .host R.CMD_REG_CTRL = true)
    (hhere : (regHere s R.CMD_REG_CTRL).isSome = true) (hgo : bitW v 0 = true) (hread : bitW v 1 = false) :
    exec (.regPathRead v) s = .next (pathGo (regPut s .host R.CMD_REG_CTRL 8 v.toNat)) := by
  show execRegPathRead v s = _
  rw [execRegPathRead, done_onlyIf (by rw [hreach, hgo, hread]; rfl), regWrite_of_go hpilot hidle hhere hgo]

theorem exec_regPathWrite_of_go {s : State} {v : Word} (hpilot : isPilot s = true) (hidle : pathBusy s = false) (hreach : mayReach s .host R.CMD_REG_CTRL = true)
    (hhere : (regHere s R.CMD_REG_CTRL).isSome = true) (hgo : bitW v 0 = true) (hwrite : bitW v 1 = true) :
    exec (.regPathWrite v) s = .next (pathGo (regPut s .host R.CMD_REG_CTRL 8 v.toNat)) := by
  show execRegPathWrite v s = _
  rw [execRegPathWrite, done_onlyIf (by rw [hreach, hgo, hwrite]; rfl), regWrite_of_go hpilot hidle hhere hgo]

theorem putReg_of_path {s : State} {r : RegRow} {fw : Bool} {a : Nat} {v : Word} {how : How} (hblock : blockOf a = 1)
    (hring : (R.CMD_RING_BASE 0 ≤ a && a ≤ R.CMD_RING_CONSUMED 15) = false) (hpath : (R.CMD_REG_TARGET ≤ a && a ≤ R.CMD_REG_CTRL) = true) :
    putReg s r fw a v how = putPath s r a v how := by
  unfold putReg
  simp only [hblock, hring, hpath, Bool.false_eq_true, if_true, if_false]

/-- A write of CMD_REG_CTRL while no access runs goes by its access codes. -/
theorem regPut_pathCtrl {s : State} {r : RegRow} (v : Word) (hidle : pathBusy s = false) (hhere : regHere s R.CMD_REG_CTRL = some r) :
    regPut s .host R.CMD_REG_CTRL 8 v.toNat = putFields s r R.CMD_REG_CTRL v := by
  have hwhole : R.CMD_REG_CTRL / 8 * 8 = R.CMD_REG_CTRL := by decide
  have hheld : heldUnit s .host (R.CMD_REG_CTRL / 8 * 8) = false := rfl
  have hplaced : placed s r R.CMD_REG_CTRL R.CMD_REG_CTRL 8 v.toNat = v := by
    rw [placed, if_neg (by decide), BitVec.ofNat_toNat, BitVec.setWidth_eq]
  have hput := putReg_of_path (s := s) (r := r) (fw := !fromHost .host) (v := v) (how := (R.CMD_REG_CTRL, 8, v.toNat)) (show blockOf R.CMD_REG_CTRL = 1 by decide) (by decide) (by decide)
  rw [regPut_of_present (by decide) (by rw [hwhole]; exact hhere) hheld, hwhole, hplaced, hput, putPath, putIf, hidle, Bool.not_false, if_pos rfl]

/-- The state in which an access is shown as running. -/
def pathStarted (s : State) : State := setF (setF s R.CMD_REG_CTRL F.CMD_REG_CTRL_GO 1) R.CMD_REG_CTRL F.CMD_REG_CTRL_RESULT 1

theorem pathStarted_sorted {s : State} (hs : mapSorted s.regs = true) : mapSorted (pathStarted s).regs = true := setF_sorted (setF_sorted hs _ _ _) _ _ _

theorem onlyListed_pathStarted (s : State) : OnlyListed [R.CMD_REG_CTRL] s (pathStarted s) :=
  ((onlyListed_refl _ s).setF_mem _ _ (List.mem_singleton.2 rfl)).setF_mem _ _ (List.mem_singleton.2 rfl)

/-- An access to an address that is no multiple of 8 fails for its ADDRESS. -/
theorem pathGo_of_misaligned {s : State} (h : pathAddr s % 8 ≠ 0) : pathGo s = pathFail (pathStarted s) 2 := by
  obtain ⟨hregs, -⟩ := onlyListed_pathStarted s
  have haddr : pathAddr (pathStarted s) = pathAddr s := getF_of_onlyRegs hregs _ pathRegs_apart.2.2.2
  unfold pathGo
  dsimp only
  rw [← pathStarted, if_pos (by simp [haddr, h])]

theorem regPathRead_misaligned {s : State} {v : Word} (h : Inv s) (hpilot : isPilot s = true) (hidle : pathBusy s = false) (hreach : mayReach s .host R.CMD_REG_CTRL = true)
    (hhere : (regHere s R.CMD_REG_CTRL).isSome = true) (hgo : bitW v 0 = true) (haddr : pathAddr s % 8 ≠ 0) (hread : bitW v 1 = false) :
    Completes (.regPathRead v) s fun t => getF t R.CMD_REG_CTRL F.CMD_REG_CTRL_RESULT = 2 ∧ getF t R.CMD_REG_CTRL F.CMD_REG_CTRL_GO = 0 ∧
      rd t R.CMD_REG_DATA = rd s R.CMD_REG_DATA ∧ t.mem = s.mem := by
  obtain ⟨r, hr⟩ := Option.isSome_iff_exists.1 hhere
  have hexec := exec_regPathRead_of_go hpilot hidle hreach hhere hgo hread
  rw [regPut_pathCtrl v hidle hr] at hexec
  have hput : OnlyReg R.CMD_REG_CTRL s (putFields s r R.CMD_REG_CTRL v) := onlyReg_putFields s r R.CMD_REG_CTRL v
  have hsorted : mapSorted (putFields s r R.CMD_REG_CTRL v).regs = true := (putFields_stays (stays_of_inv h)).regs.1
  generalize putFields s r R.CMD_REG_CTRL v = u at hexec hput hsorted
  obtain ⟨hregs, hrest⟩ := hput
  obtain ⟨hstarted, hkept⟩ := onlyListed_pathStarted u
  obtain ⟨-, -, hdata, htarget⟩ := pathRegs_apart
  have hmis : pathAddr u % 8 ≠ 0 := by rwa [pathAddr, getF_of_onlyRegs hregs _ htarget]
  rw [pathGo_of_misaligned hmis] at hexec
  obtain ⟨hresult, hgone, hread, -, hmem⟩ := pathFail_shows (pathStarted_sorted hsorted) (r := 2) (by decide)
  refine ⟨_, hexec, hresult, hgone, hread.trans ((hstarted _ hdata).trans (hregs _ hdata)), ?_⟩
  rw [hmem, hkept, hrest]

/-! ### The target, the answer and the timeout (R694) -/

theorem exec_regPathRequest_served {s : State} (src a : Nat) (w : Bool) (d : Word) (hstage : 1 ≤ s.boot.stage) (hawake : anchorState s < 3)
    (hroute : (homePort s src false).isSome = true) :
    exec (.regPathRequest src w a d) s = .next (sendInst (pathServe s w a d).2.2 0 src .regAnswer [(pathServe s w a d).1, (pathServe s w a d).2.1.toNat]) := by
  show execRegPathRequest src w a d s = _
  rw [execRegPathRequest, done_onlyIf (by simp [hstage, hawake, hroute])]

theorem exec_regPathAnswer_read {s : State} {n src : Nat} (d : Word) (hwait : s.cmd.regWait = some (n, src)) (hread : pathWrite s = false) :
    exec (.regPathAnswer src 0 d) s = .next (pathEnd (wr (pathIdle s) R.CMD_REG_DATA d) 0) := by
  have hidle : pathWrite (pathIdle s) = false := hread
  show execRegPathAnswer src 0 d s = _
  rw [execRegPathAnswer, hwait]
  dsimp only
  rw [done_onlyIf BEq.rfl, pathDone, if_neg (by decide)]
  dsimp only
  rw [← pathIdle, hidle, if_neg Bool.false_ne_true]

theorem regPathAnswer_places {s : State} {n src : Nat} {d : Word} (h : Inv s) (hwait : s.cmd.regWait = some (n, src)) (hread : pathWrite s = false) :
    Completes (.regPathAnswer src 0 d) s fun t => rd t R.CMD_REG_DATA = d ∧ getF t R.CMD_REG_CTRL F.CMD_REG_CTRL_RESULT = 0 ∧ getF t R.CMD_REG_CTRL F.CMD_REG_CTRL_GO = 0 ∧
      OnlyRegs [R.CMD_REG_DATA, R.CMD_REG_CTRL] s t ∧ t = { s with regs := t.regs, cmd := { s.cmd with regWait := none } } := by
  have hs : mapSorted (pathIdle s).regs = true := h.2.1
  obtain ⟨hresult, hgo⟩ := pathEnd_fields (wr_sorted hs R.CMD_REG_DATA d) (r := 0) (by decide)
  obtain ⟨hregs, hrest⟩ := onlyListed_pathEnd (wr (pathIdle s) R.CMD_REG_DATA d) 0
  refine ⟨_, exec_regPathAnswer_read d hwait hread, (hregs _ pathRegs_apart.2.2.1).trans (rd_wr_same hs _ d), hresult, hgo, ?_, ?_⟩
  · intro a ha
    simp only [List.mem_cons, List.not_mem_nil, or_false, not_or] at ha
    obtain ⟨hdata, hctrl⟩ := ha
    exact (hregs a (by simpa using hctrl)).trans (rd_wr_other (pathIdle s) d hdata)
  · rw [hrest]
    dsimp only [wr, pathIdle]

theorem exec_regPathTimeout_due {s : State} {n src : Nat} (hwait : s.cmd.regWait = some (n, src)) (hdue : n + 1000000 ≤ s.now) :
    exec .regPathTimeout s = .next (pathFail s 4) := by
  show execRegPathTimeout s = _
  rw [execRegPathTimeout, hwait]
  dsimp only
  rw [done_onlyIf (by simpa using hdue)]

/-- Settles O29: GO acts on the register as written (`regWrite_of_go`); a failure shows its RESULT and leaves the data (`pathFail_shows`); an OK answer to a read places it. -/
theorem registerPath : Obligations.RegisterPath := by
  unfold Obligations.RegisterPath
  refine ⟨?_, fun _ _ h hpilot hidle hreach hhere hgo haddr hread => regPathRead_misaligned h hpilot hidle hreach hhere hgo haddr hread,
    fun _ src a w d hstage hawake hroute => exec_regPathRequest_served src a w d hstage hawake hroute,
    fun _ _ _ _ h hwait hread => regPathAnswer_places h hwait hread, ?_⟩
  · intro s v hpilot hidle hreach hhere hgo
    exact ⟨exec_regPathRead_of_go hpilot hidle hreach hhere hgo, exec_regPathWrite_of_go hpilot hidle hreach hhere hgo⟩
  · intro s n src h hwait hdue
    obtain ⟨hresult, -, hdata, hcmd, hmem⟩ := pathFail_shows h.2.1 (r := 4) (by decide)
    exact ⟨_, exec_regPathTimeout_due hwait hdue, hcmd, hresult, hdata, hmem⟩

end Sys2Proof.Machine
end

section
/-! ### Cold starts, recovery and updates of the image (20 R604 to R616) -/
namespace Sys2Proof.Machine

/-- What switching domains and loops and reporting may touch: the registers, the free values taken, the logbook and what is sent. -/
def OnlyShown (s t : State) : Prop := t = { s with regs := t.regs, free := t.free, log := t.log, out := t.out }

theorem onlyShown_refl (s : State) : OnlyShown s s := rfl

theorem OnlyShown.trans {s t u : State} (h : OnlyShown s t) (k : OnlyShown t u) : OnlyShown s u := by
  unfold OnlyShown at *
  rw [k, h]

theorem onlyShown_wr (s : State) (a : Nat) (w : Word) : OnlyShown s (wr s a w) := rfl

theorem onlyShown_setF (s : State) (a : Nat) (f : RF) (v : Nat) : OnlyShown s (setF s a f v) := onlyShown_wr s a _

theorem onlyShown_takeFree (s : State) : OnlyShown s (takeFree s).2 := rfl

theorem onlyShown_of_onlyLog {s t : State} (h : OnlyLog s t) : OnlyShown s t := by
  obtain ⟨-, h⟩ := h
  unfold OnlyShown
  rw [h]

theorem OnlyShown.ite {s t u : State} {c : Prop} [Decidable c] (ht : OnlyShown s t) (hu : OnlyShown s u) : OnlyShown s (if c then t else u) := by
  split
  · exact ht
  · exact hu

theorem OnlyShown.mem_eq {s t : State} (h : OnlyShown s t) : t.mem = s.mem := by rw [h]

theorem OnlyShown.flash_eq {s t : State} (h : OnlyShown s t) : t.flash = s.flash := by rw [h]

theorem OnlyShown.boot_eq {s t : State} (h : OnlyShown s t) : t.boot = s.boot := by rw [h]

theorem loopFreq_cases (s : State) (i : Nat) : (loopFreq s i).2 = s ∨ (loopFreq s i).2 = (takeFree s).2 := by
  unfold loopFreq
  split
  · exact .inl rfl
  split
  · exact .inl rfl
  split
  · exact .inr rfl
  split <;> exact .inl rfl

theorem onlyShown_loopFreq (s : State) (i : Nat) : OnlyShown s (loopFreq s i).2 := by
  rcases loopFreq_cases s i with h | h <;> rw [h]
  · exact onlyShown_refl s
  · exact onlyShown_takeFree s

theorem loopFreq_regs (s : State) (i : Nat) : (loopFreq s i).2.regs = s.regs := by
  rcases loopFreq_cases s i with h | h <;> rw [h]
  rw [takeFree_regs]

theorem onlyShown_lockLoop (s : State) (i : Nat) : OnlyShown s (lockLoop s i) :=
  ((((onlyShown_setF s _ _ _).trans (onlyShown_loopFreq _ i)).trans (onlyShown_setF _ _ _ _)).trans (onlyShown_setF _ _ _ _)).trans (onlyShown_setF _ _ _ _)

theorem lockLoop_sorted {s : State} (hs : mapSorted s.regs = true) (i : Nat) : mapSorted (lockLoop s i).regs = true := by
  unfold lockLoop
  dsimp only
  exact setF_sorted (setF_sorted (setF_sorted (by rw [loopFreq_regs]; exact setF_sorted hs _ _ _) _ _ _) _ _ _) _ _ _

theorem rd_lockLoop_other (s : State) {i a : Nat} (ha : a ≠ R.CLK_LOOP i) : rd (lockLoop s i) a = rd s a := by
  unfold lockLoop
  dsimp only
  rw [rd_setF_other _ _ _ ha, rd_setF_other _ _ _ ha, rd_setF_other _ _ _ ha, rd_of_regs (loopFreq_regs _ i), rd_setF_other _ _ _ ha]

theorem onlyShown_setPd (s : State) (d v : Nat) : OnlyShown s (setPd s d v) := onlyShown_wr s _ _

theorem onlyShown_domainOn (s : State) (d : Nat) : OnlyShown s (domainOn s d) := by
  unfold domainOn
  split
  · exact onlyShown_refl s
  split
  · exact (onlyShown_setPd s d 2).trans (onlyShown_lockLoop _ _)
  · exact onlyShown_setPd s d 2

theorem domainOn_sorted {s : State} (hs : mapSorted s.regs = true) (d : Nat) : mapSorted (domainOn s d).regs = true := by
  unfold domainOn
  split
  · exact hs
  split
  · exact lockLoop_sorted (wr_sorted hs _ _) _
  · exact wr_sorted hs _ _

/-- Switching on the host port's domain changes the domains' states and the loop of that domain. -/
theorem rd_domainOn_hostPort (s : State) {a : Nat} (hstate : a ≠ R.PWR_DOMAIN_STATE) (hloop : a ≠ R.CLK_LOOP 9) : rd (domainOn s 4) a = rd s a := by
  have hof : loopOfDomain 4 = some 9 := rfl
  unfold domainOn
  split
  · rfl
  · rw [hof]
    exact (rd_lockLoop_other _ hloop).trans (rd_wr_other s _ hstate)

/-- The host port's domain switched on where that is asked for. -/
def hostPortOn (s : State) (on : Bool) : State := if on then domainOn s 4 else s

theorem onlyShown_hostPortOn (s : State) (on : Bool) : OnlyShown s (hostPortOn s on) := OnlyShown.ite (onlyShown_domainOn s 4) (onlyShown_refl s)

theorem hostPortOn_sorted {s : State} (hs : mapSorted s.regs = true) (on : Bool) : mapSorted (hostPortOn s on).regs = true := by
  cases on
  · exact hs
  · exact domainOn_sorted hs 4

theorem pilotSel_hostPortOn (s : State) (on : Bool) : flagF (hostPortOn s on) R.ARB_BOOT_STATUS F.ARB_BOOT_STATUS_PILOT_SEL = flagF s R.ARB_BOOT_STATUS F.ARB_BOOT_STATUS_PILOT_SEL := by
  cases on
  · rfl
  · rw [flagF, flagF, getF, getF, hostPortOn, if_pos rfl, rd_domainOn_hostPort s (by decide) (by decide)]

/-- The two bits of the strap's check shown. -/
def pilotShown (s : State) (mismatch live : Bool) : State :=
  setF (setF s R.ARB_BOOT_STATUS F.ARB_BOOT_STATUS_PILOT_MISMATCH (b2n mismatch)) R.ARB_BOOT_STATUS F.ARB_BOOT_STATUS_PILOT_LIVE (b2n live)

theorem onlyShown_pilotShown (s : State) (m l : Bool) : OnlyShown s (pilotShown s m l) := (onlyShown_setF s _ _ _).trans (onlyShown_setF _ _ _ _)

theorem pilotSel_pilotShown {s : State} (hs : mapSorted s.regs = true) (m l : Bool) :
    flagF (pilotShown s m l) R.ARB_BOOT_STATUS F.ARB_BOOT_STATUS_PILOT_SEL = flagF s R.ARB_BOOT_STATUS F.ARB_BOOT_STATUS_PILOT_SEL := by
  rw [flagF, flagF, pilotShown, getF_setF_field (setF_sorted hs _ _ _) _ _ _ _ (by decide) (by decide) (by decide), getF_setF_field hs _ _ _ _ (by decide) (by decide) (by decide)]

/-- The check of the strap shows its two bits, and at most reports a mismatch. -/
theorem pilotCheck_shows (s : State) : ∃ m l, OnlyLog (pilotShown s m l) (pilotCheck s) :=
  ⟨_, _, onlyLog_ite ((onlyLog_ite (onlyLog_noteAt _ _ _ _) (onlyLog_refl _)).trans (onlyLog_tellBluvisen _ _ _)) (onlyLog_refl _)⟩

theorem onlyShown_pilotCheck (s : State) : OnlyShown s (pilotCheck s) := by
  obtain ⟨m, l, h⟩ := pilotCheck_shows s
  exact (onlyShown_pilotShown s m l).trans (onlyShown_of_onlyLog h)

theorem pilotSel_pilotCheck {s : State} (hs : mapSorted s.regs = true) :
    flagF (pilotCheck s) R.ARB_BOOT_STATUS F.ARB_BOOT_STATUS_PILOT_SEL = flagF s R.ARB_BOOT_STATUS F.ARB_BOOT_STATUS_PILOT_SEL := by
  obtain ⟨m, l, hregs, -⟩ := pilotCheck_shows s
  rw [flagF_of_onlyRegs hregs _ (by decide), pilotSel_pilotShown hs]

theorem onlyShown_showFloor (s : State) : OnlyShown s (showFloor s) := onlyShown_setF s _ _ _

theorem onlyShown_showSaved (s : State) : OnlyShown s (showSaved s) := by
  unfold showSaved
  exact ((onlyShown_setF s _ _ _).trans (onlyShown_setF _ _ _ _)).trans (onlyShown_setF _ _ _ _)

/-- Stage 1: PD0 and the loops of the management core and the security island. -/
def coreOn (s : State) : State := [10, 11].foldl lockLoop (setPd s 0 2)

theorem onlyShown_coreOn (s : State) : OnlyShown s (coreOn s) := by
  rw [coreOn, List.foldl_cons, List.foldl_cons, List.foldl_nil]
  exact ((onlyShown_setPd s 0 2).trans (onlyShown_lockLoop _ 10)).trans (onlyShown_lockLoop _ 11)

/-- The state holds this module flash. -/
def HasFlash (fl : Flash) (s : State) : Prop := s.flash = fl

theorem HasFlash.shown {fl : Flash} {s t : State} (h : HasFlash fl s) (k : OnlyShown s t) : HasFlash fl t := k.flash_eq.trans h

theorem HasFlash.keyed {fl : Flash} {s : State} (h : HasFlash fl s) {x : Security} {b : Boot} : HasFlash fl { s with sec := x, boot := b } := h

theorem HasFlash.setF {fl : Flash} {s : State} (h : HasFlash fl s) {a : Nat} {f : RF} {v : Nat} : HasFlash fl (setF s a f v) := h.shown (onlyShown_setF s a f v)

theorem HasFlash.ite {fl : Flash} {s t : State} {c : Prop} [Decidable c] (hs : HasFlash fl s) (ht : HasFlash fl t) : HasFlash fl (if c then s else t) := by
  split
  · exact hs
  · exact ht

/-- Stages 1 and 2 leave module flash. -/
theorem hasFlash_stage12 (s : State) (x : BringUp) : HasFlash s.flash (stage12 s x) := by
  unfold stage12
  have hcore : HasFlash s.flash ([10, 11].foldl lockLoop (setPd s 0 2)) := (onlyShown_coreOn s).flash_eq
  revert hcore
  generalize [10, 11].foldl lockLoop (setPd s 0 2) = t
  intro hcore
  have hfeeds : HasFlash s.flash (if (getF t R.PWR_INPUT F.PWR_INPUT_FEED_A + getF t R.PWR_INPUT F.PWR_INPUT_FEED_B == 0) = true then
      setF (setF t R.PWR_INPUT F.PWR_INPUT_FEED_A 1) R.PWR_INPUT F.PWR_INPUT_FEED_B 1 else t) := hcore.setF.setF.ite hcore
  have hsaved := (hfeeds.shown (onlyShown_showSaved _)).shown (onlyShown_showFloor _)
  refine HasFlash.shown ?_ (onlyShown_pilotCheck _)
  exact HasFlash.ite (HasFlash.shown (HasFlash.setF (HasFlash.setF (HasFlash.keyed hsaved))) (onlyShown_domainOn _ 4)) (HasFlash.setF (HasFlash.setF (HasFlash.keyed hsaved)))

theorem stage12_flash (s : State) (x : BringUp) : (stage12 s x).flash = s.flash := hasFlash_stage12 s x

theorem enterRecovery_enters {s : State} (hs : mapSorted s.regs = true) : inRecovery (enterRecovery s) = true ∧ (enterRecovery s).flash = s.flash := by
  unfold enterRecovery inRecovery
  generalize hu : ({ s with boot := { s.boot with stage := 3, mgmtImage := [] }, ladder := { s.ladder with lastKickNs := s.now } } : State) = u
  have hregs : u.regs = s.regs := by rw [← hu]
  have hstage : u.boot.stage = 3 := by rw [← hu]
  have hflash : u.flash = s.flash := by rw [← hu]
  have hsorted : mapSorted (domainOn u 1).regs = true := domainOn_sorted (by rw [hregs]; exact hs) 1
  constructor
  · rw [setBoot, getF_setF_same hsorted _ _ _ (by decide) (by decide), setF_boot, (onlyShown_domainOn u 1).boot_eq, hstage]
    rfl
  · rw [setBoot, setF_flash, (onlyShown_domainOn u 1).flash_eq, hflash]

theorem exec_coldStart {s : State} {x : BringUp} (hstage : s.boot.stage ≤ 1) (hsupply : s.pwr.supplyOff = false) (htrip : s.pwr.tripped = false) :
    exec (.coldStart x) s = .next (if x.xinA then bringUp (stage12 s x) x else setPd { s with boot := { s.boot with stage := 1 } } 0 2) := by
  show execColdStart x s = _
  rw [execColdStart, done_onlyIf (by simp [hstage, hsupply, htrip])]

theorem coldStart_noImage {s : State} {x : BringUp} (h : Inv s) (hstage : s.boot.stage ≤ 1) (hsupply : s.pwr.supplyOff = false) (htrip : s.pwr.tripped = false)
    (hxin : x.xinA = true) (hnone : s.flash.image = none) : Completes (.coldStart x) s fun t => inRecovery t = true ∧ t.flash.image = none := by
  have hflash : (stage12 s x).flash.image = none := by rw [stage12_flash, hnone]
  have hexec := exec_coldStart (x := x) hstage hsupply htrip
  rw [if_pos hxin, bringUp, hflash] at hexec
  obtain ⟨hrec, hkept⟩ := enterRecovery_enters (s := stage12 s x) (stage12_stays (stays_of_inv h)).regs.1
  exact ⟨_, hexec, hrec, by rw [hkept, hflash]⟩

theorem coldStart_noClock {s : State} {x : BringUp} (h : Inv s) (hstage : s.boot.stage ≤ 1) (hsupply : s.pwr.supplyOff = false) (htrip : s.pwr.tripped = false)
    (hxin : x.xinA = false) : Completes (.coldStart x) s fun t =>
      t.boot = { s.boot with stage := 1 } ∧ pdState t 0 = 2 ∧ OnlyRegs [R.PWR_DOMAIN_STATE] s t ∧ t = { s with regs := t.regs, boot := t.boot } := by
  have hexec := exec_coldStart (x := x) hstage hsupply htrip
  rw [if_neg (by simp [hxin])] at hexec
  have hs : mapSorted s.regs = true := (stays_of_inv h).regs.1
  generalize hu : ({ s with boot := { s.boot with stage := 1 } } : State) = u at hexec
  have hregs : u.regs = s.regs := by rw [← hu]
  refine ⟨_, hexec, ?_, ?_, fun a ha => ?_, ?_⟩
  · rw [setPd_boot, ← hu]
  · rw [pdState, setPd, rd_wr_same (by rw [hregs]; exact hs)]
    exact fld_setFld_same _ _ (by decide) (by decide)
  · rw [setPd, rd_wr_other _ _ (by simpa using ha), rd_of_regs hregs]
  · rw [← hu]
    rfl

/-! #### A loss of PD0 -/

/-- What a loss of PD0 leaves before the registers that outlive it are shown again. -/
def coldBase (s : State) (excluded : Bool) : State :=
  { pending := s.pending, upsets := s.upsets, now := s.now, free := s.free, out := s.out, hostMem := s.hostMem, flash := s.flash,
    pwr := { supplyOff := s.pwr.supplyOff, ratedNs := s.now, outExcluded := excluded } }

theorem coldBase_sorted (s : State) (excluded : Bool) : mapSorted (coldBase s excluded).regs = true := rfl

/-- The feeds of a state shown in another. -/
def feedsKept (s t : State) : State :=
  setF (setF (setF t R.PWR_INPUT F.PWR_INPUT_SINGLE_FEED (getF s R.PWR_INPUT F.PWR_INPUT_SINGLE_FEED)) R.PWR_INPUT F.PWR_INPUT_FEED_A (getF s R.PWR_INPUT F.PWR_INPUT_FEED_A))
    R.PWR_INPUT F.PWR_INPUT_FEED_B (getF s R.PWR_INPUT F.PWR_INPUT_FEED_B)

/-- What ended the time before, shown: a supply fault, a trip, and how the time until READY counts. -/
def endShown (t : State) (off tripped excluded : Bool) : State :=
  setF (setF (setF t R.PWR_INPUT F.PWR_INPUT_SUPPLY_FAULT (b2n off)) R.PWR_THERMAL F.PWR_THERMAL_THERMAL_TRIP (b2n tripped)) R.PWR_RATED_STATUS F.PWR_RATED_STATUS_CLASS (if excluded then 2 else 1)

theorem coldReset_eq (s : State) (excluded : Bool) :
    coldReset s excluded = endShown (feedsKept s (coldBase s excluded)) s.pwr.supplyOff s.pwr.tripped excluded := by
  unfold coldReset endShown feedsKept coldBase
  rfl

theorem onlyListed_coldReset (s : State) (excluded : Bool) : OnlyListed [R.PWR_INPUT, R.PWR_THERMAL, R.PWR_RATED_STATUS] (coldBase s excluded) (coldReset s excluded) := by
  rw [coldReset_eq, endShown, feedsKept]
  generalize coldBase s excluded = t
  exact ((((((onlyListed_refl _ t).setF_mem _ _ (by simp)).setF_mem _ _ (by simp)).setF_mem _ _ (by simp)).setF_mem _ _ (by simp)).setF_mem _ _ (by simp)).setF_mem _ _ (by simp)

theorem coldReset_with_regs (s : State) (excluded : Bool) : coldReset s excluded = { coldBase s excluded with regs := (coldReset s excluded).regs } := (onlyListed_coldReset s excluded).2

theorem coldReset_mem (s : State) (excluded : Bool) : (coldReset s excluded).mem = [] := by rw [coldReset_with_regs]; rfl

theorem coldReset_stage (s : State) (excluded : Bool) : (coldReset s excluded).boot.stage = 0 := by rw [coldReset_with_regs]; rfl

theorem coldReset_cmd (s : State) (excluded : Bool) : (coldReset s excluded).cmd = {} := by rw [coldReset_with_regs]; rfl

theorem coldReset_flash (s : State) (excluded : Bool) : (coldReset s excluded).flash = s.flash := by rw [coldReset_with_regs]; rfl

theorem coldReset_out (s : State) (excluded : Bool) : (coldReset s excluded).out = s.out := by rw [coldReset_with_regs]; rfl

theorem coldReset_supplyOff (s : State) (excluded : Bool) : (coldReset s excluded).pwr.supplyOff = s.pwr.supplyOff := by rw [coldReset_with_regs]; rfl

theorem feedsKept_sorted {t : State} (ht : mapSorted t.regs = true) (s : State) : mapSorted (feedsKept s t).regs = true := setF_sorted (setF_sorted (setF_sorted ht _ _ _) _ _ _) _ _ _

theorem b2n_shown (b : Bool) {k : Nat} (hk : 0 < k) : (b2n b % 2 ^ k != 0) = b := by
  rw [Nat.mod_eq_of_lt (lt_of_lt_of_le (b := 2) (by cases b <;> decide) (Nat.le_self_pow hk.ne' 2))]
  cases b <;> rfl

theorem supplyFault_endShown {t : State} (ht : mapSorted t.regs = true) (off tripped excluded : Bool) :
    flagF (endShown t off tripped excluded) R.PWR_INPUT F.PWR_INPUT_SUPPLY_FAULT = off := by
  rw [flagF, endShown, getF_setF_other _ _ _ _ (by decide), getF_setF_other _ _ _ _ (by decide), getF_setF_same ht _ _ _ (by decide) (by decide)]
  exact b2n_shown off (by decide)

theorem thermalTrip_endShown {t : State} (ht : mapSorted t.regs = true) (off tripped excluded : Bool) :
    flagF (endShown t off tripped excluded) R.PWR_THERMAL F.PWR_THERMAL_THERMAL_TRIP = tripped := by
  rw [flagF, endShown, getF_setF_other _ _ _ _ (by decide), getF_setF_same (setF_sorted ht _ _ _) _ _ _ (by decide) (by decide)]
  exact b2n_shown tripped (by decide)

/-- After a cold reset SUPPLY_FAULT says whether the supply is off. -/
theorem supplyFault_coldReset (s : State) (excluded : Bool) : flagF (coldReset s excluded) R.PWR_INPUT F.PWR_INPUT_SUPPLY_FAULT = s.pwr.supplyOff := by
  rw [coldReset_eq, supplyFault_endShown (feedsKept_sorted (coldBase_sorted s excluded) s)]

/-- After a cold reset THERMAL_TRIP says whether the module had tripped. -/
theorem thermalTrip_coldReset (s : State) (excluded : Bool) : flagF (coldReset s excluded) R.PWR_THERMAL F.PWR_THERMAL_THERMAL_TRIP = s.pwr.tripped := by
  rw [coldReset_eq, thermalTrip_endShown (feedsKept_sorted (coldBase_sorted s excluded) s)]

theorem modReset_resets {s : State} {us : Nat} (hsupply : s.pwr.supplyOff = false) (hlow : 10 ≤ us) : Completes (.modReset us) s fun t =>
    t = coldReset s true ∧ t.mem = [] ∧ t.boot.stage = 0 ∧ t.cmd = {} ∧ t.flash = s.flash ∧ t.out = s.out := by
  have hcounts : resetCounts s us = (true, s) := by rw [resetCounts, if_pos hlow]
  have hexec : exec (.modReset us) s = .next (coldReset s true) := by
    show execModReset us s = _
    rw [execModReset, done_onlyIf (by rw [hsupply]; rfl), hcounts]
    rfl
  exact ⟨_, hexec, rfl, coldReset_mem s true, coldReset_stage s true, coldReset_cmd s true, coldReset_flash s true, coldReset_out s true⟩

theorem exec_modReset_glitch {s : State} (hsupply : s.pwr.supplyOff = false) : exec (.modReset 0) s = .next s := by
  have hcounts : resetCounts s 0 = (false, s) := by rw [resetCounts, if_neg (by decide), if_pos (by decide)]
  show execModReset 0 s = _
  rw [execModReset, done_onlyIf (by rw [hsupply]; rfl), hcounts]
  rfl

/-! #### The image in RECOVERY and in service -/

theorem exec_recoveryImageLength {s : State} {n : Nat} (b : Bytes) (w : Bool) (hrec : inRecovery s = true) (hsel : flagF s R.ARB_BOOT_STATUS F.ARB_BOOT_STATUS_PILOT_SEL = true)
    (hport : pdState s 4 = 2) (hlen : n ≤ 0x8000000) : exec (.recoveryImageLength n b w) s = .next (takeImage s (fit n b) w) := by
  show execRecoveryImageLength n b w s = _
  rw [execRecoveryImageLength, done_onlyIf (by rw [hrec, hsel, hport]; rfl)]
  rw [if_neg (by omega)]

theorem exec_recoveryDone {s : State} {n : Nat} (w : Bool) (hrec : inRecovery s = true) (hlen : n ≤ 0x8000000) :
    exec (.recoveryDone n w) s = .next (takeImage s ((List.range n).map fun i => mapGetD 0 s.boot.mgmtImage i) w) := by
  show execRecoveryDone n w s = _
  rw [execRecoveryDone, done_onlyIf hrec]
  dsimp only
  rw [if_neg (by omega)]

/-- A chunk put into a staged image from an offset on. -/
def chunkPut (m : SMap Byte) (o : Nat) (b : Bytes) : SMap Byte := b.zipIdx.foldl (fun m e => mapPut m (o + e.2) e.1) m

theorem chunkPut_concat (m : SMap Byte) (o : Nat) (b : Bytes) (x : Byte) : chunkPut m o (b ++ [x]) = mapPut (chunkPut m o b) (o + b.length) x := by
  rw [chunkPut, List.zipIdx_append, List.foldl_append]
  simp [chunkPut]

/-- Byte i of a chunk is staged at its offset plus i. -/
theorem mapGet_chunkPut (m : SMap Byte) (o : Nat) (b : Bytes) {i : Nat} (hi : i < b.length) : mapGet (chunkPut m o b) (o + i) = b[i]? := by
  induction b using List.reverseRecOn with
  | nil => exact absurd hi (Nat.not_lt_zero i)
  | append_singleton b x ih =>
    rw [chunkPut_concat]
    rcases Nat.lt_or_ge i b.length with hlt | hge
    · rw [mapGet_put_other _ _ _ _ (by omega), ih hlt, List.getElem?_append_left hlt]
    · have hlast : i = b.length := by rw [List.length_append, List.length_singleton] at hi; omega
      rw [hlast, mapGet_put_same, List.getElem?_concat_length]

theorem recoveryChunk_stages {s : State} {o : Nat} {b : Bytes} (hrec : inRecovery s = true) (hlen : b.length ≤ 1024) (hend : o + b.length ≤ 0x8000000) :
    Completes (.recoveryChunk o b) s fun t =>
      (∀ i, i < b.length → mapGet t.boot.mgmtImage (o + i) = b[i]?) ∧ t = { s with boot := { s.boot with mgmtImage := t.boot.mgmtImage } } := by
  have hexec : exec (.recoveryChunk o b) s = .next { s with boot := { s.boot with mgmtImage := chunkPut s.boot.mgmtImage o b } } := by
    show execRecoveryChunk o b s = _
    rw [execRecoveryChunk, done_onlyIf (by simp [hrec, hlen, hend])]
    rfl
  exact ⟨_, hexec, fun i hi => mapGet_chunkPut _ o b hi, rfl⟩

theorem tellBluvisen_of_on {s : State} (hon : bluvisenOn s = true) (rule : Nat) (args : List Nat) :
    tellBluvisen s rule args = { s with out := s.out ++ [⟨.bluvisen, 0, rule :: args, [], none⟩] } := by
  rw [tellBluvisen, bluvisen, if_pos hon, send]

/-- What an update order does, by whether it is refused. -/
def updateTaken (s : State) (o : UpdateOrder) : State :=
  match updateRefusal s o with
  | some n => { s with out := s.out ++ [⟨.bluvisen, 0, [610, n], [], none⟩] }
  | none => if o.cold && o.written then restartFor { s with flash := { s.flash with image := some o.image } } else { s with flash := { s.flash with image := if o.written then some o.image else none } }

theorem exec_firmwareUpdateOrder {s : State} (o : UpdateOrder) (hon : bluvisenOn s = true) (hstage : s.boot.stage = 9) (hkey : authKey s ≠ []) :
    exec (.firmwareUpdateOrder o) s = .next (updateTaken s o) := by
  show execFirmwareUpdateOrder o s = _
  rw [execFirmwareUpdateOrder, done_onlyIf (by simp [hon, hstage, hkey]), updateTaken]
  cases updateRefusal s o with
  | some n =>
    dsimp only
    rw [tellBluvisen_of_on hon]
  | none => cases hw : o.written <;> simp

theorem updateRefusal_of_bound {s : State} (o : UpdateOrder) (hanchor : anchorState s < 2) (hslice : sliceState s ≠ 0) : updateRefusal s o = some 1 := by
  rw [updateRefusal, if_neg (by omega), if_pos (by simpa using hslice)]

theorem firmwareUpdateOrder_refused {s : State} (o : UpdateOrder) (hon : bluvisenOn s = true) (hstage : s.boot.stage = 9) (hkey : authKey s ≠ []) (hanchor : anchorState s < 2)
    (hslice : sliceState s ≠ 0) : Completes (.firmwareUpdateOrder o) s fun t => t = { s with out := s.out ++ [⟨.bluvisen, 0, [610, 1], [], none⟩] } :=
  ⟨_, exec_firmwareUpdateOrder o hon hstage hkey, by rw [updateTaken, updateRefusal_of_bound o hanchor hslice]⟩

theorem exec_updateRestartWaitExpiry_due {s : State} {n : Nat} (hwait : s.boot.restartBy = some n) (hdue : n ≤ s.now) :
    exec .updateRestartWaitExpiry s = .next (coldReset s true) := by
  show execUpdateRestartWaitExpiry s = _
  rw [execUpdateRestartWaitExpiry, done_onlyIf (by rw [hwait]; exact decide_eq_true hdue)]

/-! #### The strap and PERST -/

theorem pilotSelChange_takes {s : State} {b : Bool} (h : Inv s) (hstage : 2 ≤ s.boot.stage) (hseen : s.boot.strapSeen = true) (hstrap : s.boot.strap = b)
    (hnew : flagF s R.ARB_BOOT_STATUS F.ARB_BOOT_STATUS_PILOT_SEL ≠ b) : Completes (.pilotSelChange b) s fun t =>
      flagF t R.ARB_BOOT_STATUS F.ARB_BOOT_STATUS_PILOT_SEL = b ∧ t.mem = s.mem := by
  have hs : mapSorted s.regs = true := (stays_of_inv h).regs.1
  have hexec : exec (.pilotSelChange b) s = .next (pilotCheck (hostPortOn (setF s R.ARB_BOOT_STATUS F.ARB_BOOT_STATUS_PILOT_SEL (b2n b))
      (b && anchorState (setF s R.ARB_BOOT_STATUS F.ARB_BOOT_STATUS_PILOT_SEL (b2n b)) != 3 && pdState (setF s R.ARB_BOOT_STATUS F.ARB_BOOT_STATUS_PILOT_SEL (b2n b)) 4 == 0))) := by
    show execPilotSelChange b s = _
    rw [execPilotSelChange, done_onlyIf (by simp [hstage, hseen, hstrap, hnew])]
    rfl
  have hsel : flagF (setF s R.ARB_BOOT_STATUS F.ARB_BOOT_STATUS_PILOT_SEL (b2n b)) R.ARB_BOOT_STATUS F.ARB_BOOT_STATUS_PILOT_SEL = b := by
    rw [flagF, getF_setF_same hs _ _ _ (by decide) (by decide)]
    exact b2n_shown b (by decide)
  have hmem : (setF s R.ARB_BOOT_STATUS F.ARB_BOOT_STATUS_PILOT_SEL (b2n b)).mem = s.mem := setF_mem _ _ _ _
  have hsorted : mapSorted (setF s R.ARB_BOOT_STATUS F.ARB_BOOT_STATUS_PILOT_SEL (b2n b)).regs = true := setF_sorted hs _ _ _
  generalize setF s R.ARB_BOOT_STATUS F.ARB_BOOT_STATUS_PILOT_SEL (b2n b) = u at hexec hsel hmem hsorted
  refine ⟨_, hexec, ?_, by rw [(onlyShown_pilotCheck _).mem_eq, (onlyShown_hostPortOn u _).mem_eq, hmem]⟩
  rw [pilotSel_pilotCheck (hostPortOn_sorted hsorted _), pilotSel_hostPortOn, hsel]

theorem exec_pcieReset {s : State} (hport : pdState s 4 = 2) : exec .pcieReset s = .next { s with boot := { s.boot with d3hot := false } } := by
  show execPcieReset s = _
  rw [execPcieReset, done_onlyIf (by rw [hport]; rfl)]

/-- Settles O22, clause by clause: the stages of a cold start and the staging and checking of an image stand as the model makes them (logs 87 and 92, DESIGN CHOICE and DEDUCED), the number
of a refused order is log 93's, a pulse on MOD_RESET_N counts from 10 µs on (log 91), and the strap and PERST act as log 94 reads them. -/
theorem coldStartsAndImages : Obligations.ColdStartsAndImages := by
  unfold Obligations.ColdStartsAndImages
  refine ⟨fun s x hstage hsupply htrip hxin => ?_, fun s x h hstage hsupply htrip hxin hnone => coldStart_noImage h hstage hsupply htrip hxin hnone,
    fun s x h hstage hsupply htrip hxin => coldStart_noClock h hstage hsupply htrip hxin, fun s us hsupply hlow => modReset_resets hsupply hlow,
    fun s hsupply => exec_modReset_glitch hsupply, fun s n b w hrec hsel hport hlen => exec_recoveryImageLength b w hrec hsel hport hlen,
    fun s o b hrec hlen hend => recoveryChunk_stages hrec hlen hend, fun s n w hrec hlen => exec_recoveryDone w hrec hlen, fun s o hon hstage hkey => ?_,
    fun s o hon hstage hkey hanchor hslice => firmwareUpdateOrder_refused o hon hstage hkey hanchor hslice, fun s n hwait hdue => exec_updateRestartWaitExpiry_due hwait hdue,
    fun s b h hstage hseen hstrap hnew => pilotSelChange_takes h hstage hseen hstrap hnew, fun s hport => exec_pcieReset hport⟩
  · rw [exec_coldStart hstage hsupply htrip, if_pos hxin]
  · rw [exec_firmwareUpdateOrder o hon hstage hkey, updateTaken] <;> rfl

end Sys2Proof.Machine
end

section
/-! ### The Anchor states (21 R641 to R646) -/
namespace Sys2Proof.Machine

theorem anchorState_setAnchor {s : State} (hs : mapSorted s.regs = true) {v : Nat} (hv : v < 8) : anchorState (setAnchor s v) = v := by
  rw [anchorState, setAnchor, getF_setF_same hs _ _ _ (by decide) (by decide)]
  exact Nat.mod_eq_of_lt hv

theorem onlyListed_setAnchor (s : State) (v : Nat) : OnlyListed [R.PWR_ANCHOR_STATUS] s (setAnchor s v) := (onlyListed_refl _ s).setF_mem _ _ (List.mem_singleton.2 rfl)

/-- A refused order counted and its reason shown. -/
def refusalShown (s : State) (n : Nat) : State :=
  setF (incF s R.PWR_ANCHOR_STATUS F.PWR_ANCHOR_STATUS_REFUSALS 1) R.PWR_ANCHOR_STATUS F.PWR_ANCHOR_STATUS_REFUSE_REASON n

theorem onlyListed_refusalShown (s : State) (n : Nat) : OnlyListed [R.PWR_ANCHOR_STATUS] s (refusalShown s n) :=
  ((onlyListed_refl _ s).setF_mem _ _ (List.mem_singleton.2 rfl)).setF_mem _ _ (List.mem_singleton.2 rfl)

theorem onlyLog_refuseAnchor (s : State) (n : Nat) : OnlyLog (refusalShown s n) (refuseAnchor s n) := onlyLog_tellBluvisen _ _ _

theorem refuseReason_refuseAnchor {s : State} (hs : mapSorted s.regs = true) {n : Nat} (hn : n < 16) :
    getF (refuseAnchor s n) R.PWR_ANCHOR_STATUS F.PWR_ANCHOR_STATUS_REFUSE_REASON = n := by
  rw [getF_of_onlyRegs (onlyLog_refuseAnchor s n).1 _ (by decide), refusalShown, incF, getF_setF_same (setF_sorted hs _ _ _) _ _ _ (by decide) (by decide)]
  exact Nat.mod_eq_of_lt hn

theorem anchorState_refuseAnchor {s : State} (hs : mapSorted s.regs = true) (n : Nat) : anchorState (refuseAnchor s n) = anchorState s := by
  rw [anchorState, anchorState, getF_of_onlyRegs (onlyLog_refuseAnchor s n).1 _ (by decide), refusalShown, incF, getF_setF_field (setF_sorted hs _ _ _) _ _ _ _ (by decide) (by decide) (by decide),
    getF_setF_field hs _ _ _ _ (by decide) (by decide) (by decide)]

theorem refuseAnchor_mem (s : State) (n : Nat) : (refuseAnchor s n).mem = s.mem := by
  rw [mem_of_onlyLog (onlyLog_refuseAnchor s n), (onlyListed_refusalShown s n).2]

theorem pwr_of_onlyLog {s t : State} (h : OnlyLog s t) : t.pwr = s.pwr := by rw [h.2]

theorem refuseAnchor_pwr (s : State) (n : Nat) : (refuseAnchor s n).pwr = s.pwr := by
  rw [pwr_of_onlyLog (onlyLog_refuseAnchor s n), (onlyListed_refusalShown s n).2]

/-- What a dropped order leaves: AWAKE, no order, and its reason shown. -/
theorem dropAnchor_shows {s : State} (hs : mapSorted s.regs = true) {n : Nat} (hn : n < 16) :
    anchorState (dropAnchor s n) = 0 ∧ (dropAnchor s n).pwr.order = none ∧ getF (dropAnchor s n) R.PWR_ANCHOR_STATUS F.PWR_ANCHOR_STATUS_REFUSE_REASON = n ∧ (dropAnchor s n).mem = s.mem := by
  unfold dropAnchor
  generalize hu : ({ s with pwr := { s.pwr with order := none, wakeAsked := false } } : State) = u
  have hregs : u.regs = s.regs := by rw [← hu]
  have horder : u.pwr.order = none := by rw [← hu]
  have hmem : u.mem = s.mem := by rw [← hu]
  have hsu : mapSorted u.regs = true := by rw [hregs]; exact hs
  have hsorted : mapSorted (setAnchor u 0).regs = true := setF_sorted hsu _ _ _
  refine ⟨?_, ?_, refuseReason_refuseAnchor hsorted hn, ?_⟩
  · rw [anchorState_refuseAnchor hsorted, anchorState_setAnchor hsu (by decide)]
  · rw [refuseAnchor_pwr, (onlyListed_setAnchor u 0).2, horder]
  · rw [refuseAnchor_mem, (onlyListed_setAnchor u 0).2, hmem]

/-! #### The order and its beat -/

theorem anchorRefusal_lt {s : State} {o : AnchorOrder} {n : Nat} (h : anchorRefusal s o = some n) : n < 16 := by
  unfold anchorRefusal at h
  split at h
  · cases h; decide
  split at h
  · cases h; decide
  split at h
  · cases h; decide
  split at h
  · cases h; decide
  · cases h

theorem enterRefusal_lt {s : State} {n : Nat} (h : enterRefusal s = some n) : n < 16 := by
  unfold enterRefusal at h
  split at h
  · cases h; decide
  split at h
  · cases h; decide
  · cases h

/-- An order kept in place of an earlier one. -/
def orderKept (s : State) (o : AnchorOrder) : State := { s with pwr := { s.pwr with order := some (o.enterBeat, o.wakeBeat), lastOrder := o.orderId, wakeAsked := false } }

/-- The beats of an order shown, and its state. -/
def orderShown (s : State) (o : AnchorOrder) : State :=
  setAnchor (setF (setF s R.PWR_ANCHOR_ENTER F.PWR_ANCHOR_ENTER_BEAT o.enterBeat) R.PWR_ANCHOR_WAKE F.PWR_ANCHOR_WAKE_BEAT o.wakeBeat) 1

theorem onlyListed_orderShown (s : State) (o : AnchorOrder) : OnlyListed [R.PWR_ANCHOR_ENTER, R.PWR_ANCHOR_WAKE, R.PWR_ANCHOR_STATUS] s (orderShown s o) :=
  (((onlyListed_refl _ s).setF_mem _ _ (by simp)).setF_mem _ _ (by simp)).setF_mem _ _ (by simp)

theorem anchorState_orderShown {s : State} (hs : mapSorted s.regs = true) (o : AnchorOrder) : anchorState (orderShown s o) = 1 :=
  anchorState_setAnchor (setF_sorted (setF_sorted hs _ _ _) _ _ _) (by decide)

theorem exec_anchorOrder {s : State} (o : AnchorOrder) (hon : bluvisenOn s = true) (hstate : anchorState s ≤ 2) :
    exec (.anchorOrder o) s = .next (match anchorRefusal s o with | some n => refuseAnchor s n | none => orderShown (orderKept s o) o) := by
  show execAnchorOrder o s = _
  rw [execAnchorOrder, done_onlyIf (by simp [hon, hstate])] <;> rfl

theorem anchorOrder_completes {s : State} (o : AnchorOrder) (h : Inv s) (hon : bluvisenOn s = true) (hstate : anchorState s ≤ 2) :
    Completes (.anchorOrder o) s fun t => t.mem = s.mem ∧ match anchorRefusal s o with
      | some n => getF t R.PWR_ANCHOR_STATUS F.PWR_ANCHOR_STATUS_REFUSE_REASON = n ∧ anchorState t = anchorState s ∧ t.pwr = s.pwr
      | none => anchorState t = 1 ∧ t.pwr = { s.pwr with order := some (o.enterBeat, o.wakeBeat), lastOrder := o.orderId, wakeAsked := false } := by
  have hs : mapSorted s.regs = true := (stays_of_inv h).regs.1
  have hexec := exec_anchorOrder o hon hstate
  refine ⟨_, hexec, ?_⟩
  cases hrefusal : anchorRefusal s o with
  | some n =>
    exact ⟨refuseAnchor_mem s n, refuseReason_refuseAnchor hs (anchorRefusal_lt hrefusal), anchorState_refuseAnchor hs n, refuseAnchor_pwr s n⟩
  | none =>
    have hkept : mapSorted (orderKept s o).regs = true := hs
    refine ⟨?_, anchorState_orderShown hkept o, ?_⟩
    · show (orderShown (orderKept s o) o).mem = _
      rw [(onlyListed_orderShown _ o).2, orderKept]
    · show (orderShown (orderKept s o) o).pwr = _
      rw [(onlyListed_orderShown _ o).2, orderKept]

theorem exec_anchorEnterBeat {s : State} {a b : Nat} (horder : s.pwr.order = some (a, b)) (hstate : anchorState s = 1) (hbeat : a ≤ beatNow s) :
    exec .anchorEnterBeat s = .next (match enterRefusal s with | some n => dropAnchor s n | none => setAnchor s 2) := by
  show execAnchorEnterBeat s = _
  rw [execAnchorEnterBeat, horder]
  dsimp only
  rw [done_onlyIf (by simp [hstate, hbeat])] <;> rfl

theorem anchorEnterBeat_completes {s : State} {a b : Nat} (h : Inv s) (horder : s.pwr.order = some (a, b)) (hstate : anchorState s = 1) (hbeat : a ≤ beatNow s) :
    Completes .anchorEnterBeat s fun t => t.mem = s.mem ∧ match enterRefusal s with
      | some n => anchorState t = 0 ∧ t.pwr.order = none ∧ getF t R.PWR_ANCHOR_STATUS F.PWR_ANCHOR_STATUS_REFUSE_REASON = n
      | none => anchorState t = 2 ∧ OnlyRegs [R.PWR_ANCHOR_STATUS] s t ∧ t = { s with regs := t.regs } := by
  have hs : mapSorted s.regs = true := (stays_of_inv h).regs.1
  have hexec := exec_anchorEnterBeat horder hstate hbeat
  refine ⟨_, hexec, ?_⟩
  cases hrefusal : enterRefusal s with
  | some n =>
    obtain ⟨hawake, hnone, hreason, hmem⟩ := dropAnchor_shows hs (enterRefusal_lt hrefusal)
    exact ⟨hmem, hawake, hnone, hreason⟩
  | none =>
    obtain ⟨hregs, hrest⟩ := onlyListed_setAnchor s 2
    exact ⟨by show (setAnchor s 2).mem = _; rw [hrest], anchorState_setAnchor hs (by decide), hregs, hrest⟩

/-! #### Entry and wake -/

/-- The steps of entry before the state is shown (R644). -/
def anchorHeld (s : State) : State :=
  let s := dropFabric (darkPorts (restPorts s))
  let s := holdRings s
  let s := (List.range 8).foldl (fun s k => if getF s (R.HBM_STACK_STATUS k) F.HBM_STACK_STATUS_STATE == 2 then setF s (R.HBM_STACK_STATUS k) F.HBM_STACK_STATUS_STATE 3 else s) s
  let s := [2, 3, 15, 16].foldl domainHold s
  let s := [19, 5, 6, 7, 8, 9, 10, 11, 12, 17, 13, 14, 18, 4, 1].foldl domainOff s
  pilotCheck s

theorem anchorHeld_stays {q : List Instr} {n : Nat} {M : List Host.Cell → Prop} {s : State} (h : Stays q n M s) : Stays q n M (anchorHeld s) := by
  have hrest := holdRings_stays (dropFabric_stays (darkPorts_stays (restPorts_stays h)))
  unfold anchorHeld
  refine pilotCheck_stays (stays_foldl (stays_foldl (stays_foldl hrest fun u k hu => ?_) fun _ _ hu => domainHold_stays hu) fun _ _ hu => domainOff_stays hu)
  exact stays_ite (setF_stays hu) hu

/-- The module shown as ANCHORED, its entries counted. -/
def anchoredShown (s : State) : State := incF (setAnchor s 3) R.PWR_ANCHOR_STATUS F.PWR_ANCHOR_STATUS_ENTRIES 1

theorem anchorState_anchoredShown {s : State} (hs : mapSorted s.regs = true) : anchorState (anchoredShown s) = 3 := by
  have hsorted : mapSorted (setAnchor s 3).regs = true := setF_sorted hs _ _ _
  rw [anchoredShown, anchorState, incF, getF_setF_field hsorted _ _ _ _ (by decide) (by decide) (by decide)]
  exact anchorState_setAnchor hs (by decide)

theorem enterAnchor_eq (s : State) : enterAnchor s = noteAt (anchoredShown (anchorHeld s)) (srcOf 0 0) 0x07 clsInfo := by
  unfold enterAnchor anchoredShown anchorHeld
  rfl

theorem anchorState_enterAnchor {s : State} (h : Inv s) : anchorState (enterAnchor s) = 3 := by
  have hs : mapSorted (anchorHeld s).regs = true := (anchorHeld_stays (stays_of_inv h)).regs.1
  rw [enterAnchor_eq, anchorState, getF_of_onlyRegs (onlyLog_noteAt _ _ _ _).1 _ (by decide)]
  exact anchorState_anchoredShown hs

theorem anchorEntry_enters {s : State} {a b : Nat} (h : Inv s) (horder : s.pwr.order = some (a, b)) (hstate : anchorState s = 2) (hbeat : beatNow s ≤ a + 64)
    (hready : entryReady s = true) : Completes .anchorEntry s fun t => t = enterAnchor s ∧ anchorState t = 3 := by
  refine ⟨enterAnchor s, ?_, rfl, anchorState_enterAnchor h⟩
  show execAnchorEntry s = _
  rw [execAnchorEntry, horder]
  dsimp only
  rw [done_onlyIf (by simp [hstate, hbeat, hready])]

theorem anchorEntryTimeout_drops {s : State} {a b : Nat} (h : Inv s) (horder : s.pwr.order = some (a, b)) (hstate : anchorState s = 2) (hbeat : a + 64 ≤ beatNow s)
    (hready : entryReady s = false) : Completes .anchorEntryTimeout s fun t =>
      anchorState t = 0 ∧ t.pwr.order = none ∧ getF t R.PWR_ANCHOR_STATUS F.PWR_ANCHOR_STATUS_REFUSE_REASON = 6 ∧ t.mem = s.mem := by
  refine ⟨dropAnchor s 6, ?_, dropAnchor_shows (stays_of_inv h).regs.1 (by decide)⟩
  show execAnchorEntryTimeout s = _
  rw [execAnchorEntryTimeout, horder]
  dsimp only
  rw [done_onlyIf (by simp [hstate, hbeat, hready])]

theorem exec_wake_anchored {s : State} (o : Option (Bytes × Bytes)) (x : BringUp) (hstate : anchorState s = 3) (hwake : s.pwr.wakeAsked = true ∨ wakeBegun s = true) :
    exec (.wake o x) s = .next (wakeUp s x) := by
  show execWake o x s = _
  rw [execWake]
  dsimp only
  rw [hstate, if_neg (by decide)]
  exact done_onlyIf (by rcases hwake with h | h <;> simp [h])

theorem exec_wake_entering {s : State} (o : Option (Bytes × Bytes)) (x : BringUp) (hstate : anchorState s = 2) :
    exec (.wake o x) s = .next (if wakeSigned s o then { s with pwr := { s.pwr with wakeAsked := true } } else s) := by
  show execWake o x s = _
  rw [execWake]
  dsimp only
  rw [hstate, if_pos (by decide), done]

/-- Settles O23: each Anchor command by the branch it takes, with the state shown after it. The order of the refusal reasons and a further order in ENTERING are as assumption log 97 reads them,
a signed wake that takes effect when entry ends as log 98 does (both DEDUCED). -/
theorem anchorAndWake : Obligations.AnchorAndWake := by
  unfold Obligations.AnchorAndWake
  exact ⟨fun s o h hon hstate => anchorOrder_completes o h hon hstate, fun s a b h horder hstate hbeat => anchorEnterBeat_completes h horder hstate hbeat,
    fun s a b h horder hstate hbeat hready => anchorEntry_enters h horder hstate hbeat hready, fun s a b h horder hstate hbeat hready => anchorEntryTimeout_drops h horder hstate hbeat hready,
    fun s o x hstate hwake => exec_wake_anchored o x hstate hwake, fun s o x hstate => exec_wake_entering o x hstate⟩

end Sys2Proof.Machine
end

section
/-! ### Domains that fail and supplies (21 R631, 22 R668, R675) -/
namespace Sys2Proof.Machine

theorem exec_powerDomainFail_core {s : State} (h : pdState s 0 ≠ 0) : exec (.powerDomainFail 0) s = .next (coldReset s false) := by
  show execPowerDomainFail 0 s = _
  rw [execPowerDomainFail, done_onlyIf (by simp [h]), if_pos rfl]

/-- A failed domain shown and entered in the logbook. -/
def failureShown (s : State) (d : Nat) : State := note (setBitF s R.PWR_DOMAIN_FAULT F.PWR_DOMAIN_FAULT_FAILED d true) (srcOf 0 0) 0x07 clsInfo d s.boot.stage 0

theorem exec_powerDomainFail {s : State} {d : Nat} (h0 : 0 < d) (hd : d < 20) (h : pdState s d ≠ 0) :
    exec (.powerDomainFail d) s = .next (domainAct (domainOff (failureShown s d) d) d) := by
  have hstage : (setBitF s R.PWR_DOMAIN_FAULT F.PWR_DOMAIN_FAULT_FAILED d true).boot.stage = s.boot.stage := by rw [setBitF_boot]
  show execPowerDomainFail d s = _
  rw [execPowerDomainFail, done_onlyIf (by simp [h, hd]), if_neg (by omega)]
  dsimp only
  rw [hstage, failureShown]

theorem onlyLog_failureShown (s : State) (d : Nat) : OnlyLog (setBitF s R.PWR_DOMAIN_FAULT F.PWR_DOMAIN_FAULT_FAILED d true) (failureShown s d) := onlyLog_logEvent _ _ _ _ _ _ _

/-- A stack of the HBM shown as failed, after others. -/
def stacksFailed (s : State) (l : List Nat) : State := l.foldl (fun s k => setF s (R.HBM_STACK_STATUS k) F.HBM_STACK_STATUS_STATE 4) s

theorem stacksFailed_concat (s : State) (l : List Nat) (k : Nat) : stacksFailed s (l ++ [k]) = setF (stacksFailed s l) (R.HBM_STACK_STATUS k) F.HBM_STACK_STATUS_STATE 4 := by
  rw [stacksFailed, List.foldl_append]
  rfl

theorem stacksFailed_sorted {s : State} (hs : mapSorted s.regs = true) (l : List Nat) : mapSorted (stacksFailed s l).regs = true :=
  List.foldlRecOn (motive := fun t : State => mapSorted t.regs = true) l _ hs fun _ ht _ _ => setF_sorted ht _ _ _

theorem stacksFailed_mem (s : State) (l : List Nat) : (stacksFailed s l).mem = s.mem := foldl_leaves State.mem (fun _ _ => setF_mem _ _ _ _) s l

theorem rd_stacksFailed_other (s : State) (l : List Nat) {a : Nat} (ha : ∀ k, a ≠ R.HBM_STACK_STATUS k) : rd (stacksFailed s l) a = rd s a :=
  foldl_leaves (fun t => rd t a) (fun _ k => rd_setF_other _ _ _ (ha k)) s l

theorem getF_stacksFailed {s : State} (hs : mapSorted s.regs = true) {l : List Nat} {k : Nat} (hk : k ∈ l) :
    getF (stacksFailed s l) (R.HBM_STACK_STATUS k) F.HBM_STACK_STATUS_STATE = 4 := by
  induction l using List.reverseRecOn with
  | nil => cases hk
  | append_singleton l j ih =>
    rw [stacksFailed_concat]
    by_cases hj : R.HBM_STACK_STATUS k = R.HBM_STACK_STATUS j
    · rw [hj, getF_setF_same (stacksFailed_sorted hs l) _ _ _ (by decide) (by decide)]
      rfl
    · rw [getF_setF_other _ _ _ _ hj]
      refine ih ((List.mem_append.1 hk).resolve_right fun h => hj ?_)
      rw [List.mem_singleton.1 h]

theorem domainAct_stacks {s : State} {d : Nat} (hd : d = 2 ∨ d = 3) : domainAct s d = stacksFailed s ((List.range 4).map fun i => (d - 2) * 4 + i) := by
  rw [domainAct, if_neg (by omega), if_pos (by simp [hd]), stacksFailed]

theorem onlyListed_domainOff {s : State} {d i : Nat} (hloop : loopOfDomain d = some i) : OnlyListed [R.PWR_DOMAIN_STATE, R.CLK_LOOP i] s (domainOff s d) := by
  have hoff : domainOff s d = stopLoop (setPd s d 0) i := by rw [domainOff, hloop]
  rw [hoff, stopLoop, setPd]
  exact (((onlyListed_refl _ s).wr_mem _ (by simp)).setF_mem _ _ (by simp)).setF_mem _ _ (by simp)

theorem pdState_domainOff {s : State} (hs : mapSorted s.regs = true) {d i : Nat} (hd : 2 * d + 1 < 64) (hloop : loopOfDomain d = some i) (hi : R.PWR_DOMAIN_STATE ≠ R.CLK_LOOP i) :
    pdState (domainOff s d) d = 0 := by
  have hoff : domainOff s d = stopLoop (setPd s d 0) i := by rw [domainOff, hloop]
  have hrd : rd (stopLoop (setPd s d 0) i) R.PWR_DOMAIN_STATE = rd (setPd s d 0) R.PWR_DOMAIN_STATE := (rd_setF_other _ _ _ hi).trans (rd_setF_other _ _ _ hi)
  rw [hoff, pdState, hrd, setPd, rd_wr_same hs]
  exact (fld_setFld_same _ _ (by omega) hd).trans (Nat.zero_mod _)

theorem failureShown_sorted {s : State} (h : Inv s) (d : Nat) : mapSorted (failureShown s d).regs = true := (note_stays (setBitF_stays (stays_of_inv h))).regs.1

/-- The loop of a domain of HBM stacks, and that no register of the loops or stacks is one of the domains. -/
theorem stackDomain_apart {d : Nat} (hd : d = 2 ∨ d = 3) : ∃ i, loopOfDomain d = some i ∧ R.PWR_DOMAIN_STATE ≠ R.CLK_LOOP i ∧ R.PWR_DOMAIN_FAULT ≠ R.CLK_LOOP i := by
  rcases hd with rfl | rfl
  · exact ⟨5, rfl, by decide, by decide⟩
  · exact ⟨6, rfl, by decide, by decide⟩

theorem powerDomainFail_stacks {s : State} {d k : Nat} (h : Inv s) (hd : d = 2 ∨ d = 3) (hon : pdState s d ≠ 0) (hk : k < 4) : Completes (.powerDomainFail d) s fun t =>
    bitF t R.PWR_DOMAIN_FAULT F.PWR_DOMAIN_FAULT_FAILED d = true ∧ pdState t d = 0 ∧ getF t (R.HBM_STACK_STATUS ((d - 2) * 4 + k)) F.HBM_STACK_STATUS_STATE = 4 ∧ t.mem = s.mem := by
  have hs : mapSorted s.regs = true := (stays_of_inv h).regs.1
  have hd19 : d < 19 := by omega
  obtain ⟨i, hloop, hstate, hfault⟩ := stackDomain_apart hd
  have hexec := exec_powerDomainFail (by omega) (by omega) hon
  rw [domainAct_stacks hd] at hexec
  have hshown := failureShown_sorted h d
  have hbit : bitF (failureShown s d) R.PWR_DOMAIN_FAULT F.PWR_DOMAIN_FAULT_FAILED d = true := by
    rw [bitF, getF_of_onlyRegs (onlyLog_failureShown s d).1 _ (by decide)]
    exact bitF_setBitF_same hs _ _ _ (by decide) (by simp only [F.PWR_DOMAIN_FAULT_FAILED]; omega)
  have hmem : (failureShown s d).mem = s.mem := by rw [mem_of_onlyLog (onlyLog_failureShown s d), setBitF_mem]
  generalize failureShown s d = u at hexec hshown hbit hmem
  obtain ⟨hregs, hrest⟩ := onlyListed_domainOff (s := u) hloop
  have hoff : pdState (domainOff u d) d = 0 := pdState_domainOff hshown (by omega) hloop hstate
  have hsorted : mapSorted (domainOff u d).regs = true := by
    rw [domainOff, hloop]
    exact setF_sorted (setF_sorted (wr_sorted hshown _ _) _ _ _) _ _ _
  have hstackFault : ∀ k, R.PWR_DOMAIN_FAULT ≠ R.HBM_STACK_STATUS k := fun k => by unfold R.PWR_DOMAIN_FAULT R.HBM_STACK_STATUS; omega
  have hstackState : ∀ k, R.PWR_DOMAIN_STATE ≠ R.HBM_STACK_STATUS k := fun k => by unfold R.PWR_DOMAIN_STATE R.HBM_STACK_STATUS; omega
  refine ⟨_, hexec, ?_, ?_, getF_stacksFailed hsorted (List.mem_map.2 ⟨k, List.mem_range.2 hk, rfl⟩), ?_⟩
  · rw [bitF, getF, rd_stacksFailed_other _ _ hstackFault, ← getF, getF_of_onlyRegs hregs _ (by simp only [List.mem_cons, List.not_mem_nil, or_false, not_or]; exact ⟨by decide, hfault⟩)]
    exact hbit
  · rw [pdState, rd_stacksFailed_other _ _ hstackState]
    exact hoff
  · rw [stacksFailed_mem, hrest, hmem]

/-! #### The input supply -/

/-- What a supply fault saves before everything is switched off. -/
def faultSaved (s : State) : State := saveRated (account (noteAt s (srcOf 0 0) 0x07 clsOut))

/-- The state with its supply off. -/
def supplyGone (s : State) : State := { s with pwr := { s.pwr with supplyOff := true } }

/-- What an account of the rated time may touch: the registers and the power state. -/
def OnlyRated (s t : State) : Prop := t = { s with regs := t.regs, pwr := t.pwr }

theorem OnlyRated.trans {s t u : State} (h : OnlyRated s t) (k : OnlyRated t u) : OnlyRated s u := by
  unfold OnlyRated at *
  rw [k, h]

theorem onlyRated_pwr (s : State) (p : Power) : OnlyRated s { s with pwr := p } := rfl

theorem onlyRated_incF (s : State) (a : Nat) (f : RF) (d : Nat) : OnlyRated s (incF s a f d) := rfl

/-- The account leaves all but the registers and the power state, and of that whether the module has tripped. -/
theorem account_keeps (s : State) : OnlyRated s (account s) ∧ (account s).pwr.tripped = s.pwr.tripped := by
  unfold account
  lift_lets
  intro d cls p u
  have hu : OnlyRated s u ∧ u.pwr.tripped = s.pwr.tripped := ⟨onlyRated_pwr s _, rfl⟩
  clear_value u
  obtain ⟨hrated, htripped⟩ := hu
  split
  · exact ⟨hrated, htripped⟩
  split
  · exact ⟨(hrated.trans (onlyRated_pwr u _)).trans (onlyRated_incF _ _ _ _), by rw [incF_pwr, htripped]⟩
  split
  · exact ⟨(hrated.trans (onlyRated_pwr u _)).trans (onlyRated_incF _ _ _ _), by rw [incF_pwr, htripped]⟩
  · exact ⟨hrated, htripped⟩

theorem faultSaved_image (s : State) : (faultSaved s).flash.image = s.flash.image := by
  have hsaved : ∀ t, (saveRated t).flash.image = t.flash.image := fun _ => rfl
  rw [faultSaved, hsaved, (account_keeps _).1, (onlyLog_noteAt s (srcOf 0 0) 0x07 clsOut).2]

theorem supplyFault_ends {s : State} {v us : Nat} (hsupply : s.pwr.supplyOff = false) (hstage : 1 ≤ s.boot.stage) (hbad : supplyBad v us = true) : Completes (.supplyFault v us) s fun t =>
    t.pwr.supplyOff = true ∧ t.mem = [] ∧ t.boot.stage = 0 ∧ flagF t R.PWR_INPUT F.PWR_INPUT_SUPPLY_FAULT = true ∧ t.flash.image = s.flash.image := by
  have hexec : exec (.supplyFault v us) s = .next (coldReset (supplyGone (faultSaved s)) true) := by
    show execSupplyFault v us s = _
    rw [execSupplyFault, done_onlyIf (by simp [hsupply, hstage, hbad])]
    rfl
  have hoff : (supplyGone (faultSaved s)).pwr.supplyOff = true := rfl
  have himage : (supplyGone (faultSaved s)).flash.image = s.flash.image := faultSaved_image s
  generalize supplyGone (faultSaved s) = u at hexec hoff himage
  exact ⟨_, hexec, by rw [coldReset_supplyOff, hoff], coldReset_mem u true, coldReset_stage u true, by rw [supplyFault_coldReset, hoff], by rw [coldReset_flash, himage]⟩

theorem exec_supplyRecovery {s : State} {v : Nat} (hsupply : s.pwr.supplyOff = true) (hlow : 46000 ≤ v) (hhigh : v ≤ 60000) :
    exec (.supplyRecovery v) s = .next { s with pwr := { s.pwr with supplyOff := false } } := by
  show execSupplyRecovery v s = _
  rw [execSupplyRecovery, done_onlyIf (by simp [hsupply, hlow, hhigh])]

/-! #### The blade pairs -/

/-- A blade pair shown as present or not, with the supply's SINGLE_FEED. -/
def pairShown (s : State) (b : Bool) (present single : Nat) : State := setF (setF s R.PWR_INPUT (feedBit b) present) R.PWR_INPUT F.PWR_INPUT_SINGLE_FEED single

theorem onlyListed_pairShown (s : State) (b : Bool) (present single : Nat) : OnlyListed [R.PWR_INPUT] s (pairShown s b present single) :=
  ((onlyListed_refl _ s).setF_mem _ _ (List.mem_singleton.2 rfl)).setF_mem _ _ (List.mem_singleton.2 rfl)

/-- The bits of the two pairs are apart, and each is one bit below SINGLE_FEED. -/
theorem feedBit_apart (b : Bool) : (feedBit b).hi = (feedBit b).lo ∧ (feedBit b).hi < 3 ∧ ((feedBit b).hi < (feedBit (!b)).lo ∨ (feedBit (!b)).hi < (feedBit b).lo) := by
  cases b <;> decide

theorem feed_pairShown {s : State} (hs : mapSorted s.regs = true) (b : Bool) {present : Nat} (hp : present < 2) (single : Nat) : getF (pairShown s b present single) R.PWR_INPUT (feedBit b) = present := by
  obtain ⟨hbit, hlow, -⟩ := feedBit_apart b
  have hsingle : F.PWR_INPUT_SINGLE_FEED.lo = 3 := rfl
  rw [pairShown, getF_setF_field (setF_sorted hs _ _ _) _ _ _ _ (by decide) (by decide) (by omega), getF_setF_same hs _ _ _ (by omega) (by omega), hbit, Nat.add_sub_cancel_left]
  exact Nat.mod_eq_of_lt hp

theorem otherFeed_pairShown {s : State} (hs : mapSorted s.regs = true) (b : Bool) (present single : Nat) :
    getF (pairShown s b present single) R.PWR_INPUT (feedBit (!b)) = getF s R.PWR_INPUT (feedBit (!b)) := by
  obtain ⟨hbit, hlow, hapart⟩ := feedBit_apart b
  obtain ⟨-, hother, -⟩ := feedBit_apart (!b)
  have hsingle : F.PWR_INPUT_SINGLE_FEED.lo = 3 := rfl
  rw [pairShown, getF_setF_field (setF_sorted hs _ _ _) _ _ _ _ (by decide) (by decide) (by omega), getF_setF_field hs _ _ _ _ (by omega) (by omega) (by omega)]

theorem singleFeed_pairShown {s : State} (hs : mapSorted s.regs = true) (b : Bool) (present : Nat) {single : Nat} (hp : single < 2) :
    getF (pairShown s b present single) R.PWR_INPUT F.PWR_INPUT_SINGLE_FEED = single := by
  rw [pairShown, getF_setF_same (setF_sorted hs _ _ _) _ _ _ (by decide) (by decide)]
  exact Nat.mod_eq_of_lt hp

theorem feeds_on {s : State} (ha : flagF s R.PWR_INPUT F.PWR_INPUT_FEED_A = true) (hb : flagF s R.PWR_INPUT F.PWR_INPUT_FEED_B = true) (b : Bool) : flagF s R.PWR_INPUT (feedBit b) = true := by
  cases b
  · exact ha
  · exact hb

theorem singleFeed_shows {s : State} {b : Bool} (h : Inv s) (hstage : 1 ≤ s.boot.stage) (hthis : flagF s R.PWR_INPUT (feedBit b) = true) (hother : flagF s R.PWR_INPUT (feedBit (!b)) = true) :
    Completes (.singleFeed b) s fun t =>
      flagF t R.PWR_INPUT (feedBit b) = false ∧ flagF t R.PWR_INPUT (feedBit (!b)) = true ∧ flagF t R.PWR_INPUT F.PWR_INPUT_SINGLE_FEED = true ∧ t.mem = s.mem := by
  have hs : mapSorted s.regs = true := (stays_of_inv h).regs.1
  have hexec : exec (.singleFeed b) s = .next (tellBluvisen (noteAt (pairShown s b 0 1) (srcOf 0 0) 0x07 clsInfo) 668 [b2n b]) := by
    show execSingleFeed b s = _
    rw [execSingleFeed, done_onlyIf (by simp [hstage, hthis, hother])]
    rfl
  have hlog : OnlyLog (pairShown s b 0 1) (tellBluvisen (noteAt (pairShown s b 0 1) (srcOf 0 0) 0x07 clsInfo) 668 [b2n b]) := (onlyLog_noteAt _ _ _ _).trans (onlyLog_tellBluvisen _ _ _)
  have hkept : ∀ f, flagF (tellBluvisen (noteAt (pairShown s b 0 1) (srcOf 0 0) 0x07 clsInfo) 668 [b2n b]) R.PWR_INPUT f = flagF (pairShown s b 0 1) R.PWR_INPUT f := fun f =>
    flagF_of_onlyRegs hlog.1 f (by decide)
  refine ⟨_, hexec, ?_, ?_, ?_, ?_⟩
  · rw [hkept, flagF, feed_pairShown hs b (by decide)]
    rfl
  · rw [hkept, flagF, otherFeed_pairShown hs, ← flagF, hother]
  · rw [hkept, flagF, singleFeed_pairShown hs b 0 (by decide)]
    rfl
  · rw [mem_of_onlyLog hlog, (onlyListed_pairShown s b 0 1).2]

theorem bladePairRestored_shows {s : State} {b : Bool} (h : Inv s) (hstage : 1 ≤ s.boot.stage) (hthis : flagF s R.PWR_INPUT (feedBit b) = false) (hother : flagF s R.PWR_INPUT (feedBit (!b)) = true) :
    Completes (.bladePairRestored b) s fun t =>
      flagF t R.PWR_INPUT (feedBit b) = true ∧ flagF t R.PWR_INPUT F.PWR_INPUT_SINGLE_FEED = false ∧ OnlyRegs [R.PWR_INPUT] s t ∧ t = { s with regs := t.regs } := by
  have hs : mapSorted s.regs = true := (stays_of_inv h).regs.1
  have hexec : exec (.bladePairRestored b) s = .next (pairShown s b 1 0) := by
    show execBladePairRestored b s = _
    rw [execBladePairRestored, done_onlyIf (by simp [hstage, hthis, hother]), pairShown]
  refine ⟨_, hexec, ?_, ?_, onlyListed_pairShown s b 1 0⟩
  · rw [flagF, feed_pairShown hs b (by decide)]
    rfl
  · rw [flagF, singleFeed_pairShown hs b 1 (by decide)]
    rfl

theorem thermalTripRecovery_resets {s : State} {n : Nat} (hcool : s.pwr.coolSince = some n) (htrip : s.pwr.tripped = true) (hlong : n + 10000000000 ≤ s.now) :
    Completes .thermalTripRecovery s fun t => t = coldReset (account s) s.pwr.outExcluded ∧ flagF t R.PWR_THERMAL F.PWR_THERMAL_THERMAL_TRIP = true ∧ t.boot.stage = 0 := by
  refine ⟨coldReset (account s) s.pwr.outExcluded, ?_, rfl, ?_, coldReset_stage _ _⟩
  · show execThermalTripRecovery s = _
    rw [execThermalTripRecovery, hcool]
    dsimp only
    rw [done_onlyIf (by simp [htrip, hlong])]
  · obtain ⟨-, htripped⟩ := account_keeps s
    rw [thermalTrip_coldReset, htripped, htrip]

/-- Settles O24. A failed PD0 is a cold reset, and a failed domain's NOTE entry has the class log 99 gives it; SUPPLY_FAULT and THERMAL_TRIP outlast the reset as log 86 reads R679 and R681;
the order of a supply fault's steps is log 101's (all DEDUCED). -/
theorem suppliesAndDomains : Obligations.SuppliesAndDomains := by
  unfold Obligations.SuppliesAndDomains
  exact ⟨fun s h => ⟨_, exec_powerDomainFail_core h, rfl, coldReset_mem s false, coldReset_stage s false⟩, fun s d k h hd hon hk => powerDomainFail_stacks h hd hon hk,
    fun s d h0 hd hon => exec_powerDomainFail h0 hd hon, fun s v us hsupply hstage hbad => supplyFault_ends hsupply hstage hbad,
    fun s v hsupply hlow hhigh => exec_supplyRecovery hsupply hlow hhigh, fun s b h hstage ha hb => singleFeed_shows h hstage (feeds_on ha hb b) (feeds_on ha hb (!b)),
    fun s b h hstage hthis hother => bladePairRestored_shows h hstage hthis hother, fun s n hcool htrip hlong => thermalTripRecovery_resets hcool htrip hlong⟩

end Sys2Proof.Machine
end

section
/-! ### Clocks, the power cap and the slow buses (21 R634 to R638, 22 R665 to R670) -/
namespace Sys2Proof.Machine

/-- A measured offset of a crystal input shown. -/
theorem onlyListed_showPpm (s : State) (f : RF) (p : Option Int) : OnlyListed [R.CLK_XIN_STATUS] s (showPpm s f p) := by
  cases p with
  | none => exact onlyListed_refl _ s
  | some v => exact (onlyListed_refl _ s).setF_mem _ _ (List.mem_singleton.2 rfl)

theorem showPpm_sorted {s : State} (hs : mapSorted s.regs = true) (f : RF) (p : Option Int) : mapSorted (showPpm s f p).regs = true := by
  cases p with
  | none => exact hs
  | some v => exact setF_sorted hs _ _ _

/-- The loops of the management core and the security island take another reference. -/
theorem onlyListed_moveLoops (s : State) : OnlyListed [R.CLK_LOOP 10, R.CLK_LOOP 11] s (moveLoops s) := by
  rw [moveLoops, List.foldl_cons, List.foldl_cons, List.foldl_nil]
  exact ((onlyListed_refl _ s).setF_mem _ _ (by simp)).setF_mem _ _ (by simp)

theorem onlyLog_loseXinA (s : State) : OnlyLog (moveLoops (setF s R.CLK_XIN_STATUS F.CLK_XIN_STATUS_XIN_A_LOST 1)) (loseXinA s) := (onlyLog_noteAt _ _ _ _).trans (onlyLog_tellBluvisen _ _ _)

theorem xinALost_shows {s : State} {p : Option Int} (h : Inv s) (hstage : 1 ≤ s.boot.stage) (hlost : xinLost p = true) (hnew : flagF s R.CLK_XIN_STATUS F.CLK_XIN_STATUS_XIN_A_LOST = false) :
    Completes (.xinALost p) s fun t => flagF t R.CLK_XIN_STATUS F.CLK_XIN_STATUS_XIN_A_LOST = true ∧ t.mem = s.mem := by
  have hexec : exec (.xinALost p) s = .next (loseXinA (showPpm s F.CLK_XIN_STATUS_XIN_A_PPM p)) := by
    show execXinALost p s = _
    rw [execXinALost, done_onlyIf (by simp [hstage, hlost, hnew])]
  have hs := showPpm_sorted (stays_of_inv h).regs.1 F.CLK_XIN_STATUS_XIN_A_PPM p
  have hmem : (showPpm s F.CLK_XIN_STATUS_XIN_A_PPM p).mem = s.mem := by rw [(onlyListed_showPpm s _ p).2]
  generalize showPpm s F.CLK_XIN_STATUS_XIN_A_PPM p = u at hexec hs hmem
  have hlog := onlyLog_loseXinA u
  have hmoved := onlyListed_moveLoops (setF u R.CLK_XIN_STATUS F.CLK_XIN_STATUS_XIN_A_LOST 1)
  refine ⟨_, hexec, ?_, by rw [mem_of_onlyLog hlog, hmoved.2, setF_mem, hmem]⟩
  rw [flagF_of_onlyRegs hlog.1 _ (by decide), flagF_of_onlyRegs hmoved.1 _ (by decide), flagF, getF_setF_same hs _ _ _ (by decide) (by decide)]
  rfl

/-- A loop that loses its lock. -/
def loopLost (s : State) (i : Nat) : State :=
  if flagF s (R.CLK_LOOP i) F.CLK_LOOP_LOCKED then incF (setF s (R.CLK_LOOP i) F.CLK_LOOP_LOCKED 0) (R.CLK_LOOP i) F.CLK_LOOP_UNLOCKS 1 else s

theorem onlyListed_loopLost (s : State) (i : Nat) : OnlyListed [R.CLK_LOOP i] s (loopLost s i) := by
  unfold loopLost
  split
  · exact ((onlyListed_refl _ s).setF_mem _ _ (List.mem_singleton.2 rfl)).setF_mem _ _ (List.mem_singleton.2 rfl)
  · exact onlyListed_refl _ s

theorem loopLost_sorted {s : State} (hs : mapSorted s.regs = true) (i : Nat) : mapSorted (loopLost s i).regs = true := by
  unfold loopLost
  split
  · exact setF_sorted (setF_sorted hs _ _ _) _ _ _
  · exact hs

theorem locked_loopLost {s : State} (hs : mapSorted s.regs = true) (i : Nat) : flagF (loopLost s i) (R.CLK_LOOP i) F.CLK_LOOP_LOCKED = false := by
  unfold loopLost
  split
  · rw [flagF, incF, getF_setF_field (setF_sorted hs _ _ _) _ _ _ _ (by decide) (by decide) (by decide), getF_setF_same hs _ _ _ (by decide) (by decide)]
    rfl
  · next h => exact Bool.eq_false_iff.2 h

theorem locked_loopLost_of_unlocked {s : State} (hs : mapSorted s.regs = true) {i : Nat} (j : Nat) (h : flagF s (R.CLK_LOOP i) F.CLK_LOOP_LOCKED = false) :
    flagF (loopLost s j) (R.CLK_LOOP i) F.CLK_LOOP_LOCKED = false := by
  by_cases hij : R.CLK_LOOP i = R.CLK_LOOP j
  · rw [hij, locked_loopLost hs]
  · rw [flagF_of_onlyRegs (onlyListed_loopLost s j).1 _ (by simpa using hij), h]

/-- Loops that lose their lock one after another. -/
def loopsLost (s : State) (l : List Nat) : State := l.foldl loopLost s

theorem loopsLost_sorted {s : State} (hs : mapSorted s.regs = true) (l : List Nat) : mapSorted (loopsLost s l).regs = true :=
  List.foldlRecOn (motive := fun t : State => mapSorted t.regs = true) l _ hs fun _ ht _ _ => loopLost_sorted ht _

theorem loopsLost_with (s : State) (l : List Nat) : loopsLost s l = { s with regs := (loopsLost s l).regs } :=
  List.foldlRecOn (motive := fun t : State => t = { s with regs := t.regs }) l _ rfl fun t ht i _ => by rw [(onlyListed_loopLost t i).2, ht]

theorem rd_loopsLost_other (s : State) {l : List Nat} {a : Nat} (ha : ∀ i ∈ l, a ≠ R.CLK_LOOP i) : rd (loopsLost s l) a = rd s a :=
  List.foldlRecOn (motive := fun t => rd t a = rd s a) l _ rfl fun t ht i hi => ((onlyListed_loopLost t i).1 a (by simpa using ha i hi)).trans ht

theorem locked_loopsLost {s : State} (hs : mapSorted s.regs = true) {l : List Nat} {i : Nat} (hi : i ∈ l) : flagF (loopsLost s l) (R.CLK_LOOP i) F.CLK_LOOP_LOCKED = false := by
  induction l using List.reverseRecOn with
  | nil => cases hi
  | append_singleton l j ih =>
    have hlast : loopsLost s (l ++ [j]) = loopLost (loopsLost s l) j := by rw [loopsLost, List.foldl_append]; rfl
    rw [hlast]
    rcases List.mem_append.1 hi with hl | hj
    · exact locked_loopLost_of_unlocked (loopsLost_sorted hs l) j (ih hl)
    · rw [List.mem_singleton.1 hj, locked_loopLost (loopsLost_sorted hs l)]

/-- XIN_B shown as lost, and no measurement of its return pending. -/
def xinBGone (s : State) : State := setF { s with pwr := { s.pwr with xinBBack := none } } R.CLK_XIN_STATUS F.CLK_XIN_STATUS_XIN_B_LOST 1

theorem loseXinB_eq (s : State) : loseXinB s = loopsLost (xinBGone s) (List.range 10) := by
  unfold loseXinB loopsLost xinBGone
  rfl

theorem xinBGone_with (s : State) : xinBGone s = { s with regs := (xinBGone s).regs, pwr := { s.pwr with xinBBack := none } } := by
  generalize hu : ({ s with pwr := { s.pwr with xinBBack := none } } : State) = u
  rw [xinBGone, hu]
  exact (((onlyListed_refl [R.CLK_XIN_STATUS] u).setF_mem _ _ (List.mem_singleton.2 rfl)).2).trans (by rw [← hu])

theorem xinBLost_shows {s : State} {p : Option Int} {i : Nat} (h : Inv s) (hstage : 1 ≤ s.boot.stage) (hlost : xinLost p = true)
    (hnew : flagF s R.CLK_XIN_STATUS F.CLK_XIN_STATUS_XIN_B_LOST = false) (hi : i < 10) : Completes (.xinBLost p) s fun t =>
      flagF t R.CLK_XIN_STATUS F.CLK_XIN_STATUS_XIN_B_LOST = true ∧ flagF t (R.CLK_LOOP i) F.CLK_LOOP_LOCKED = false ∧ t = { s with regs := t.regs, pwr := { s.pwr with xinBBack := none } } := by
  have hexec : exec (.xinBLost p) s = .next (loopsLost (xinBGone (showPpm s F.CLK_XIN_STATUS_XIN_B_PPM p)) (List.range 10)) := by
    show execXinBLost p s = _
    rw [execXinBLost, done_onlyIf (by simp [hstage, hlost, hnew]), loseXinB_eq]
  have hs := showPpm_sorted (stays_of_inv h).regs.1 F.CLK_XIN_STATUS_XIN_B_PPM p
  have hu := (onlyListed_showPpm s F.CLK_XIN_STATUS_XIN_B_PPM p).2
  generalize showPpm s F.CLK_XIN_STATUS_XIN_B_PPM p = u at hexec hs hu
  have hgone : flagF (xinBGone u) R.CLK_XIN_STATUS F.CLK_XIN_STATUS_XIN_B_LOST = true := by
    rw [xinBGone, flagF, getF_setF_same (by exact hs) _ _ _ (by decide) (by decide)]
    rfl
  have hsorted : mapSorted (xinBGone u).regs = true := by
    unfold xinBGone
    exact setF_sorted (by exact hs) _ _ _
  have hwith := xinBGone_with u
  generalize xinBGone u = w at hexec hgone hsorted hwith
  have hapart : ∀ i ∈ List.range 10, R.CLK_XIN_STATUS ≠ R.CLK_LOOP i := by decide
  refine ⟨_, hexec, ?_, locked_loopsLost hsorted (List.mem_range.2 hi), ?_⟩
  · rw [flagF, getF, rd_loopsLost_other w hapart, ← getF, ← flagF, hgone]
  · rw [loopsLost_with, hwith, hu]

/-! #### The fast oscillator and the loops -/

theorem oscReference_lt (s : State) : oscReference s < 4 := by
  unfold oscReference
  split
  · decide
  split
  · split <;> decide
  · decide

theorem ppm16_lt (e : Int) : ppm16 e < 65536 := by
  unfold ppm16 twos16
  omega

/-- A measurement of the fast oscillator shown. -/
def oscShown (s : State) (r : Nat) (e : Int) : State := setF (setF s R.CLK_OSC F.CLK_OSC_REF r) R.CLK_OSC F.CLK_OSC_ERROR_PPM (ppm16 e)

theorem onlyListed_oscShown (s : State) (r : Nat) (e : Int) : OnlyListed [R.CLK_OSC] s (oscShown s r e) :=
  ((onlyListed_refl _ s).setF_mem _ _ (List.mem_singleton.2 rfl)).setF_mem _ _ (List.mem_singleton.2 rfl)

/-- The trim code after a measurement with this error: the nearest step where it is above 500 ppm (R636). -/
def trimAfter (s : State) (e : Int) : Nat := (max (-300) (min 300 (trimCode s - (e + (if e ≥ 0 then 100 else -100)).tdiv 200)) % 1024).toNat

theorem trimAfter_lt (s : State) (e : Int) : trimAfter s e < 1024 := by
  unfold trimAfter
  omega

/-- A trim of the oscillator that is counted. -/
def trimmed (s : State) (n : Nat) : State := incF (setF s R.CLK_OSC F.CLK_OSC_TRIM n) R.CLK_OSC F.CLK_OSC_TRIMS 1

theorem trimOsc_eq (s : State) (e : Int) : trimOsc s e = if 500 < e ∨ e < -500 then trimmed s (trimAfter s e) else s := by
  unfold trimOsc trimmed trimAfter
  simp only [Bool.or_eq_true, decide_eq_true_eq, gt_iff_lt]

theorem onlyListed_trimOsc (s : State) (e : Int) : OnlyListed [R.CLK_OSC] s (trimOsc s e) := by
  rw [trimOsc_eq]
  split
  · exact ((onlyListed_refl _ s).setF_mem _ _ (List.mem_singleton.2 rfl)).setF_mem _ _ (List.mem_singleton.2 rfl)
  · exact onlyListed_refl _ s

theorem trim_trimOsc {s : State} (hs : mapSorted s.regs = true) (e : Int) :
    getF (trimOsc s e) R.CLK_OSC F.CLK_OSC_TRIM = if 500 < e ∨ e < -500 then trimAfter s e else getF s R.CLK_OSC F.CLK_OSC_TRIM := by
  rw [trimOsc_eq]
  split
  · rw [trimmed, incF, getF_setF_field (setF_sorted hs _ _ _) _ _ _ _ (by decide) (by decide) (by decide), getF_setF_same hs _ _ _ (by decide) (by decide)]
    exact Nat.mod_eq_of_lt (trimAfter_lt s e)
  · rfl

/-- A trim leaves the fields of CLK_OSC between the code and its count. -/
theorem getF_trimOsc {s : State} (hs : mapSorted s.regs = true) (e : Int) {f : RF} (hf : F.CLK_OSC_TRIM.hi < f.lo ∧ f.hi < F.CLK_OSC_TRIMS.lo) : getF (trimOsc s e) R.CLK_OSC f = getF s R.CLK_OSC f := by
  obtain ⟨hlow, hhigh⟩ := hf
  rw [trimOsc_eq]
  split
  · rw [trimmed, incF, getF_setF_field (setF_sorted hs _ _ _) _ _ _ _ (by decide) (by decide) (by omega), getF_setF_field hs _ _ _ _ (by decide) (by decide) (by omega)]
  · rfl

theorem oscTrimMeasurement_shows {s : State} (e : Int) (h : Inv s) (hstage : 1 ≤ s.boot.stage) (href : oscReference s ≠ 0) (hnone : s.cmd.cmds = []) : Completes (.oscTrimMeasurement e) s fun t =>
    getF t R.CLK_OSC F.CLK_OSC_REF = oscReference s ∧ getF t R.CLK_OSC F.CLK_OSC_ERROR_PPM = ppm16 e ∧
    getF t R.CLK_OSC F.CLK_OSC_TRIM = (if 500 < e ∨ e < -500 then trimAfter s e else getF s R.CLK_OSC F.CLK_OSC_TRIM) ∧
    OnlyRegs [R.CLK_OSC] s t ∧ t = { s with regs := t.regs, pwr := { s.pwr with oscRef := none } } := by
  have hs : mapSorted s.regs = true := (stays_of_inv h).regs.1
  generalize hu : ({ s with pwr := { s.pwr with oscRef := none } } : State) = u
  have hregs : u.regs = s.regs := by rw [← hu]
  have hcmds : u.cmd.cmds = [] := by rw [← hu, ← hnone]
  have hsu : mapSorted u.regs = true := by rw [hregs]; exact hs
  have hshown := onlyListed_oscShown u (oscReference s) e
  have htrim := onlyListed_trimOsc (oscShown u (oscReference s) e) e
  have hleft : (trimOsc (oscShown u (oscReference s) e) e).cmd.cmds = [] := by rw [htrim.2, hshown.2, ← hcmds]
  have hexec : exec (.oscTrimMeasurement e) s = .next (trimOsc (oscShown u (oscReference s) e) e) := by
    show execOscTrimMeasurement e s = _
    rw [execOscTrimMeasurement]
    dsimp only
    rw [if_neg (by omega), if_neg (by simpa using href), hu, ← oscShown, hleft, List.foldl_nil, done]
  have hsorted : mapSorted (oscShown u (oscReference s) e).regs = true := setF_sorted (setF_sorted hsu _ _ _) _ _ _
  have hcode : getF (oscShown u (oscReference s) e) R.CLK_OSC F.CLK_OSC_TRIM = getF s R.CLK_OSC F.CLK_OSC_TRIM := by
    rw [oscShown, getF_setF_field (setF_sorted hsu _ _ _) _ _ _ _ (by decide) (by decide) (by decide), getF_setF_field hsu _ _ _ _ (by decide) (by decide) (by decide), getF, getF, rd_of_regs hregs]
  have hafter : trimAfter (oscShown u (oscReference s) e) e = trimAfter s e := by rw [trimAfter, trimAfter, trimCode, trimCode, hcode]
  refine ⟨_, hexec, ?_, ?_, by rw [trim_trimOsc hsorted, hafter, hcode], fun a ha => ?_, ?_⟩
  · rw [getF_trimOsc hsorted e (by decide), oscShown, getF_setF_field (setF_sorted hsu _ _ _) _ _ _ _ (by decide) (by decide) (by decide), getF_setF_same hsu _ _ _ (by decide) (by decide)]
    exact Nat.mod_eq_of_lt (oscReference_lt s)
  · rw [getF_trimOsc hsorted e (by decide), oscShown, getF_setF_same (setF_sorted hsu _ _ _) _ _ _ (by decide) (by decide)]
    exact Nat.mod_eq_of_lt (ppm16_lt e)
  · rw [htrim.1 a ha, hshown.1 a ha, rd_of_regs hregs]
  · rw [htrim.2, hshown.2, ← hu]

theorem exec_clkSetWrite {s : State} {i : Nat} (v : Word) (hi : i < 7) (hstage : 1 ≤ s.boot.stage) : exec (.clkSetWrite i v) s = .next (writeClkSet s i v) := by
  show execClkSetWrite i v s = _
  rw [execClkSetWrite, done_onlyIf (by simp [hi, hstage])]

/-- A loop's setting taken, to wait for its lock. -/
def settingTaken (s : State) (i f : Nat) : State := setF (setF s (R.CLK_SET i) F.CLK_SET_FREQ_MHZ f) (R.CLK_LOOP i) F.CLK_LOOP_PENDING 1

theorem onlyListed_settingTaken (s : State) (i f : Nat) : OnlyListed [R.CLK_SET i, R.CLK_LOOP i] s (settingTaken s i f) := ((onlyListed_refl _ s).setF_mem _ _ (by simp)).setF_mem _ _ (by simp)

theorem clkSetWrite_pending {s : State} {i : Nat} {v : Word} (h : Inv s) (hi : i < 7) (hstage : 1 ≤ s.boot.stage) (hlow : (loopRange i).1 ≤ fld v 15 0) (hhigh : fld v 15 0 ≤ (loopRange i).2) :
    Completes (.clkSetWrite i v) s fun t =>
      getF t (R.CLK_SET i) F.CLK_SET_FREQ_MHZ = fld v 15 0 ∧ getF t (R.CLK_LOOP i) F.CLK_LOOP_PENDING = 1 ∧ OnlyRegs [R.CLK_SET i, R.CLK_LOOP i] s t ∧ t = { s with regs := t.regs } := by
  have hs : mapSorted s.regs = true := (stays_of_inv h).regs.1
  have hwrite : writeClkSet s i v = settingTaken s i (fld v 15 0) := by
    rw [writeClkSet]
    dsimp only
    rw [if_pos (by simp [hlow, hhigh]), settingTaken]
  have hexec := exec_clkSetWrite v hi hstage
  rw [hwrite] at hexec
  have hapart : R.CLK_SET i ≠ R.CLK_LOOP i := by unfold R.CLK_SET R.CLK_LOOP; omega
  refine ⟨_, hexec, ?_, ?_, onlyListed_settingTaken s i _⟩
  · rw [settingTaken, getF_setF_other _ _ _ _ hapart, getF_setF_same hs _ _ _ (by decide) (by decide)]
    exact Nat.mod_eq_of_lt (Nat.mod_lt _ (by decide))
  · rw [settingTaken, getF_setF_same (setF_sorted hs _ _ _) _ _ _ (by decide) (by decide)]
    rfl

theorem clkSetWrite_refused {s : State} {i : Nat} {v : Word} (hi : i < 7) (hstage : 1 ≤ s.boot.stage) (hout : fld v 15 0 < (loopRange i).1 ∨ (loopRange i).2 < fld v 15 0) :
    Completes (.clkSetWrite i v) s fun t => t = refuseAs s (R.CLK_SET i, 8, v.toNat) ∧ rd t (R.CLK_SET i) = rd s (R.CLK_SET i) := by
  have hwrite : writeClkSet s i v = refuseAs s (R.CLK_SET i, 8, v.toNat) := by
    rw [writeClkSet]
    dsimp only
    rw [if_neg (by simp only [Bool.and_eq_true, decide_eq_true_eq]; omega)]
  have hexec := exec_clkSetWrite v hi hstage
  rw [hwrite] at hexec
  have hlog : OnlyLog s (refuseAs s (R.CLK_SET i, 8, v.toNat)) := onlyLog_logAccess _ _ _ _ _ _ _
  have hset : R.CLK_SET i ∉ logRegs := by
    simp only [logRegs, List.mem_cons, List.not_mem_nil, or_false, not_or]
    unfold R.CLK_SET R.LOG_STATUS R.LOG_HOST_EVENTS R.LOG_LOST_TOTAL
    omega
  exact ⟨_, hexec, rfl, hlog.1 _ hset⟩

/-! #### The power cap -/

/-- The supply's readings shown. -/
def inputShown (s : State) (w a v : Nat) : State := setF (setF (setF s R.PWR_INPUT F.PWR_INPUT_POWER_W w) R.PWR_INPUT F.PWR_INPUT_CURRENT a) R.PWR_INPUT F.PWR_INPUT_VOLTAGE v

theorem onlyListed_inputShown (s : State) (w a v : Nat) : OnlyListed [R.PWR_INPUT] s (inputShown s w a v) :=
  (((onlyListed_refl _ s).setF_mem _ _ (List.mem_singleton.2 rfl)).setF_mem _ _ (List.mem_singleton.2 rfl)).setF_mem _ _ (List.mem_singleton.2 rfl)

theorem powerW_inputShown {s : State} (hs : mapSorted s.regs = true) {w : Nat} (hw : w < 65536) (a v : Nat) : getF (inputShown s w a v) R.PWR_INPUT F.PWR_INPUT_POWER_W = w := by
  rw [inputShown, getF_setF_field (setF_sorted (setF_sorted hs _ _ _) _ _ _) _ _ _ _ (by decide) (by decide) (by decide), getF_setF_field (setF_sorted hs _ _ _) _ _ _ _ (by decide) (by decide) (by decide),
    getF_setF_same hs _ _ _ (by decide) (by decide)]
  exact Nat.mod_eq_of_lt hw

/-- The readings shown leave the cap in force. -/
theorem capNow_inputShown {s : State} (hs : mapSorted s.regs = true) (w a v : Nat) : capNow (inputShown s w a v) = capNow s := by
  have hsingle : flagF (inputShown s w a v) R.PWR_INPUT F.PWR_INPUT_SINGLE_FEED = flagF s R.PWR_INPUT F.PWR_INPUT_SINGLE_FEED := by
    rw [flagF, flagF, inputShown, getF_setF_field (setF_sorted (setF_sorted hs _ _ _) _ _ _) _ _ _ _ (by decide) (by decide) (by decide),
      getF_setF_field (setF_sorted hs _ _ _) _ _ _ _ (by decide) (by decide) (by decide), getF_setF_field hs _ _ _ _ (by decide) (by decide) (by decide)]
  obtain ⟨hregs, hrest⟩ := onlyListed_inputShown s w a v
  have hpwr : (inputShown s w a v).pwr = s.pwr := by rw [hrest]
  rw [capNow, capNow, hsingle, hpwr, getF_of_onlyRegs hregs _ (by decide)]

/-- Whether these samples exceed the cap in force (R670). -/
def overCap (s : State) (l : List Nat) : Bool := mean l > capNow s || mean (l.take 10) * 50 > capNow s * 51

/-- The throttling shown, and the time it has lasted. -/
def throttleShown (s : State) (on : Bool) (us : Nat) : State :=
  incF (setF { s with pwr := { s.pwr with throttleUs := us % 1000 } } R.PWR_CAP F.PWR_CAP_THROTTLED (b2n on)) R.PWR_CAP F.PWR_CAP_THROTTLE_MS (us / 1000)

theorem throttleShown_keeps (s : State) (on : Bool) (us : Nat) :
    OnlyRegs [R.PWR_CAP] s (throttleShown s on us) ∧ throttleShown s on us = { s with regs := (throttleShown s on us).regs, pwr := { s.pwr with throttleUs := us % 1000 } } := by
  unfold throttleShown
  generalize hu : ({ s with pwr := { s.pwr with throttleUs := us % 1000 } } : State) = u
  have hregs : u.regs = s.regs := by rw [← hu]
  obtain ⟨hcap, hrest⟩ : OnlyListed [R.PWR_CAP] u (incF (setF u R.PWR_CAP F.PWR_CAP_THROTTLED (b2n on)) R.PWR_CAP F.PWR_CAP_THROTTLE_MS (us / 1000)) :=
    ((onlyListed_refl _ u).setF_mem _ _ (List.mem_singleton.2 rfl)).setF_mem _ _ (List.mem_singleton.2 rfl)
  exact ⟨fun a ha => (hcap a ha).trans (rd_of_regs hregs a), hrest.trans (by rw [← hu])⟩

theorem throttled_throttleShown {s : State} (hs : mapSorted s.regs = true) (on : Bool) (us : Nat) : flagF (throttleShown s on us) R.PWR_CAP F.PWR_CAP_THROTTLED = on := by
  unfold throttleShown
  generalize hu : ({ s with pwr := { s.pwr with throttleUs := us % 1000 } } : State) = u
  have hsu : mapSorted u.regs = true := by rw [← hu]; exact hs
  rw [flagF, incF, getF_setF_field (setF_sorted hsu _ _ _) _ _ _ _ (by decide) (by decide) (by decide), getF_setF_same hsu _ _ _ (by decide) (by decide)]
  exact b2n_shown on (by decide)

/-- The last thousand samples of the power drawn, the newest first. -/
def samplesTaken (s : State) (w : Nat) : State := { s with pwr := { s.pwr with samples := (w :: s.pwr.samples).take 1000 } }

/-- What samples do once the readings are shown: idle cycles are inserted for the 100 µs of a sample that exceeds the cap. -/
def afterSample (s : State) (l : List Nat) : State := throttleShown s (overCap s l) (s.pwr.throttleUs + (if overCap s l then 100 else 0))

theorem exec_powerCapSample {s : State} (w a v : Nat) (hstage : 1 ≤ s.boot.stage) : exec (.powerCapSample w a v) s =
    .next (afterSample (inputShown (samplesTaken s w) (min 65535 (mean ((w :: s.pwr.samples).take 1000))) (min 65535 a) (min 65535 v)) ((w :: s.pwr.samples).take 1000)) := by
  show execPowerCapSample w a v s = _
  rw [execPowerCapSample, done_onlyIf (by simpa using hstage)]
  rfl

theorem powerCapSample_shows {s : State} (w a v : Nat) (h : Inv s) (hstage : 1 ≤ s.boot.stage) : Completes (.powerCapSample w a v) s fun t =>
    getF t R.PWR_INPUT F.PWR_INPUT_POWER_W = min 65535 (mean ((w :: s.pwr.samples).take 1000)) ∧ flagF t R.PWR_CAP F.PWR_CAP_THROTTLED = overCap s ((w :: s.pwr.samples).take 1000) ∧
    OnlyRegs [R.PWR_INPUT, R.PWR_CAP] s t ∧ t.pwr.samples = (w :: s.pwr.samples).take 1000 ∧ t = { s with regs := t.regs, pwr := t.pwr } := by
  have hs : mapSorted s.regs = true := (stays_of_inv h).regs.1
  have hexec := exec_powerCapSample w a v hstage
  have hcap : overCap (samplesTaken s w) ((w :: s.pwr.samples).take 1000) = overCap s ((w :: s.pwr.samples).take 1000) := rfl
  have hsu : mapSorted (samplesTaken s w).regs = true := hs
  have hu : samplesTaken s w = { s with pwr := (samplesTaken s w).pwr } := rfl
  have hregs : (samplesTaken s w).regs = s.regs := rfl
  have hsamples : (samplesTaken s w).pwr.samples = (w :: s.pwr.samples).take 1000 := rfl
  generalize (w :: s.pwr.samples).take 1000 = l at hexec hcap hsamples ⊢
  generalize samplesTaken s w = u at hexec hcap hsu hu hregs hsamples
  have hmean : min 65535 (mean l) < 65536 := by omega
  have hover : overCap (inputShown u (min 65535 (mean l)) (min 65535 a) (min 65535 v)) l = overCap u l := by rw [overCap, overCap, capNow_inputShown hsu]
  have hpower := powerW_inputShown hsu hmean (min 65535 a) (min 65535 v)
  obtain ⟨hinput, hrest⟩ := onlyListed_inputShown u (min 65535 (mean l)) (min 65535 a) (min 65535 v)
  have hsorted : mapSorted (inputShown u (min 65535 (mean l)) (min 65535 a) (min 65535 v)).regs = true := setF_sorted (setF_sorted (setF_sorted hsu _ _ _) _ _ _) _ _ _
  generalize inputShown u (min 65535 (mean l)) (min 65535 a) (min 65535 v) = x at hexec hover hpower hinput hrest hsorted
  rw [afterSample, hover, hcap] at hexec
  generalize x.pwr.throttleUs + (if overCap s l then 100 else 0) = us at hexec
  obtain ⟨hcapOnly, hall⟩ := throttleShown_keeps x (overCap s l) us
  refine ⟨_, hexec, ?_, throttled_throttleShown hsorted _ us, fun b hb => ?_, ?_, ?_⟩
  · rw [getF_of_onlyRegs hcapOnly _ (by decide), hpower]
  · obtain ⟨hb1, hb2⟩ : b ≠ R.PWR_INPUT ∧ b ≠ R.PWR_CAP := by simpa using hb
    rw [hcapOnly b (by simpa using hb2), hinput b (by simpa using hb1), rd_of_regs hregs]
  · rw [hall, hrest, ← hsamples]
  · rw [hall, hrest, hu]

/-! #### The slow buses -/

theorem exec_i2cBusTimeout {s : State} (hstage : 1 ≤ s.boot.stage) : exec .i2cBusTimeout s = .next { s with out := s.out ++ [⟨.i2c, 0, [], [], none⟩] } := by
  show execI2cBusTimeout s = _
  rw [execI2cBusTimeout, done_onlyIf (by simpa using hstage), send]

/-- The link of the management port going down, with its entry. -/
def mgmtLost (s : State) : State := { noteAt s (srcOf 0xF 0) 0x07 clsInfo with pwr := { s.pwr with mgmtDown := true } }

theorem exec_mgmtLinkSpeed {s : State} (m : Nat) (hstage : 1 ≤ s.boot.stage) : exec (.mgmtLinkSpeed m) s =
    .next (if m = 1000 then { s with pwr := { s.pwr with mgmtDown := false } } else if s.pwr.mgmtDown then s else mgmtLost s) := by
  show execMgmtLinkSpeed m s = _
  rw [execMgmtLinkSpeed, done_onlyIf (by simpa using hstage)]
  simp only [beq_iff_eq, mgmtLost]

theorem mgmtLinkSpeed_shows {s : State} (m : Nat) (hstage : 1 ≤ s.boot.stage) : Completes (.mgmtLinkSpeed m) s fun t => t.pwr = { s.pwr with mgmtDown := decide (m ≠ 1000) } ∧ t.mem = s.mem := by
  refine ⟨_, exec_mgmtLinkSpeed m hstage, ?_⟩
  by_cases hm : m = 1000
  · rw [if_pos hm, hm]
    exact ⟨rfl, rfl⟩
  rw [if_neg hm, decide_eq_true hm]
  by_cases hdown : s.pwr.mgmtDown = true
  · rw [if_pos hdown, ← hdown]
    exact ⟨rfl, rfl⟩
  · rw [if_neg hdown]
    have hmem : (mgmtLost s).mem = (noteAt s (srcOf 0xF 0) 0x07 clsInfo).mem := rfl
    exact ⟨rfl, hmem.trans (mem_of_onlyLog (onlyLog_noteAt s (srcOf 0xF 0) 0x07 clsInfo))⟩

/-- Settles O25. The loops' reference after a lost input and the nearest trim step are as assumption log 100 reads R634 and R636, the condition of THROTTLED is log 101's (both DEDUCED), and the
release of a bus as a message, and the management link held down and restored, log 102's (DESIGN CHOICE). -/
theorem clocksCapsAndBuses : Obligations.ClocksCapsAndBuses := by
  unfold Obligations.ClocksCapsAndBuses
  refine ⟨fun s p h hstage hlost hnew => xinALost_shows h hstage hlost hnew, fun s p i h hstage hlost hnew hi => xinBLost_shows h hstage hlost hnew hi,
    fun s e h hstage href hnone => oscTrimMeasurement_shows e h hstage href hnone, fun s i v h hi hstage hlow hhigh => clkSetWrite_pending h hi hstage hlow hhigh,
    fun s i v hi hstage hout => clkSetWrite_refused hi hstage hout, fun s w a v l h hstage hl => ?_, fun s hstage => exec_i2cBusTimeout hstage, fun s m hstage => mgmtLinkSpeed_shows m hstage⟩
  subst hl
  exact powerCapSample_shows w a v h hstage

end Sys2Proof.Machine
end
